-- ==== Sys2Proof/Word.lean ====
section
/-! DEFINITION. The word types of the VW1: bytes, the words of its structures, the 128-bit command
word (R69), and the sparse maps in which State keeps anything that has many like parts.
Multi-byte fields are little-endian (R4); bit 0 is the least significant bit (R4). -/

namespace Sys2Proof

abbrev Byte := BitVec 8
abbrev W16 := BitVec 16
abbrev W32 := BitVec 32
abbrev W64 := BitVec 64
/-- A lap-program command (R69). -/
abbrev CmdWord := BitVec 128

/-- A sparse map by number: pairs in strictly rising key order, none equal to the map's default.
Its operations are in Machine/Store.lean. -/
abbrev KV (α : Type) := List (Nat × α)

/-- Sparse memory: byte cells (Host.Cell) in strictly rising address order; an address that is not
listed reads as zero (every memory is wiped with zeros at bring-up, R379 order 8, R390 order 3). -/
abbrev Memory := List (Nat × BitVec 8)

end Sys2Proof
end

