-- ==== Sys2Proof/Syntax.lean ====
section
/-! DEFINITION. The commands of the VW1, one constructor of `Instr` per row of spec/opcode_table.json,
with the operands of each. Operands that only the surroundings can know (a reading, a measured
duration, whether a host read succeeded, which word failed parity) are operands of the command. -/

namespace Sys2Proof

/-! ## Operands of the cores' commands -/

/-- A presented core (R9): cluster number y * 24 + x (R34) and core 0 to 15. -/
structure CoreRef where
  cluster : Nat
  core : Nat
deriving DecidableEq, Repr

/-- The place of a scratch word: bank 0-31, granule 0-1023 of the bank, 32-bit word 0-15 (R87, R90). -/
structure WordRef where
  bank : Nat
  granule : Nat
  word : Nat
deriving DecidableEq, Repr

/-- Requesters of a bank (R89). -/
inductive Requester where
  | matrix | array | vector | dma | network
deriving DecidableEq, Repr

/-- A bank conflict seen while a command runs (R89). -/
structure Conflict where
  bank : Nat
  other : Requester
deriving DecidableEq, Repr

/-- A metered event of a heavy unit: the entry of energy_weights in pJ, and whether the unit is on the core rail, by whose
voltage the entry is scaled (R344). -/
structure Metered where
  pj : Nat
  core : Bool
deriving DecidableEq, Repr

/-- What befalls one command of a core while it runs: the words that fail parity (R90), the bank
conflicts (R89), its metered events in their order (R344), the cache
slots (set * 4 + way) whose tag fails parity (R98), and its faulty cells: for ARR_WRITE the (row, bit-column)
pairs that still mismatch after one rewrite (R122), for ARR_MVM the (array, weight column) pairs whose
weight-scale register fails parity (R133). -/
structure CoreEnv where
  parity : List WordRef := []
  conflicts : List Conflict := []
  events : List Metered := []
  tags : List Nat := []
  cells : List (Nat × Nat) := []
deriving DecidableEq, Repr

/-- The engines of a core that have queues (R66). -/
inductive Engine where
  | matrix | array | vector | dma
deriving DecidableEq, Repr

/-- DESC (R71). -/
structure DescArgs where
  index : BitVec 6
  desc : BitVec 64
deriving DecidableEq, Repr

/-- HURDLE (R75); the form is the constructor's. -/
structure HurdleArgs where
  hurdle : BitVec 12
  checkpoint : Bool
  verdict : Bool
  swapMask : BitVec 64
deriving DecidableEq, Repr

/-- MMA (R77). -/
structure MmaArgs where
  async : Bool
  a : BitVec 6
  w : BitVec 6
  out : BitVec 6
  scale : BitVec 6
  m : BitVec 16
  k : BitVec 16
  n : BitVec 16
  accumulate : Bool
  rounding : BitVec 2
deriving DecidableEq, Repr

/-- ARR_MVM (R118). -/
structure ArrMvmArgs where
  async : Bool
  inp : BitVec 6
  out : BitVec 6
  scale : BitVec 6
  firstArray : BitVec 5
  count : BitVec 6
  rowsLast : BitVec 9
  group : Bool
  m : BitVec 16
  accumulate : Bool
  canary : BitVec 6
  fbSkip : BitVec 8
  wfmt : BitVec 2
  env : BitVec 6
deriving DecidableEq, Repr

/-- A place of a stack in address space 0 or 2 (R100): a block's granule, or a weight-set handle's. -/
inductive StackPlace where
  | phys (block : BitVec 8) (granule : BitVec 31)
  | set (handle : BitVec 16) (granule : BitVec 31)
deriving DecidableEq, Repr

/-- ARR_WRITE (R120). -/
structure ArrWriteArgs where
  async : Bool
  src : BitVec 6
  array : BitVec 5
  firstRow : BitVec 9
  rows : BitVec 9
  verify : Bool
  persist : Bool
  repair : StackPlace
  scale : BitVec 6
deriving DecidableEq, Repr

/-- ATTN (R179); the op is the constructor's. -/
structure AttnArgs where
  async : Bool
  q : BitVec 6
  out : BitVec 6
  lane : BitVec 6
  work : BitVec 6
  stream : BitVec 19
  group : BitVec 4
  dim : Bool
  half : Bool
  scale : BitVec 16
  window : BitVec 20
  lanes : BitVec 12
  kvbuf : BitVec 6
  split : Bool
  parts : BitVec 5
  part : BitVec 5
  sel : BitVec 2
deriving DecidableEq, Repr

/-- VEC (R82); the function is the constructor's. -/
structure VecArgs where
  async : Bool
  dst : BitVec 6
  a : BitVec 6
  b : BitVec 6
  c : BitVec 6
  rows : BitVec 16
  length : BitVec 16
  imm : BitVec 16
  param : BitVec 11
deriving DecidableEq, Repr

/-- The remote side of a DMA_COPY of form 0 or 1 (R100): spaces 0, 1 and 2. -/
inductive DmaStack where
  | phys (block : BitVec 8) (granule : BitVec 31)
  | session (session : BitVec 12) (vgranule : BitVec 42)
  | set (handle : BitVec 16) (granule : BitVec 31)
deriving DecidableEq, Repr

/-- DMA_COPY, forms 0 and 1 (R99, R100). -/
structure DmaStackArgs where
  async : Bool
  loc : BitVec 6
  tentative : Bool
  counter : BitVec 4
  remote : DmaStack
deriving DecidableEq, Repr

/-- DMA_COPY, form 2 (R100): another core's descriptor. -/
structure DmaCoreArgs where
  async : Bool
  loc : BitVec 6
  counter : BitVec 4
  cluster : BitVec 10
  core : BitVec 4
  desc : BitVec 6
deriving DecidableEq, Repr

/-- DMA_COPY, forms 3 and 4 (R100): an edge channel. -/
structure DmaEdgeArgs where
  async : Bool
  loc : BitVec 6
  counter : BitVec 4
  channel : BitVec 8
  granule : BitVec 31
deriving DecidableEq, Repr

/-- CGATHER (R96). -/
structure GatherArgs where
  async : Bool
  idx : BitVec 6
  dst : BitVec 6
  table : StackPlace
  rowBytes : BitVec 14
  count : BitVec 16
  counter : BitVec 4
deriving DecidableEq, Repr

/-- Functions of VEC (R83). -/
inductive VecFn where
  | copy | add | sub | mul | fma | max | min | scale | exp | recip | rsqrt | silu | gelu | sigmoid
  | tanh | sum | maxr | sumsq | rmsnorm | layernorm | softmax | rope | quant | dequant | topk
  | outlier | check
deriving DecidableEq, Repr

/-- A lap-program command, decoded (R70). What a core holds in its sequencer when issue waits. -/
inductive CoreCmd where
  | nop
  | desc (a : DescArgs)
  | hurdle (form : BitVec 2) (a : HurdleArgs)
  | fence (engines : BitVec 4)
  | bankPower (on : Bool) (mask : BitVec 32)
  | mma (a : MmaArgs)
  | arrMvm (a : ArrMvmArgs)
  | arrWrite (a : ArrWriteArgs)
  | attn (op : BitVec 2) (a : AttnArgs)
  | vec (fn : VecFn) (a : VecArgs)
  | dmaLoad (a : DmaStackArgs)
  | dmaStore (a : DmaStackArgs)
  | dmaCore (a : DmaCoreArgs)
  | dmaEdgeIn (a : DmaEdgeArgs)
  | dmaEdgeOut (a : DmaEdgeArgs)
  | dmaWait (counter : BitVec 4) (threshold : BitVec 12)
  | gather (a : GatherArgs)
  | cinval
deriving DecidableEq, Repr

/-! ## The lap program a load carries -/

/-- One chain of a core's chain table (R119). -/
structure Chain where
  first : Nat
  count : Nat
deriving DecidableEq, Repr

/-- What the lap program carries for one core of the shape (R25, R88, R119, R131, R152, R126):
clusters and cores are counted from the rectangle's origin. -/
structure CoreProgram where
  dx : Nat
  dy : Nat
  core : Nat
  /-- The core-count variant this belongs to: 16, 15 or 14 (R59). -/
  variant : Nat := 16
  even : List CmdWord
  odd : List CmdWord := []
  cacheBanks : Nat := 0
  offBanks : List Nat := []
  chains : List Chain := []
  precision : List (BitVec 128) := []
  staticLists : List (Nat × List Nat) := []
  envelopes : List (W32 × W32) := []
deriving DecidableEq, Repr

/-- One power-token vector (R343): phase, cluster counted from the origin, turn, vector. -/
structure TokenVector where
  odd : Bool
  phase : Nat
  dx : Nat
  dy : Nat
  vec : BitVec 64
deriving DecidableEq, Repr

/-- A stage-time model of one share variant (R263). -/
structure StageModel where
  stage : Nat
  variant : Nat
  a : Int
  b : Int
  c : Int
  d : Int
deriving DecidableEq, Repr

/-- The initial contents of one array (R136): rows of 64 bytes and weight scales. A persistent array's repair source; for
an array of a reload region the source of what it holds at the start of an even lap, and of an odd one where that is
another (R126, R227). -/
structure ArrayImage where
  dx : Nat
  dy : Nat
  core : Nat
  array : Nat
  wfmt : Nat
  persist : Bool
  rows : List (List Byte)
  scales : List W16
  repair : StackPlace
  odd : Option StackPlace := none
deriving DecidableEq, Repr

/-- What a load's verify and calibration find in the arrays of its partition (R136): cells that still mismatch after one
rewrite, as (array of the module, row, bit-column), and converters that fail the residual check, as (array,
bit-column). -/
structure LoadFaults where
  cells : List (Nat × Nat × Nat) := []
  converters : List (Nat × Nat) := []
deriving DecidableEq, Repr

/-- The end of a load: the partition, and what the verify and the calibration have found. -/
structure LoadEnd where
  part : Nat
  faults : LoadFaults := {}
deriving DecidableEq, Repr

/-- What the starter writes into a lap-input area of a core (R28, R38 order 1, R159, R180, R217): the lane
table, the lane adapter table, the lap's input tokens, or the residual rows of one QUANT site. -/
inductive InputKind where
  | laneTable | adapters | tokens
  | residual (site : Nat) (elements : Nat)
deriving DecidableEq, Repr

/-- One lap-input area of a core: a paired area (R71, R73) whose two halves take turns (R44). Clusters are
counted from the rectangle's origin, as in the core's program. -/
structure InputArea where
  dx : Nat
  dy : Nat
  core : Nat
  kind : InputKind
  desc : W64
deriving DecidableEq, Repr

/-- The figures and contents of a Kwaic image, as the loader reads them (R28, R29, R59, R88, R136,
R170, R194, R216, R228, R263, R273, R296, R334). The manual gives no byte layout of the image. -/
structure LapProgram where
  signatureOk : Bool
  measurement : List Byte
  width : Nat
  height : Nat
  hurdles : Nat
  checkpoints : List Nat
  jobHurdles : List Nat
  segmentNs : List Nat
  nominalLapNs : Nat
  variants : List Nat
  writeMapOk : Bool
  cores : List CoreProgram
  tokens : List TokenVector
  lanes : Nat
  prefillMax : Nat
  /-- The largest block of a lane, in positions (R183, R186). -/
  largestBlock : Nat := 0
  maxDraft : Nat
  shareVariants : BitVec 32
  stages : Nat
  models : List StageModel
  vocabulary : Nat
  widenReserveNs : Nat
  flipGapNs : Nat
  slotShapes : List (Nat × Nat)
  adapterShape : Option Nat
  /-- Frames of the stack image: block of the shape, first frame, frames (R194). Blocks of the shape are
  counted from its origin, along x first. -/
  claims : List (Nat × Nat × Nat)
  /-- Contents of the stack image: block of the shape, byte of its stack, bytes. -/
  stackImage : List (Nat × Nat × List Byte)
  arrays : List ArrayImage
  streamWriters : List (Nat × Nat)
  /-- Lap-input areas of the cores (R28). -/
  inputs : List InputArea := []
deriving DecidableEq, Repr

/-! ## Operands of the other commands -/

/-- Causes of a sequencer's hold (R55). -/
inductive StallCause where
  | pacer | memory | network | remote | none
deriving DecidableEq, Repr

/-- A Swiuth request as it reached the module (R470, R471): the management session, the sequence
number, whether the tag verified, whether the request rate of R483 is exceeded and whether eight
requests are already in flight (R469). -/
structure Rq where
  session : Nat
  seq : Nat
  tagOk : Bool := true
  overRate : Bool := false
  inFlightFull : Bool := false
deriving DecidableEq, Repr

/-- How a DMA transfer ends (R101, R103): the granules of the area that met an uncorrectable stack
error, those that met a correctable one (R206, R232), and whether the remote module or the host refused it. -/
structure DmaEnd where
  bad : List Nat := []
  corrected : List Nat := []
  refused : Bool := false
deriving DecidableEq, Repr

/-- What the LATE_WRITE of R105 names. -/
inductive DrainTarget where
  | bank (at_ : CoreRef) (bank : Nat)
  | block (block : Nat)
  | partition (p : Nat)
deriving DecidableEq, Repr

/-- One position sampled (R264): the logits of the vocabulary, FP32, by token ID. -/
structure SampleIn where
  logits : List W32
deriving DecidableEq, Repr

/-- The kind of a ring (R238). -/
inductive RingKind where
  | submission | completion
deriving DecidableEq, Repr

/-- A doorbell write (R239, R457): the value and whether it was one aligned 32-bit write. -/
structure Doorbell where
  value : W32
  aligned : Bool := true
deriving DecidableEq, Repr

/-- One run of a placement list (R209). -/
structure Placement where
  first : Nat
  pieces : Nat
  block : Nat
deriving DecidableEq, Repr

/-- The parts of a bundle that its signature covers (R210). -/
structure BundleBody where
  headerBytes : List Byte
  digests : List (List Byte)
  placements : List Placement
deriving DecidableEq, Repr

/-- The parts of a bundle read at order 1 of R220. -/
structure BundleHead extends BundleBody where
  signature : List Byte
deriving DecidableEq, Repr

/-- How a restore's read-back ends (R203, R204). -/
inductive RestoreEnd where
  | ok | hostError | digestMismatch
deriving DecidableEq, Repr

/-- The result of a chunk read (R221). -/
inductive ChunkIn where
  | hostError
  | bytes (data : List Byte)
deriving DecidableEq, Repr

/-- The end of a flip gap (R227): its length, and the cells that still mismatch after one rewrite, as (array of the
module, row, bit-column). -/
structure FlipGap where
  ns : Nat
  cells : List (Nat × Nat × Nat) := []
deriving DecidableEq, Repr

/-- The result of a refetch (R232, R233). -/
inductive RefetchEnd where
  | bytes (data : List Byte)
  | noSource
deriving DecidableEq, Repr

/-- Why a port leaves the UP states or retries (R290, R291). -/
inductive LaneEvent where
  | lane | eightRetries | retry
deriving DecidableEq, Repr

/-- One lane of a job's lane table, as the root sends it in the clear of hurdle 0 (R297). -/
structure JobLane where
  lane : Nat
  session : Nat
  p0 : Nat
  block : Nat
  prefill : Bool
  /-- Lap inputs of the lane: the token IDs of its block, and its adapter set. -/
  tokens : List Nat
  adapter : Option Nat
deriving DecidableEq, Repr

/-- Kinds of job synchronization message (R292, R296, R297; a retrain's suspension of timers, R393). An
arrival's abort bits come with the status of their cause. -/
inductive JobMsgKind where
  | arrival (hurdle : Nat) (replay : Bool) (aborts : List (Nat × Nat))
  | clear (hurdle : Nat) (repeat_ : Bool) (mark : Nat) (lanes : List JobLane)
  | verdict (replay : Bool) (aborts : List Nat)
  | wave (session : Nat)
  | flip (slot : Nat) (set : Nat) (policy : Nat) (lap : Nat)
  | suspend (on : Bool)
  | foreign
deriving DecidableEq, Repr

/-- A pair frame as received (R314, R315): over the bus or the Thaha ports, and whether it is the
second copy of a frame of the last 1 ms. -/
structure FrameIn where
  viaBus : Bool := true
  secondCopy : Bool := false
deriving DecidableEq, Repr

/-- A verdict (R39). -/
inductive Verdict where
  | commit | abort | replay
deriving DecidableEq, Repr

/-- The context of a mirrored submission ring and of its completion ring, as the twin has them (R309). -/
structure RingPair where
  ring : Nat
  context : List Byte
  completion : Nat
  completionContext : List Byte
  port : Nat
deriving DecidableEq, Repr

/-- A partition of the twin: its map entry, the measurement of its lap program, and those of its slots (R309). -/
structure TwinPart where
  partition : Nat
  map : Nat
  program : List Byte
  slots : List (List Byte)
deriving DecidableEq, Repr

/-- What the twin tells of its rings, its sides, and its settings in the ATTACH steps (R309, R330). -/
structure TwinConfig where
  rings : List Byte := []
  sides : List Byte := []
  ranges : List Byte := []
  interval : Nat := 0
  timeout : Nat := 0
  contexts : List RingPair := []
deriving DecidableEq, Repr

/-- What the twin tells of itself in the ATTACH steps, with its partitions (R309, R330). -/
structure TwinInfo extends TwinConfig where
  parts : List TwinPart := []
deriving DecidableEq, Repr

/-- What an ATTACH frame and the messages beside it bring: the result of its step, and the twin (R315, R318). -/
structure AttachBody where
  result : Nat
  twin : TwinInfo := {}
deriving DecidableEq, Repr

/-- What a fabric write brings (R298): its bytes, and the granules of it that are poisoned (R103). -/
structure FabricData where
  bytes : List Byte
  poisoned : List Nat := []
deriving DecidableEq, Repr

/-- One session's entry of a mirrored verdict (R320): its new length, whether it ends at the baton, the records of the
lap, and the children of FORKs that take effect at the baton. -/
structure MirrorSession where
  session : Nat
  len : Nat
  ended : Bool
  forks : List Nat
  records : List (Nat × List Byte)
deriving DecidableEq, Repr

/-- A shadow message (R321). -/
inductive ShadowBody where
  | entry (ring : Nat) (bytes : List Byte)
  | completion (ring : Nat) (slot : Nat) (phase : Bool) (bytes : List Byte)
deriving DecidableEq, Repr

/-- The power domains of a block, in the order of R333. -/
inductive Domain where
  | core | array | sram | transit | stackQ | stackP
deriving DecidableEq, Repr

/-- A sensor (R358): cluster pair or stack pair, sensor 0 or 1. -/
inductive SensorRef where
  | junction (cluster : Nat) (sensor : Nat)
  | stack (block : Nat) (sensor : Nat)
deriving DecidableEq, Repr

/-- One sensor's reading in 0.1 degree C; none = it does not answer (R358). -/
structure Reading where
  sensor : SensorRef
  value : Option Int
deriving DecidableEq, Repr

/-- A connector group's reading (R341): the ratio of measured to modelled drop in thousandths, as
the 1 s average, while the group carries at least 25 % of its rated current. -/
structure ConnReading where
  block : Nat
  group : Nat
  permille : Nat
  judged : Bool
deriving DecidableEq, Repr

/-- What the networks have measured over the millisecond of a current report (R305, R306): for each link its VC0 and VC1
loads each way, waits of VC1 on owned links in ns, high-priority messages beyond the quarter (R283), for each Geanna
port the codewords corrected, and the frames sent again over the pair bus (R314). -/
structure NetSample where
  loads : List (Nat × List Nat)
  vc1WaitNs : Nat
  hpWaits : Nat
  corrected : List (Nat × Nat)
  busRetries : Nat := 0
deriving DecidableEq, Repr

/-- One domain's averages of a current report (R342). -/
structure DomainReading where
  current : Nat
  voltage : Nat
  droop : Nat
deriving DecidableEq, Repr

/-- What a current report gives for its millisecond beside the module's input (R342): the averages of domains, each with
its block and its number, and the networks' figures. -/
structure MsReport where
  domains : List (Nat × Nat × DomainReading)
  net : NetSample
deriving DecidableEq, Repr

/-- The causes of a power-fail (R350, R513). -/
inductive PowerFailCause where
  | underVoltage | overVoltage | overCurrent
deriving DecidableEq, Repr

/-- One entry of the yield map (R384). -/
structure YieldEntry where
  type : Nat
  source : Nat
  location : Nat
  unit : Nat := 0
  sub : Nat := 0
  index : Nat := 0
  value : Nat := 0
  added : Nat := 0
deriving DecidableEq, Repr

/-- What a bring-up finds (R379 to R387): failed converters, management processors, firmware slots,
blocks whose feed test fails, regulator phases that fail, self-test entries, cores that fail the
firmware load, stacks lost in training or wiping, whether the rack reference is present, and the time from
the release of reset to READY. -/
structure BringUp where
  convertersFailed : List Nat := []
  mpFailA : Bool := false
  mpFailB : Bool := false
  slotOk0 : Bool := true
  slotOk1 : Bool := true
  feedFail : List Nat := []
  phaseFail : List (Nat × Domain) := []
  selfTest : List YieldEntry := []
  firmwareFail : List (Nat × Nat) := []
  stacksLost : List Nat := []
  reference : Bool := true
  gradeMismatch : Bool := false
  timeMs : Nat := 0
deriving DecidableEq, Repr

/-- The conditioned edge inputs (R418). -/
inductive Input where
  | rackReference | fn0 | fn1 | pr0 | pr1 | mrst | ilkCool | ilkStop | perst0 | perst1
deriving DecidableEq, Repr

/-- The sources of an event record (R428). -/
inductive EventSource where
  | recorder | mpA | mpB | cluster | regulator | pciePort | geannaPort | pairBus | edgeInput
deriving DecidableEq, Repr

/-- An event, as it reaches the recorder (R428, R432). -/
structure Event where
  code : Nat
  source : EventSource
  location : Nat := 0xFFFF
  partition : Nat := 0xFF
  lap : Nat := 0
  payload : List Byte := []
deriving DecidableEq, Repr

/-- How a source gives an event to the recorder (R429): hardware at once; a management processor
first reserves a number, then commits into the reserved slot. -/
inductive EventStage where
  | hardware
  | reserve (mpB : Bool)
  | commit (slot : Nat)
deriving DecidableEq, Repr

/-- How a flush ends (R437). -/
inductive FlushEnd where
  | done (us : Nat)
  | failed (seq : Nat)
deriving DecidableEq, Repr

/-- How a client reaches the module (R469): an Ethernet port with a source, or a function's mailbox. -/
inductive Transport where
  | udp (port : Nat) (source : Nat)
  | mailbox (fn : Nat)
deriving DecidableEq, Repr

/-- A firmware image, as checked (R443, R444, R445). -/
structure FwImage where
  version : Nat
  balhelOk : Bool
  cosignOk : Bool
  bytes : List Byte
  measurement : List Byte
deriving DecidableEq, Repr

/-- Why a datagram is dropped (R469, R471, R483). -/
inductive DropCause where
  | oversized | wrongPath | overBandwidth
deriving DecidableEq, Repr

/-- The host reads of R253 and R254: the token IDs of a block, up to the buffer whose read failed if one did, or a
bias list. -/
inductive HostRead where
  | prompt (tokens : List W32) (failed : Bool)
  | bias (entries : Option (List (W32 × W16)))
deriving DecidableEq, Repr

/-- How the rack reference is disturbed (R372). -/
inductive RefEvent where
  | glitch | noEdge | offFrequency | chatter
deriving DecidableEq, Repr

/-- The e-fuse switches of a block (R338). -/
inductive Switch where
  | main | transit
deriving DecidableEq, Repr

/-- Measured times of a hurdle's clear (R33, R55, R63): the wait from the first arrival, how far the clear
came past its bound, the time of the segment that ends, and the job-hurdle time. -/
structure ClearTimes where
  waitNs : Nat := 0
  beyondNs : Nat := 0
  segmentNs : Nat := 0
  jobNs : Nat := 0
deriving DecidableEq, Repr

/-- What is measured at a baton (R63, R258): the lap's time, and the class-0 tokens' intervals. -/
structure BatonTimes where
  lapNs : Nat := 0
deriving DecidableEq, Repr

/-! ## The commands -/

inductive Instr where
  -- the sequencer and its control commands
  | nop (at_ : CoreRef) (env : CoreEnv)
  | desc (at_ : CoreRef) (env : CoreEnv) (a : DescArgs)
  | hurdleArriveWait (at_ : CoreRef) (env : CoreEnv) (a : HurdleArgs)
  | hurdleArrive (at_ : CoreRef) (env : CoreEnv) (a : HurdleArgs)
  | hurdleWait (at_ : CoreRef) (env : CoreEnv) (a : HurdleArgs)
  | fence (at_ : CoreRef) (env : CoreEnv) (engines : BitVec 4)
  | bankPowerOff (at_ : CoreRef) (env : CoreEnv) (mask : BitVec 32)
  | bankPowerOn (at_ : CoreRef) (env : CoreEnv) (mask : BitVec 32)
  -- matrix engine, array group, attention
  | mma (at_ : CoreRef) (env : CoreEnv) (a : MmaArgs)
  | arrMvm (at_ : CoreRef) (env : CoreEnv) (a : ArrMvmArgs)
  | arrWrite (at_ : CoreRef) (env : CoreEnv) (a : ArrWriteArgs)
  | attnFull (at_ : CoreRef) (env : CoreEnv) (a : AttnArgs) (badFrames : List (Nat × Nat))
  | attnPartial (at_ : CoreRef) (env : CoreEnv) (a : AttnArgs) (badFrames : List (Nat × Nat))
  | attnMerge (at_ : CoreRef) (env : CoreEnv) (a : AttnArgs)
  -- vector unit
  | copy (at_ : CoreRef) (env : CoreEnv) (a : VecArgs)
  | add (at_ : CoreRef) (env : CoreEnv) (a : VecArgs)
  | sub (at_ : CoreRef) (env : CoreEnv) (a : VecArgs)
  | mul (at_ : CoreRef) (env : CoreEnv) (a : VecArgs)
  | fma (at_ : CoreRef) (env : CoreEnv) (a : VecArgs)
  | max (at_ : CoreRef) (env : CoreEnv) (a : VecArgs)
  | min (at_ : CoreRef) (env : CoreEnv) (a : VecArgs)
  | scale (at_ : CoreRef) (env : CoreEnv) (a : VecArgs)
  | exp (at_ : CoreRef) (env : CoreEnv) (a : VecArgs)
  | recip (at_ : CoreRef) (env : CoreEnv) (a : VecArgs)
  | rsqrt (at_ : CoreRef) (env : CoreEnv) (a : VecArgs)
  | silu (at_ : CoreRef) (env : CoreEnv) (a : VecArgs)
  | gelu (at_ : CoreRef) (env : CoreEnv) (a : VecArgs)
  | sigmoid (at_ : CoreRef) (env : CoreEnv) (a : VecArgs)
  | tanh (at_ : CoreRef) (env : CoreEnv) (a : VecArgs)
  | sum (at_ : CoreRef) (env : CoreEnv) (a : VecArgs)
  | maxr (at_ : CoreRef) (env : CoreEnv) (a : VecArgs)
  | sumsq (at_ : CoreRef) (env : CoreEnv) (a : VecArgs)
  | rmsnorm (at_ : CoreRef) (env : CoreEnv) (a : VecArgs)
  | layernorm (at_ : CoreRef) (env : CoreEnv) (a : VecArgs)
  | softmax (at_ : CoreRef) (env : CoreEnv) (a : VecArgs)
  | rope (at_ : CoreRef) (env : CoreEnv) (a : VecArgs)
  | quant (at_ : CoreRef) (env : CoreEnv) (a : VecArgs)
  | dequant (at_ : CoreRef) (env : CoreEnv) (a : VecArgs)
  | topk (at_ : CoreRef) (env : CoreEnv) (a : VecArgs)
  | outlier (at_ : CoreRef) (env : CoreEnv) (a : VecArgs)
  | check (at_ : CoreRef) (env : CoreEnv) (a : VecArgs)
  | guardCheck (at_ : CoreRef) (env : CoreEnv) (a : VecArgs)
  -- DMA engine and cache
  | dmaCopyStackToScratch (at_ : CoreRef) (env : CoreEnv) (a : DmaStackArgs)
  | dmaCopyScratchToStack (at_ : CoreRef) (env : CoreEnv) (a : DmaStackArgs)
  | dmaCopyScratchToCore (at_ : CoreRef) (env : CoreEnv) (a : DmaCoreArgs)
  | dmaCopyEdgeToScratch (at_ : CoreRef) (env : CoreEnv) (a : DmaEdgeArgs)
  | dmaCopyScratchToEdge (at_ : CoreRef) (env : CoreEnv) (a : DmaEdgeArgs)
  | dmaWait (at_ : CoreRef) (env : CoreEnv) (counter : BitVec 4) (threshold : BitVec 12)
  | cgather (at_ : CoreRef) (env : CoreEnv) (a : GatherArgs)
  | cinval (at_ : CoreRef) (env : CoreEnv)
  | engineCommandComplete (at_ : CoreRef) (engine : Engine) (progParity : Bool)
  | dmaTransferComplete (at_ : CoreRef) (index : Nat) (fin : DmaEnd) (data : List Byte)
  | bankPowerUpComplete (at_ : CoreRef) (bank : Nat)
  | bankSwitchOff (at_ : CoreRef) (bank : Nat)
  | lateWrite (target : DrainTarget) (us : Nat)
  | cacheFill (at_ : CoreRef) (index : Nat) (parity : Bool)
  -- laps
  | hurdleClear (p : Nat) (t : ClearTimes)
  | hurdleTimeout (p : Nat)
  | baton (p : Nat) (t : BatonTimes)
  | tokenRecordRelease (session : Nat) (intervalNs : Nat) (replays : Nat) (cadence : Nat)
  | completionPost (ring : Nat)
  | sampling (session : Nat) (samples : List SampleIn) (drafts : List Nat) (parity : Bool)
  -- arrays
  | rangeMonitorWindowEnd (at_ : CoreRef) (chain : Nat)
  | fullScaleWindowEnd (at_ : CoreRef) (array : Nat) (column : Nat)
  | calIntervalExpiry (at_ : CoreRef) (chain : Nat)
  | calibrateAll (rq : Rq) (value : Nat)
  | calibrationComplete (at_ : CoreRef) (chain : Nat) (trims : List (List Nat)) (failed : List (Nat × Nat))
  | rewriteComplete (at_ : CoreRef) (chain : Nat) (mismatch : List (Nat × Nat × Nat))
  | precisionClear (rq : Rq) (value : Nat)
  | lapStatisticsClear (rq : Rq) (p : Nat) (value : Nat)
  -- rings, sessions and their commands
  | ringContextWrite (fn : Nat) (offset : Nat) (bytes : List Byte)
  | ringEnable (fn : Nat) (kind : RingKind) (ring : Nat)
  | ringDisable (fn : Nat) (kind : RingKind) (ring : Nat)
  | submissionDoorbell (fn : Nat) (ring : Nat) (d : Doorbell)
  | completionDoorbell (fn : Nat) (ring : Nat) (d : Doorbell)
  | tokenRingDoorbell (fn : Nat) (session : Nat) (d : Doorbell)
  | bitmapDoorbell (fn : Nat) (session : Nat) (d : Doorbell)
  | submissionEntryFetch (ring : Nat) (entry : Option (List Byte))
  | sessionOpen (ring : Nat)
  | promptAppend (ring : Nat)
  | generate (ring : Nat) (random : W64)
  | fork (ring : Nat)
  | cancel (ring : Nat)
  | close (ring : Nat)
  | kvEvict (ring : Nat)
  | kvRestore (ring : Nat)
  | weightStage (ring : Nat)
  | weightFlip (ring : Nat)
  | barrier (ring : Nat)
  | abortWave (session : Nat)
  | abortWaveAcknowledged (session : Nat)
  | endSession (rq : Rq) (session : Nat)
  | bitmapSlotRead (session : Nat) (slot : Nat) (data : Option (List Byte))
  | kvEvictTransferComplete (session : Nat) (ok : Bool)
  | kvRestoreTransferComplete (session : Nat) (fin : RestoreEnd)
  -- weight sets
  | stageHeaderRead (set : Nat) (head : Option BundleHead)
  | signatureVerified (set : Nat) (ok : Bool)
  | weightChunkRead (set : Nat) (chunk : Nat) (data : ChunkIn)
  | relayHeader (set : Nat) (dir : Nat) (body : BundleBody) (signature : List Byte)
  | relayChunk (set : Nat) (dir : Nat) (chunk : Nat) (data : List Byte)
  | relayTimeout (set : Nat)
  | flipPrepareComplete (p : Nat)
  | flipGapComplete (p : Nat) (gap : FlipGap)
  | weightUnload (rq : Rq) (set : Nat)
  | releaseHost (rq : Rq) (set : Nat)
  | setWipeComplete (set : Nat)
  | pieceRefetchComplete (set : Nat) (piece : Nat) (fin : RefetchEnd)
  -- networks and fabric
  | linkFailure (link : Nat) (lost : List (Nat × Nat × Nat))
  | routerFailure (cluster : Nat) (network : Nat) (lost : List (Nat × Nat × Nat))
  | portRetrain (rq : Rq) (port : Nat)
  | trainingComplete (port : Nat) (lanes : Nat) (neighbourId : Nat) (neighbourPos : Nat × Nat × Nat) (delayNs : Nat)
  | trainingAttemptTimeout (port : Nat)
  | laneFailure (port : Nat) (e : LaneEvent)
  | neighbourDark (port : Nat)
  | jobSynchronizationMessage (jobId : Nat) (mark : Nat) (member : Nat) (kind : JobMsgKind)
  | jobFaultMessage (jobId : Nat) (code : Nat)
  | alignmentMessage (jobId : Nat)
  | fabricWriteArrival (p : Nat) (channel : Nat) (granule : Nat) (data : FabricData)
  | rackMark
  | marker (offset : Nat)
  -- the pair
  | heartbeat (f : FrameIn) (sequence : Nat) (twinState : Nat)
  | heartbeatSend
  | mirrorAck (f : FrameIn) (p : Nat) (lapLow : Nat) (ns : Nat)
  | shadowAck (f : FrameIn) (sequence : Nat)
  | abortFrame (f : FrameIn) (session : Nat)
  | abortDone (f : FrameIn) (session : Nat)
  | handover (f : FrameIn) (ring : Nat) (done : Bool)
  | flipFrame (f : FrameIn) (p : Nat) (set : Nat) (ready : Bool) (refused : Bool)
  | attachFrame (f : FrameIn) (step : Nat) (body : AttachBody)
  | detachFrame (f : FrameIn)
  | reservedFrameCode (f : FrameIn) (code : Nat)
  | busPathDown
  | mirrorEntry (session : Nat) (vaddr : Nat) (data : List Byte)
  | mirrorVerdict (p : Nat) (lap : Nat) (verdict : Verdict) (sessions : List MirrorSession)
  | shadowMessage (sequence : Nat) (body : ShadowBody)
  | mirrorAckTimeout (p : Nat) (lap : Nat)
  | fnInput (input : Nat) (widthNs : Nat)
  | fnStuck (input : Nat)
  | prChange (input : Nat) (level : Bool) (steady : Bool) (overLimit : Bool)
  | heartbeatTimeout (us : Nat)
  | takeoverWaitExpiry (us : Nat)
  | attach (rq : Rq) (value : Nat) (config : TwinConfig) (parts : List TwinPart)
  | detach (rq : Rq) (value : Nat)
  | drain (rq : Rq) (value : Nat)
  -- power
  | setPointStep (block : Nat) (droopMv : Nat)
  | converterFailure (converter : Nat)
  | phaseFailure (block : Nat) (domain : Domain) (phase : Nat)
  | targetStep (block : Nat) (drawW : Nat)
  | shortDeclared (block : Nat) (sw : Switch) (domain : Domain) (lost : List (Nat × Nat × Nat))
  | blockDrainComplete (block : Nat)
  | connectorCheck (readings : List ConnReading)
  | currentReport (inputMv : Nat) (inputW : Nat) (joules : Nat) (figures : MsReport)
  | creditRefill
  | governorStep (avgW : Nat)
  | governorRaise (avgW : Nat)
  | idleOff (block : Nat)
  | wakeComplete (block : Nat) (chargeNs : Nat) (fillNs : Nat)
  | powerFail (cause : PowerFailCause)
  | resetRelease (found : BringUp)
  -- heat and mesh
  | sensorRead (readings : List Reading)
  | sensorSuspect (pair : SensorRef)
  | levelRise (block : Nat)
  | levelFall (block : Nat)
  | heatOff (block : Nat) (byStack : Bool)
  | heatReturn (block : Nat)
  | hardwareTrip (sensor : SensorRef)
  | coolantCheck (flow : Option Nat) (inlet : Int) (outlet : Int)
  | coolantStateFall
  | meshLock (us : Nat)
  | lockTimeout
  | meshBringUpTimeout
  | referenceAbsent (e : RefEvent)
  | referenceRestored
  | slewComplete (mark : Nat)
  | oscillatorUnlock (cluster : Nat)
  -- reset, bring-up and retraining
  | moduleReset (rq : Rq) (value : Nat)
  | mrstNInput (widthNs : Nat) (overLimit : Bool)
  | mrstNStuck
  | watchdog
  | resetWipeComplete (ms : Nat) (lost : List Nat) (found : BringUp)
  | partitionReset (rq : Rq) (p : Nat) (value : Nat)
  | partitionFault (p : Nat) (failed : Option CoreRef)
  | partitionWipeComplete (p : Nat)
  | stackErrorRate (block : Nat) (perSecond : Nat)
  | stackRetrain (rq : Rq) (block : Nat)
  | stackRetrainComplete (block : Nat) (lanes : Option (List Nat))
  | linkRetryRate (link : Nat)
  | linkRetrain (rq : Rq) (link : Nat)
  | linkRetrainComplete (link : Nat) (forth : List Nat) (back : List Nat)
  -- processors and inputs
  | mpHeartbeatTimeout (us : Nat)
  | mpSelfCheckFail (us : Nat)
  | ilkCoolNInput (widthNs : Nat) (active : Bool) (overLimit : Bool)
  | ilkStopNInput (widthNs : Nat) (active : Bool) (overLimit : Bool)
  | interlockRelease (stop : Bool)
  | ilkCoolNStuck
  | chatterClear (input : Input)
  -- recorder
  | eventRecord (stage : EventStage) (e : Event)
  | gapTimeout (slot : Nat)
  | recorderClear (rq : Rq) (value : Nat)
  | flushNow (rq : Rq) (value : Nat)
  | flushComplete (fin : FlushEnd)
  | suppressWindowEnd (code : Nat) (location : Nat)
  -- security
  | attest (rq : Rq) (nonce : List Byte)
  | lcChallenge (rq : Rq)
  | lcRequest (rq : Rq) (token : List Byte) (signatureOk : Bool)
  | fwImage (rq : Rq) (image : FwImage)
  | fwActivate (rq : Rq) (slot : Nat)
  | advanceSecurityVersion (rq : Rq) (value : Nat)
  | handshakeOrder1 (t : Transport) (handshakeId : Nat) (clientNonce : List Byte) (kemKey : List Byte)
      (keyId : List Byte) (complete : Bool) (overRate : Bool)
  | handshakeOrder3 (t : Transport) (session : Nat) (signed : Bool) (signatureOk : Bool) (complete : Bool)
  | handshakeTimeout (session : Nat)
  -- Swiuth
  | read (rq : Rq) (index : Nat) (sub : Nat)
  | write (rq : Rq) (index : Nat) (sub : Nat) (value : List Byte)
  | stage (rq : Rq) (index : Nat) (sub : Nat) (value : List Byte)
  | commit (rq : Rq)
  | prepareComplete
  | prepareTimeout (index : Nat) (sub : Nat) (p : Nat)
  | abort (rq : Rq)
  | segmentRead (rq : Rq) (index : Nat) (sub : Nat) (offset : Nat) (length : Nat)
  | segmentWrite (rq : Rq) (index : Nat) (sub : Nat) (offset : Nat) (bytes : List Byte) (last : Bool) (staged : Bool)
  | segmentAbandon (session : Nat) (index : Nat) (sub : Nat)
  | subscribe (rq : Rq) (index : Nat) (sub : Nat) (period : Nat)
  | notify (session : Nat) (index : Nat) (sub : Nat) (overRate : Bool)
  | swiuthClose (session : Nat)
  | idleTimeout (session : Nat)
  | mailboxRequest (fn : Nat) (length : Nat)
  | rspAck (fn : Nat) (value : Nat)
  -- PCI Express
  | perstInput (port : Nat) (widthNs : Nat) (overLimit : Bool) (twinUp : Bool)
  | linkDownTimeout (port : Nat) (twinUp : Bool)
  | flr (fn : Nat)
  | pcieLinkUp (port : Nat) (rate : Nat) (width : Nat) (flit : Bool)
  | correctableThreshold (port : Nat) (errors : Nat)
  | pcieRetrain (rq : Rq) (port : Nat)
  | pcieRetrainComplete (port : Nat) (ok : Bool) (heldNs : Nat)
  -- loading
  | load (rq : Rq) (p : Nat) (value : Nat) (program : LapProgram)
  | loadComplete (fin : LoadEnd)
  | unloadDrain (rq : Rq) (p : Nat)
  | unloadNow (rq : Rq) (p : Nat)
  | clearBlockEntry (rq : Rq) (block : Nat)
  -- the rest of the table
  | coalesceTimeout (ring : Nat)
  | dataLinkDown (port : Nat) (heldNs : Nat)
  | perstDeassertion (port : Nat)
  | streamedCommandArrival (at_ : CoreRef) (progParity : Bool)
  | hostReadComplete (session : Nat) (r : HostRead)
  | managementSessionExpiry (session : Nat)
  | reportFreezeExpiry (session : Nat) (index : Nat)
  | configurationRequest (port : Nat) (fn : Nat)
  | droppedDatagram (cause : DropCause)
  | unknownOpRequest (rq : Rq) (op : Nat)
deriving DecidableEq, Repr

end Sys2Proof
end

