-- ==== Sys2Proof/WellFormed.lean ====
section
/-! DEFINITION. The checks of a lap-program command: the ranges that its fields may take (R69 to R101, R118, R120,
R179). A command that breaks one is refused by the loader with load result 10 (R69). -/

namespace Sys2Proof.WellFormed

/-- A descriptor field that must name a descriptor: 63 means no operand. -/
def named (d : BitVec 6) : Bool := d != 63#6

/-- A descriptor's rules that need no lap program (R71, R72): stripe at most 5, bank of a multiple of it, the
area inside its banks, no reserved bit, a format that exists. DESIGN CHOICE: alt_bank of a paired area is held to the
rule of base_bank, a multiple of 2^stripe, which R71 states of base_bank alone (log 177). -/
def descOk (d : BitVec 64) : Bool :=
  let base := (d.extractLsb' 0 5).toNat
  let stripe := (d.extractLsb' 5 3).toNat
  let start := (d.extractLsb' 8 10).toNat
  let len := (d.extractLsb' 18 15).toNat
  let fmt := (d.extractLsb' 33 4).toNat
  let alt := (d.extractLsb' 48 5).toNat
  decide (stripe ≤ 5) && decide (base % 2 ^ stripe = 0) && decide (base + 2 ^ stripe ≤ 32) &&
    decide (start + (len + 2 ^ stripe) / 2 ^ stripe ≤ 1024) && decide (fmt ≤ 11) &&
    (!(d.extractLsb' 47 1 == 1#1) || (decide (alt % 2 ^ stripe = 0) && decide (alt + 2 ^ stripe ≤ 32))) &&
    d.extractLsb' 54 10 == 0#10

/-- A place of space 0 names one of the 144 blocks. -/
def placeOk : StackPlace → Bool
  | .phys b _ => decide (b.toNat < 144)
  | .set _ _ => true

def dmaPlaceOk : DmaStack → Bool
  | .phys b _ => decide (b.toNat < 144)
  | .session _ _ => true
  | .set _ _ => true

/-- Operands that a function of VEC leaves unused must be 63 (R83); a guard CHECK names none (R166), QUANT names one
of 64 entries (R154), and TOPK's count is in range (R83). -/
def vecOperands : VecFn → VecArgs → Bool
  | .copy, a | .scale, a | .exp, a | .recip, a | .rsqrt, a | .silu, a | .gelu, a | .sigmoid, a | .tanh, a
  | .sum, a | .maxr, a | .sumsq, a | .softmax, a => named a.a && !(named a.b) && !(named a.c)
  | .add, a | .sub, a | .mul, a | .max, a | .min, a | .rmsnorm, a | .rope, a | .dequant, a | .outlier, a =>
    named a.a && named a.b && !(named a.c)
  | .fma, a | .layernorm, a => named a.a && named a.b && named a.c
  | .check, a =>
    if a.param.extractLsb' 6 5 = 31#5 then !(named a.a) && !(named a.b) && !(named a.c)
    else named a.a && named a.b && named a.c
  | .quant, a => named a.a && named a.c && decide (a.param.toNat < 64)
  | .topk, a =>
    named a.a && !(named a.b) && !(named a.c) &&
      decide (1 ≤ a.param.toNat ∧ a.param.toNat ≤ 1024 ∧ a.param.toNat ≤ a.length.toNat)

/-- The ranges of a command's fields. -/
def cmd : CoreCmd → Bool
  | .nop => true
  | .desc a => named a.index && descOk a.desc
  | .hurdle form a =>
    form != 3#2 && (!a.verdict || (a.checkpoint && form == 0#2))
  | .fence _ => true
  | .bankPower _ _ => true
  | .mma a =>
    named a.a && named a.w && named a.out && a.m != 0#16 && a.k != 0#16 && a.n != 0#16 && a.rounding != 3#2
  | .arrMvm a =>
    named a.inp && named a.out && named a.scale && decide (1 ≤ a.count.toNat) &&
      decide (a.firstArray.toNat + a.count.toNat ≤ 32) && a.m != 0#16 && a.fbSkip != 0#8 && a.wfmt != 3#2
  | .arrWrite a =>
    named a.src && decide (a.firstRow.toNat + a.rows.toNat + 1 ≤ 512) && placeOk a.repair
  | .attn op a =>
    op != 3#2 && named a.q && named a.out && named a.lane && named a.kvbuf && a.sel != 3#2 &&
      decide (a.part.toNat ≤ a.parts.toNat) && (!a.half || a.dim) &&
      (if op = 0#2 then a.split || a.parts == 0#5
       else if op = 1#2 then !a.split && a.sel == 1#2
       else a.stream == 0#19)
  | .vec fn a => named a.dst && a.rows != 0#16 && a.length != 0#16 && vecOperands fn a
  | .dmaLoad a => named a.loc && !a.tentative && dmaPlaceOk a.remote
  | .dmaStore a =>
    named a.loc && dmaPlaceOk a.remote &&
      (match a.remote with
       | .session _ _ => true
       | .phys _ _ => !a.tentative
       | .set _ _ => !a.tentative)
  | .dmaCore a => named a.loc && named a.desc && decide (a.cluster.toNat < 864)
  | .dmaEdgeIn a => named a.loc
  | .dmaEdgeOut a => named a.loc
  | .dmaWait _ _ => true
  | .gather a =>
    named a.idx && named a.dst && placeOk a.table && a.count != 0#16 && a.rowBytes.extractLsb' 0 4 == 0#4 &&
      decide (16 ≤ a.rowBytes.toNat ∧ a.rowBytes.toNat ≤ 8192)
  | .cinval => true

end Sys2Proof.WellFormed
end

