-- ==== Sys2Proof/Decode.lean ====
section
/-! DEFINITION. The decoder of the VW1. As a block it takes commands, not instruction words: no row of the opcode
table has bits, so `decodeTableWord` answers none. The 128-bit lap-program commands that the loader reads are
decoded and encoded here (R69, R70). -/

namespace Sys2Proof

/-- No row of spec/opcode_table.json gives bits. -/
def decodeTableWord (_nbits _w : Nat) : Option Instr := none

namespace Machine

/-! ## The encoding of a lap-program command -/

def oneBit (b : Bool) : BitVec 1 := if b then 1#1 else 0#1

/-- Codes of the functions of VEC (R83). -/
def vecCode : VecFn → BitVec 7
  | .copy => 0x00#7 | .add => 0x01#7 | .sub => 0x02#7 | .mul => 0x03#7 | .fma => 0x04#7 | .max => 0x05#7
  | .min => 0x06#7 | .scale => 0x07#7 | .exp => 0x10#7 | .recip => 0x11#7 | .rsqrt => 0x12#7 | .silu => 0x13#7
  | .gelu => 0x14#7 | .sigmoid => 0x15#7 | .tanh => 0x16#7 | .sum => 0x20#7 | .maxr => 0x21#7 | .sumsq => 0x22#7
  | .rmsnorm => 0x28#7 | .layernorm => 0x29#7 | .softmax => 0x2A#7 | .rope => 0x30#7 | .quant => 0x38#7
  | .dequant => 0x39#7 | .topk => 0x40#7 | .outlier => 0x48#7 | .check => 0x50#7

def vecOfCode (c : BitVec 7) : Option VecFn :=
  [VecFn.copy, .add, .sub, .mul, .fma, .max, .min, .scale, .exp, .recip, .rsqrt, .silu, .gelu, .sigmoid, .tanh,
    .sum, .maxr, .sumsq, .rmsnorm, .layernorm, .softmax, .rope, .quant, .dequant, .topk, .outlier, .check].find?
      (fun f => vecCode f == c)

/-- Bits [104:0] of a DMA_COPY of form 0 or 1: space and remote field (R99, R100). -/
def encodeStack : DmaStack → BitVec 105
  | .phys b g => 0#2 ++ b ++ g ++ 0#64
  | .session i v => 1#2 ++ i ++ v ++ 0#49
  | .set h g => 2#2 ++ h ++ g ++ 0#56

/-- Bits [106:58] of a CGATHER: space and table (R96). -/
def encodeTable : StackPlace → BitVec 49
  | .phys b g => 0#2 ++ b ++ g ++ 0#8
  | .set h g => 2#2 ++ h ++ g

/-- Bits [87:39] of an ARR_WRITE: space, granule and table (R120). -/
def encodeRepair : StackPlace → BitVec 49
  | .phys b g => 0#2 ++ g ++ b ++ 0#8
  | .set h g => 2#2 ++ g ++ h

/-- The word of a command (R69 to R77, R82, R96 to R100, R118, R120, R179). -/
def encodeCommand : CoreCmd → CmdWord
  | .nop => 0x00#8 ++ 0#120
  | .desc a => 0x01#8 ++ a.index ++ 0#50 ++ a.desc
  | .hurdle form a =>
    0x02#8 ++ form ++ a.hurdle ++ oneBit a.checkpoint ++ oneBit a.verdict ++ 0#40 ++ a.swapMask
  | .fence e => 0x03#8 ++ 0#1 ++ e ++ 0#115
  | .bankPower on mask => 0x04#8 ++ 0#1 ++ oneBit on ++ 0#86 ++ mask
  | .mma a =>
    0x10#8 ++ oneBit a.async ++ a.a ++ a.w ++ a.out ++ a.scale ++ a.m ++ a.k ++ a.n ++ oneBit a.accumulate ++
      a.rounding ++ 0#44
  | .arrMvm a =>
    0x20#8 ++ oneBit a.async ++ a.inp ++ a.out ++ a.scale ++ a.firstArray ++ a.count ++ a.rowsLast ++
      oneBit a.group ++ a.m ++ oneBit a.accumulate ++ a.canary ++ a.fbSkip ++ a.wfmt ++ a.env ++ 0#41
  | .arrWrite a =>
    0x21#8 ++ oneBit a.async ++ a.src ++ a.array ++ a.firstRow ++ a.rows ++ oneBit a.verify ++ oneBit a.persist ++
      encodeRepair a.repair ++ a.scale ++ 0#33
  | .attn op a =>
    0x30#8 ++ oneBit a.async ++ a.q ++ a.out ++ a.lane ++ a.work ++ a.stream ++ a.group ++ oneBit a.dim ++
      oneBit a.half ++ a.scale ++ a.window ++ a.lanes ++ a.kvbuf ++ op ++ oneBit a.split ++ a.parts ++ a.part ++
      a.sel ++ 0#1
  | .vec fn a =>
    0x40#8 ++ oneBit a.async ++ a.dst ++ a.a ++ a.b ++ a.c ++ vecCode fn ++ a.rows ++ a.length ++ a.imm ++ a.param ++
      0#29
  | .dmaLoad a =>
    0x50#8 ++ oneBit a.async ++ 0#3 ++ a.loc ++ oneBit a.tentative ++ a.counter ++ encodeStack a.remote
  | .dmaStore a =>
    0x50#8 ++ oneBit a.async ++ 1#3 ++ a.loc ++ oneBit a.tentative ++ a.counter ++ encodeStack a.remote
  | .dmaCore a =>
    0x50#8 ++ oneBit a.async ++ 2#3 ++ a.loc ++ 0#1 ++ a.counter ++ 0#2 ++ a.cluster ++ a.core ++ a.desc ++ 0#83
  | .dmaEdgeIn a =>
    0x50#8 ++ oneBit a.async ++ 3#3 ++ a.loc ++ 0#1 ++ a.counter ++ 0#2 ++ a.channel ++ a.granule ++ 0#64
  | .dmaEdgeOut a =>
    0x50#8 ++ oneBit a.async ++ 4#3 ++ a.loc ++ 0#1 ++ a.counter ++ 0#2 ++ a.channel ++ a.granule ++ 0#64
  | .dmaWait counter threshold => 0x51#8 ++ 0#1 ++ counter ++ threshold ++ 0#103
  | .gather a =>
    0x52#8 ++ oneBit a.async ++ a.idx ++ a.dst ++ encodeTable a.table ++ a.rowBytes ++ a.count ++ a.counter ++ 0#24
  | .cinval => 0x53#8 ++ 0#120

/-! ## Decoding -/

/-- Bits [lo + n - 1 : lo] of a word. -/
def wordBits (w : CmdWord) (lo n : Nat) : BitVec n := w.extractLsb' lo n

/-- One bit of a word. -/
def wordBit (w : CmdWord) (i : Nat) : Bool := w.getLsbD i

/-- The space and remote fields of a DMA_COPY of form 0 or 1. -/
def decodeStack (w : CmdWord) : Option DmaStack :=
  let sp := wordBits w 103 2
  if sp = 0#2 then some (.phys (wordBits w 95 8) (wordBits w 64 31))
  else if sp = 1#2 then some (.session (wordBits w 91 12) (wordBits w 49 42))
  else if sp = 2#2 then some (.set (wordBits w 87 16) (wordBits w 56 31))
  else none

def decodeTable (w : CmdWord) : Option StackPlace :=
  let sp := wordBits w 105 2
  if sp = 0#2 then some (.phys (wordBits w 97 8) (wordBits w 66 31))
  else if sp = 2#2 then some (.set (wordBits w 89 16) (wordBits w 58 31))
  else none

def decodeRepair (w : CmdWord) : Option StackPlace :=
  let sp := wordBits w 86 2
  if sp = 0#2 then some (.phys (wordBits w 47 8) (wordBits w 55 31))
  else if sp = 2#2 then some (.set (wordBits w 39 16) (wordBits w 55 31))
  else none

/-- The word of an ARR_WRITE as its fields are read (R120): where persist is 0 the space field is ignored, so the table
bits hold whatever they hold, read as space 2. -/
def repairRead (w : CmdWord) : CmdWord :=
  let legal := wordBits w 86 2 == 2#2 ||
    (wordBits w 86 2 == 0#2 && decide ((wordBits w 47 8).toNat < 144) && wordBits w 39 8 == 0#8)
  if wordBits w 120 8 == 0x21#8 && !(wordBit w 88) && !legal then
    (w &&& ~~~(3#128 <<< 86)) ||| (2#128 <<< 86) else w

def decodeMma (w : CmdWord) : MmaArgs where
  async := wordBit w 119
  a := wordBits w 113 6
  w := wordBits w 107 6
  out := wordBits w 101 6
  scale := wordBits w 95 6
  m := wordBits w 79 16
  k := wordBits w 63 16
  n := wordBits w 47 16
  accumulate := wordBit w 46
  rounding := wordBits w 44 2

def decodeArrMvm (w : CmdWord) : ArrMvmArgs where
  async := wordBit w 119
  inp := wordBits w 113 6
  out := wordBits w 107 6
  scale := wordBits w 101 6
  firstArray := wordBits w 96 5
  count := wordBits w 90 6
  rowsLast := wordBits w 81 9
  group := wordBit w 80
  m := wordBits w 64 16
  accumulate := wordBit w 63
  canary := wordBits w 57 6
  fbSkip := wordBits w 49 8
  wfmt := wordBits w 47 2
  env := wordBits w 41 6

def decodeArrWrite (w : CmdWord) (x : StackPlace) : ArrWriteArgs where
  async := wordBit w 119
  src := wordBits w 113 6
  array := wordBits w 108 5
  firstRow := wordBits w 99 9
  rows := wordBits w 90 9
  verify := wordBit w 89
  persist := wordBit w 88
  repair := x
  scale := wordBits w 33 6

def decodeAttn (w : CmdWord) : AttnArgs where
  async := wordBit w 119
  q := wordBits w 113 6
  out := wordBits w 107 6
  lane := wordBits w 101 6
  work := wordBits w 95 6
  stream := wordBits w 76 19
  group := wordBits w 72 4
  dim := wordBit w 71
  half := wordBit w 70
  scale := wordBits w 54 16
  window := wordBits w 34 20
  lanes := wordBits w 22 12
  kvbuf := wordBits w 16 6
  split := wordBit w 13
  parts := wordBits w 8 5
  part := wordBits w 3 5
  sel := wordBits w 1 2

def decodeVec (w : CmdWord) : VecArgs where
  async := wordBit w 119
  dst := wordBits w 113 6
  a := wordBits w 107 6
  b := wordBits w 101 6
  c := wordBits w 95 6
  rows := wordBits w 72 16
  length := wordBits w 56 16
  imm := wordBits w 40 16
  param := wordBits w 29 11

def decodeDmaStack (w : CmdWord) (x : DmaStack) : DmaStackArgs where
  async := wordBit w 119
  loc := wordBits w 110 6
  tentative := wordBit w 109
  counter := wordBits w 105 4
  remote := x

def decodeDmaCore (w : CmdWord) : DmaCoreArgs where
  async := wordBit w 119
  loc := wordBits w 110 6
  counter := wordBits w 105 4
  cluster := wordBits w 93 10
  core := wordBits w 89 4
  desc := wordBits w 83 6

def decodeDmaEdge (w : CmdWord) : DmaEdgeArgs where
  async := wordBit w 119
  loc := wordBits w 110 6
  counter := wordBits w 105 4
  channel := wordBits w 95 8
  granule := wordBits w 64 31

def decodeGather (w : CmdWord) (x : StackPlace) : GatherArgs where
  async := wordBit w 119
  idx := wordBits w 113 6
  dst := wordBits w 107 6
  table := x
  rowBytes := wordBits w 44 14
  count := wordBits w 28 16
  counter := wordBits w 24 4

def decodeHurdle (w : CmdWord) : HurdleArgs where
  hurdle := wordBits w 106 12
  checkpoint := wordBit w 105
  verdict := wordBit w 104
  swapMask := wordBits w 0 64

/-- DMA_COPY by its form (R99). -/
def decodeDma (w : CmdWord) : Option CoreCmd :=
  let form := wordBits w 116 3
  if form = 0#3 then (decodeStack w).map (fun x => .dmaLoad (decodeDmaStack w x))
  else if form = 1#3 then (decodeStack w).map (fun x => .dmaStore (decodeDmaStack w x))
  else if form = 2#3 then some (.dmaCore (decodeDmaCore w))
  else if form = 3#3 then some (.dmaEdgeIn (decodeDmaEdge w))
  else if form = 4#3 then some (.dmaEdgeOut (decodeDmaEdge w))
  else none

/-- The fields of a word, by its opcode (R70); none for a reserved code. -/
def decodeFields (w : CmdWord) : Option CoreCmd :=
  let op := wordBits w 120 8
  if op = 0x00#8 then some .nop
  else if op = 0x01#8 then some (.desc { index := wordBits w 114 6, desc := wordBits w 0 64 })
  else if op = 0x02#8 then some (.hurdle (wordBits w 118 2) (decodeHurdle w))
  else if op = 0x03#8 then some (.fence (wordBits w 115 4))
  else if op = 0x04#8 then some (.bankPower (wordBit w 118) (wordBits w 0 32))
  else if op = 0x10#8 then some (.mma (decodeMma w))
  else if op = 0x20#8 then some (.arrMvm (decodeArrMvm w))
  else if op = 0x21#8 then (decodeRepair w).map (fun x => .arrWrite (decodeArrWrite w x))
  else if op = 0x30#8 then some (.attn (wordBits w 14 2) (decodeAttn w))
  else if op = 0x40#8 then (vecOfCode (wordBits w 88 7)).map (fun f => .vec f (decodeVec w))
  else if op = 0x50#8 then decodeDma w
  else if op = 0x51#8 then some (.dmaWait (wordBits w 115 4) (wordBits w 103 12))
  else if op = 0x52#8 then (decodeTable w).map (fun x => .gather (decodeGather w x))
  else if op = 0x53#8 then some .cinval
  else none

/-- The command of a word: none for a reserved opcode or code, for a field outside its range, and where a
reserved bit is not 0, that is, where the word is not the one its fields spell (R69). -/
def decodeCommand (w : CmdWord) : Option CoreCmd :=
  match decodeFields (repairRead w) with
  | none => none
  | some c => if WellFormed.cmd c && encodeCommand c == repairRead w then some c else none

end Machine

end Sys2Proof
end

