-- ==== Sys2Proof/Config.lean ====
section
/-! DEFINITION. What the manual leaves open, as constants with no body: nothing in Lean can see their
values, so a statement about the machine holds whatever they are. Each is applied to a number that the
step draws from State.free, so every draw may differ. -/

namespace Sys2Proof.Config

/-- The FP32 result an engine gives where the manual states only a bound (R161, R162, R171). -/
opaque freeF32 : Nat → BitVec 32

/-- A byte that a command reads past the end of its area, which the manual does not state. -/
opaque freeByte : Nat → BitVec 8

/-- A converter's code for one conversion, before the bound of R111 is applied. -/
opaque freeCode : Nat → Int

/-- Which of the free frames of a block a draw takes (R195). -/
opaque framePick : Nat → Nat

/-- Which TLB entry of a full translation unit gives way (R191). -/
opaque tlbVictim : Nat → Nat

/-- The module's random source: stochastic-rounding seeds (R151). -/
opaque randomWord : Nat → BitVec 64

/-- The next state of a core's stochastic-rounding generator, which R151 does not define. -/
opaque rngNext : BitVec 32 → BitVec 32

/-- Whether the next rack mark comes too early for a job's lap to start at it (R302). -/
opaque markTooEarly : Nat → Bool

/-- A token ID of a position whose token the module does not know, after a takeover (R323). -/
opaque freeToken : Nat → Nat

/-- Base draw of a block in W, measured at the factory (R334). -/
opaque baseDraw : Nat → Nat

/-- Bytes of an object set at the factory or fixed by the firmware image, by the object's number (R487). -/
opaque factoryBytes : Nat → List (BitVec 8)

/-- Generation of a DOMAIN object in a notification, which the manual gives for the current report alone
(R481). -/
opaque generation : Nat → Nat

/-- The identity key's ML-DSA-87 signature over a digest (R440, R446, R447). -/
opaque identitySignature : Nat → List Byte → List Byte

/-- The ML-KEM-1024 ciphertext encapsulated to a key (R447). -/
opaque kemCiphertext : Nat → List Byte → List Byte

/-- Public half of the Balhel firmware key, which the ROM holds (R440). -/
opaque balhelKey : List (BitVec 8)

/-- Measurement of the boot ROM (R446, bytes 192-255). -/
opaque romMeasurement : List Byte

end Sys2Proof.Config
end

