-- ==== Sys2Proof/Machine/Store.lean ====
section
/-! DEFINITION. The operations on sparse maps and memories, the byte order of every structure
(little-endian, R4), and the check codes of records and frames (R428, R314). -/

namespace Sys2Proof.Machine

/-! ## Sparse maps: strictly rising keys, no entry equal to the default -/

/-- The value at a key; the default where the key is not listed. -/
def kvGet {α : Type} (d : α) : KV α → Nat → α
  | [], _ => d
  | (k', v) :: r, k => if k = k' then v else kvGet d r k

/-- The entry at a key, if there is one. -/
def kvFind {α : Type} (m : KV α) (k : Nat) : Option α := (m.find? (fun e => e.1 == k)).map (·.2)

/-- Insert or replace one entry, keeping the keys rising. -/
def kvPut {α : Type} : KV α → Nat → α → KV α
  | [], k, v => [(k, v)]
  | (k', v') :: r, k, v =>
    if k < k' then (k, v) :: (k', v') :: r
    else if k = k' then (k, v) :: r
    else (k', v') :: kvPut r k v

/-- Take one entry out. -/
def kvErase {α : Type} (m : KV α) (k : Nat) : KV α := m.filter (fun e => e.1 ≠ k)

/-- Write a value at a key; writing the default takes the entry out, so equal maps are equal data. -/
def kvSet {α : Type} [DecidableEq α] (d : α) (m : KV α) (k : Nat) (v : α) : KV α :=
  if v = d then kvErase m k else kvPut m k v

/-- Change the value at a key. -/
def kvUpd {α : Type} [DecidableEq α] (d : α) (m : KV α) (k : Nat) (f : α → α) : KV α :=
  kvSet d m k (f (kvGet d m k))

/-- Every key of the list is above `k`, and the list is rising. -/
def kvRising {α : Type} : KV α → Bool
  | [] => true
  | [_] => true
  | (a, _) :: (b, w) :: r => decide (a < b) && kvRising ((b, w) :: r)

/-- The canonical form of a sparse map. -/
def kvWf {α : Type} [DecidableEq α] (d : α) (m : KV α) : Bool :=
  kvRising m && m.all (fun e => decide (e.2 ≠ d))

/-! ## Memory -/

abbrev zeroByte : Byte := 0

/-- One byte; an address that is not listed reads as zero. -/
def memRead (m : Memory) (a : Nat) : Byte := kvGet zeroByte m a

/-- Store one byte, keeping the canonical form. -/
def memWrite (m : Memory) (a : Nat) (b : Byte) : Memory := kvSet zeroByte m a b

/-- `n` bytes from address `a` upward. -/
def memReadN (m : Memory) (a : Nat) : Nat → List Byte
  | 0 => []
  | n + 1 => memRead m a :: memReadN m (a + 1) n

/-- Store a run of bytes from address `a` upward. -/
def memWriteN (m : Memory) (a : Nat) : List Byte → Memory
  | [] => m
  | b :: r => memWriteN (memWrite m a b) (a + 1) r

/-- Zero every byte of [lo, lo + n). -/
def memZero (m : Memory) (lo n : Nat) : Memory :=
  m.filter (fun e => decide (e.1 < lo) || decide (lo + n ≤ e.1))

/-- The canonical form of a memory. -/
def Memory.wf (m : Memory) : Bool := kvWf zeroByte m

/-! ## Byte order -/

/-- The number a run of bytes spells, first byte least significant (R4). -/
def leNat : List Byte → Nat
  | [] => 0
  | b :: r => b.toNat + 256 * leNat r

/-- `n` as `len` bytes, least significant first (R4). -/
def natLe (n : Nat) : Nat → List Byte
  | 0 => []
  | len + 1 => BitVec.ofNat 8 n :: natLe (n / 256) len

/-- Part of a byte list. -/
def slice (bs : List Byte) (off len : Nat) : List Byte := (bs.drop off).take len

/-- The number in bytes [off, off + len) of a structure. -/
def fieldLe (bs : List Byte) (off len : Nat) : Nat := leNat (slice bs off len)

/-- Bits [hi:lo] of a number (R4). -/
def bitsOf (n hi lo : Nat) : Nat := (n >>> lo) % 2 ^ (hi + 1 - lo)

/-- Replace bytes from `off` on by `new`, the list keeping its length. -/
def spliceBytes (bs : List Byte) (off : Nat) (new : List Byte) : List Byte :=
  (bs.take off ++ new ++ bs.drop (off + new.length)).take (Nat.max bs.length (off + new.length))

/-- A list padded with zero bytes to `n`, or cut to it. -/
def padTo (n : Nat) (bs : List Byte) : List Byte := (bs ++ List.replicate (n - bs.length) 0).take n

/-- Bytes of an ASCII string. -/
def asciiBytes (t : String) : List Byte := t.toList.map (fun c => BitVec.ofNat 8 c.toNat)

/-- Replace the element at an index. -/
def setAt {α : Type} (l : List α) (i : Nat) (v : α) : List α := l.set i v

/-- The element at an index, or a default. -/
def getAt {α : Type} (d : α) (l : List α) (i : Nat) : α := (l[i]?).getD d

/-- The first index at which a predicate holds. -/
def indexWhere {α : Type} (p : α → Bool) : List α → Option Nat
  | [] => none
  | x :: r => if p x then some 0 else (indexWhere p r).map (· + 1)

/-- Insert a number into a rising list without repeats. -/
def insertNat (n : Nat) : List Nat → List Nat
  | [] => [n]
  | x :: r => if n < x then n :: x :: r else if n = x then x :: r else x :: insertNat n r

/-- Insertion sort by a rank, keeping the order of equals. -/
def insertBy {α : Type} (le : α → α → Bool) (a : α) : List α → List α
  | [] => [a]
  | x :: r => if le x a then x :: insertBy le a r else a :: x :: r

def sortBy {α : Type} (le : α → α → Bool) (l : List α) : List α :=
  l.foldl (fun acc a => insertBy le a acc) []

/-! ## Check codes -/

/-- One bit step of the reflected CRC-32 of IEEE 802.3. -/
def crc32Step (c : BitVec 32) : BitVec 32 :=
  if c.getLsbD 0 then (c >>> 1) ^^^ 0xEDB88320#32 else c >>> 1

def crc32Byte (c : BitVec 32) (b : Byte) : BitVec 32 :=
  (List.range 8).foldl (fun x _ => crc32Step x) (c ^^^ b.setWidth 32)

/-- CRC-32 with the IEEE 802.3 polynomial (R428). -/
def crc32 (bs : List Byte) : BitVec 32 := ~~~ (bs.foldl crc32Byte 0xFFFFFFFF#32)

/-- CRC-8, polynomial 0x07, initial value 0, over a frame's bits [55:0], most significant bit of each
byte first, bytes from bit 0 upward (R314). -/
def crc8 (bs : List Byte) : BitVec 8 :=
  bs.foldl (fun c b => (List.range 8).foldl
    (fun (x : BitVec 8) _ => if x.getLsbD 7 then (x <<< 1) ^^^ 0x07#8 else x <<< 1) (c ^^^ b)) 0#8

end Sys2Proof.Machine
end

