-- ==== Sys2Proof/Machine/Num.lean ====
section
/-! DEFINITION. Numbers: exact values, the element formats of R139 to R147, conversions (R149, R150),
FP32 arithmetic (R146, R162) and the reference values of the functions whose results R162 only bounds.
A finite value is exact: sign, magnitude `m`, exponent `e`, worth (-1)^s * m * 2^e. -/

namespace Sys2Proof.Machine

/-- A value of the formats: NaN, infinity or an exact dyadic number; both signed zeros exist (R146). -/
inductive FV where
  | nan (s : Bool)
  | inf (s : Bool)
  | fin (s : Bool) (m : Nat) (e : Int)
deriving DecidableEq, Repr

/-- Rounding rules: the three of R149 and "rounded up" (R155). -/
inductive Rnd where
  | nearestEven
  | stochastic (bits : Nat)
  | towardZero
  | up
deriving DecidableEq, Repr

/-- Bits needed to write `n`. -/
def bitLen (n : Nat) : Nat := if n = 0 then 0 else Nat.log2 n + 1

/-- 2^e for e ≥ 0, as a natural number factor; 1 for e < 0. -/
def pow2N (e : Int) : Nat := 2 ^ e.toNat

/-- Divide a magnitude by 2^sh under a rounding rule (R149). Stochastic rounding adds 16 random bits
below the last place and truncates. -/
def roundShift (rnd : Rnd) (m : Nat) (sh : Nat) : Nat :=
  if sh = 0 then m else
  match rnd with
  | .towardZero => m >>> sh
  | .up => (m + 2 ^ sh - 1) >>> sh
  | .stochastic r => (m * 2 ^ 16 + (r % 2 ^ 16) * 2 ^ sh) >>> (16 + sh)
  | .nearestEven =>
    let q := m >>> sh
    let rem := m % 2 ^ sh
    let half := 2 ^ (sh - 1)
    if rem > half ∨ (rem = half ∧ q % 2 = 1) then q + 1 else q

/-- Round m * 2^e to a multiple of 2^q with at most `p` significant bits and q ≥ qmin; gives (m', q)
with the value m' * 2^q. -/
def roundSig (rnd : Rnd) (p : Nat) (qmin : Int) (m : Nat) (e : Int) : Nat × Int :=
  if m = 0 then (0, qmin) else
  let q : Int := max qmin (e + (bitLen m : Int) - (p : Int))
  let m' := if q ≤ e then m * pow2N (e - q) else roundShift rnd m (q - e).toNat
  if bitLen m' > p then (m' / 2, q + 1) else (m', q)

/-! ## BF16 and FP32 (R146) -/

/-- Decode an IEEE binary32 number. -/
def decF32 (b : W32) : FV :=
  let n := b.toNat
  let s := decide (n / 2 ^ 31 = 1)
  let ex : Nat := (n / 2 ^ 23) % 256
  let man := n % 2 ^ 23
  if ex = 255 then (if man = 0 then .inf s else .nan s)
  else if ex = 0 then .fin s man (-149)
  else .fin s (man + 2 ^ 23) ((ex : Int) - 150)

/-- Decode a BF16 number: the upper half of a binary32 (R146). -/
def decBF16 (b : W16) : FV := decF32 (BitVec.ofNat 32 (b.toNat * 65536))

def signBit (s : Bool) : Nat := if s then 1 else 0

/-- Encode a rounded magnitude m * 2^q (m < 2^24, q ≥ -149) in binary32; an exponent past the format
gives infinity. -/
def packF32 (s : Bool) (m : Nat) (q : Int) : W32 :=
  if m < 2 ^ 23 ∧ q > -149 then BitVec.ofNat 32 (signBit s * 2 ^ 31)
  else if m < 2 ^ 23 then BitVec.ofNat 32 (signBit s * 2 ^ 31 + m)
  else if q + 150 ≥ 255 then BitVec.ofNat 32 (signBit s * 2 ^ 31 + 255 * 2 ^ 23)
  else BitVec.ofNat 32 (signBit s * 2 ^ 31 + (q + 150).toNat * 2 ^ 23 + (m - 2 ^ 23))

/-- The quiet NaN with the sign kept and the payload cleared (R146). -/
def quietNaN (s : Bool) : W32 := BitVec.ofNat 32 (signBit s * 2 ^ 31 + 0x7FC00000)

/-- The FP32 nearest a value (IEEE 754; overflow gives infinity, R145, R150). -/
def encF32 (v : FV) (rnd : Rnd := .nearestEven) : W32 :=
  match v with
  | .nan s => quietNaN s
  | .inf s => BitVec.ofNat 32 (signBit s * 2 ^ 31 + 255 * 2 ^ 23)
  | .fin s m e => let r := roundSig rnd 24 (-149) m e; packF32 s r.1 r.2

/-- Round a value to FP32 and back. -/
def rF32 (v : FV) : FV := decF32 (encF32 v)

/-! ## Exact arithmetic -/

def FV.neg : FV → FV
  | .nan s => .nan (!s)
  | .inf s => .inf (!s)
  | .fin s m e => .fin (!s) m e

def FV.abs : FV → FV
  | .nan _ => .nan false
  | .inf _ => .inf false
  | .fin _ m e => .fin false m e

def FV.isZero : FV → Bool
  | .fin _ 0 _ => true
  | _ => false

def FV.isNaN : FV → Bool
  | .nan _ => true
  | _ => false

def FV.isFinite : FV → Bool
  | .fin _ _ _ => true
  | _ => false

def FV.zero : FV := .fin false 0 0

/-- An integer as a value. -/
def FV.ofInt (i : Int) : FV := .fin (decide (i < 0)) i.natAbs 0

/-- The signed magnitude of a finite value at exponent `q` ≤ e. -/
def signedAt (s : Bool) (m : Nat) (e q : Int) : Int :=
  let a : Int := (m * pow2N (e - q) : Nat)
  if s then -a else a

/-- Exact sum; a zero sum is +0 unless both addends are -0 (IEEE 754). -/
def FV.add : FV → FV → FV
  | .nan s, _ => .nan s
  | _, .nan s => .nan s
  | .inf s, .inf t => if s = t then .inf s else .nan false
  | .inf s, _ => .inf s
  | _, .inf t => .inf t
  | .fin s m e, .fin t n f =>
    let q := min e f
    let r := signedAt s m e q + signedAt t n f q
    if r = 0 then .fin (s && t) 0 0 else .fin (decide (r < 0)) r.natAbs q

/-- Difference; a NaN keeps its sign (R146). -/
def FV.sub (a b : FV) : FV := FV.add a (if b.isNaN then b else b.neg)

/-- The NaN that a row with a NaN gives: the first one met, its sign kept (R146). -/
def FV.nanOf (l : List FV) : FV := (l.find? FV.isNaN).getD (.nan false)

/-- Exact product. -/
def FV.mul : FV → FV → FV
  | .nan s, _ => .nan s
  | _, .nan s => .nan s
  | .inf s, .inf t => .inf (s != t)
  | .inf s, .fin t m _ => if m = 0 then .nan false else .inf (s != t)
  | .fin s m _, .inf t => if m = 0 then .nan false else .inf (s != t)
  | .fin s m e, .fin t n f => .fin (s != t) (m * n) (e + f)

/-- Quotient with 80 bits and a sticky bit, so that every later rounding to a format is the rounding
of the exact quotient. -/
def FV.div : FV → FV → FV
  | .nan s, _ => .nan s
  | _, .nan s => .nan s
  | .inf _, .inf _ => .nan false
  | .inf s, .fin t _ _ => .inf (s != t)
  | .fin s _ _, .inf t => .fin (s != t) 0 0
  | .fin s m e, .fin t n f =>
    if n = 0 then (if m = 0 then .nan false else .inf (s != t))
    else
      let sh := 80 + bitLen n
      let q := m * 2 ^ sh / n
      let sticky := if m * 2 ^ sh % n = 0 then 0 else 1
      .fin (s != t) (2 * q + sticky) (e - f - sh - 1)

/-- Square root with a sticky bit; of a negative number NaN. -/
def FV.sqrt : FV → FV
  | .nan s => .nan s
  | .inf s => if s then .nan false else .inf false
  | .fin s m e =>
    if m = 0 then .fin s 0 0 else if s then .nan false
    else
      let e' := if e % 2 = 0 then e else e - 1
      let m' := if e % 2 = 0 then m else 2 * m
      let big := m' * 2 ^ 160
      let r := Nat.sqrt big
      let sticky := if r * r = big then 0 else 1
      .fin false (2 * r + sticky) (e' / 2 - 81)

/-- Order of two values; NaN compares false (IEEE 754). -/
def FV.lt : FV → FV → Bool
  | .nan _, _ => false
  | _, .nan _ => false
  | .inf s, .inf t => s && !t
  | .inf s, .fin _ _ _ => s
  | .fin _ _ _, .inf t => !t
  | .fin s m e, .fin t n f =>
    let q := min e f
    decide (signedAt s m e q < signedAt t n f q)

def FV.le (a b : FV) : Bool := !a.isNaN && !b.isNaN && !(FV.lt b a)

/-- The larger of two values; a NaN operand gives NaN. -/
def FV.maxV (a b : FV) : FV := if a.isNaN then a else if b.isNaN then b else if a.lt b then b else a
def FV.minV (a b : FV) : FV := if a.isNaN then a else if b.isNaN then b else if b.lt a then b else a

/-! ## Element formats (R74, R139 to R147) -/

/-- The format codes of R74; codes 0xC to 0xF are reserved. -/
inductive Fmt where
  | ternary | int2 | int4 | fp4 | fp6e3 | fp6e2 | fp8e4 | fp8e5 | int8 | bf16 | fp32 | l4
deriving DecidableEq, Repr

def Fmt.ofCode : Nat → Option Fmt
  | 0 => some .ternary | 1 => some .int2 | 2 => some .int4 | 3 => some .fp4 | 4 => some .fp6e3
  | 5 => some .fp6e2 | 6 => some .fp8e4 | 7 => some .fp8e5 | 8 => some .int8 | 9 => some .bf16
  | 10 => some .fp32 | 11 => some .l4 | _ => none

/-- Element width in bits (R139). -/
def Fmt.bits : Fmt → Nat
  | .ternary => 2 | .int2 => 2 | .int4 => 4 | .fp4 => 4 | .fp6e3 => 6 | .fp6e2 => 6 | .fp8e4 => 8
  | .fp8e5 => 8 | .int8 => 8 | .bf16 => 16 | .fp32 => 32 | .l4 => 4

/-- The formats with an E8M0 scale per 32 elements (R139). -/
def Fmt.blockScaled : Fmt → Bool
  | .fp4 | .fp6e3 | .fp6e2 | .fp8e4 | .fp8e5 | .int8 | .l4 => true
  | _ => false

/-- The formats that MMA accumulates in INT32 (R78). INT8 carries a block scale (R139), so its sums are
scaled into the FP32 accumulator (R145). -/
def Fmt.integer : Fmt → Bool
  | .ternary | .int2 | .int4 => true
  | _ => false

/-- Exponent bits, mantissa bits and bias of a small float (R143). -/
def Fmt.small : Fmt → Option (Nat × Nat × Int)
  | .fp4 => some (2, 1, 1) | .fp6e3 => some (3, 2, 3) | .fp6e2 => some (2, 3, 1)
  | .fp8e4 => some (4, 3, 7) | .fp8e5 => some (5, 2, 15) | _ => none

/-- Two's complement value of a code of `w` bits. -/
def twos (w code : Nat) : Int := if code < 2 ^ (w - 1) then code else (code : Int) - 2 ^ w

/-- 2^-0.5 rounded to nearest in FP32 (R148): 11863283 * 2^-24. -/
def l4Root : FV := .fin false 11863283 (-24)

/-- The value of an L4 magnitude code (R147): 2^((c - 7)/2), the halves of an octave through R148. -/
def l4Value (s : Bool) (c : Nat) : FV :=
  if c = 0 then .fin false 0 0
  else if (7 - c) % 2 = 0 then .fin s 1 (-((7 - c) / 2 : Nat))
  else match l4Root with
    | .fin _ m e => .fin s m (e - ((7 - c) / 2 : Nat))
    | v => v

/-- Decode one element before its scale; the flag marks an invalid code (R142, R147). -/
def decElem (f : Fmt) (code : Nat) : FV × Bool :=
  match f with
  | .ternary =>
    if code = 1 then (.fin false 1 0, false) else if code = 2 then (.fin true 1 0, false)
    else (.fin false 0 0, code = 3)
  | .int2 => (FV.ofInt (twos 2 code), false)
  | .int4 => (FV.ofInt (twos 4 code), false)
  | .int8 => let i := twos 8 code; (.fin (decide (i < 0)) i.natAbs (-6), false)
  | .bf16 => (decBF16 (BitVec.ofNat 16 code), false)
  | .fp32 => (decF32 (BitVec.ofNat 32 code), false)
  | .l4 => (l4Value (decide (code / 8 = 1)) (code % 8), code = 8)
  | .fp4 | .fp6e3 | .fp6e2 | .fp8e4 | .fp8e5 =>
    match f.small with
    | none => (.fin false 0 0, false)
    | some (eb, mb, bias) =>
      let s := decide (code / 2 ^ (eb + mb) % 2 = 1)
      let ex : Nat := code / 2 ^ mb % 2 ^ eb
      let man := code % 2 ^ mb
      if f = .fp8e4 ∧ ex = 15 ∧ man = 7 then (.nan s, false)
      else if f = .fp8e5 ∧ ex = 31 then ((if man = 0 then .inf s else .nan s), false)
      else if ex = 0 then (.fin s man (1 - bias - mb), false)
      else (.fin s (man + 2 ^ mb) (ex - bias - mb), false)

/-- The value of an E8M0 scale byte; 0xFF is the NaN block (R144). -/
def decE8M0 (e : Nat) : FV := if e = 255 then .nan false else .fin false 1 ((e : Int) - 127)

/-- What a conversion counts (R150): a nonfinite value replaced, or a finite value clamped. -/
structure ConvCount where
  nonfinite : Nat := 0
  saturated : Nat := 0
deriving DecidableEq, Repr

def ConvCount.add (a b : ConvCount) : ConvCount :=
  { nonfinite := a.nonfinite + b.nonfinite, saturated := a.saturated + b.saturated }

/-- Largest finite magnitude of a small float, as (m, e) (R143). -/
def Fmt.largest : Fmt → Nat × Int
  | .fp4 => (3, 1) | .fp6e3 => (7, 2) | .fp6e2 => (15, -1) | .fp8e4 => (7, 6) | .fp8e5 => (7, 13)
  | .int8 => (127, -6) | .l4 => (1, 0) | .int4 => (7, 0) | .int2 => (1, 0) | .ternary => (1, 0)
  | .bf16 => (255, 120) | .fp32 => (2 ^ 24 - 1, 104)

/-- Code of the largest value of a format, by sign. -/
def Fmt.largestCode (f : Fmt) (s : Bool) : Nat :=
  match f with
  | .ternary => if s then 2 else 1
  | .int2 => if s then 2 else 1
  | .int4 => if s then 8 else 7
  | .int8 => if s then 0x80 else 0x7F
  | .fp4 => signBit s * 8 + 7
  | .fp6e3 => signBit s * 32 + 31
  | .fp6e2 => signBit s * 32 + 31
  | .fp8e4 => signBit s * 128 + 0x7E
  | .fp8e5 => signBit s * 128 + 0x7B
  | .l4 => signBit s * 8 + 7
  | .bf16 => signBit s * 2 ^ 15 + 0x7F7F
  | .fp32 => signBit s * 2 ^ 31 + 0x7F7FFFFF

/-- Is the exact magnitude m * 2^e above n * 2^f? -/
def magGt (m : Nat) (e : Int) (n : Nat) (f : Int) : Bool :=
  let q := min e f
  decide (m * pow2N (e - q) > n * pow2N (f - q))

/-- The boundaries of R147 squared are exact: code c is taken from 2^((c - 7.5)/2) on, so compare
fourth powers: v^4 ≥ 2^(2c - 15) for c ≥ 2. The boundary of code 1 is 0.0625 (a tie goes to 0). -/
def l4Code (rnd : Rnd) (m : Nat) (e : Int) : Nat :=
  let down := (List.range 7).foldl (fun (c : Nat) (i : Nat) =>
    let lv := l4Value false (i + 1)
    match lv with
    | .fin _ lm le => if magGt lm le m e then c else i + 1
    | _ => c) 0
  match rnd with
  | .towardZero => down
  | .stochastic r =>
    if down ≥ 7 then 7 else
    match l4Value false down, l4Value false (down + 1) with
    | .fin _ lm le, .fin _ um ue =>
      let q := min e (min le ue)
      let v := m * pow2N (e - q); let lo := lm * pow2N (le - q); let hi := um * pow2N (ue - q)
      if (v - lo) * 2 ^ 16 + (r % 2 ^ 16) * (hi - lo) ≥ 2 ^ 16 * (hi - lo) then down + 1 else down
    | _, _ => down
  | _ =>
    (List.range 7).foldl (fun (c : Nat) (i : Nat) =>
      let k := i + 1
      if k = 1 then (if magGt m e 1 (-4) then 1 else c)
      else
        -- m^4 * 2^(4e) ≥ 2^(2k - 15)
        if magGt 1 (2 * (k : Int) - 15) (m ^ 4) (4 * e) then c else k) 0

/-- Round an exact finite value into a format's code, clamping beyond the largest (R149, R150). DESIGN CHOICE: a
value is beyond the largest when what it rounds to is (R150 does not say whether the value is judged before or after
rounding; log 175): 450 into FP8 E4M3 gives 448 and counts no saturation. -/
def encFinite (f : Fmt) (rnd : Rnd) (s : Bool) (m : Nat) (e : Int) : Nat × ConvCount :=
  match f with
  | .ternary | .int2 | .int4 | .int8 =>
    let w := f.bits
    let q : Int := if f = .int8 then -6 else 0
    let r := if q ≤ e then m * pow2N (e - q) else roundShift rnd m (q - e).toNat
    let hi := if s ∧ f ≠ .ternary then 2 ^ (w - 1) else (if f = .ternary then 1 else 2 ^ (w - 1) - 1)
    let c := min r hi
    let code :=
      if f = .ternary then (if c = 0 then 0 else if s then 2 else 1)
      else if s ∧ c ≠ 0 then 2 ^ w - c else c
    (code, { saturated := if r > hi then 1 else 0 })
  | .l4 =>
    let sat := magGt m e 1 0
    let c := if sat then 7 else l4Code rnd m e
    ((if c = 0 then 0 else signBit s * 8 + c), { saturated := if sat then 1 else 0 })
  | .bf16 =>
    let r := roundSig rnd 8 (-133) m e
    if magGt r.1 r.2 255 120 then (f.largestCode s, { saturated := 1 })
    else ((packF32 s (r.1 * 2 ^ 16) (r.2 - 16)).toNat / 65536, {})
  | .fp32 =>
    let r := roundSig rnd 24 (-149) m e
    if magGt r.1 r.2 (2 ^ 24 - 1) 104 then (f.largestCode s, { saturated := 1 })
    else ((packF32 s r.1 r.2).toNat, {})
  | .fp4 | .fp6e3 | .fp6e2 | .fp8e4 | .fp8e5 =>
    match f.small with
    | none => (0, {})
    | some (eb, mb, bias) =>
      let qmin : Int := 1 - bias - mb
      let r := roundSig rnd (mb + 1) qmin m e
      let big := f.largest
      if magGt r.1 r.2 big.1 big.2 then (f.largestCode s, { saturated := 1 })
      else
        let sg := signBit s * 2 ^ (eb + mb)
        if r.1 < 2 ^ mb then (sg + r.1, {})
        else (sg + (r.2 + bias + mb).toNat * 2 ^ mb + (r.1 - 2 ^ mb), {})

/-- Convert an FP32 value into a format's code (R149, R150). -/
def encElem (f : Fmt) (rnd : Rnd) (v : FV) : Nat × ConvCount :=
  match v with
  | .nan s =>
    match f with
    | .bf16 => ((quietNaN s).toNat / 65536, {})
    | .fp32 => ((quietNaN s).toNat, {})
    | .fp8e4 => (signBit s * 128 + 0x7F, {})
    | .fp8e5 => (signBit s * 128 + 0x7E, {})
    | _ => (0, { nonfinite := 1 })
  | .inf s =>
    match f with
    | .bf16 => (signBit s * 2 ^ 15 + 0x7F80, {})
    | .fp32 => (signBit s * 2 ^ 31 + 255 * 2 ^ 23, {})
    | .fp8e5 => (signBit s * 128 + 0x7C, {})
    | _ => (f.largestCode s, { nonfinite := 1 })
  | .fin s m e =>
    if m = 0 then
      match f with
      | .bf16 => (signBit s * 2 ^ 15, {})
      | .fp32 => (signBit s * 2 ^ 31, {})
      | .fp8e4 | .fp8e5 => (signBit s * 128, {})
      | _ => (0, {})
    else encFinite f rnd s m e

/-! ## Packed areas (R72, R141, R143): element j of a row in bits j*w to j*w + w - 1 -/

/-- Element `j` of width `w` in a row's bytes. -/
def elemAt (row : List Byte) (w j : Nat) : Nat :=
  let lo := j * w
  let window := leNat (slice row (lo / 8) ((lo % 8 + w + 7) / 8))
  (window >>> (lo % 8)) % 2 ^ w

/-- Pack codes of width `w` into bytes, from bit 0 of byte 0 upward. -/
def packElems (w : Nat) (codes : List Nat) : List Byte :=
  let n := codes.foldr (fun c acc => acc * 2 ^ w + c % 2 ^ w) 0
  natLe n ((codes.length * w + 7) / 8)

/-- Bytes of a row of `n` elements. -/
def rowBytes (w n : Nat) : Nat := (n * w + 7) / 8

/-! ## Reference values in fixed point

`fx` values are integers scaled by 2^320, wide enough that the error of the reference is far below
every bound of R162. -/

def fxBits : Nat := 320
def fxOne : Int := (2 ^ fxBits : Nat)

/-- A finite value as fixed point (exact for every FP32 value). -/
def fxOf : FV → Int
  | .fin s m e => signedAt s (m * 2 ^ fxBits) e (min e 0) / (pow2N (-(min e 0)) : Int)
  | _ => 0

/-- A fixed-point number as a value. -/
def fxVal (x : Int) : FV := .fin (decide (x < 0)) x.natAbs (-(fxBits : Int))

def fxMul (a b : Int) : Int := a * b / fxOne
def fxDiv (a b : Int) : Int := if b = 0 then 0 else a * fxOne / b

/-- exp in fixed point: Taylor at x / 1024, then ten squarings. Below -220 the result is 0. -/
def fxExp (x : Int) : Int :=
  if x < -(220 * fxOne) then 0 else
  let r := x / 1024
  let t := (List.range 60).foldl
    (fun (p : Int × Int) (i : Nat) => let term := p.1 * r / fxOne / ((i : Int) + 1); (term, p.2 + term)) (fxOne, fxOne)
  (List.range 10).foldl (fun y _ => fxMul y y) t.2

/-- Natural logarithm of a positive fixed-point number, by Newton steps on `fxExp`. -/
def fxLn (x : Int) : Int :=
  if x ≤ 0 then 0 else
  let guess : Int := ((bitLen x.natAbs : Int) - fxBits) * fxOne * 693147 / 1000000
  (List.range 12).foldl (fun y _ => y + fxMul x (fxExp (-y)) - fxOne) guess

def fxTanh (x : Int) : Int :=
  if x > 100 * fxOne then fxOne else if x < -(100 * fxOne) then -fxOne
  else let e := fxExp (2 * x); fxDiv (e - fxOne) (e + fxOne)

def fxSigmoid (x : Int) : Int :=
  if x > 150 * fxOne then fxOne else if x < -(150 * fxOne) then 0
  else fxDiv fxOne (fxOne + fxExp (-x))

def fxSilu (x : Int) : Int := fxMul x (fxSigmoid x)

/-- sqrt(2/pi) to 60 decimals. -/
def fxGeluC : Int :=
  fxOne * 797884560802865355879892119868763736951717262329869315331851 /
    1000000000000000000000000000000000000000000000000000000000000

/-- GELU in tanh form (R83): 0.5 x (1 + tanh(sqrt(2/pi) (x + 0.044715 x^3))). -/
def fxGelu (x : Int) : Int :=
  let inner := fxMul fxGeluC (x + fxMul (fxMul (fxMul x x) x) (fxOne * 44715 / 1000000))
  fxMul x (fxOne + fxTanh inner) / 2

/-- log2 e to 100 decimals, in fixed point. -/
def fxLog2e : Int :=
  fxOne * 14426950408889634073599246810018921374266459541529859341354494069311092191811850798855266228935063444 /
    (10 ^ 100 : Nat)

/-- 2^x in fixed point, through exp. -/
def fxExp2 (x : Int) : Int := fxExp (fxDiv x fxLog2e)

/-- pi to 200 decimals, for the reduction of angles. -/
def fxPiDigits : Nat :=
  314159265358979323846264338327950288419716939937510582097494459230781640628620899862803482534211706798214808651328230664709384460955058223172535940812848111745028410270193852110555964462294895493038196

/-- Sine and cosine of an angle in fixed point: reduced by 2 pi, then Taylor at x / 64 and six doublings. -/
def fxSinCos (x : Int) : Int × Int :=
  let turns := x * (10 ^ 200 : Nat) / (2 * (fxPiDigits : Int) * fxOne)
  let r := x - turns * (2 * (fxPiDigits : Int)) * fxOne / (10 ^ 200 : Nat)
  let y := r / 64
  let y2 := fxMul y y
  let st := (List.range 25).foldl (fun (p : Int × Int) (i : Nat) =>
    let t := -(fxMul p.1 y2) / (((2 * i + 2) * (2 * i + 3) : Nat) : Int); (t, p.2 + t)) (y, y)
  let ct := (List.range 25).foldl (fun (p : Int × Int) (i : Nat) =>
    let t := -(fxMul p.1 y2) / (((2 * i + 1) * (2 * i + 2) : Nat) : Int); (t, p.2 + t)) (fxOne, fxOne)
  (List.range 6).foldl (fun (p : Int × Int) _ =>
    (2 * fxMul p.1 p.2, fxMul p.2 p.2 - fxMul p.1 p.1)) (st.2, ct.2)

def fxSqrt (x : Int) : Int := if x ≤ 0 then 0 else (Nat.sqrt (x.toNat * 2 ^ fxBits) : Int)

/-- Is an FP32 word within a tolerance of a reference? Both are fixed point. -/
def fxWithin (word : W32) (ref tol : Int) : Bool :=
  match decF32 word with
  | .fin s m e => decide ((fxOf (.fin s m e) - ref).natAbs ≤ tol.natAbs)
  | _ => false

/-- A result that the manual only bounds: a free value inside the bound, else the reference rounded
to nearest. `n` numbers the draw. -/
def freeNear (n : Nat) (ref tol : Int) : W32 :=
  if fxWithin (Config.freeF32 n) ref tol then Config.freeF32 n else encF32 (fxVal ref)

/-- ceil(log2 n). -/
def clog2 (n : Nat) : Nat := if n ≤ 1 then 0 else Nat.log2 (n - 1) + 1

/-! ## SplitMix64 (R265) -/

/-- SplitMix64's output for a state word. -/
def splitMix64 (x : W64) : W64 :=
  let z0 := x + 0x9E3779B97F4A7C15#64
  let z1 := (z0 ^^^ (z0 >>> 30)) * 0xBF58476D1CE4E5B9#64
  let z2 := (z1 ^^^ (z1 >>> 27)) * 0x94D049BB133111EB#64
  z2 ^^^ (z2 >>> 31)

/-- The draw of R265 as a numerator over 2^24. -/
def sampleDraw (seed : W64) (position : Nat) : Nat :=
  (splitMix64 (seed + BitVec.ofNat 64 position * 0x9E3779B97F4A7C15#64)).toNat >>> 40

end Sys2Proof.Machine
end

