-- ==== Sys2Proof/Machine/Objects.lean ====
section
/-! DEFINITION. The object dictionary (R487, R494 to R512): one row per object, with its type, access,
reset default, range and scope, and the number by which State keeps each object.
An object's number is its index * 256 + its subindex. -/

namespace Sys2Proof.Machine

/-- Types of R475. -/
inductive ObjType where
  | bool | u8 | u16 | u32 | u64 | i16 | enum8 | bits32 | f32 | str | domain
deriving DecidableEq, Repr

/-- Access of an object (R487). -/
inductive Access where
  | ro | rw | rws | cmd | wo
deriving DecidableEq, Repr

/-- One object. `index` is that of partition or class 0 where R488 gives one per partition or class.
`dflt`, `lo` and `hi` are for scalars; `size` is the scalar's width in bytes or the most bytes a
writable DOMAIN holds; `perPart` marks the partition-scoped RWS objects (R414). -/
structure Obj where
  index : Nat
  sub : Nat
  type : ObjType
  access : Access
  dflt : Nat
  lo : Nat
  hi : Nat
  size : Nat
  perPart : Bool
deriving DecidableEq, Repr

def objRows0 : List Obj := [
  ⟨0x1000, 0x01, .str, .ro, 0, 0, 0, 0, false⟩,
  ⟨0x1000, 0x02, .str, .ro, 0, 0, 0, 0, false⟩,
  ⟨0x1000, 0x03, .str, .ro, 0, 0, 0, 0, false⟩,
  ⟨0x1000, 0x04, .str, .ro, 0, 0, 0, 0, false⟩,
  ⟨0x1000, 0x05, .u16, .ro, 1, 0, 65535, 2, false⟩,
  ⟨0x1000, 0x06, .u16, .ro, 256, 0, 65535, 2, false⟩,
  ⟨0x1000, 0x07, .u16, .ro, 257, 0, 65535, 2, false⟩,
  ⟨0x1000, 0x08, .str, .ro, 0, 0, 0, 0, false⟩,
  ⟨0x1000, 0x09, .u16, .ro, 1, 0, 65535, 2, false⟩,
  ⟨0x1000, 0x0A, .u32, .ro, 20260101, 0, 4294967295, 4, false⟩,
  ⟨0x1000, 0x20, .enum8, .ro, 0, 0, 255, 1, false⟩,
  ⟨0x1000, 0x21, .enum8, .ro, 0, 0, 255, 1, false⟩,
  ⟨0x1000, 0x22, .enum8, .ro, 0, 0, 255, 1, false⟩,
  ⟨0x1000, 0x23, .u32, .ro, 0, 0, 4294967295, 4, false⟩,
  ⟨0x1000, 0x24, .u8, .ro, 0, 0, 255, 1, false⟩,
  ⟨0x1000, 0x25, .u8, .ro, 0, 0, 255, 1, false⟩,
  ⟨0x1000, 0x26, .bool, .cmd, 0, 0, 1, 1, false⟩,
  ⟨0x1000, 0x27, .bool, .ro, 0, 0, 1, 1, false⟩,
  ⟨0x1000, 0x28, .u64, .ro, 0, 0, 18446744073709551615, 8, false⟩,
  ⟨0x1100, 0x01, .domain, .rws, 0, 0, 0, 34, false⟩,
  ⟨0x1100, 0x02, .u16, .rws, 47810, 1024, 65535, 2, false⟩,
  ⟨0x1100, 0x03, .bits32, .rws, 3, 0, 3, 4, false⟩,
  ⟨0x1100, 0x04, .u8, .rw, 16, 1, 32, 1, false⟩,
  ⟨0x1100, 0x05, .u16, .rw, 60, 10, 3600, 2, false⟩,
  ⟨0x1100, 0x06, .u16, .rw, 2000, 100, 10000, 2, false⟩,
  ⟨0x1100, 0x07, .u8, .ro, 0, 0, 255, 1, false⟩,
  ⟨0x1100, 0x08, .u32, .ro, 0, 0, 4294967295, 4, false⟩,
  ⟨0x1100, 0x09, .u32, .ro, 0, 0, 4294967295, 4, false⟩,
  ⟨0x1100, 0x0A, .u64, .ro, 0, 0, 18446744073709551615, 8, false⟩,
  ⟨0x1100, 0x0B, .u64, .ro, 0, 0, 18446744073709551615, 8, false⟩,
  ⟨0x1100, 0x0C, .u64, .ro, 0, 0, 18446744073709551615, 8, false⟩,
  ⟨0x1200, 0x01, .u32, .ro, 1, 0, 4294967295, 4, false⟩,
  ⟨0x1200, 0x02, .u8, .ro, 0, 0, 255, 1, false⟩,
  ⟨0x1200, 0x03, .u32, .ro, 0, 0, 4294967295, 4, false⟩,
  ⟨0x1200, 0x10, .domain, .ro, 0, 0, 0, 12, false⟩,
  ⟨0x1200, 0x11, .u16, .rw, 10, 1, 1000, 2, false⟩,
  ⟨0x1200, 0x12, .u32, .ro, 0, 0, 4294967295, 4, false⟩,
  ⟨0x2000, 0x01, .enum8, .ro, 0, 0, 255, 1, false⟩,
  ⟨0x2000, 0x02, .u16, .ro, 820, 0, 65535, 2, false⟩,
  ⟨0x2000, 0x03, .u32, .ro, 25000, 0, 4294967295, 4, false⟩]

def objRows1 : List Obj := [
  ⟨0x2000, 0x04, .u64, .ro, 0, 0, 18446744073709551615, 8, false⟩,
  ⟨0x2000, 0x05, .u8, .ro, 14, 0, 255, 1, false⟩,
  ⟨0x2100, 0x01, .u16, .ro, 240, 0, 65535, 2, false⟩,
  ⟨0x2100, 0x02, .u16, .ro, 1200, 0, 65535, 2, false⟩,
  ⟨0x2100, 0x03, .domain, .ro, 0, 0, 0, 0, false⟩,
  ⟨0x2100, 0x04, .domain, .rws, 0, 0, 0, 288, true⟩,
  ⟨0x2100, 0x05, .domain, .ro, 0, 0, 0, 0, false⟩,
  ⟨0x2100, 0x06, .u64, .ro, 0, 0, 18446744073709551615, 8, false⟩,
  ⟨0x2100, 0x07, .u16, .ro, 0, 0, 65535, 2, false⟩,
  ⟨0x2100, 0x08, .u32, .ro, 0, 0, 4294967295, 4, false⟩,
  ⟨0x2100, 0x09, .u64, .ro, 0, 0, 18446744073709551615, 8, false⟩,
  ⟨0x2100, 0x0A, .bits32, .ro, 0, 0, 4294967295, 4, false⟩,
  ⟨0x2100, 0x0B, .domain, .ro, 0, 0, 0, 0, false⟩,
  ⟨0x2100, 0x0C, .domain, .ro, 0, 0, 0, 0, false⟩,
  ⟨0x2100, 0x0D, .u32, .rw, 100, 0, 600000, 4, false⟩,
  ⟨0x2100, 0x0E, .u16, .ro, 0, 0, 65535, 2, false⟩,
  ⟨0x2100, 0x0F, .bool, .ro, 0, 0, 1, 1, false⟩,
  ⟨0x2100, 0x10, .u32, .ro, 0, 0, 4294967295, 4, false⟩,
  ⟨0x2100, 0x11, .u32, .ro, 0, 0, 4294967295, 4, false⟩,
  ⟨0x2200, 0x01, .u16, .ro, 625, 0, 65535, 2, false⟩,
  ⟨0x2200, 0x02, .u16, .ro, 250, 0, 65535, 2, false⟩,
  ⟨0x2200, 0x03, .domain, .ro, 0, 0, 0, 0, false⟩,
  ⟨0x2200, 0x04, .u32, .ro, 0, 0, 4294967295, 4, false⟩,
  ⟨0x2200, 0x05, .u64, .ro, 0, 0, 18446744073709551615, 8, false⟩,
  ⟨0x2200, 0x06, .u64, .ro, 0, 0, 18446744073709551615, 8, false⟩,
  ⟨0x2200, 0x07, .u32, .ro, 0, 0, 4294967295, 4, false⟩,
  ⟨0x2200, 0x08, .domain, .ro, 0, 0, 0, 0, false⟩,
  ⟨0x2200, 0x09, .domain, .ro, 0, 0, 0, 0, false⟩,
  ⟨0x2200, 0x0A, .domain, .ro, 0, 0, 0, 0, false⟩,
  ⟨0x3000, 0x01, .domain, .rws, 0, 0, 0, 5, false⟩,
  ⟨0x3000, 0x02, .domain, .rws, 0, 0, 0, 5, false⟩,
  ⟨0x3000, 0x03, .u8, .rw, 3, 1, 10, 1, false⟩,
  ⟨0x3000, 0x04, .u16, .rw, 100, 10, 10000, 2, false⟩,
  ⟨0x3000, 0x05, .domain, .ro, 0, 0, 0, 0, false⟩,
  ⟨0x3000, 0x06, .domain, .ro, 0, 0, 0, 0, false⟩,
  ⟨0x3000, 0x07, .domain, .ro, 0, 0, 0, 0, false⟩,
  ⟨0x3000, 0x08, .domain, .ro, 0, 0, 0, 0, false⟩,
  ⟨0x3000, 0x09, .u16, .ro, 0, 0, 65535, 2, false⟩,
  ⟨0x3000, 0x0A, .u64, .ro, 0, 0, 18446744073709551615, 8, false⟩,
  ⟨0x3000, 0x0B, .u32, .ro, 0, 0, 4294967295, 4, false⟩]

def objRows2 : List Obj := [
  ⟨0x3000, 0x0C, .u32, .ro, 0, 0, 4294967295, 4, false⟩,
  ⟨0x3000, 0x0D, .domain, .ro, 0, 0, 0, 0, false⟩,
  ⟨0x3000, 0x0E, .u8, .rw, 15, 5, 40, 1, false⟩,
  ⟨0x3100, 0x01, .i16, .ro, 0, 0, 65535, 2, false⟩,
  ⟨0x3100, 0x02, .i16, .ro, 0, 0, 65535, 2, false⟩,
  ⟨0x3100, 0x03, .u16, .ro, 0, 0, 65535, 2, false⟩,
  ⟨0x3100, 0x04, .u16, .ro, 400, 0, 65535, 2, false⟩,
  ⟨0x3100, 0x05, .enum8, .ro, 0, 0, 255, 1, false⟩,
  ⟨0x3100, 0x06, .u32, .ro, 0, 0, 4294967295, 4, false⟩,
  ⟨0x3200, 0x01, .enum8, .ro, 0, 0, 255, 1, false⟩,
  ⟨0x3200, 0x02, .bool, .ro, 0, 0, 1, 1, false⟩,
  ⟨0x3200, 0x03, .u64, .ro, 0, 0, 18446744073709551615, 8, false⟩,
  ⟨0x3200, 0x04, .u32, .ro, 0, 0, 4294967295, 4, false⟩,
  ⟨0x3200, 0x05, .u64, .ro, 0, 0, 18446744073709551615, 8, false⟩,
  ⟨0x3200, 0x06, .u32, .ro, 0, 0, 4294967295, 4, false⟩,
  ⟨0x3200, 0x07, .bool, .ro, 0, 0, 1, 1, false⟩,
  ⟨0x3200, 0x08, .domain, .ro, 0, 0, 0, 0, false⟩,
  ⟨0x3200, 0x09, .u16, .ro, 0, 0, 65535, 2, false⟩,
  ⟨0x4000, 0x01, .enum8, .ro, 0, 0, 255, 1, false⟩,
  ⟨0x4000, 0x02, .u64, .ro, 0, 0, 18446744073709551615, 8, false⟩,
  ⟨0x4000, 0x03, .u32, .rws, 10000, 500, 1000000, 4, true⟩,
  ⟨0x4000, 0x04, .u8, .rws, 2, 0, 2, 1, true⟩,
  ⟨0x4000, 0x05, .u32, .ro, 0, 0, 4294967295, 4, false⟩,
  ⟨0x4000, 0x06, .u32, .ro, 0, 0, 4294967295, 4, false⟩,
  ⟨0x4000, 0x07, .u32, .ro, 0, 0, 4294967295, 4, false⟩,
  ⟨0x4000, 0x08, .bits32, .ro, 0, 0, 4294967295, 4, false⟩,
  ⟨0x4000, 0x09, .u16, .ro, 0, 0, 65535, 2, false⟩,
  ⟨0x4000, 0x0A, .enum8, .ro, 0, 0, 255, 1, false⟩,
  ⟨0x4000, 0x0B, .u8, .ro, 0, 0, 255, 1, false⟩,
  ⟨0x4000, 0x0C, .bool, .ro, 0, 0, 1, 1, false⟩,
  ⟨0x4000, 0x0D, .u32, .ro, 0, 0, 4294967295, 4, false⟩,
  ⟨0x4000, 0x0E, .u32, .ro, 0, 0, 4294967295, 4, false⟩,
  ⟨0x4000, 0x0F, .u32, .rws, 1048576, 256, 1048576, 4, true⟩,
  ⟨0x4000, 0x10, .u32, .rws, 0, 0, 1048576, 4, true⟩,
  ⟨0x4000, 0x11, .u32, .rws, 4096, 0, 4294967295, 4, true⟩,
  ⟨0x4000, 0x12, .u64, .rws, 0, 0, 18446744073709551615, 8, true⟩,
  ⟨0x4000, 0x13, .u32, .rws, 0, 0, 4294967295, 4, true⟩,
  ⟨0x4000, 0x14, .enum8, .rws, 0, 0, 1, 1, true⟩,
  ⟨0x4000, 0x15, .u32, .rws, 32000, 1000, 100000, 4, true⟩,
  ⟨0x4000, 0x16, .domain, .ro, 0, 0, 0, 0, false⟩]

def objRows3 : List Obj := [
  ⟨0x4000, 0x17, .domain, .rw, 0, 0, 0, 32, false⟩,
  ⟨0x4000, 0x18, .u32, .ro, 0, 0, 4294967295, 4, false⟩,
  ⟨0x4000, 0x19, .u16, .ro, 65535, 0, 65535, 2, false⟩,
  ⟨0x4000, 0x1A, .domain, .rw, 0, 0, 0, 4096, false⟩,
  ⟨0x4000, 0x1B, .u32, .rw, 0, 0, 4294967295, 4, false⟩,
  ⟨0x4000, 0x1C, .domain, .rw, 0, 0, 0, 6, false⟩,
  ⟨0x4000, 0x1D, .u8, .ro, 0, 0, 255, 1, false⟩,
  ⟨0x4000, 0x1E, .u32, .ro, 0, 0, 4294967295, 4, false⟩,
  ⟨0x4000, 0x1F, .bool, .cmd, 0, 0, 1, 1, false⟩,
  ⟨0x4000, 0x20, .u64, .ro, 0, 0, 18446744073709551615, 8, false⟩,
  ⟨0x4000, 0x21, .u16, .ro, 65535, 0, 65535, 2, false⟩,
  ⟨0x4000, 0x22, .domain, .rw, 0, 0, 0, 4, false⟩,
  ⟨0x4000, 0x23, .domain, .wo, 0, 0, 0, 1073741824, false⟩,
  ⟨0x4000, 0x24, .bool, .cmd, 0, 0, 1, 1, false⟩,
  ⟨0x4000, 0x25, .enum8, .cmd, 0, 0, 1, 1, false⟩,
  ⟨0x4100, 0x01, .u64, .ro, 0, 0, 18446744073709551615, 8, false⟩,
  ⟨0x4100, 0x02, .u64, .ro, 0, 0, 18446744073709551615, 8, false⟩,
  ⟨0x4100, 0x03, .u64, .ro, 0, 0, 18446744073709551615, 8, false⟩,
  ⟨0x4100, 0x04, .u32, .ro, 0, 0, 4294967295, 4, false⟩,
  ⟨0x4100, 0x05, .u32, .ro, 0, 0, 4294967295, 4, false⟩,
  ⟨0x4100, 0x06, .u32, .ro, 0, 0, 4294967295, 4, false⟩,
  ⟨0x4100, 0x07, .u64, .ro, 0, 0, 18446744073709551615, 8, false⟩,
  ⟨0x4100, 0x08, .u64, .ro, 0, 0, 18446744073709551615, 8, false⟩,
  ⟨0x4100, 0x09, .u64, .ro, 0, 0, 18446744073709551615, 8, false⟩,
  ⟨0x4100, 0x0A, .u64, .ro, 0, 0, 18446744073709551615, 8, false⟩,
  ⟨0x4100, 0x0B, .u64, .ro, 0, 0, 18446744073709551615, 8, false⟩,
  ⟨0x4100, 0x0C, .u16, .ro, 0, 0, 65535, 2, false⟩,
  ⟨0x4100, 0x0D, .u64, .ro, 0, 0, 18446744073709551615, 8, false⟩,
  ⟨0x4100, 0x0E, .u64, .ro, 0, 0, 18446744073709551615, 8, false⟩,
  ⟨0x4100, 0x0F, .domain, .ro, 0, 0, 0, 0, false⟩,
  ⟨0x4100, 0x10, .bool, .cmd, 0, 0, 1, 1, false⟩,
  ⟨0x4100, 0x11, .u64, .ro, 0, 0, 18446744073709551615, 8, false⟩,
  ⟨0x4100, 0x12, .u64, .ro, 0, 0, 18446744073709551615, 8, false⟩,
  ⟨0x4100, 0x13, .u64, .ro, 0, 0, 18446744073709551615, 8, false⟩,
  ⟨0x4100, 0x14, .u64, .ro, 0, 0, 18446744073709551615, 8, false⟩,
  ⟨0x4100, 0x15, .u64, .ro, 0, 0, 18446744073709551615, 8, false⟩,
  ⟨0x4100, 0x16, .u64, .ro, 0, 0, 18446744073709551615, 8, false⟩,
  ⟨0x4100, 0x17, .u64, .ro, 0, 0, 18446744073709551615, 8, false⟩,
  ⟨0x4100, 0x18, .u64, .ro, 0, 0, 18446744073709551615, 8, false⟩,
  ⟨0x4100, 0x19, .u64, .ro, 0, 0, 18446744073709551615, 8, false⟩]

def objRows4 : List Obj := [
  ⟨0x4100, 0x1A, .u8, .ro, 0, 0, 255, 1, false⟩,
  ⟨0x4100, 0x1B, .u64, .ro, 0, 0, 18446744073709551615, 8, false⟩,
  ⟨0x4100, 0x1C, .u64, .ro, 0, 0, 18446744073709551615, 8, false⟩,
  ⟨0x4100, 0x1D, .u64, .ro, 0, 0, 18446744073709551615, 8, false⟩,
  ⟨0x4100, 0x1E, .u64, .ro, 0, 0, 18446744073709551615, 8, false⟩,
  ⟨0x4100, 0x1F, .u64, .ro, 0, 0, 18446744073709551615, 8, false⟩,
  ⟨0x4100, 0x20, .u64, .ro, 0, 0, 18446744073709551615, 8, false⟩,
  ⟨0x4100, 0x21, .u64, .ro, 0, 0, 18446744073709551615, 8, false⟩,
  ⟨0x4100, 0x22, .u64, .ro, 0, 0, 18446744073709551615, 8, false⟩,
  ⟨0x4100, 0x23, .u64, .ro, 0, 0, 18446744073709551615, 8, false⟩,
  ⟨0x4100, 0x24, .u64, .ro, 0, 0, 18446744073709551615, 8, false⟩,
  ⟨0x4100, 0x25, .u64, .ro, 0, 0, 18446744073709551615, 8, false⟩,
  ⟨0x4100, 0x26, .u64, .ro, 0, 0, 18446744073709551615, 8, false⟩,
  ⟨0x4100, 0x27, .u64, .ro, 0, 0, 18446744073709551615, 8, false⟩,
  ⟨0x4100, 0x28, .u64, .ro, 0, 0, 18446744073709551615, 8, false⟩,
  ⟨0x4100, 0x29, .u64, .ro, 0, 0, 18446744073709551615, 8, false⟩,
  ⟨0x4100, 0x2A, .u64, .ro, 0, 0, 18446744073709551615, 8, false⟩,
  ⟨0x4100, 0x2B, .u32, .ro, 0, 0, 4294967295, 4, false⟩,
  ⟨0x4100, 0x2C, .u64, .ro, 0, 0, 18446744073709551615, 8, false⟩,
  ⟨0x5000, 0x01, .u8, .rws, 0, 0, 100, 1, true⟩,
  ⟨0x5000, 0x02, .bool, .rws, 0, 0, 1, 1, true⟩,
  ⟨0x5000, 0x03, .u16, .rws, 4096, 0, 4096, 2, false⟩,
  ⟨0x5000, 0x04, .domain, .rws, 0, 0, 0, 16, false⟩,
  ⟨0x5000, 0x05, .u16, .ro, 0, 0, 65535, 2, false⟩,
  ⟨0x5100, 0x01, .u16, .ro, 0, 0, 65535, 2, false⟩,
  ⟨0x5100, 0x02, .u16, .rws, 0, 0, 4096, 2, true⟩,
  ⟨0x5100, 0x03, .u32, .rws, 512, 1, 1048576, 4, true⟩,
  ⟨0x5100, 0x04, .u32, .ro, 0, 0, 4294967295, 4, false⟩,
  ⟨0x5100, 0x05, .u8, .ro, 0, 0, 255, 1, false⟩,
  ⟨0x5100, 0x06, .bits32, .ro, 0, 0, 4294967295, 4, false⟩,
  ⟨0x5100, 0x07, .domain, .ro, 0, 0, 0, 0, false⟩,
  ⟨0x5100, 0x08, .u32, .ro, 0, 0, 4294967295, 4, false⟩,
  ⟨0x5100, 0x09, .u64, .ro, 0, 0, 18446744073709551615, 8, false⟩,
  ⟨0x5100, 0x0A, .u64, .ro, 0, 0, 18446744073709551615, 8, false⟩,
  ⟨0x5100, 0x0B, .u16, .ro, 0, 0, 65535, 2, false⟩,
  ⟨0x5100, 0x0C, .u16, .ro, 0, 0, 65535, 2, false⟩,
  ⟨0x5100, 0x0D, .u16, .rws, 16, 1, 65535, 2, true⟩,
  ⟨0x5100, 0x0E, .u32, .ro, 0, 0, 4294967295, 4, false⟩,
  ⟨0x5200, 0x01, .f32, .rw, 1065353216, 0, 1120403456, 4, false⟩,
  ⟨0x5200, 0x02, .u16, .rw, 50, 0, 1024, 2, false⟩]

def objRows5 : List Obj := [
  ⟨0x5200, 0x03, .f32, .rw, 1065353216, 1, 1065353216, 4, false⟩,
  ⟨0x5200, 0x04, .f32, .rw, 0, 0, 1065353215, 4, false⟩,
  ⟨0x5200, 0x05, .f32, .rw, 1065353216, 1065353216, 1092616192, 4, false⟩,
  ⟨0x5200, 0x06, .u16, .rw, 256, 0, 1024, 2, false⟩,
  ⟨0x5300, 0x01, .domain, .rws, 0, 0, 0, 512, false⟩,
  ⟨0x5300, 0x02, .u16, .ro, 0, 0, 65535, 2, false⟩,
  ⟨0x5300, 0x03, .domain, .ro, 0, 0, 0, 0, false⟩,
  ⟨0x5300, 0x04, .u16, .cmd, 0, 0, 65535, 2, false⟩,
  ⟨0x5300, 0x05, .u64, .ro, 0, 0, 18446744073709551615, 8, false⟩,
  ⟨0x5300, 0x06, .u64, .ro, 0, 0, 18446744073709551615, 8, false⟩,
  ⟨0x6000, 0x01, .domain, .rws, 0, 0, 0, 576, false⟩,
  ⟨0x6000, 0x02, .domain, .ro, 0, 0, 0, 0, false⟩,
  ⟨0x6000, 0x03, .u16, .ro, 0, 0, 65535, 2, false⟩,
  ⟨0x6000, 0x04, .domain, .ro, 0, 0, 0, 0, false⟩,
  ⟨0x6000, 0x05, .u16, .cmd, 0, 0, 4095, 2, false⟩,
  ⟨0x6000, 0x06, .u16, .cmd, 0, 0, 4095, 2, false⟩,
  ⟨0x6000, 0x07, .bool, .rws, 0, 0, 1, 1, false⟩,
  ⟨0x6000, 0x08, .u32, .rw, 64000, 1000, 120000, 4, false⟩,
  ⟨0x6000, 0x09, .u64, .ro, 0, 0, 18446744073709551615, 8, false⟩,
  ⟨0x6000, 0x0A, .u64, .ro, 0, 0, 18446744073709551615, 8, false⟩,
  ⟨0x6000, 0x0B, .u64, .ro, 0, 0, 18446744073709551615, 8, false⟩,
  ⟨0x6000, 0x0C, .u64, .ro, 0, 0, 18446744073709551615, 8, false⟩,
  ⟨0x6100, 0x01, .domain, .rws, 0, 0, 0, 6, false⟩,
  ⟨0x6100, 0x02, .u32, .rw, 2000, 100, 60000, 4, false⟩,
  ⟨0x6100, 0x03, .u64, .ro, 0, 0, 18446744073709551615, 8, false⟩,
  ⟨0x6100, 0x04, .u64, .ro, 0, 0, 18446744073709551615, 8, false⟩,
  ⟨0x6100, 0x05, .u64, .ro, 0, 0, 18446744073709551615, 8, false⟩,
  ⟨0x6100, 0x06, .u64, .ro, 0, 0, 18446744073709551615, 8, false⟩,
  ⟨0x7000, 0x01, .u32, .rw, 10000, 100, 600000, 4, false⟩,
  ⟨0x7000, 0x02, .u8, .rw, 4, 2, 8, 1, false⟩,
  ⟨0x7000, 0x03, .u32, .rw, 4096, 1024, 1048576, 4, false⟩,
  ⟨0x7000, 0x04, .u32, .rw, 16, 1, 1048576, 4, false⟩,
  ⟨0x7000, 0x05, .u16, .rw, 64, 1, 4096, 2, false⟩,
  ⟨0x7000, 0x06, .u8, .rw, 3, 2, 16, 1, false⟩,
  ⟨0x7000, 0x07, .u32, .ro, 0, 0, 4294967295, 4, false⟩,
  ⟨0x7000, 0x08, .u32, .ro, 0, 0, 4294967295, 4, false⟩,
  ⟨0x7000, 0x09, .u32, .ro, 3538944, 0, 4294967295, 4, false⟩,
  ⟨0x7000, 0x0A, .u32, .ro, 3538944, 0, 4294967295, 4, false⟩,
  ⟨0x7000, 0x0B, .u64, .ro, 0, 0, 18446744073709551615, 8, false⟩,
  ⟨0x7000, 0x0C, .u64, .ro, 0, 0, 18446744073709551615, 8, false⟩]

def objRows6 : List Obj := [
  ⟨0x7000, 0x0D, .u32, .ro, 0, 0, 4294967295, 4, false⟩,
  ⟨0x7000, 0x0E, .u64, .ro, 0, 0, 18446744073709551615, 8, false⟩,
  ⟨0x7000, 0x0F, .domain, .ro, 0, 0, 0, 0, false⟩,
  ⟨0x7000, 0x10, .bool, .cmd, 0, 0, 1, 1, false⟩,
  ⟨0x7100, 0x01, .enum8, .rws, 1, 0, 2, 1, true⟩,
  ⟨0x7100, 0x02, .u64, .ro, 0, 0, 18446744073709551615, 8, false⟩,
  ⟨0x7100, 0x03, .u64, .ro, 0, 0, 18446744073709551615, 8, false⟩,
  ⟨0x7100, 0x04, .u64, .ro, 0, 0, 18446744073709551615, 8, false⟩,
  ⟨0x7100, 0x05, .u64, .ro, 0, 0, 18446744073709551615, 8, false⟩,
  ⟨0x7100, 0x06, .u64, .ro, 0, 0, 18446744073709551615, 8, false⟩,
  ⟨0x7100, 0x07, .f32, .ro, 0, 0, 4294967295, 4, false⟩,
  ⟨0x7100, 0x08, .u64, .ro, 0, 0, 18446744073709551615, 8, false⟩,
  ⟨0x7100, 0x09, .u64, .ro, 0, 0, 18446744073709551615, 8, false⟩,
  ⟨0x7100, 0x0A, .u64, .ro, 0, 0, 18446744073709551615, 8, false⟩,
  ⟨0x7100, 0x0B, .u64, .ro, 0, 0, 18446744073709551615, 8, false⟩,
  ⟨0x7100, 0x0C, .u64, .ro, 0, 0, 18446744073709551615, 8, false⟩,
  ⟨0x7100, 0x0D, .bool, .cmd, 0, 0, 1, 1, false⟩,
  ⟨0x8000, 0x01, .domain, .rws, 0, 0, 0, 3, false⟩,
  ⟨0x8000, 0x02, .domain, .rws, 0, 0, 0, 3, false⟩,
  ⟨0x8000, 0x03, .u64, .ro, 1, 0, 18446744073709551615, 8, false⟩,
  ⟨0x8000, 0x04, .bits32, .rws, 268435455, 0, 268435455, 4, false⟩,
  ⟨0x8000, 0x05, .domain, .ro, 0, 0, 0, 0, false⟩,
  ⟨0x8000, 0x06, .u8, .cmd, 0, 0, 27, 1, false⟩,
  ⟨0x8000, 0x07, .u64, .ro, 0, 0, 18446744073709551615, 8, false⟩,
  ⟨0x8000, 0x08, .u64, .ro, 0, 0, 18446744073709551615, 8, false⟩,
  ⟨0x8000, 0x09, .u64, .ro, 0, 0, 18446744073709551615, 8, false⟩,
  ⟨0x8100, 0x01, .domain, .ro, 0, 0, 0, 0, false⟩,
  ⟨0x8100, 0x02, .u64, .ro, 0, 0, 18446744073709551615, 8, false⟩,
  ⟨0x8100, 0x03, .u64, .ro, 0, 0, 18446744073709551615, 8, false⟩,
  ⟨0x8100, 0x04, .domain, .ro, 0, 0, 0, 0, false⟩,
  ⟨0x8100, 0x05, .domain, .ro, 0, 0, 0, 0, false⟩,
  ⟨0x8100, 0x06, .u32, .ro, 47616, 0, 4294967295, 4, false⟩,
  ⟨0x8100, 0x07, .u64, .ro, 0, 0, 18446744073709551615, 8, false⟩,
  ⟨0x9000, 0x01, .enum8, .ro, 0, 0, 255, 1, false⟩,
  ⟨0x9000, 0x02, .u8, .ro, 0, 0, 255, 1, false⟩,
  ⟨0x9000, 0x03, .u64, .ro, 0, 0, 18446744073709551615, 8, false⟩,
  ⟨0x9000, 0x04, .bool, .cmd, 0, 0, 1, 1, false⟩,
  ⟨0x9000, 0x05, .bool, .cmd, 0, 0, 1, 1, false⟩,
  ⟨0x9000, 0x06, .bool, .cmd, 0, 0, 1, 1, false⟩,
  ⟨0x9000, 0x07, .enum8, .ro, 0, 0, 255, 1, false⟩]

def objRows7 : List Obj := [
  ⟨0x9000, 0x08, .domain, .rws, 0, 0, 0, 48, false⟩,
  ⟨0x9000, 0x09, .domain, .rws, 0, 0, 0, 4096, false⟩,
  ⟨0x9000, 0x0A, .domain, .rws, 0, 0, 0, 4096, false⟩,
  ⟨0x9000, 0x0B, .domain, .ro, 0, 0, 0, 0, false⟩,
  ⟨0x9000, 0x0C, .u16, .rw, 10, 5, 1000, 2, false⟩,
  ⟨0x9000, 0x0D, .u16, .rw, 2000, 500, 5000, 2, false⟩,
  ⟨0x9000, 0x0E, .u16, .rw, 1000, 100, 10000, 2, false⟩,
  ⟨0x9000, 0x0F, .enum8, .rws, 0, 0, 1, 1, false⟩,
  ⟨0x9000, 0x10, .bool, .rw, 1, 0, 1, 1, false⟩,
  ⟨0x9000, 0x11, .bits32, .ro, 0, 0, 4294967295, 4, false⟩,
  ⟨0x9000, 0x12, .u32, .ro, 0, 0, 4294967295, 4, false⟩,
  ⟨0x9000, 0x13, .u64, .ro, 0, 0, 18446744073709551615, 8, false⟩,
  ⟨0x9000, 0x14, .u64, .ro, 0, 0, 18446744073709551615, 8, false⟩,
  ⟨0x9000, 0x15, .u64, .ro, 0, 0, 18446744073709551615, 8, false⟩,
  ⟨0x9000, 0x16, .u64, .ro, 0, 0, 18446744073709551615, 8, false⟩,
  ⟨0x9000, 0x17, .bits32, .ro, 0, 0, 4294967295, 4, false⟩,
  ⟨0x9000, 0x18, .u32, .ro, 0, 0, 4294967295, 4, false⟩,
  ⟨0x9000, 0x19, .u32, .ro, 0, 0, 4294967295, 4, false⟩,
  ⟨0xA000, 0x01, .domain, .ro, 0, 0, 0, 0, false⟩,
  ⟨0xA000, 0x02, .u32, .ro, 0, 0, 4294967295, 4, false⟩,
  ⟨0xA000, 0x03, .u16, .ro, 13824, 0, 65535, 2, false⟩,
  ⟨0xA000, 0x04, .u16, .ro, 0, 0, 65535, 2, false⟩,
  ⟨0xA000, 0x05, .u16, .ro, 0, 0, 65535, 2, false⟩,
  ⟨0xA000, 0x06, .u16, .ro, 0, 0, 65535, 2, false⟩,
  ⟨0xA000, 0x07, .domain, .ro, 0, 0, 0, 0, false⟩,
  ⟨0xA000, 0x08, .u8, .cmd, 0, 0, 143, 1, false⟩,
  ⟨0xA000, 0x09, .u16, .cmd, 0, 0, 65535, 2, false⟩,
  ⟨0xA000, 0x0A, .u32, .rw, 1000, 10, 1000000, 4, false⟩,
  ⟨0xA000, 0x0B, .u8, .rw, 15, 5, 40, 1, false⟩,
  ⟨0xA000, 0x0C, .u64, .ro, 0, 0, 18446744073709551615, 8, false⟩,
  ⟨0xA000, 0x0D, .u16, .ro, 0, 0, 65535, 2, false⟩,
  ⟨0xA000, 0x0E, .u64, .ro, 0, 0, 18446744073709551615, 8, false⟩,
  ⟨0xA100, 0x01, .enum8, .ro, 0, 0, 255, 1, false⟩,
  ⟨0xA100, 0x02, .bits32, .ro, 0, 0, 4294967295, 4, false⟩,
  ⟨0xA100, 0x03, .enum8, .ro, 0, 0, 255, 1, false⟩,
  ⟨0xA100, 0x04, .u16, .rw, 432, 0, 864, 2, false⟩,
  ⟨0xA100, 0x05, .u8, .rw, 25, 0, 100, 1, false⟩,
  ⟨0xA100, 0x06, .u32, .ro, 0, 0, 4294967295, 4, false⟩,
  ⟨0xA100, 0x07, .bits32, .ro, 0, 0, 4294967295, 4, false⟩,
  ⟨0xA100, 0x08, .u32, .ro, 0, 0, 4294967295, 4, false⟩]

def objRows8 : List Obj := [
  ⟨0xA100, 0x09, .u32, .ro, 0, 0, 4294967295, 4, false⟩,
  ⟨0xA100, 0x0A, .bits32, .ro, 0, 0, 4294967295, 4, false⟩,
  ⟨0xA100, 0x0B, .u64, .ro, 0, 0, 18446744073709551615, 8, false⟩,
  ⟨0xA100, 0x0C, .u32, .ro, 0, 0, 4294967295, 4, false⟩,
  ⟨0xA100, 0x0D, .u64, .ro, 0, 0, 18446744073709551615, 8, false⟩,
  ⟨0xB000, 0x01, .u32, .ro, 1048576, 0, 4294967295, 4, false⟩,
  ⟨0xB000, 0x02, .u64, .ro, 0, 0, 18446744073709551615, 8, false⟩,
  ⟨0xB000, 0x03, .u64, .ro, 0, 0, 18446744073709551615, 8, false⟩,
  ⟨0xB000, 0x04, .u32, .ro, 0, 0, 4294967295, 4, false⟩,
  ⟨0xB000, 0x05, .domain, .ro, 0, 0, 0, 0, false⟩,
  ⟨0xB000, 0x06, .u32, .rw, 0, 0, 1048575, 4, false⟩,
  ⟨0xB000, 0x07, .bool, .ro, 0, 0, 1, 1, false⟩,
  ⟨0xB000, 0x08, .u64, .ro, 0, 0, 18446744073709551615, 8, false⟩,
  ⟨0xB000, 0x09, .bool, .cmd, 0, 0, 1, 1, false⟩,
  ⟨0xB000, 0x0A, .u64, .ro, 0, 0, 18446744073709551615, 8, false⟩,
  ⟨0xB000, 0x0B, .bool, .cmd, 0, 0, 1, 1, false⟩,
  ⟨0xB000, 0x0C, .domain, .ro, 0, 0, 0, 0, false⟩,
  ⟨0xB000, 0x0D, .u64, .ro, 0, 0, 18446744073709551615, 8, false⟩,
  ⟨0xB000, 0x0E, .u64, .ro, 0, 0, 18446744073709551615, 8, false⟩,
  ⟨0xB000, 0x0F, .u16, .rw, 100, 0, 10000, 2, false⟩,
  ⟨0xB000, 0x10, .u64, .ro, 0, 0, 18446744073709551615, 8, false⟩,
  ⟨0xB000, 0x11, .u32, .ro, 0, 0, 4294967295, 4, false⟩,
  ⟨0xB000, 0x12, .u32, .ro, 0, 0, 4294967295, 4, false⟩,
  ⟨0xB000, 0x13, .u64, .ro, 0, 0, 18446744073709551615, 8, false⟩,
  ⟨0xC000, 0x01, .enum8, .ro, 2, 0, 255, 1, false⟩,
  ⟨0xC000, 0x02, .domain, .ro, 0, 0, 0, 0, false⟩,
  ⟨0xC000, 0x03, .domain, .ro, 0, 0, 0, 0, false⟩,
  ⟨0xC000, 0x04, .domain, .rws, 0, 0, 0, 20800, false⟩,
  ⟨0xC000, 0x05, .bool, .rws, 0, 0, 1, 1, false⟩,
  ⟨0xC000, 0x06, .domain, .cmd, 0, 0, 0, 64, false⟩,
  ⟨0xC000, 0x07, .domain, .ro, 0, 0, 0, 0, false⟩,
  ⟨0xC000, 0x08, .domain, .ro, 0, 0, 0, 0, false⟩,
  ⟨0xC000, 0x09, .domain, .cmd, 0, 0, 0, 4715, false⟩,
  ⟨0xC000, 0x0A, .domain, .wo, 0, 0, 0, 4194304, false⟩,
  ⟨0xC000, 0x0B, .u8, .cmd, 0, 0, 1, 1, false⟩,
  ⟨0xC000, 0x0C, .u16, .ro, 0, 0, 65535, 2, false⟩,
  ⟨0xC000, 0x0D, .u16, .ro, 0, 0, 65535, 2, false⟩,
  ⟨0xC000, 0x0E, .bool, .cmd, 0, 0, 1, 1, false⟩,
  ⟨0xC000, 0x0F, .domain, .ro, 0, 0, 0, 0, false⟩,
  ⟨0xC000, 0x10, .u32, .ro, 0, 0, 4294967295, 4, false⟩]

def objRows9 : List Obj := [
  ⟨0xC000, 0x11, .u64, .ro, 0, 0, 18446744073709551615, 8, false⟩,
  ⟨0xC000, 0x12, .u32, .ro, 0, 0, 4294967295, 4, false⟩,
  ⟨0xD000, 0x01, .domain, .ro, 0, 0, 0, 0, false⟩,
  ⟨0xD000, 0x02, .domain, .rws, 0, 0, 0, 1024, false⟩,
  ⟨0xD000, 0x03, .u8, .cmd, 0, 0, 1, 1, false⟩,
  ⟨0xD000, 0x04, .u64, .ro, 0, 0, 18446744073709551615, 8, false⟩,
  ⟨0xD000, 0x05, .bits32, .ro, 0, 0, 4294967295, 4, false⟩,
  ⟨0xD000, 0x06, .u32, .ro, 0, 0, 4294967295, 4, false⟩,
  ⟨0xD000, 0x07, .u32, .ro, 0, 0, 4294967295, 4, false⟩,
  ⟨0xD000, 0x08, .u64, .ro, 0, 0, 18446744073709551615, 8, false⟩,
  ⟨0xD000, 0x09, .u64, .ro, 0, 0, 18446744073709551615, 8, false⟩,
  ⟨0xD000, 0x0A, .domain, .rws, 0, 0, 0, 2, false⟩,
  ⟨0xD000, 0x0B, .u32, .rw, 100, 1, 1000000, 4, false⟩,
  ⟨0xE000, 0x01, .domain, .ro, 0, 0, 0, 0, false⟩,
  ⟨0xE000, 0x02, .u16, .cmd, 0, 0, 143, 2, false⟩,
  ⟨0xE000, 0x03, .domain, .ro, 0, 0, 0, 0, false⟩,
  ⟨0xE000, 0x04, .domain, .ro, 0, 0, 0, 0, false⟩]

/-- Every object of the dictionary. -/
def objTable : List Obj :=
  objRows0 ++ objRows1 ++ objRows2 ++ objRows3 ++ objRows4 ++ objRows5 ++ objRows6 ++ objRows7 ++ objRows8 ++ objRows9

/-- The index of partition or class 0 for an index of the dictionary; none where R488 gives
NO_OBJECT. -/
def baseIndex (i : Nat) : Option Nat :=
  if 0x4000 ≤ i ∧ i < 0x4030 then some 0x4000
  else if 0x4100 ≤ i ∧ i < 0x4130 then some 0x4100
  else if 0x5000 ≤ i ∧ i < 0x5008 then some 0x5000
  else if 0x5100 ≤ i ∧ i < 0x5130 then some 0x5100
  else if objTable.any (fun o => o.index == i) then some i else none

/-- The object at an index and subindex. -/
def objFind (i sub : Nat) : Option Obj :=
  match baseIndex i with
  | none => none
  | some b => objTable.find? (fun o => o.index == b && o.sub == sub)

/-- The highest subindex of an index, which subindex 0 reads (R487). -/
def objHighest (i : Nat) : Nat :=
  match baseIndex i with
  | none => 0
  | some b => (objTable.filter (fun o => o.index == b)).foldl (fun m o => Nat.max m o.sub) 0

/-- The default of a scalar object. Class 0 is checked by default (R503). -/
def objDefault (key : Nat) : Nat :=
  if key = 0x5000 * 256 + 2 then 1
  else match objFind (key / 256) (key % 256) with
    | some o => o.dflt
    | none => 0

/-- Largest value a counter of the type holds (R491). -/
def ObjType.top : ObjType → Nat
  | .bool => 1
  | .u8 | .enum8 => 0xFF
  | .u16 | .i16 => 0xFFFF
  | .u32 | .bits32 | .f32 => 0xFFFFFFFF
  | .u64 => 0xFFFFFFFFFFFFFFFF
  | .str | .domain => 0

/-- The largest value of the object with this number. -/
def objTop (key : Nat) : Nat :=
  match objFind (key / 256) (key % 256) with
  | some o => o.type.top
  | none => 0

end Sys2Proof.Machine

/-! ## Numbers of the objects -/

namespace Sys2Proof.K

/-- vendor, 0x1000:01, STR RO (R494). -/
abbrev devVendor : Nat := (0x1000) * 256 + 0x01
/-- product, 0x1000:02, STR RO (R494). -/
abbrev devProduct : Nat := (0x1000) * 256 + 0x02
/-- part_number, 0x1000:03, STR RO (R494). -/
abbrev devPartNumber : Nat := (0x1000) * 256 + 0x03
/-- serial_number, 0x1000:04, STR RO (R494). -/
abbrev devSerialNumber : Nat := (0x1000) * 256 + 0x04
/-- board_revision, 0x1000:05, U16 RO (R494). -/
abbrev devBoardRevision : Nat := (0x1000) * 256 + 0x05
/-- pf_device_id, 0x1000:06, U16 RO (R494). -/
abbrev devPfDeviceId : Nat := (0x1000) * 256 + 0x06
/-- vf_device_id, 0x1000:07, U16 RO (R494). -/
abbrev devVfDeviceId : Nat := (0x1000) * 256 + 0x07
/-- firmware_version, 0x1000:08, STR RO (R494). -/
abbrev devFirmwareVersion : Nat := (0x1000) * 256 + 0x08
/-- rom_version, 0x1000:09, U16 RO (R494). -/
abbrev devRomVersion : Nat := (0x1000) * 256 + 0x09
/-- manufacture_date, 0x1000:0A, U32 RO (R494). -/
abbrev devManufactureDate : Nat := (0x1000) * 256 + 0x0A
/-- bring_up_state, 0x1000:20, ENUM8 RO (R494). -/
abbrev devBringUpState : Nat := (0x1000) * 256 + 0x20
/-- bring_up_failure, 0x1000:21, ENUM8 RO (R494). -/
abbrev devBringUpFailure : Nat := (0x1000) * 256 + 0x21
/-- reset_cause, 0x1000:22, ENUM8 RO (R494). -/
abbrev devResetCause : Nat := (0x1000) * 256 + 0x22
/-- bring_up_time, 0x1000:23, U32 RO (R494). -/
abbrev devBringUpTime : Nat := (0x1000) * 256 + 0x23
/-- firmware_slot, 0x1000:24, U8 RO (R494). -/
abbrev devFirmwareSlot : Nat := (0x1000) * 256 + 0x24
/-- primary_mp, 0x1000:25, U8 RO (R494). -/
abbrev devPrimaryMp : Nat := (0x1000) * 256 + 0x25
/-- module_reset, 0x1000:26, BOOL CMD (R494). -/
abbrev devModuleReset : Nat := (0x1000) * 256 + 0x26
/-- reset_input_stuck, 0x1000:27, BOOL RO (R494). -/
abbrev devResetInputStuck : Nat := (0x1000) * 256 + 0x27
/-- reset_glitches, 0x1000:28, U64 RO (R494). -/
abbrev devResetGlitches : Nat := (0x1000) * 256 + 0x28
/-- addresses, 0x1100:01, DOMAIN RWS (R495). -/
abbrev mgmtAddresses : Nat := (0x1100) * 256 + 0x01
/-- udp_port, 0x1100:02, U16 RWS (R495). -/
abbrev mgmtUdpPort : Nat := (0x1100) * 256 + 0x02
/-- port_enable, 0x1100:03, BITS32 RWS (R495). -/
abbrev mgmtPortEnable : Nat := (0x1100) * 256 + 0x03
/-- max_sessions, 0x1100:04, U8 RW (R495). -/
abbrev mgmtMaxSessions : Nat := (0x1100) * 256 + 0x04
/-- idle_timeout, 0x1100:05, U16 RW (R495). -/
abbrev mgmtIdleTimeout : Nat := (0x1100) * 256 + 0x05
/-- request_rate, 0x1100:06, U16 RW (R495). -/
abbrev mgmtRequestRate : Nat := (0x1100) * 256 + 0x06
/-- sessions_open, 0x1100:07, U8 RO (R495). -/
abbrev mgmtSessionsOpen : Nat := (0x1100) * 256 + 0x07
/-- handshakes, 0x1100:08, U32 RO (R495). -/
abbrev mgmtHandshakes : Nat := (0x1100) * 256 + 0x08
/-- refusals, 0x1100:09, U32 RO (R495). -/
abbrev mgmtRefusals : Nat := (0x1100) * 256 + 0x09
/-- dropped_datagrams, 0x1100:0A, U64 RO (R495). -/
abbrev mgmtDroppedDatagrams : Nat := (0x1100) * 256 + 0x0A
/-- replay_drops, 0x1100:0B, U64 RO (R495). -/
abbrev mgmtReplayDrops : Nat := (0x1100) * 256 + 0x0B
/-- notify_drops, 0x1100:0C, U64 RO (R495). -/
abbrev mgmtNotifyDrops : Nat := (0x1100) * 256 + 0x0C
/-- next_epoch, 0x1200:01, U32 RO (R496). -/
abbrev cfgNextEpoch : Nat := (0x1200) * 256 + 0x01
/-- commits_switching, 0x1200:02, U8 RO (R496). -/
abbrev cfgCommitsSwitching : Nat := (0x1200) * 256 + 0x02
/-- commits, 0x1200:03, U32 RO (R496). -/
abbrev cfgCommits : Nat := (0x1200) * 256 + 0x03
/-- last_commit, 0x1200:10, DOMAIN RO (R496). -/
abbrev cfgLastCommit : Nat := (0x1200) * 256 + 0x10
/-- prepare_timeout, 0x1200:11, U16 RW (R496). -/
abbrev cfgPrepareTimeout : Nat := (0x1200) * 256 + 0x11
/-- rollbacks, 0x1200:12, U32 RO (R496). -/
abbrev cfgRollbacks : Nat := (0x1200) * 256 + 0x12
/-- grade, 0x2000:01, ENUM8 RO (R497). -/
abbrev gradeGrade : Nat := (0x2000) * 256 + 0x01
/-- core_rail_ceiling, 0x2000:02, U16 RO (R497). -/
abbrev gradeCoreRailCeiling : Nat := (0x2000) * 256 + 0x02
/-- module_power_limit, 0x2000:03, U32 RO (R497). -/
abbrev gradeModulePowerLimit : Nat := (0x2000) * 256 + 0x03
/-- ceiling_clamps, 0x2000:04, U64 RO (R497). -/
abbrev gradeCeilingClamps : Nat := (0x2000) * 256 + 0x04
/-- converters_required, 0x2000:05, U8 RO (R497). -/
abbrev gradeConvertersRequired : Nat := (0x2000) * 256 + 0x05
/-- block_power_cap, 0x2100:01, U16 RO (R498). -/
abbrev pwrBlockPowerCap : Nat := (0x2100) * 256 + 0x01
/-- die_segment_budget, 0x2100:02, U16 RO (R498). -/
abbrev pwrDieSegmentBudget : Nat := (0x2100) * 256 + 0x02
/-- base_draw, 0x2100:03, DOMAIN RO (R498). -/
abbrev pwrBaseDraw : Nat := (0x2100) * 256 + 0x03
/-- core_target, 0x2100:04, DOMAIN RWS (R498). -/
abbrev pwrCoreTarget : Nat := (0x2100) * 256 + 0x04
/-- report, 0x2100:05, DOMAIN RO (R498). -/
abbrev pwrReport : Nat := (0x2100) * 256 + 0x05
/-- report_tick, 0x2100:06, U64 RO (R498). -/
abbrev pwrReportTick : Nat := (0x2100) * 256 + 0x06
/-- input_voltage, 0x2100:07, U16 RO (R498). -/
abbrev pwrInputVoltage : Nat := (0x2100) * 256 + 0x07
/-- input_power, 0x2100:08, U32 RO (R498). -/
abbrev pwrInputPower : Nat := (0x2100) * 256 + 0x08
/-- energy, 0x2100:09, U64 RO (R498). -/
abbrev pwrEnergy : Nat := (0x2100) * 256 + 0x09
/-- converters_failed, 0x2100:0A, BITS32 RO (R498). -/
abbrev pwrConvertersFailed : Nat := (0x2100) * 256 + 0x0A
/-- block_power_state, 0x2100:0B, DOMAIN RO (R498). -/
abbrev pwrBlockPowerState : Nat := (0x2100) * 256 + 0x0B
/-- connector_state, 0x2100:0C, DOMAIN RO (R498). -/
abbrev pwrConnectorState : Nat := (0x2100) * 256 + 0x0C
/-- idle_off_delay, 0x2100:0D, U32 RW (R498). -/
abbrev pwrIdleOffDelay : Nat := (0x2100) * 256 + 0x0D
/-- governor_derate, 0x2100:0E, U16 RO (R498). -/
abbrev pwrGovernorDerate : Nat := (0x2100) * 256 + 0x0E
/-- governor_halved, 0x2100:0F, BOOL RO (R498). -/
abbrev pwrGovernorHalved : Nat := (0x2100) * 256 + 0x0F
/-- efuse_trips, 0x2100:10, U32 RO (R498). -/
abbrev pwrEfuseTrips : Nat := (0x2100) * 256 + 0x10
/-- phase_failures, 0x2100:11, U32 RO (R498). -/
abbrev pwrPhaseFailures : Nat := (0x2100) * 256 + 0x11
/-- token_unit, 0x2200:01, U16 RO (R499). -/
abbrev pacerTokenUnit : Nat := (0x2200) * 256 + 0x01
/-- refill_period, 0x2200:02, U16 RO (R499). -/
abbrev pacerRefillPeriod : Nat := (0x2200) * 256 + 0x02
/-- partition_peaks, 0x2200:03, DOMAIN RO (R499). -/
abbrev pacerPartitionPeaks : Nat := (0x2200) * 256 + 0x03
/-- module_budget_used, 0x2200:04, U32 RO (R499). -/
abbrev pacerModuleBudgetUsed : Nat := (0x2200) * 256 + 0x04
/-- overdraws, 0x2200:05, U64 RO (R499). -/
abbrev pacerOverdraws : Nat := (0x2200) * 256 + 0x05
/-- wakes, 0x2200:06, U64 RO (R499). -/
abbrev pacerWakes : Nat := (0x2200) * 256 + 0x06
/-- wake_time_max, 0x2200:07, U32 RO (R499). -/
abbrev pacerWakeTimeMax : Nat := (0x2200) * 256 + 0x07
/-- applied_scale, 0x2200:08, DOMAIN RO (R499). -/
abbrev pacerAppliedScale : Nat := (0x2200) * 256 + 0x08
/-- energy_weights, 0x2200:09, DOMAIN RO (R499). -/
abbrev pacerEnergyWeights : Nat := (0x2200) * 256 + 0x09
/-- die_headroom_min, 0x2200:0A, DOMAIN RO (R499). -/
abbrev pacerDieHeadroomMin : Nat := (0x2200) * 256 + 0x0A
/-- junction_thresholds, 0x3000:01, DOMAIN RWS (R500). -/
abbrev heatJunctionThresholds : Nat := (0x3000) * 256 + 0x01
/-- stack_thresholds, 0x3000:02, DOMAIN RWS (R500). -/
abbrev heatStackThresholds : Nat := (0x3000) * 256 + 0x02
/-- hysteresis, 0x3000:03, U8 RW (R500). -/
abbrev heatHysteresis : Nat := (0x3000) * 256 + 0x03
/-- lower_dwell, 0x3000:04, U16 RW (R500). -/
abbrev heatLowerDwell : Nat := (0x3000) * 256 + 0x04
/-- block_level, 0x3000:05, DOMAIN RO (R500). -/
abbrev heatBlockLevel : Nat := (0x3000) * 256 + 0x05
/-- junction_temps, 0x3000:06, DOMAIN RO (R500). -/
abbrev heatJunctionTemps : Nat := (0x3000) * 256 + 0x06
/-- stack_temps, 0x3000:07, DOMAIN RO (R500). -/
abbrev heatStackTemps : Nat := (0x3000) * 256 + 0x07
/-- sensor_status, 0x3000:08, DOMAIN RO (R500). -/
abbrev heatSensorStatus : Nat := (0x3000) * 256 + 0x08
/-- sensors_suspect, 0x3000:09, U16 RO (R500). -/
abbrev heatSensorsSuspect : Nat := (0x3000) * 256 + 0x09
/-- disagreements, 0x3000:0A, U64 RO (R500). -/
abbrev heatDisagreements : Nat := (0x3000) * 256 + 0x0A
/-- heat_offs, 0x3000:0B, U32 RO (R500). -/
abbrev heatHeatOffs : Nat := (0x3000) * 256 + 0x0B
/-- hw_trips, 0x3000:0C, U32 RO (R500). -/
abbrev heatHwTrips : Nat := (0x3000) * 256 + 0x0C
/-- level_time, 0x3000:0D, DOMAIN RO (R500). -/
abbrev heatLevelTime : Nat := (0x3000) * 256 + 0x0D
/-- class0_target_step, 0x3000:0E, U8 RW (R500). -/
abbrev heatClass0TargetStep : Nat := (0x3000) * 256 + 0x0E
/-- inlet_temp, 0x3100:01, I16 RO (R500). -/
abbrev coolInletTemp : Nat := (0x3100) * 256 + 0x01
/-- outlet_temp, 0x3100:02, I16 RO (R500). -/
abbrev coolOutletTemp : Nat := (0x3100) * 256 + 0x02
/-- flow, 0x3100:03, U16 RO (R500). -/
abbrev coolFlow : Nat := (0x3100) * 256 + 0x03
/-- flow_required, 0x3100:04, U16 RO (R500). -/
abbrev coolFlowRequired : Nat := (0x3100) * 256 + 0x04
/-- coolant_state, 0x3100:05, ENUM8 RO (R500). -/
abbrev coolCoolantState : Nat := (0x3100) * 256 + 0x05
/-- coolant_events, 0x3100:06, U32 RO (R500). -/
abbrev coolCoolantEvents : Nat := (0x3100) * 256 + 0x06
/-- mesh_state, 0x3200:01, ENUM8 RO (R500). -/
abbrev meshMeshState : Nat := (0x3200) * 256 + 0x01
/-- reference_present, 0x3200:02, BOOL RO (R500). -/
abbrev meshReferencePresent : Nat := (0x3200) * 256 + 0x02
/-- mark_count, 0x3200:03, U64 RO (R500). -/
abbrev meshMarkCount : Nat := (0x3200) * 256 + 0x03
/-- lock_time, 0x3200:04, U32 RO (R500). -/
abbrev meshLockTime : Nat := (0x3200) * 256 + 0x04
/-- ref_glitches, 0x3200:05, U64 RO (R500). -/
abbrev meshRefGlitches : Nat := (0x3200) * 256 + 0x05
/-- mark_slips, 0x3200:06, U32 RO (R500). -/
abbrev meshMarkSlips : Nat := (0x3200) * 256 + 0x06
/-- ref_stuck, 0x3200:07, BOOL RO (R500). -/
abbrev meshRefStuck : Nat := (0x3200) * 256 + 0x07
/-- islands, 0x3200:08, DOMAIN RO (R500). -/
abbrev meshIslands : Nat := (0x3200) * 256 + 0x08
/-- oscillators_active, 0x3200:09, U16 RO (R500). -/
abbrev meshOscillatorsActive : Nat := (0x3200) * 256 + 0x09
/-- state, 0x4000+p:01, ENUM8 RO (R501). -/
abbrev partState (p : Nat) : Nat := (0x4000 + p) * 256 + 0x01
/-- lap_number, 0x4000+p:02, U64 RO (R501). -/
abbrev partLapNumber (p : Nat) : Nat := (0x4000 + p) * 256 + 0x02
/-- hurdle_timeout, 0x4000+p:03, U32 RWS (R501). -/
abbrev partHurdleTimeout (p : Nat) : Nat := (0x4000 + p) * 256 + 0x03
/-- replay_limit, 0x4000+p:04, U8 RWS (R501). -/
abbrev partReplayLimit (p : Nat) : Nat := (0x4000 + p) * 256 + 0x04
/-- active_epoch, 0x4000+p:05, U32 RO (R501). -/
abbrev partActiveEpoch (p : Nat) : Nat := (0x4000 + p) * 256 + 0x05
/-- segment_max, 0x4000+p:06, U32 RO (R501). -/
abbrev partSegmentMax (p : Nat) : Nat := (0x4000 + p) * 256 + 0x06
/-- nominal_lap_time, 0x4000+p:07, U32 RO (R501). -/
abbrev partNominalLapTime (p : Nat) : Nat := (0x4000 + p) * 256 + 0x07
/-- core_variants, 0x4000+p:08, BITS32 RO (R501). -/
abbrev partCoreVariants (p : Nat) : Nat := (0x4000 + p) * 256 + 0x08
/-- last_fault, 0x4000+p:09, U16 RO (R501). -/
abbrev partLastFault (p : Nat) : Nat := (0x4000 + p) * 256 + 0x09
/-- load_result, 0x4000+p:0A, ENUM8 RO (R501). -/
abbrev partLoadResult (p : Nat) : Nat := (0x4000 + p) * 256 + 0x0A
/-- cache_banks, 0x4000+p:0B, U8 RO (R501). -/
abbrev partCacheBanks (p : Nat) : Nat := (0x4000 + p) * 256 + 0x0B
/-- program_streamed, 0x4000+p:0C, BOOL RO (R501). -/
abbrev partProgramStreamed (p : Nat) : Nat := (0x4000 + p) * 256 + 0x0C
/-- array_chains, 0x4000+p:0D, U32 RO (R501). -/
abbrev partArrayChains (p : Nat) : Nat := (0x4000 + p) * 256 + 0x0D
/-- widen_reserve, 0x4000+p:0E, U32 RO (R501). -/
abbrev partWidenReserve (p : Nat) : Nat := (0x4000 + p) * 256 + 0x0E
/-- kv_max_positions, 0x4000+p:0F, U32 RWS (R501). -/
abbrev partKvMaxPositions (p : Nat) : Nat := (0x4000 + p) * 256 + 0x0F
/-- class0_reserve, 0x4000+p:10, U32 RWS (R501). -/
abbrev partClass0Reserve (p : Nat) : Nat := (0x4000 + p) * 256 + 0x10
/-- kv_low_mark, 0x4000+p:11, U32 RWS (R501). -/
abbrev partKvLowMark (p : Nat) : Nat := (0x4000 + p) * 256 + 0x11
/-- host_swap_base, 0x4000+p:12, U64 RWS (R501). -/
abbrev partHostSwapBase (p : Nat) : Nat := (0x4000 + p) * 256 + 0x12
/-- host_swap_pages, 0x4000+p:13, U32 RWS (R501). -/
abbrev partHostSwapPages (p : Nat) : Nat := (0x4000 + p) * 256 + 0x13
/-- host_swap_port, 0x4000+p:14, ENUM8 RWS (R501). -/
abbrev partHostSwapPort (p : Nat) : Nat := (0x4000 + p) * 256 + 0x14
/-- paging_rate, 0x4000+p:15, U32 RWS (R501). -/
abbrev partPagingRate (p : Nat) : Nat := (0x4000 + p) * 256 + 0x15
/-- free_frames, 0x4000+p:16, DOMAIN RO (R501). -/
abbrev partFreeFrames (p : Nat) : Nat := (0x4000 + p) * 256 + 0x16
/-- slot_map, 0x4000+p:17, DOMAIN RW (R501). -/
abbrev partSlotMap (p : Nat) : Nat := (0x4000 + p) * 256 + 0x17
/-- flip_gap, 0x4000+p:18, U32 RO (R501). -/
abbrev partFlipGap (p : Nat) : Nat := (0x4000 + p) * 256 + 0x18
/-- flip_pending, 0x4000+p:19, U16 RO (R501). -/
abbrev partFlipPending (p : Nat) : Nat := (0x4000 + p) * 256 + 0x19
/-- channel_table, 0x4000+p:1A, DOMAIN RW (R501). -/
abbrev partChannelTable (p : Nat) : Nat := (0x4000 + p) * 256 + 0x1A
/-- job_id, 0x4000+p:1B, U32 RW (R501). -/
abbrev partJobId (p : Nat) : Nat := (0x4000 + p) * 256 + 0x1B
/-- job_box, 0x4000+p:1C, DOMAIN RW (R501). -/
abbrev partJobBox (p : Nat) : Nat := (0x4000 + p) * 256 + 0x1C
/-- job_depth, 0x4000+p:1D, U8 RO (R501). -/
abbrev partJobDepth (p : Nat) : Nat := (0x4000 + p) * 256 + 0x1D
/-- power_peak, 0x4000+p:1E, U32 RO (R501). -/
abbrev partPowerPeak (p : Nat) : Nat := (0x4000 + p) * 256 + 0x1E
/-- partition_reset, 0x4000+p:1F, BOOL CMD (R501). -/
abbrev partPartitionReset (p : Nat) : Nat := (0x4000 + p) * 256 + 0x1F
/-- fault_lap, 0x4000+p:20, U64 RO (R501). -/
abbrev partFaultLap (p : Nat) : Nat := (0x4000 + p) * 256 + 0x20
/-- fault_cluster, 0x4000+p:21, U16 RO (R501). -/
abbrev partFaultCluster (p : Nat) : Nat := (0x4000 + p) * 256 + 0x21
/-- rectangle, 0x4000+p:22, DOMAIN RW (R501). -/
abbrev partRectangle (p : Nat) : Nat := (0x4000 + p) * 256 + 0x22
/-- lap_program, 0x4000+p:23, DOMAIN WO (R501). -/
abbrev partLapProgram (p : Nat) : Nat := (0x4000 + p) * 256 + 0x23
/-- load, 0x4000+p:24, BOOL CMD (R501). -/
abbrev partLoad (p : Nat) : Nat := (0x4000 + p) * 256 + 0x24
/-- unload, 0x4000+p:25, ENUM8 CMD (R501). -/
abbrev partUnload (p : Nat) : Nat := (0x4000 + p) * 256 + 0x25
/-- laps_committed, 0x4100+p:01, U64 RO (R502). -/
abbrev statLapsCommitted (p : Nat) : Nat := (0x4100 + p) * 256 + 0x01
/-- laps_aborted, 0x4100+p:02, U64 RO (R502). -/
abbrev statLapsAborted (p : Nat) : Nat := (0x4100 + p) * 256 + 0x02
/-- replays, 0x4100+p:03, U64 RO (R502). -/
abbrev statReplays (p : Nat) : Nat := (0x4100 + p) * 256 + 0x03
/-- last_lap_time, 0x4100+p:04, U32 RO (R502). -/
abbrev statLastLapTime (p : Nat) : Nat := (0x4100 + p) * 256 + 0x04
/-- max_lap_time, 0x4100+p:05, U32 RO (R502). -/
abbrev statMaxLapTime (p : Nat) : Nat := (0x4100 + p) * 256 + 0x05
/-- mean_lap_time, 0x4100+p:06, U32 RO (R502). -/
abbrev statMeanLapTime (p : Nat) : Nat := (0x4100 + p) * 256 + 0x06
/-- stall_pacer, 0x4100+p:07, U64 RO (R502). -/
abbrev statStallPacer (p : Nat) : Nat := (0x4100 + p) * 256 + 0x07
/-- stall_memory, 0x4100+p:08, U64 RO (R502). -/
abbrev statStallMemory (p : Nat) : Nat := (0x4100 + p) * 256 + 0x08
/-- stall_network, 0x4100+p:09, U64 RO (R502). -/
abbrev statStallNetwork (p : Nat) : Nat := (0x4100 + p) * 256 + 0x09
/-- stall_remote, 0x4100+p:0A, U64 RO (R502). -/
abbrev statStallRemote (p : Nat) : Nat := (0x4100 + p) * 256 + 0x0A
/-- replay_time, 0x4100+p:0B, U64 RO (R502). -/
abbrev statReplayTime (p : Nat) : Nat := (0x4100 + p) * 256 + 0x0B
/-- last_late_cluster, 0x4100+p:0C, U16 RO (R502). -/
abbrev statLastLateCluster (p : Nat) : Nat := (0x4100 + p) * 256 + 0x0C
/-- widenings, 0x4100+p:0D, U64 RO (R502). -/
abbrev statWidenings (p : Nat) : Nat := (0x4100 + p) * 256 + 0x0D
/-- fallbacks, 0x4100+p:0E, U64 RO (R502). -/
abbrev statFallbacks (p : Nat) : Nat := (0x4100 + p) * 256 + 0x0E
/-- missing_map, 0x4100+p:0F, DOMAIN RO (R502). -/
abbrev statMissingMap (p : Nat) : Nat := (0x4100 + p) * 256 + 0x0F
/-- clear, 0x4100+p:10, BOOL CMD (R502). -/
abbrev statClear (p : Nat) : Nat := (0x4100 + p) * 256 + 0x10
/-- bank_conflicts, 0x4100+p:11, U64 RO (R502). -/
abbrev statBankConflicts (p : Nat) : Nat := (0x4100 + p) * 256 + 0x11
/-- parity_errors, 0x4100+p:12, U64 RO (R502). -/
abbrev statParityErrors (p : Nat) : Nat := (0x4100 + p) * 256 + 0x12
/-- cache_hits, 0x4100+p:13, U64 RO (R502). -/
abbrev statCacheHits (p : Nat) : Nat := (0x4100 + p) * 256 + 0x13
/-- cache_misses, 0x4100+p:14, U64 RO (R502). -/
abbrev statCacheMisses (p : Nat) : Nat := (0x4100 + p) * 256 + 0x14
/-- late_writes, 0x4100+p:15, U64 RO (R502). -/
abbrev statLateWrites (p : Nat) : Nat := (0x4100 + p) * 256 + 0x15
/-- outlier_truncations, 0x4100+p:16, U64 RO (R502). -/
abbrev statOutlierTruncations (p : Nat) : Nat := (0x4100 + p) * 256 + 0x16
/-- overrange_splits, 0x4100+p:17, U64 RO (R502). -/
abbrev statOverrangeSplits (p : Nat) : Nat := (0x4100 + p) * 256 + 0x17
/-- canary_failures, 0x4100+p:18, U64 RO (R502). -/
abbrev statCanaryFailures (p : Nat) : Nat := (0x4100 + p) * 256 + 0x18
/-- monitor_alarms, 0x4100+p:19, U64 RO (R502). -/
abbrev statMonitorAlarms (p : Nat) : Nat := (0x4100 + p) * 256 + 0x19
/-- chains_off_max, 0x4100+p:1A, U8 RO (R502). -/
abbrev statChainsOffMax (p : Nat) : Nat := (0x4100 + p) * 256 + 0x1A
/-- ladder_exhausted, 0x4100+p:1B, U64 RO (R502). -/
abbrev statLadderExhausted (p : Nat) : Nat := (0x4100 + p) * 256 + 0x1B
/-- kv_pages_drawn, 0x4100+p:1C, U64 RO (R502). -/
abbrev statKvPagesDrawn (p : Nat) : Nat := (0x4100 + p) * 256 + 0x1C
/-- kv_pages_reclaimed, 0x4100+p:1D, U64 RO (R502). -/
abbrev statKvPagesReclaimed (p : Nat) : Nat := (0x4100 + p) * 256 + 0x1D
/-- kv_alloc_failures, 0x4100+p:1E, U64 RO (R502). -/
abbrev statKvAllocFailures (p : Nat) : Nat := (0x4100 + p) * 256 + 0x1E
/-- cow_copies, 0x4100+p:1F, U64 RO (R502). -/
abbrev statCowCopies (p : Nat) : Nat := (0x4100 + p) * 256 + 0x1F
/-- tag_mismatches, 0x4100+p:20, U64 RO (R502). -/
abbrev statTagMismatches (p : Nat) : Nat := (0x4100 + p) * 256 + 0x20
/-- attn_two_pass, 0x4100+p:21, U64 RO (R502). -/
abbrev statAttnTwoPass (p : Nat) : Nat := (0x4100 + p) * 256 + 0x21
/-- pages_evicted, 0x4100+p:22, U64 RO (R502). -/
abbrev statPagesEvicted (p : Nat) : Nat := (0x4100 + p) * 256 + 0x22
/-- pages_restored, 0x4100+p:23, U64 RO (R502). -/
abbrev statPagesRestored (p : Nat) : Nat := (0x4100 + p) * 256 + 0x23
/-- tlb_misses, 0x4100+p:24, U64 RO (R502). -/
abbrev statTlbMisses (p : Nat) : Nat := (0x4100 + p) * 256 + 0x24
/-- kv_lost, 0x4100+p:25, U64 RO (R502). -/
abbrev statKvLost (p : Nat) : Nat := (0x4100 + p) * 256 + 0x25
/-- flips, 0x4100+p:26, U64 RO (R502). -/
abbrev statFlips (p : Nat) : Nat := (0x4100 + p) * 256 + 0x26
/-- flip_gap_time, 0x4100+p:27, U64 RO (R502). -/
abbrev statFlipGapTime (p : Nat) : Nat := (0x4100 + p) * 256 + 0x27
/-- adapter_zero_reads, 0x4100+p:28, U64 RO (R502). -/
abbrev statAdapterZeroReads (p : Nat) : Nat := (0x4100 + p) * 256 + 0x28
/-- fabric_bytes_out, 0x4100+p:29, U64 RO (R502). -/
abbrev statFabricBytesOut (p : Nat) : Nat := (0x4100 + p) * 256 + 0x29
/-- fabric_bytes_in, 0x4100+p:2A, U64 RO (R502). -/
abbrev statFabricBytesIn (p : Nat) : Nat := (0x4100 + p) * 256 + 0x2A
/-- job_hurdle_max, 0x4100+p:2B, U32 RO (R502). -/
abbrev statJobHurdleMax (p : Nat) : Nat := (0x4100 + p) * 256 + 0x2B
/-- overdraws, 0x4100+p:2C, U64 RO (R502). -/
abbrev statOverdraws (p : Nat) : Nat := (0x4100 + p) * 256 + 0x2C
/-- lane_floor, 0x5000+c:01, U8 RWS (R503). -/
abbrev clsLaneFloor (c : Nat) : Nat := (0x5000 + c) * 256 + 0x01
/-- checked, 0x5000+c:02, BOOL RWS (R503). -/
abbrev clsChecked (c : Nat) : Nat := (0x5000 + c) * 256 + 0x02
/-- max_sessions, 0x5000+c:03, U16 RWS (R503). -/
abbrev clsMaxSessions (c : Nat) : Nat := (0x5000 + c) * 256 + 0x03
/-- functions, 0x5000+c:04, DOMAIN RWS (R503). -/
abbrev clsFunctions (c : Nat) : Nat := (0x5000 + c) * 256 + 0x04
/-- sessions_open, 0x5000+c:05, U16 RO (R503). -/
abbrev clsSessionsOpen (c : Nat) : Nat := (0x5000 + c) * 256 + 0x05
/-- lanes, 0x5100+p:01, U16 RO (R503). -/
abbrev strLanes (p : Nat) : Nat := (0x5100 + p) * 256 + 0x01
/-- class0_lanes, 0x5100+p:02, U16 RWS (R503). -/
abbrev strClass0Lanes (p : Nat) : Nat := (0x5100 + p) * 256 + 0x02
/-- prefill_block, 0x5100+p:03, U32 RWS (R503). -/
abbrev strPrefillBlock (p : Nat) : Nat := (0x5100 + p) * 256 + 0x03
/-- prefill_positions_max, 0x5100+p:04, U32 RO (R503). -/
abbrev strPrefillPositionsMax (p : Nat) : Nat := (0x5100 + p) * 256 + 0x04
/-- max_draft, 0x5100+p:05, U8 RO (R503). -/
abbrev strMaxDraft (p : Nat) : Nat := (0x5100 + p) * 256 + 0x05
/-- share_variants, 0x5100+p:06, BITS32 RO (R503). -/
abbrev strShareVariants (p : Nat) : Nat := (0x5100 + p) * 256 + 0x06
/-- last_share, 0x5100+p:07, DOMAIN RO (R503). -/
abbrev strLastShare (p : Nat) : Nat := (0x5100 + p) * 256 + 0x07
/-- class0_max_interval, 0x5100+p:08, U32 RO (R503). -/
abbrev strClass0MaxInterval (p : Nat) : Nat := (0x5100 + p) * 256 + 0x08
/-- class0_overruns, 0x5100+p:09, U64 RO (R503). -/
abbrev strClass0Overruns (p : Nat) : Nat := (0x5100 + p) * 256 + 0x09
/-- class0_excused, 0x5100+p:0A, U64 RO (R503). -/
abbrev strClass0Excused (p : Nat) : Nat := (0x5100 + p) * 256 + 0x0A
/-- lanes_in_use, 0x5100+p:0B, U16 RO (R503). -/
abbrev strLanesInUse (p : Nat) : Nat := (0x5100 + p) * 256 + 0x0B
/-- sessions_waiting, 0x5100+p:0C, U16 RO (R503). -/
abbrev strSessionsWaiting (p : Nat) : Nat := (0x5100 + p) * 256 + 0x0C
/-- min_hold, 0x5100+p:0D, U16 RWS (R503). -/
abbrev strMinHold (p : Nat) : Nat := (0x5100 + p) * 256 + 0x0D
/-- vocabulary, 0x5100+p:0E, U32 RO (R503). -/
abbrev strVocabulary (p : Nat) : Nat := (0x5100 + p) * 256 + 0x0E
/-- temperature, 0x5200:01, F32 RW (R503). -/
abbrev sampTemperature : Nat := (0x5200) * 256 + 0x01
/-- top_k, 0x5200:02, U16 RW (R503). -/
abbrev sampTopK : Nat := (0x5200) * 256 + 0x02
/-- top_p, 0x5200:03, F32 RW (R503). -/
abbrev sampTopP : Nat := (0x5200) * 256 + 0x03
/-- min_p, 0x5200:04, F32 RW (R503). -/
abbrev sampMinP : Nat := (0x5200) * 256 + 0x04
/-- rep_penalty, 0x5200:05, F32 RW (R503). -/
abbrev sampRepPenalty : Nat := (0x5200) * 256 + 0x05
/-- rep_window, 0x5200:06, U16 RW (R503). -/
abbrev sampRepWindow : Nat := (0x5200) * 256 + 0x06
/-- session_ranges, 0x5300:01, DOMAIN RWS (R503). -/
abbrev sessSessionRanges : Nat := (0x5300) * 256 + 0x01
/-- sessions_open, 0x5300:02, U16 RO (R503). -/
abbrev sessSessionsOpen : Nat := (0x5300) * 256 + 0x02
/-- session_table, 0x5300:03, DOMAIN RO (R503). -/
abbrev sessSessionTable : Nat := (0x5300) * 256 + 0x03
/-- end_session, 0x5300:04, U16 CMD (R503). -/
abbrev sessEndSession : Nat := (0x5300) * 256 + 0x04
/-- ring_errors, 0x5300:05, U64 RO (R503). -/
abbrev sessRingErrors : Nat := (0x5300) * 256 + 0x05
/-- no_allowed_token, 0x5300:06, U64 RO (R503). -/
abbrev sessNoAllowedToken : Nat := (0x5300) * 256 + 0x06
/-- region_frames, 0x6000:01, DOMAIN RWS (R504). -/
abbrev wtRegionFrames : Nat := (0x6000) * 256 + 0x01
/-- region_free, 0x6000:02, DOMAIN RO (R504). -/
abbrev wtRegionFree : Nat := (0x6000) * 256 + 0x02
/-- sets_loaded, 0x6000:03, U16 RO (R504). -/
abbrev wtSetsLoaded : Nat := (0x6000) * 256 + 0x03
/-- set_table, 0x6000:04, DOMAIN RO (R504). -/
abbrev wtSetTable : Nat := (0x6000) * 256 + 0x04
/-- unload, 0x6000:05, U16 CMD (R504). -/
abbrev wtUnload : Nat := (0x6000) * 256 + 0x05
/-- release_host, 0x6000:06, U16 CMD (R504). -/
abbrev wtReleaseHost : Nat := (0x6000) * 256 + 0x06
/-- flip_verify, 0x6000:07, BOOL RWS (R504). -/
abbrev wtFlipVerify : Nat := (0x6000) * 256 + 0x07
/-- stage_rate, 0x6000:08, U32 RW (R504). -/
abbrev wtStageRate : Nat := (0x6000) * 256 + 0x08
/-- corrected_errors, 0x6000:09, U64 RO (R504). -/
abbrev wtCorrectedErrors : Nat := (0x6000) * 256 + 0x09
/-- pieces_refetched, 0x6000:0A, U64 RO (R504). -/
abbrev wtPiecesRefetched : Nat := (0x6000) * 256 + 0x0A
/-- pieces_lost, 0x6000:0B, U64 RO (R504). -/
abbrev wtPiecesLost : Nat := (0x6000) * 256 + 0x0B
/-- misplaced_pieces, 0x6000:0C, U64 RO (R504). -/
abbrev wtMisplacedPieces : Nat := (0x6000) * 256 + 0x0C
/-- relay_box, 0x6100:01, DOMAIN RWS (R504). -/
abbrev relayRelayBox : Nat := (0x6100) * 256 + 0x01
/-- relay_timeout, 0x6100:02, U32 RW (R504). -/
abbrev relayRelayTimeout : Nat := (0x6100) * 256 + 0x02
/-- chunks_received, 0x6100:03, U64 RO (R504). -/
abbrev relayChunksReceived : Nat := (0x6100) * 256 + 0x03
/-- chunks_forwarded, 0x6100:04, U64 RO (R504). -/
abbrev relayChunksForwarded : Nat := (0x6100) * 256 + 0x04
/-- chunks_rejected, 0x6100:05, U64 RO (R504). -/
abbrev relayChunksRejected : Nat := (0x6100) * 256 + 0x05
/-- relays_refused, 0x6100:06, U64 RO (R504). -/
abbrev relayRelaysRefused : Nat := (0x6100) * 256 + 0x06
/-- cal_interval, 0x7000:01, U32 RW (R505). -/
abbrev arrCalInterval : Nat := (0x7000) * 256 + 0x01
/-- cal_temp_delta, 0x7000:02, U8 RW (R505). -/
abbrev arrCalTempDelta : Nat := (0x7000) * 256 + 0x02
/-- monitor_window, 0x7000:03, U32 RW (R505). -/
abbrev arrMonitorWindow : Nat := (0x7000) * 256 + 0x03
/-- monitor_threshold, 0x7000:04, U32 RW (R505). -/
abbrev arrMonitorThreshold : Nat := (0x7000) * 256 + 0x04
/-- fullscale_threshold, 0x7000:05, U16 RW (R505). -/
abbrev arrFullscaleThreshold : Nat := (0x7000) * 256 + 0x05
/-- alarm_rewrite_count, 0x7000:06, U8 RW (R505). -/
abbrev arrAlarmRewriteCount : Nat := (0x7000) * 256 + 0x06
/-- arrays_ready, 0x7000:07, U32 RO (R505). -/
abbrev arrArraysReady : Nat := (0x7000) * 256 + 0x07
/-- arrays_retired, 0x7000:08, U32 RO (R505). -/
abbrev arrArraysRetired : Nat := (0x7000) * 256 + 0x08
/-- spare_rows_left, 0x7000:09, U32 RO (R505). -/
abbrev arrSpareRowsLeft : Nat := (0x7000) * 256 + 0x09
/-- spare_columns_left, 0x7000:0A, U32 RO (R505). -/
abbrev arrSpareColumnsLeft : Nat := (0x7000) * 256 + 0x0A
/-- calibrations, 0x7000:0B, U64 RO (R505). -/
abbrev arrCalibrations : Nat := (0x7000) * 256 + 0x0B
/-- rewrites, 0x7000:0C, U64 RO (R505). -/
abbrev arrRewrites : Nat := (0x7000) * 256 + 0x0C
/-- free_arrays_bound, 0x7000:0D, U32 RO (R505). -/
abbrev arrFreeArraysBound : Nat := (0x7000) * 256 + 0x0D
/-- fallback_dropped_writes, 0x7000:0E, U64 RO (R505). -/
abbrev arrFallbackDroppedWrites : Nat := (0x7000) * 256 + 0x0E
/-- state_map, 0x7000:0F, DOMAIN RO (R505). -/
abbrev arrStateMap : Nat := (0x7000) * 256 + 0x0F
/-- calibrate_all, 0x7000:10, BOOL CMD (R505). -/
abbrev arrCalibrateAll : Nat := (0x7000) * 256 + 0x10
/-- checker_mode, 0x7100:01, ENUM8 RWS (R505). -/
abbrev numCheckerMode : Nat := (0x7100) * 256 + 0x01
/-- checks_run, 0x7100:02, U64 RO (R505). -/
abbrev numChecksRun : Nat := (0x7100) * 256 + 0x02
/-- check_misses, 0x7100:03, U64 RO (R505). -/
abbrev numCheckMisses : Nat := (0x7100) * 256 + 0x03
/-- widen_level1, 0x7100:04, U64 RO (R505). -/
abbrev numWidenLevel1 : Nat := (0x7100) * 256 + 0x04
/-- widen_level2, 0x7100:05, U64 RO (R505). -/
abbrev numWidenLevel2 : Nat := (0x7100) * 256 + 0x05
/-- ladder_exhausted, 0x7100:06, U64 RO (R505). -/
abbrev numLadderExhausted : Nat := (0x7100) * 256 + 0x06
/-- max_deviation_ratio, 0x7100:07, F32 RO (R505). -/
abbrev numMaxDeviationRatio : Nat := (0x7100) * 256 + 0x07
/-- nonfinite_conversions, 0x7100:08, U64 RO (R505). -/
abbrev numNonfiniteConversions : Nat := (0x7100) * 256 + 0x08
/-- invalid_codes, 0x7100:09, U64 RO (R505). -/
abbrev numInvalidCodes : Nat := (0x7100) * 256 + 0x09
/-- saturations, 0x7100:0A, U64 RO (R505). -/
abbrev numSaturations : Nat := (0x7100) * 256 + 0x0A
/-- residual_resets, 0x7100:0B, U64 RO (R505). -/
abbrev numResidualResets : Nat := (0x7100) * 256 + 0x0B
/-- outlier_overflow, 0x7100:0C, U64 RO (R505). -/
abbrev numOutlierOverflow : Nat := (0x7100) * 256 + 0x0C
/-- clear, 0x7100:0D, BOOL CMD (R505). -/
abbrev numClear : Nat := (0x7100) * 256 + 0x0D
/-- torus_position, 0x8000:01, DOMAIN RWS (R506). -/
abbrev fabTorusPosition : Nat := (0x8000) * 256 + 0x01
/-- torus_dims, 0x8000:02, DOMAIN RWS (R506). -/
abbrev fabTorusDims : Nat := (0x8000) * 256 + 0x02
/-- module_id, 0x8000:03, U64 RO (R506). -/
abbrev fabModuleId : Nat := (0x8000) * 256 + 0x03
/-- port_enable, 0x8000:04, BITS32 RWS (R506). -/
abbrev fabPortEnable : Nat := (0x8000) * 256 + 0x04
/-- port_table, 0x8000:05, DOMAIN RO (R506). -/
abbrev fabPortTable : Nat := (0x8000) * 256 + 0x05
/-- retrain, 0x8000:06, U8 CMD (R506). -/
abbrev fabRetrain : Nat := (0x8000) * 256 + 0x06
/-- flit_retries, 0x8000:07, U64 RO (R506). -/
abbrev fabFlitRetries : Nat := (0x8000) * 256 + 0x07
/-- foreign_frames, 0x8000:08, U64 RO (R506). -/
abbrev fabForeignFrames : Nat := (0x8000) * 256 + 0x08
/-- lane_failures, 0x8000:09, U64 RO (R506). -/
abbrev fabLaneFailures : Nat := (0x8000) * 256 + 0x09
/-- failed_routers, 0x8100:01, DOMAIN RO (R506). -/
abbrev netFailedRouters : Nat := (0x8100) * 256 + 0x01
/-- detour_packets, 0x8100:02, U64 RO (R506). -/
abbrev netDetourPackets : Nat := (0x8100) * 256 + 0x02
/-- hp_overflow, 0x8100:03, U64 RO (R506). -/
abbrev netHpOverflow : Nat := (0x8100) * 256 + 0x03
/-- failed_links, 0x8100:04, DOMAIN RO (R506). -/
abbrev netFailedLinks : Nat := (0x8100) * 256 + 0x04
/-- link_load, 0x8100:05, DOMAIN RO (R506). -/
abbrev netLinkLoad : Nat := (0x8100) * 256 + 0x05
/-- seam_spares_left, 0x8100:06, U32 RO (R506). -/
abbrev netSeamSparesLeft : Nat := (0x8100) * 256 + 0x06
/-- vc1_wait_time, 0x8100:07, U64 RO (R506). -/
abbrev netVc1WaitTime : Nat := (0x8100) * 256 + 0x07
/-- pair_state, 0x9000:01, ENUM8 RO (R507). -/
abbrev pairPairState : Nat := (0x9000) * 256 + 0x01
/-- side, 0x9000:02, U8 RO (R507). -/
abbrev pairSide : Nat := (0x9000) * 256 + 0x02
/-- twin_module_id, 0x9000:03, U64 RO (R507). -/
abbrev pairTwinModuleId : Nat := (0x9000) * 256 + 0x03
/-- attach, 0x9000:04, BOOL CMD (R507). -/
abbrev pairAttach : Nat := (0x9000) * 256 + 0x04
/-- detach, 0x9000:05, BOOL CMD (R507). -/
abbrev pairDetach : Nat := (0x9000) * 256 + 0x05
/-- drain, 0x9000:06, BOOL CMD (R507). -/
abbrev pairDrain : Nat := (0x9000) * 256 + 0x06
/-- attach_result, 0x9000:07, ENUM8 RO (R507). -/
abbrev pairAttachResult : Nat := (0x9000) * 256 + 0x07
/-- partition_map, 0x9000:08, DOMAIN RWS (R507). -/
abbrev pairPartitionMap : Nat := (0x9000) * 256 + 0x08
/-- mirrored_rings, 0x9000:09, DOMAIN RWS (R507). -/
abbrev pairMirroredRings : Nat := (0x9000) * 256 + 0x09
/-- ring_side, 0x9000:0A, DOMAIN RWS (R507). -/
abbrev pairRingSide : Nat := (0x9000) * 256 + 0x0A
/-- ring_owner, 0x9000:0B, DOMAIN RO (R507). -/
abbrev pairRingOwner : Nat := (0x9000) * 256 + 0x0B
/-- heartbeat_interval, 0x9000:0C, U16 RW (R507). -/
abbrev pairHeartbeatInterval : Nat := (0x9000) * 256 + 0x0C
/-- heartbeat_timeout, 0x9000:0D, U16 RW (R507). -/
abbrev pairHeartbeatTimeout : Nat := (0x9000) * 256 + 0x0D
/-- mirror_ack_timeout, 0x9000:0E, U16 RW (R507). -/
abbrev pairMirrorAckTimeout : Nat := (0x9000) * 256 + 0x0E
/-- mirror_loss_policy, 0x9000:0F, ENUM8 RWS (R507). -/
abbrev pairMirrorLossPolicy : Nat := (0x9000) * 256 + 0x0F
/-- takeover_enable, 0x9000:10, BOOL RW (R507). -/
abbrev pairTakeoverEnable : Nat := (0x9000) * 256 + 0x10
/-- paths, 0x9000:11, BITS32 RO (R507). -/
abbrev pairPaths : Nat := (0x9000) * 256 + 0x11
/-- mirror_ack_max, 0x9000:12, U32 RO (R507). -/
abbrev pairMirrorAckMax : Nat := (0x9000) * 256 + 0x12
/-- mirror_bytes, 0x9000:13, U64 RO (R507). -/
abbrev pairMirrorBytes : Nat := (0x9000) * 256 + 0x13
/-- mirror_lost, 0x9000:14, U64 RO (R507). -/
abbrev pairMirrorLost : Nat := (0x9000) * 256 + 0x14
/-- bus_frame_retries, 0x9000:15, U64 RO (R507). -/
abbrev pairBusFrameRetries : Nat := (0x9000) * 256 + 0x15
/-- short_pulses, 0x9000:16, U64 RO (R507). -/
abbrev pairShortPulses : Nat := (0x9000) * 256 + 0x16
/-- stuck_inputs, 0x9000:17, BITS32 RO (R507). -/
abbrev pairStuckInputs : Nat := (0x9000) * 256 + 0x17
/-- takeovers, 0x9000:18, U32 RO (R507). -/
abbrev pairTakeovers : Nat := (0x9000) * 256 + 0x18
/-- last_takeover_time, 0x9000:19, U32 RO (R507). -/
abbrev pairLastTakeoverTime : Nat := (0x9000) * 256 + 0x19
/-- yield_map, 0xA000:01, DOMAIN RO (R508). -/
abbrev yldYieldMap : Nat := (0xA000) * 256 + 0x01
/-- yield_generation, 0xA000:02, U32 RO (R508). -/
abbrev yldYieldGeneration : Nat := (0xA000) * 256 + 0x02
/-- cores_usable, 0xA000:03, U16 RO (R508). -/
abbrev yldCoresUsable : Nat := (0xA000) * 256 + 0x03
/-- clusters_degraded, 0xA000:04, U16 RO (R508). -/
abbrev yldClustersDegraded : Nat := (0xA000) * 256 + 0x04
/-- clusters_lost, 0xA000:05, U16 RO (R508). -/
abbrev yldClustersLost : Nat := (0xA000) * 256 + 0x05
/-- spare_cores_left, 0xA000:06, U16 RO (R508). -/
abbrev yldSpareCoresLeft : Nat := (0xA000) * 256 + 0x06
/-- stack_state, 0xA000:07, DOMAIN RO (R508). -/
abbrev yldStackState : Nat := (0xA000) * 256 + 0x07
/-- stack_retrain, 0xA000:08, U8 CMD (R508). -/
abbrev yldStackRetrain : Nat := (0xA000) * 256 + 0x08
/-- link_retrain, 0xA000:09, U16 CMD (R508). -/
abbrev yldLinkRetrain : Nat := (0xA000) * 256 + 0x09
/-- stack_error_rate, 0xA000:0A, U32 RW (R508). -/
abbrev yldStackErrorRate : Nat := (0xA000) * 256 + 0x0A
/-- stack_retrain_temp, 0xA000:0B, U8 RW (R508). -/
abbrev yldStackRetrainTemp : Nat := (0xA000) * 256 + 0x0B
/-- retrains, 0xA000:0C, U64 RO (R508). -/
abbrev yldRetrains : Nat := (0xA000) * 256 + 0x0C
/-- blocks_unavailable, 0xA000:0D, U16 RO (R508). -/
abbrev yldBlocksUnavailable : Nat := (0xA000) * 256 + 0x0D
/-- yield_overflow, 0xA000:0E, U64 RO (R508). -/
abbrev yldYieldOverflow : Nat := (0xA000) * 256 + 0x0E
/-- health_state, 0xA100:01, ENUM8 RO (R508). -/
abbrev hlthHealthState : Nat := (0xA100) * 256 + 0x01
/-- replace_request, 0xA100:02, BITS32 RO (R508). -/
abbrev hlthReplaceRequest : Nat := (0xA100) * 256 + 0x02
/-- replace_urgency, 0xA100:03, ENUM8 RO (R508). -/
abbrev hlthReplaceUrgency : Nat := (0xA100) * 256 + 0x03
/-- spare_core_threshold, 0xA100:04, U16 RW (R508). -/
abbrev hlthSpareCoreThreshold : Nat := (0xA100) * 256 + 0x04
/-- spare_array_threshold, 0xA100:05, U8 RW (R508). -/
abbrev hlthSpareArrayThreshold : Nat := (0xA100) * 256 + 0x05
/-- replace_events, 0xA100:06, U32 RO (R508). -/
abbrev hlthReplaceEvents : Nat := (0xA100) * 256 + 0x06
/-- mp_state, 0xA100:07, BITS32 RO (R508). -/
abbrev hlthMpState : Nat := (0xA100) * 256 + 0x07
/-- mp_takeovers, 0xA100:08, U32 RO (R508). -/
abbrev hlthMpTakeovers : Nat := (0xA100) * 256 + 0x08
/-- last_takeover_duration, 0xA100:09, U32 RO (R508). -/
abbrev hlthLastTakeoverDuration : Nat := (0xA100) * 256 + 0x09
/-- input_status, 0xA100:0A, BITS32 RO (R508). -/
abbrev hlthInputStatus : Nat := (0xA100) * 256 + 0x0A
/-- interlock_glitches, 0xA100:0B, U64 RO (R508). -/
abbrev hlthInterlockGlitches : Nat := (0xA100) * 256 + 0x0B
/-- chatter_events, 0xA100:0C, U32 RO (R508). -/
abbrev hlthChatterEvents : Nat := (0xA100) * 256 + 0x0C
/-- leases_expired, 0xA100:0D, U64 RO (R508). -/
abbrev hlthLeasesExpired : Nat := (0xA100) * 256 + 0x0D
/-- capacity, 0xB000:01, U32 RO (R509). -/
abbrev recCapacity : Nat := (0xB000) * 256 + 0x01
/-- first_seq, 0xB000:02, U64 RO (R509). -/
abbrev recFirstSeq : Nat := (0xB000) * 256 + 0x02
/-- last_seq, 0xB000:03, U64 RO (R509). -/
abbrev recLastSeq : Nat := (0xB000) * 256 + 0x03
/-- records, 0xB000:04, U32 RO (R509). -/
abbrev recRecords : Nat := (0xB000) * 256 + 0x04
/-- log, 0xB000:05, DOMAIN RO (R509). -/
abbrev recLog : Nat := (0xB000) * 256 + 0x05
/-- read_slot, 0xB000:06, U32 RW (R509). -/
abbrev recReadSlot : Nat := (0xB000) * 256 + 0x06
/-- full, 0xB000:07, BOOL RO (R509). -/
abbrev recFull : Nat := (0xB000) * 256 + 0x07
/-- events_dropped, 0xB000:08, U64 RO (R509). -/
abbrev recEventsDropped : Nat := (0xB000) * 256 + 0x08
/-- clear, 0xB000:09, BOOL CMD (R509). -/
abbrev recClear : Nat := (0xB000) * 256 + 0x09
/-- flushed_seq, 0xB000:0A, U64 RO (R509). -/
abbrev recFlushedSeq : Nat := (0xB000) * 256 + 0x0A
/-- flush_now, 0xB000:0B, BOOL CMD (R509). -/
abbrev recFlushNow : Nat := (0xB000) * 256 + 0x0B
/-- prev_log, 0xB000:0C, DOMAIN RO (R509). -/
abbrev recPrevLog : Nat := (0xB000) * 256 + 0x0C
/-- prev_first_seq, 0xB000:0D, U64 RO (R509). -/
abbrev recPrevFirstSeq : Nat := (0xB000) * 256 + 0x0D
/-- prev_last_seq, 0xB000:0E, U64 RO (R509). -/
abbrev recPrevLastSeq : Nat := (0xB000) * 256 + 0x0E
/-- suppress_window, 0xB000:0F, U16 RW (R509). -/
abbrev recSuppressWindow : Nat := (0xB000) * 256 + 0x0F
/-- suppressed, 0xB000:10, U64 RO (R509). -/
abbrev recSuppressed : Nat := (0xB000) * 256 + 0x10
/-- flushes, 0xB000:11, U32 RO (R509). -/
abbrev recFlushes : Nat := (0xB000) * 256 + 0x11
/-- last_flush_time, 0xB000:12, U32 RO (R509). -/
abbrev recLastFlushTime : Nat := (0xB000) * 256 + 0x12
/-- gaps, 0xB000:13, U64 RO (R509). -/
abbrev recGaps : Nat := (0xB000) * 256 + 0x13
/-- lifecycle_state, 0xC000:01, ENUM8 RO (R510). -/
abbrev secLifecycleState : Nat := (0xC000) * 256 + 0x01
/-- identity_public_key, 0xC000:02, DOMAIN RO (R510). -/
abbrev secIdentityPublicKey : Nat := (0xC000) * 256 + 0x02
/-- identity_certificates, 0xC000:03, DOMAIN RO (R510). -/
abbrev secIdentityCertificates : Nat := (0xC000) * 256 + 0x03
/-- operator_keys, 0xC000:04, DOMAIN RWS (R510). -/
abbrev secOperatorKeys : Nat := (0xC000) * 256 + 0x04
/-- fw_cosign_required, 0xC000:05, BOOL RWS (R510). -/
abbrev secFwCosignRequired : Nat := (0xC000) * 256 + 0x05
/-- attest, 0xC000:06, DOMAIN CMD (R510). -/
abbrev secAttest : Nat := (0xC000) * 256 + 0x06
/-- attestation_report, 0xC000:07, DOMAIN RO (R510). -/
abbrev secAttestationReport : Nat := (0xC000) * 256 + 0x07
/-- lc_challenge, 0xC000:08, DOMAIN RO (R510). -/
abbrev secLcChallenge : Nat := (0xC000) * 256 + 0x08
/-- lc_request, 0xC000:09, DOMAIN CMD (R510). -/
abbrev secLcRequest : Nat := (0xC000) * 256 + 0x09
/-- fw_image, 0xC000:0A, DOMAIN WO (R510). -/
abbrev secFwImage : Nat := (0xC000) * 256 + 0x0A
/-- fw_activate, 0xC000:0B, U8 CMD (R510). -/
abbrev secFwActivate : Nat := (0xC000) * 256 + 0x0B
/-- fw_security_version, 0xC000:0C, U16 RO (R510). -/
abbrev secFwSecurityVersion : Nat := (0xC000) * 256 + 0x0C
/-- fw_fuse_version, 0xC000:0D, U16 RO (R510). -/
abbrev secFwFuseVersion : Nat := (0xC000) * 256 + 0x0D
/-- advance_security_version, 0xC000:0E, BOOL CMD (R510). -/
abbrev secAdvanceSecurityVersion : Nat := (0xC000) * 256 + 0x0E
/-- slot_versions, 0xC000:0F, DOMAIN RO (R510). -/
abbrev secSlotVersions : Nat := (0xC000) * 256 + 0x0F
/-- auth_failures, 0xC000:10, U32 RO (R510). -/
abbrev secAuthFailures : Nat := (0xC000) * 256 + 0x10
/-- signature_failures, 0xC000:11, U64 RO (R510). -/
abbrev secSignatureFailures : Nat := (0xC000) * 256 + 0x11
/-- wipe_time, 0xC000:12, U32 RO (R510). -/
abbrev secWipeTime : Nat := (0xC000) * 256 + 0x12
/-- port_state, 0xD000:01, DOMAIN RO (R511). -/
abbrev pciePortState : Nat := (0xD000) * 256 + 0x01
/-- ring_ranges, 0xD000:02, DOMAIN RWS (R511). -/
abbrev pcieRingRanges : Nat := (0xD000) * 256 + 0x02
/-- retrain, 0xD000:03, U8 CMD (R511). -/
abbrev pcieRetrain : Nat := (0xD000) * 256 + 0x03
/-- perst_glitches, 0xD000:04, U64 RO (R511). -/
abbrev pciePerstGlitches : Nat := (0xD000) * 256 + 0x04
/-- perst_status, 0xD000:05, BITS32 RO (R511). -/
abbrev pciePerstStatus : Nat := (0xD000) * 256 + 0x05
/-- host_losses, 0xD000:06, U32 RO (R511). -/
abbrev pcieHostLosses : Nat := (0xD000) * 256 + 0x06
/-- flrs, 0xD000:07, U32 RO (R511). -/
abbrev pcieFlrs : Nat := (0xD000) * 256 + 0x07
/-- host_read_errors, 0xD000:08, U64 RO (R511). -/
abbrev pcieHostReadErrors : Nat := (0xD000) * 256 + 0x08
/-- held_write_time, 0xD000:09, U64 RO (R511). -/
abbrev pcieHeldWriteTime : Nat := (0xD000) * 256 + 0x09
/-- target_rate, 0xD000:0A, DOMAIN RWS (R511). -/
abbrev pcieTargetRate : Nat := (0xD000) * 256 + 0x0A
/-- correctable_threshold, 0xD000:0B, U32 RW (R511). -/
abbrev pcieCorrectableThreshold : Nat := (0xD000) * 256 + 0x0B
/-- physical_core_map, 0xE000:01, DOMAIN RO (R512). -/
abbrev diagPhysicalCoreMap : Nat := (0xE000) * 256 + 0x01
/-- clear_block_entry, 0xE000:02, U16 CMD (R512). -/
abbrev diagClearBlockEntry : Nat := (0xE000) * 256 + 0x02
/-- array_trims, 0xE000:03, DOMAIN RO (R512). -/
abbrev diagArrayTrims : Nat := (0xE000) * 256 + 0x03
/-- raw_sensors, 0xE000:04, DOMAIN RO (R512). -/
abbrev diagRawSensors : Nat := (0xE000) * 256 + 0x04

end Sys2Proof.K
end

