-- ==== Sys2Proof/Machine/State.lean ====
section
/-! DEFINITION. The state of the VW1, all of it plain data. Anything of which the module has many is a
sparse map by number (KV): what is not listed holds the default of its kind. Numbers used as keys:
cluster = y * 24 + x; core = cluster * 16 + core of the cluster; array = core * 32 + logical array;
chain = core * 8 + chain; scratch byte = core * 2^21 + bank * 2^16 + byte; stack byte = block * 2^37 +
byte; frame = block * 2^21 + frame. Objects of the dictionary that hold a scalar are in `od` by their
number (Machine/Objects.lean); an object that the rules define as a view of other state is computed when
it is read, so every piece of state has one home. -/

namespace Sys2Proof.Machine

/-! ## Cores -/

/-- Mode of a scratch bank (R88). "off" is a scratch bank whose power is off. -/
inductive BankMode where
  | scratch | cache
deriving DecidableEq, Repr

/-- Power of a scratch bank (R92). -/
inductive BankPower where
  | on | pendingOff | off | poweringUp
deriving DecidableEq, Repr

/-- One bank of a core (R88, R92). -/
structure Bank where
  mode : BankMode := .scratch
  power : BankPower := .on
deriving DecidableEq, Repr

/-- What holds a core's sequencer (R67, R30). -/
inductive Hold where
  | none
  | engine (e : Engine) (left : Nat)
  | transfer (id : Nat)
  | hurdle (h : Nat)
deriving DecidableEq, Repr

/-- A command whose issue waits, with what befalls it when it runs. Its metered events that credit has covered
are gone from its list (R345). -/
structure Waiting where
  cmd : CoreCmd
  env : CoreEnv
  bad : List (Nat × Nat)
  /-- The overdraw of its next event has been counted (R345). -/
  overdrawn : Bool := false
deriving DecidableEq, Repr

/-- Kinds of DMA transfer (R99, R96). -/
inductive XferKind where
  | stackRead | stackWrite | coreWrite | edgeRead | edgeWrite | gather
deriving DecidableEq, Repr

/-- One granule of a transfer's destination: its address, and the generation a translated access
carries (R193). -/
structure Gran where
  addr : Nat
  gen : Option Nat := none
deriving DecidableEq, Repr

/-- Virtual channels of a bulk link (R279). -/
inductive VChannel where
  | vc0 | vc1 | vc2
deriving DecidableEq, Repr

/-- A hop of a packet: the router it enters and the channel of the link to it. -/
structure Hop where
  router : Nat
  channel : VChannel
deriving DecidableEq, Repr

/-- A bulk packet (R278): its header, which names the routers that it leaves and enters last, the hops between them,
and the granules of its transfer that its flits carry. -/
structure Packet where
  source : Nat
  dest : Nat
  first : Nat
  granules : Nat
  hops : List Hop := []
deriving DecidableEq, Repr

/-- A DMA transfer in flight (R101, R104): data taken at its start, landing at its completion. `ready` is
false while a gather waits for missed lines (R95); `channel` is the edge channel of forms 3 and 4. -/
structure Transfer where
  id : Nat
  kind : XferKind
  counter : Nat
  sync : Bool
  dst : List Gran
  data : List Byte
  poisoned : List Nat := []
  target : Nat := 0
  channel : Nat := 0
  offset : Nat := 0
  tentative : Bool := false
  session : Option Nat := none
  /-- Parts of the data still to come: (line key, byte of the line, bytes, byte of the data) (R95). -/
  wants : List (Nat × Nat × Nat × Nat) := []
  /-- A read of a quarantined piece is held: set and granule (R232); `ready` is then false. -/
  heldSet : Option (Nat × Nat) := none
  /-- Pieces of sets the data comes from: (destination granule, set, piece) (R232). -/
  sources : List (Nat × Nat × Nat) := []
  /-- Stack addresses of the granules of a read of session pages: (destination granule, address) (R206). -/
  stackAt : List (Nat × Nat) := []
  /-- The lane read through, for a lane-indirect read (R215). -/
  viaLane : Option Nat := none
  ready : Bool := true
  /-- Its packets on the bulk network (R278). -/
  packets : List Packet := []
deriving DecidableEq, Repr

/-- What a bank conflict leaves recorded in its core (R89): the bank, the two requesters, and the command index
of the later access. -/
structure ConflictRec where
  bank : Nat
  earlier : Requester
  later : Requester
  index : Nat
deriving DecidableEq, Repr

/-- One core (R15). -/
structure Core where
  /-- Index in the lap program of the next command (R25). -/
  pos : Nat := 0
  /-- Index of the first command of the replay segment (R45). -/
  segPos : Nat := 0
  /-- Commands that the sequencer still skips (R124, R166). -/
  skip : Nat := 0
  /-- What holds issue (R67, R30). -/
  hold : Hold := .none
  /-- Commands whose issue waits, oldest first (R66). -/
  waiting : List Waiting := []
  /-- Prefetched commands of a streamed program (R65). -/
  ahead : Nat := 4096
  /-- Program-buffer parity errors refetched (R65). -/
  progParity : Nat := 0
  /-- Operand descriptors by index 0-62, 64 bits each (R71). -/
  descs : KV W64 := []
  /-- Commands in the matrix, array, vector and DMA engine queues (R66). -/
  qMatrix : Nat := 0
  qArray : Nat := 0
  qVector : Nat := 0
  qDma : Nat := 0
  /-- The 16 DMA counters of 12 bits (R101). -/
  counters : KV Nat := []
  /-- Transfers in flight, oldest first (R104). -/
  transfers : List Transfer := []
  /-- Number of the next transfer. -/
  nextXfer : Nat := 0
  /-- The 32 banks (R87, R88, R92). -/
  banks : KV Bank := []
  /-- Scratch granules marked poisoned, by address (R103). -/
  poison : List Nat := []
  /-- Replay request bit (R46), and the bit as the core arrived with it at the checkpoint it waits at. -/
  replayReq : Bool := false
  sentReplay : Bool := false
  /-- Abort bits of this core, by session (R38). -/
  aborts : List Nat := []
  /-- Hurdle at which the core has arrived and which has not cleared (R30). -/
  arrived : Option Nat := none
  /-- The HURDLE command of that arrival: checkpoint, verdict and swap mask (R75). -/
  arrival : Option HurdleArgs := none
  /-- The last hurdle this core arrived at early and that has cleared (split form, R30). -/
  clearedSplit : Option Nat := none
  /-- That hurdle, where the segment begins before its wait (R30, R45). -/
  segSplit : Option Nat := none
  /-- Index of the command after the last arrival, and the generator's state there (R45, R151). -/
  arrivedAt : Nat := 0
  rngArrived : W32 := 0
  /-- The cause that holds, or last held, the sequencer (R55). -/
  stall : StallCause := .none
  /-- The last word that failed parity with its command index (R90), and the last bank conflict (R89). -/
  lastParity : Option (Nat × Nat) := none
  lastConflict : Option ConflictRec := none
  /-- Words that failed parity in this lap, by address (R91). -/
  parityWords : List Nat := []
  /-- Command indices with a bank conflict in this segment and in the run it repeats (R48). -/
  conflicts : List Nat := []
  oldConflicts : List Nat := []
  /-- Checker flag; widen bits for the next arrival, sent with the last arrival, and received with the last
  clear (R165, R166). -/
  checker : Bool := false
  /-- Command index of the last tile that missed its bound (R86). -/
  missTile : Option Nat := none
  widenOut : List Nat := []
  widenSent : List Nat := []
  widenIn : List Nat := []
  /-- The widen bits in force when the segment began (R168). -/
  widenSaved : List Nat := []
  /-- Stochastic-rounding generator and its saved state, 32 bits each (R151). -/
  rng : W32 := 0
  rngSaved : W32 := 0
  /-- Hardware cache: line key held at set * 4 + way, tree pseudo-LRU bits by set, keys of lines being
  fetched (R93 to R95), cache banks in use (R88). A line's data lies in its cache bank. -/
  lines : KV (Option Nat) := []
  plru : KV Nat := []
  fetching : List Nat := []
  cacheBanks : Nat := 0
  /-- Cache lines and tags that failed parity and were fetched again (R98). -/
  cacheParity : Nat := 0
deriving DecidableEq, Repr

/-! ## Arrays -/

/-- States of an array (R135, coded by R137). -/
inductive ArrState where
  | ready | calPending | calibrating | suspect | writePending | writing | retired
deriving DecidableEq, Repr

/-- One in-memory array, by its logical index (R107 to R110, R134, R135). -/
structure Arr where
  state : ArrState := .ready
  /-- Calibration has passed and the array waits for hurdle 0 (R129 order 7). -/
  passed : Bool := false
  /-- In the lap mask (R123). -/
  masked : Bool := true
  /-- Stored weight format: 0 ternary, 1 INT2, 2 INT4 (R108, R118). -/
  wfmt : Nat := 0
  /-- 512 rows of 64 bytes; a row that is not listed holds zeros (R107, R136). -/
  rows : KV (List Byte) := []
  /-- 256 BF16 weight-scale registers (R107, R110). -/
  scales : KV W16 := []
  /-- Contents kept across laps, and their repair source (R120). -/
  persist : Bool := false
  repair : Option StackPlace := none
  /-- A free physical array bound in place of the one of the logical index (R134, R135). -/
  phys : Option Nat := none
  /-- Rows and bit-columns whose spares are bound (R122, R130). -/
  rowsBound : List Nat := []
  colsBound : List Nat := []
  /-- Governing temperature at the last calibration, 0.1 degree C (R129). -/
  calTemp : Int := 250
  /-- The governing temperature has been more than 8 degrees from it since (R111). -/
  stale : Bool := false
  /-- Offset, gain and pulse-unit trims as last set (R129). -/
  trims : List Nat := []
  /-- Full-scale codes per bit-column in the window (R131). -/
  fullScale : KV Nat := []
  /-- Conversions of its converters in the window. -/
  converted : Nat := 0
  /-- Lap at which the array last left SUSPECT (R133). -/
  leftSuspect : Option Nat := none
  /-- The calibration under way began in SUSPECT. -/
  fromSuspect : Bool := false
  /-- A SUSPECT array's calibration has begun, at a hurdle 0 (R135). -/
  checking : Bool := false
deriving DecidableEq, Repr

/-- One chain of a core (R119, R128, R131). -/
structure ChainState where
  /-- Queued for calibration. -/
  queued : Bool := false
  /-- Outputs outside their envelope, and outputs seen, in the window (R131). -/
  outside : Nat := 0
  seen : Nat := 0
  /-- Alarms since the last calibration, and the lap of that calibration (R133). -/
  alarms : Nat := 0
  calLap : Nat := 0
  /-- The column and the deviation of its last canary failure (R132). -/
  canary : Option (Nat × Nat) := none
deriving DecidableEq, Repr

/-! ## Clusters -/

/-- One cluster (R15, R32, R191, R344). -/
structure Cluster where
  /-- Translation unit: leaf entries by session * 2^32 + address bits [47:16], and stream pointers by
  session * 2^19 + stream (R191). -/
  tlb : KV Nat := []
  ptrs : KV Nat := []
  /-- Chains that wait for maintenance, in order (R128). -/
  calQueue : List Nat := []
  /-- Governing temperature at the last calibration of the arrays of no chain, which takes no lap time (R128). -/
  idleCal : Int := 250
  rewriteQueue : List Nat := []
  /-- Token vector of the phase and its four fields' credits in pJ: mx, ar, vu, me (R343, R344). -/
  tokens : List Nat := []
  credit : List Nat := []
  /-- Governing junction temperature, 0.1 degree C (R358, R111). -/
  govTemp : Int := 250
  /-- Cores presented after spare binding (R9, R59); a lost cluster presents none (R386). -/
  presented : Nat := 16
  /-- Leases of the translation unit: leaf entries it has drawn in the lap, as (session, index of the entry, lap
  number) (R192, R406); and whether the unit is fenced (R54, R407). -/
  leases : List (Nat × Nat × Nat) := []
  fenced : Bool := false
deriving DecidableEq, Repr

/-! ## Key/value frames -/

/-- What a stack frame is used for (R194, R206, R212). -/
inductive FrameUse where
  | free | session | image | weight | reserved | withdrawn
deriving DecidableEq, Repr

/-- A frame's entry of its block's frame table (R193). -/
structure Frame where
  use : FrameUse := .free
  gen : Nat := 0
  sharers : Nat := 0
deriving DecidableEq, Repr

/-! ## Partitions -/

/-- Partition states (R62). -/
inductive PartState where
  | empty | loading | running | draining | faulted | resetting
deriving DecidableEq, Repr

/-- What a lane does in a lap (R259). -/
inductive LaneKind where
  | idle | decode | verify | prefill
deriving DecidableEq, Repr

/-- One lane of the lane table (R180, R259). -/
structure Lane where
  session : Nat
  p0 : Nat := 0
  block : Nat := 0
  kind : LaneKind := .idle
  /-- The last position of the block is sampled (R254). -/
  samples : Bool := false
  /-- A reserved lane lent to a lower class (R260). -/
  lent : Bool := false
  /-- Laps for which the session has held the lane (R260). -/
  laps : Nat := 0
deriving DecidableEq, Repr

/-- A flip of a weight slot under way (R226 to R229). -/
structure Flip where
  slot : Nat
  policy : Nat
  set : Nat
  /-- The set of the slot before the swap (R227 order 7). -/
  old : Nat := 0xFFFF
  /-- Ring and tag of the WEIGHT_FLIP; none for a flip carried here by another module. -/
  origin : Option (Nat × Nat) := none
  /-- Every cluster has acknowledged (R227). -/
  prepared : Bool := false
  /-- Every other module concerned is ready (R230, R328): the flip swaps at the next commit or abort baton. -/
  go : Bool := true
  /-- The flip came from the twin (R328), or waits for the twin's answer. -/
  fromTwin : Bool := false
  toTwin : Bool := false
  /-- It is carried by FLIP frames, so that both modules' measurements stay equal (R311, R328). -/
  carried : Bool := false
  /-- First lap whose baton may swap it: the lap that a job's modules have agreed on (R230). -/
  goLap : Nat := 0
  /-- The baton has swapped and the gap runs (R227), and the lap number of that baton. -/
  gap : Bool := false
  lap : Nat := 0
deriving DecidableEq, Repr

/-- The starter's own copy of one lap-input area of the lap (R91): the core, the area, and its bytes. -/
structure InputCopy where
  core : Nat
  desc : W64
  bytes : List Byte
deriving DecidableEq, Repr

/-- One partition (R22, R62). The lap program is kept as loaded (R61). -/
structure Part where
  state : PartState := .empty
  /-- Rectangle in clusters, as placed at load (R59). -/
  ox : Nat := 0
  oy : Nat := 0
  width : Nat := 0
  height : Nat := 0
  program : Option LapProgram := none
  /-- Lap number and work lap number (R11, R42). -/
  lap : Nat := 0
  workLap : Nat := 0
  /-- A rerun lap runs (R42). -/
  rerun : Bool := false
  /-- Commit and abort batons since load (R126). -/
  turns : Nat := 0
  /-- Hurdle that the hurdle nodes expect next, and the cores that have arrived at it (R32). -/
  hurdle : Nat := 0
  arrived : List Nat := []
  /-- Retrainings that suspend the hurdle timer (R36). -/
  timerHolds : Nat := 0
  /-- Replays since the last commit or abort baton (R48). -/
  replays : Nat := 0
  /-- The segment runs again after a repeat (R45). -/
  repeating : Bool := false
  /-- Hurdle with which the replay segment's first phase ends (R42, R45). -/
  segHurdle : Nat := 0
  /-- A sampling-unit parity error has requested replay (R46, R267). -/
  sampleReplay : Bool := false
  /-- The lap has begun: hurdle 0 has cleared since the last baton. -/
  inLap : Bool := false
  /-- The verdict formed at the verdict hurdle, not yet carried by a baton (R39). -/
  verdict : Option Verdict := none
  /-- Sessions named by the abort bits (R39), held over a replay. -/
  aborts : List Nat := []
  /-- The lane table, by lane number (R259). -/
  lanes : KV Lane := []
  /-- The starter's copy of the lap inputs (R91). -/
  copies : List InputCopy := []
  /-- Sessions cut out of the lap in progress: their accesses are cut until its baton (R41, R190). -/
  cutSessions : List Nat := []
  /-- The lap is checked (R132). -/
  checkedLap : Bool := false
  /-- Share variant of each stage in the last lap (R263). -/
  shares : List Nat := []
  /-- Phase of the lap: hurdles cleared since lap start (R343). -/
  phase : Nat := 0
  /-- First fault not yet handled: code and cluster (R401), and later faults (R401). -/
  fault : Option (Nat × Nat) := none
  laterFaults : Nat := 0
  /-- The load was abandoned or failed and wipes are under way (R492). -/
  wiping : Bool := false
  /-- The load has written its image and its arrays (R492). -/
  written : Bool := false
  /-- A load whose checks wait for a commit in prepare (R492). -/
  heldLoad : Option LapProgram := none
  /-- load_result before the load in progress (R492). -/
  oldResult : Nat := 0
  flip : Option Flip := none
  /-- Last 1,024 commit or abort lap times (R63), and time of the rerun laps of the present lap. -/
  lapTimes : List Nat := []
  lapTime : Nat := 0
  /-- The last core to arrive at the hurdle, and whether a member of the job arrived after it (R55, R63). -/
  lastLate : Nat := 0
  remoteLast : Bool := false
  /-- Job: hurdle arrivals of other members, verdict parts, and mark to start at (R296, R297, R302). -/
  jobArrived : List Nat := []
  jobClear : Bool := false
  jobReplay : Bool := false
  /-- Hurdles at which a member has asked for a repeat (R47). -/
  jobReplays : List Nat := []
  jobRepeat : Bool := false
  jobWaiting : Option Nat := none
  jobMark : Option Nat := none
  jobFlipReady : List Nat := []
  /-- Values in force in this partition alone, of objects that a commit is switching (R414). -/
  overrides : List (Nat × Nat) := []
  /-- Next position of the stamps by which waiting sessions are ordered (R259). -/
  stamp : Nat := 0
deriving DecidableEq, Repr

/-! ## Sessions -/

/-- Session states (R250, coded by R276). -/
inductive SessState where
  | free | idle | active | evicting | evicted | restoring | ending
deriving DecidableEq, Repr

/-- A fetched command of a session that has not completed (R250, R251). -/
structure SessCmd where
  ring : Nat
  tag : Nat
  opcode : Nat
  bytes : List Byte
  /-- Place in the order of fetching (R251). -/
  order : Nat := 0
  /-- Positions consumed by a PROMPT_APPEND (R246). -/
  consumed : Nat := 0
  /-- Tokens released by a GENERATE and the position of the last (R246). -/
  released : Nat := 0
  lastPos : Nat := 0
  /-- The command has taken effect and is being carried out. -/
  running : Bool := false
  /-- A bias list has been read (R253): token and bias. -/
  bias : List (Nat × W16) := []
  biasRead : Bool := false
  /-- Sampling fields taken from 0x5200 when fetched (R275), as FP32 words and counts. -/
  temperature : W32 := 0
  topK : Nat := 0
  topP : W32 := 0
  minP : W32 := 0
  repPenalty : W32 := 0
  repWindow : Nat := 0
  /-- Seed of a GENERATE, one of 0 already replaced (R265). -/
  seed : W64 := 0
deriving DecidableEq, Repr

/-- A token committed and not yet written to the token ring (R247). -/
structure TokRec where
  token : Nat
  position : Nat
  logprob : W32
  tag : Nat
  last : Bool
  stop : Bool
  draft : Bool
  /-- Lap of its baton, and whether it waits for a MIRROR_ACK (R320). -/
  lap : Nat
  mirror : Bool := false
deriving DecidableEq, Repr

/-- A token sampled in the lap, held until the baton (R38 order 5). -/
structure Sampled where
  token : Nat
  logprob : W32
  stop : Bool
deriving DecidableEq, Repr

/-- A page of an evicted session, as written to its slot: leaf index, block, contents (R203). -/
structure EvPage where
  idx : Nat
  block : Nat
  data : List Byte
deriving DecidableEq, Repr

/-- A leaf table of an evicted session: root and L2 index (root * 2^13 + L2), block, and its pages. -/
structure EvTable where
  place : Nat
  block : Nat
  pages : List EvPage
deriving DecidableEq, Repr

/-- One session context (R249, R276). -/
structure Session where
  state : SessState := .free
  cls : Nat := 0
  part : Nat := 0
  homeDie : Nat := 0
  fn : Nat := 0
  openRing : Nat := 0
  mirrored : Bool := false
  /-- Token ring: base, log2 of its records, records written so far, head last accepted (R239, R241). -/
  tokenBase : Nat := 0
  tokenLog2 : Nat := 0
  tokW : Nat := 0
  tokHead : Nat := 0
  /-- Bitmap ring: base, log2 of its slots, slots as last read, remembered slot (R266). -/
  bitmapBase : Option Nat := none
  bitmapLog2 : Nat := 0
  bitmaps : KV (List Byte) := []
  remembered : Option (List Byte) := none
  /-- The slots that govern the positions the lap samples, in order (R266). -/
  lapMaps : List (List Byte) := []
  /-- Adapter set bound (R217). -/
  adapter : Option Nat := none
  /-- Committed length (R199). -/
  len : Nat := 0
  /-- The pending token, and the tokens of positions 0 to len - 1 (R254, R264). -/
  pending : Option Nat := none
  history : List Nat := []
  /-- A prompt position held back, with its token ID read (R254). -/
  held : Option Nat := none
  /-- Token IDs of the block in the lane, and whether they have been read (R253). -/
  block : List Nat := []
  blockRead : Bool := false
  /-- The block begins with the held position; the token to hold back after it (R254). -/
  useHeld : Bool := false
  holdAfter : Bool := false
  holdNext : Option Nat := none
  /-- Status with which the PROMPT_APPEND cut short by an invalid token ID ends at the baton (R253). -/
  cutStatus : Option Nat := none
  /-- Commands fetched and not completed, in fetch order (R251). -/
  cmds : List SessCmd := []
  /-- Seed in use (R265). -/
  seed : W64 := 0
  /-- Tokens sampled in the lap, and drafts proposed for the next (R264, R267). -/
  sampled : List Sampled := []
  drafts : List Nat := []
  nextDrafts : List Nat := []
  /-- Token records committed and not yet written (R38 order 10). -/
  records : List TokRec := []
  /-- Root table: 64 entries of 8 bytes (R187). -/
  root : KV Nat := []
  /-- Status with which the session ends at the abort baton (R196, R206, R233). -/
  abortStatus : Option Nat := none
  /-- CANCEL fetched: ring and tag; the wave has been acknowledged (R268, R269). -/
  cancel : Option (Nat × Nat) := none
  waveSent : Bool := false
  /-- State to return to after paging (R250). -/
  before : SessState := .idle
  /-- Digest of an evicted image, its slots, and what was written to them (R203). -/
  digest : List Byte := []
  slots : List Nat := []
  /-- Frames reserved for a restore, as (block, frame) (R203 order 5). -/
  reserved : List (Nat × Nat) := []
  image : List EvTable := []
  /-- Parent or child of a FORK taking effect at this boundary (R255). -/
  forked : Bool := false
  /-- Its children of FORKs taking effect at this boundary. -/
  children : List Nat := []
  /-- Parent whose FORK has created this context and has not yet taken effect. -/
  parent : Option Nat := none
  /-- Stamp by which waiting is ordered, and whether the session has held a lane (R259). -/
  waitStamp : Nat := 0
  hadLane : Bool := false
  /-- Its CLOSE has taken effect (R256). -/
  closed : Bool := false
  /-- A token of the running GENERATE has been released, and its interval is measured (R258). -/
  timing : Bool := false
  excused : Bool := false
  /-- Residual rows by site, BF16 bytes (R159); a row not listed is zero. -/
  residuals : KV (List Byte) := []
  /-- The twin holds a shadow; the wave's answer from the twin is awaited (R320, R328). -/
  twinAbort : Bool := false
  /-- Port of the ring that opened the session (R249). -/
  port : Nat := 0
  /-- The context is a shadow held for the twin (R310), with what the twin's messages tell of its commands:
  prompt positions consumed and tokens released by the commands that have not completed (R323). -/
  shadow : Bool := false
  shadowUsed : Nat := 0
  shadowMade : Nat := 0
  /-- A mirrored entry of the lap found no page: the lap is not acknowledged (R320). -/
  mirrorFailed : Bool := false
  /-- Entry with which the session was opened, for a shadow (R321). -/
  openTag : Nat := 0
  /-- Its host is lost: it is ENDING and keeps its pages until it is cut out, without a completion (R464). -/
  hostLost : Bool := false
deriving DecidableEq, Repr

/-! ## Rings -/

/-- A submission ring (R238 to R240). -/
structure SubRing where
  /-- The context as written (R459), 32 bytes; the fields below are in force since the last enable. -/
  ctx : List Byte := List.replicate 32 0
  base : Nat := 0
  sizeLog2 : Nat := 0
  cq : Nat := 0
  priority : Nat := 0
  enable : Bool := false
  tail : Nat := 0
  fetch : Nat := 0
  /-- Entries fetched and not yet dispatched, oldest first (R240, R243). -/
  dispatch : List (List Byte) := []
  /-- The places of those entries in the order of fetching, and the place of the entry dispatched last (R251). -/
  fetchOrder : List Nat := []
  lastOrder : Nat := 0
  /-- Commands of this ring dispatched and not completed (R256). -/
  outstanding : Nat := 0
deriving DecidableEq, Repr

/-- A completion formed and waiting to be posted (R245). `records` is how many token records of the
session must have been written first (R246, promise C). -/
structure Compl where
  tag : Nat
  opcode : Nat
  status : Nat
  sq : Nat
  sqHead : Nat
  session : Nat
  flags : Nat
  result : List Byte
  recordSession : Option Nat := none
  records : Nat := 0
  /-- Its place in the order of forming, and whether a session's end has formed it (R251). -/
  place : Nat := 0
  ending : Bool := false
  /-- A completion of a mirrored ring: 1 its shadow has been sent, 2 acknowledged (R321). -/
  shadowed : Nat := 0
deriving DecidableEq, Repr

/-- A completion ring (R238, R241). -/
structure CompRing where
  ctx : List Byte := List.replicate 32 0
  base : Nat := 0
  sizeLog2 : Nat := 0
  vector : Nat := 0
  coalesceCount : Nat := 0
  coalesceTime : Nat := 0
  enable : Bool := false
  /-- Completions written so far, and the head last accepted (R241). -/
  written : Nat := 0
  head : Nat := 0
  /-- Completions formed and not posted (R240). -/
  ready : List Compl := []
  /-- Completions since the last interrupt (R238). -/
  uncoalesced : Nat := 0
deriving DecidableEq, Repr

/-! ## The event recorder -/

/-- One slot of the log: 64 bytes, and the management processor that has reserved it (R428, R429). -/
structure RecSlot where
  bytes : List Byte := []
  reserved : Option Bool := none
deriving DecidableEq, Repr

/-- Suppression of one code and location (R431): inside its window, and the count not yet carried. -/
structure SuppressWindow where
  code : Nat
  location : Nat
  isOpen : Bool
  count : Nat
deriving DecidableEq, Repr

/-- The event recorder (R427 to R438). -/
structure Recorder where
  /-- Number of the record in slot 0 (R427). -/
  firstSeq : Nat := 0
  slots : List RecSlot := []
  /-- Sequence ceiling in flash (R430). -/
  ceiling : Nat := 0
  flushedSeq : Nat := 0
  windows : List SuppressWindow := []
  /-- False after the reset or power-fail record (R436). -/
  accepting : Bool := true
  /-- A flush runs, up to this number (R436). -/
  flushing : Option Nat := none
  /-- A clear waits for the flush to end (R435). -/
  clearing : Bool := false
  /-- The run's flash area, and the previous run's log (R436, R438). -/
  flash : List (List Byte) := []
  prevLog : List (List Byte) := []
  prevFirst : Nat := 0
  prevLast : Nat := 0
deriving DecidableEq, Repr

/-! ## The yield map -/

/-- The yield map in module flash (R384, R385). `unwritten` are bindings for which the map had no room. -/
structure YieldMap where
  generation : Nat := 0
  entries : List YieldEntry := []
  unwritten : List YieldEntry := []
deriving DecidableEq, Repr

/-! ## Weight sets -/

/-- States of a set (R221). -/
inductive SetState where
  | empty | verifying | loading | loaded | damaged | wiping
deriving DecidableEq, Repr

/-- One weight set (R209 to R235). -/
structure WSet where
  state : SetState := .empty
  kind : Nat := 0
  /-- port * 64 + function, or 0xFF (R214). -/
  owner : Nat := 0xFF
  /-- The owner has been lost under R464. -/
  ownerLost : Bool := false
  retained : Bool := false
  relayedIn : Bool := false
  relaySource : Bool := false
  pieces : Nat := 0
  shapeId : Nat := 0
  imageBytes : Nat := 0
  measurement : List Byte := []
  head : Option BundleHead := none
  /-- Bundle in host memory: port, address, length (R219). -/
  port : Nat := 0
  addr : Nat := 0
  length : Nat := 0
  /-- Ring and tag of the WEIGHT_STAGE that has not completed; none for a relayed set. -/
  stage : Option (Nat × Nat) := none
  /-- Next chunk, whether it is being read a second time (R221, R225), and chunks already read whose
  pieces a lost block took, to read again (R340). -/
  chunk : Nat := 0
  again : Bool := false
  reread : List Nat := []
  /-- Piece table by piece (R215). -/
  table : KV Nat := []
  /-- Blocks and frames of the two copies of the piece table (R409). -/
  copies : List (Nat × List Nat) := []
  /-- Pieces outside their preferred block (R213). -/
  misplaced : List Nat := []
  /-- Quarantined pieces, by piece: 1 for an uncorrectable error, 2 for a lost block (R232); and those
  that found no free frame. -/
  quarantine : KV Nat := []
  unplaced : List Nat := []
  /-- The source that the refetch of a piece asked last (R232). -/
  asked : KV Nat := []
  /-- Relayed chunks that arrived while the set was VERIFYING: (direction, chunk, data) (R224). -/
  early : List (Nat × Nat × List Byte) := []
deriving DecidableEq, Repr

/-- A relayed set that this module cannot keep and only forwards (R224): its header, the next chunk, whether that is
being read a second time, and the region frames of its buffer of two chunks, with their block. -/
structure Transit where
  set : Nat
  head : BundleHead
  chunk : Nat := 0
  again : Bool := false
  block : Nat := 0
  frames : List Nat := []
deriving DecidableEq, Repr

/-! ## Power, heat and the mesh -/

/-- What a block's logic domains do (R348, R354). The cap and the transit switch are fields of their own. -/
inductive BlockRun where
  | on | idleOff | waking | heatOff | supplyOff | isolated
deriving DecidableEq, Repr

/-- Why a block drains (R339, R364, R348). -/
inductive DrainCause where
  | supply | heat | idle
deriving DecidableEq, Repr

/-- States of a stack (R397). -/
inductive StackState where
  | trained | retraining | off | lost | held
deriving DecidableEq, Repr

/-- One stack block (R18, R333 to R365). -/
structure Block where
  run : BlockRun := .on
  /-- e-fuse switches open (R338). -/
  mainOpen : Bool := false
  transitOpen : Bool := false
  /-- Capped at 75 % of block_power_cap, and mV taken off the core target by the cap (R337). -/
  capped : Bool := false
  capDrop : Nat := 0
  /-- A drain under way, and whether the stack domains go with it (R339, R364). -/
  drain : Option DrainCause := none
  drainStack : Bool := false
  /-- Switched off by ILK_STOP_N: it wakes when a load names it after the line's release (R419). -/
  stopOff : Bool := false
  /-- Core-rail set-point in 0.1 mV (R335). -/
  setPoint : Nat := 8100
  /-- Failed phases by domain, in the order of R333 (R337). -/
  phases : KV (List Nat) := []
  /-- Connector groups: state, and consecutive 1 s averages above 1.3 (R341). -/
  connState : KV Nat := []
  connRun : KV Nat := []
  /-- Throttle level; the level and the governor's halving that the pacer applies (R362, R346). -/
  level : Nat := 0
  applied : Nat := 0
  appliedHalf : Bool := false
  stack : StackState := .trained
  /-- A retrain trigger that waits (R392), and the stack's temperature at its last training. -/
  retrainDue : Bool := false
  trainTemp : Int := 250
  /-- Partitions whose hurdle timers the retrain of this stack suspends (R393). -/
  timersHeld : List Nat := []
  /-- The block waits its turn to wake (R349). -/
  wakeDue : Bool := false
  /-- The block has been lost: its stack, or its routers' supply (R23). -/
  lost : Bool := false
  /-- Correctable errors met in key/value pages of its stack (R206). -/
  corrected : Nat := 0
deriving DecidableEq, Repr

/-- One temperature sensor (R358, R360), value in 0.1 degree C. -/
structure Sensor where
  value : Int := 250
  /-- It has been read since module reset. -/
  seen : Bool := false
  failed : Bool := false
  suspect : Bool := false
  /-- The pair of this sensor is more than 8 degree C apart (kept on sensor 0). -/
  apart : Bool := false
deriving DecidableEq, Repr

/-- The pacer's and the governor's module-wide state, coolant supervision and the interlocks. -/
structure Plant where
  /-- The module has left reset and its blocks are fed. -/
  powered : Bool := false
  /-- A power-fail has been declared (R350). -/
  powerFail : Bool := false
  /-- A module reset runs (R390), and the cause that started it. -/
  resetting : Bool := false
  /-- SHUTDOWN since the last module reset; a shutdown whose coolant has not been NORMAL for 10 s (R369). -/
  shutdown : Bool := false
  coolHold : Bool := false
  /-- The row of R368 that the last 1 s averages call for. -/
  coolRow : Nat := 0
  /-- A bring-up held before order 3 (R380). -/
  heldBringUp : Option BringUp := none
  /-- ILK_COOL_N holds the coolant state at CRITICAL; ILK_STOP_N refuses loads (R419). -/
  coolFloor : Bool := false
  stopActive : Bool := false
  /-- Average input power of the governor's last step, W (R347). -/
  governorAvg : Nat := 0
  /-- Domain records of the last current report, by block * 6 + domain: current, voltage, droop (R342). -/
  report : KV (Nat × Nat × Nat) := []
  /-- Markers in a row at one other count, and that count (R373). -/
  markerAt : Nat := 0
  markerRun : Nat := 0
  /-- The latch of the stuck reference may count again (R372). -/
  refArmed : Bool := true
  /-- The mesh slews from the crystal to the reference (R371); markers ignored at other counts (R373). -/
  slewing : Bool := false
  markersIgnored : Nat := 0
  /-- Block-milliseconds at throttle levels 0 to 4 (R376). -/
  levelTime : List Nat := [0, 0, 0, 0, 0]
  /-- The mark counter goes to 0 at the next mark, and jobs whose root sends its alignment message then (R301). -/
  alignDue : Bool := false
  alignSend : List Nat := []
  /-- Least headroom seen on each die during a wake, W (R355); 1,200 where none has been. -/
  headroomMin : KV Nat := []
  /-- Replace-request bits whose trigger has reached the urgency "prompt" (R422, R423). -/
  prompt : List Nat := []
  /-- A module reset that a request has asked for starts once its reply is on its way: the cause (R389, R473). -/
  resetDue : Option Nat := none
deriving DecidableEq, Repr

/-! ## Networks and fabric (R277 to R307) -/

/-- States of a Geanna port (R290), coded by R305. -/
inductive PortState where
  | down | training | up8 | up6 | up4 | miscabled | failed
deriving DecidableEq, Repr

/-- One Geanna port, as its port record shows it (R305). -/
structure Port where
  state : PortState := .down
  lanes : Nat := 0
  neighbourId : Nat := 0
  neighbourPos : Nat × Nat × Nat := (0, 0, 0)
  delayNs : Nat := 0
  trainings : Nat := 0
  corrected : Nat := 0
  retries : Nat := 0
  /-- Attempts of the training under way (R290). -/
  attempts : Nat := 0
deriving DecidableEq, Repr

/-- One link of the bulk network, in link_load order (R282, R287, R394, R398). -/
structure Link where
  failed : Bool := false
  /-- Loads shown: VC0 and VC1 each way, per mille over the last millisecond (R306). -/
  load : List Nat := []
  retraining : Bool := false
  due : Bool := false
  /-- Partitions whose hurdle timers its retrain suspends (R394). -/
  timersHeld : List Nat := []
  /-- Spare wires bound: wire index and spare. -/
  wires : List (Nat × Nat) := []
deriving DecidableEq, Repr

/-- The networks' state beside the dictionary's counters. -/
structure Fabric where
  ports : KV Port := []
  links : KV Link := []
  /-- Routers failed (R288), rising. -/
  routers : List Nat := []
  /-- Those whose router of the bulk network has failed, rising. -/
  bulkDown : List Nat := []
  /-- Routers that no detour covers: routes across them are unavailable (R288). -/
  uncovered : List Nat := []
deriving DecidableEq, Repr

/-! ## The pair (R308 to R330) -/

/-- The pair as this module sees it; what the dictionary holds as scalars (pair_state, side and so on) is in
`od`. -/
structure Pair where
  /-- Paths (R318): the bus path, and the level of this side's PR line, high when the cable is not seated. -/
  busUp : Bool := false
  prHigh : Bool := true
  /-- The level of PR that a chattering line settles at (R418). -/
  prLevel : Bool := true
  /-- The fence latch (R317). -/
  fence : Bool := false
  /-- Outbound writes dropped while the latch is set (R317). -/
  dropped : Nat := 0
  /-- Mirrored rings owned here, rising (R329). -/
  owned : List Nat := []
  /-- Sequence of the next shadow message and HEARTBEAT (R315, R321). -/
  shadowSeq : Nat := 0
  beatSeq : Nat := 0
  /-- Shadow messages sent and not acknowledged, oldest first (R321). -/
  unacked : List (Nat × ShadowBody) := []
  /-- As the twin's shadow: entries fetched and not completed, in fetch order, and the last completion of
  each completion ring with its slot and phase; and the last token records of each session (R323). -/
  entries : List (Nat × List Byte) := []
  lastComps : List (Nat × Nat × Bool × List Byte) := []
  lastRecords : List (Nat × List (Nat × List Byte)) := []
  /-- Side 1 waits a further 5 ms (R319). -/
  waiting : Bool := false
  /-- Partitions whose lap in progress must end before rings are handed over (R326). -/
  drainWait : List Nat := []
  /-- What the twin told of itself at attach, with what flips carried to it have changed since (R309). -/
  twin : TwinInfo := {}
  /-- The match of partition maps found at attach and by later events: local partitions whose entry is valid
  (R309, R311). -/
  valid : List Nat := []
  /-- Rings for which HANDOVER has been sent and not answered (R326). -/
  handing : List Nat := []
  /-- A takeover is in progress for the purpose of R258. -/
  failover : Bool := false
deriving DecidableEq, Repr

/-! ## Commits (R50, R414, R480) -/

/-- Where a commit is (R414). -/
inductive CommitPhase where
  | waiting | prepare | switching
deriving DecidableEq, Repr

/-- A commit accepted and still counted: its epoch, the staged values it carries, and the partitions named
that have not switched. -/
structure Commit where
  epoch : Nat
  values : List (Nat × List Byte)
  /-- The management session that sent the COMMIT, and the request's sequence number (R480). -/
  client : Nat := 0
  seq : Nat := 0
  phase : CommitPhase := .waiting
  parts : List Nat := []
deriving DecidableEq, Repr

/-! ## Host attachment (R454 to R468) -/

/-- One PCI Express port. State as coded by R468: 0 DOWN, 1 TRAINING, 2 UP, 3 RECOVERY, 4 RESET, 5 LOST. -/
structure PciePort where
  state : Nat := 0
  rate : Nat := 0
  width : Nat := 0
  flit : Bool := false
  vfs : Nat := 0
  correctable : Nat := 0
  trainings : Nat := 0
  /-- Data Link Layer is down and outbound writes are held (R464). -/
  linkDown : Bool := false
  /-- A retrain waits until no class-0 session remains on its rings (R466). -/
  retrainDue : Bool := false
  /-- PERSTn_N is asserted; the port is held in reset for chattering (R463). -/
  asserted : Bool := false
  chatter : Bool := false
deriving DecidableEq, Repr

/-- One function (R456, R458, R460). -/
structure HostFn where
  ringErrors : Nat := 0
  /-- Mailbox: a request is in progress, the reply that waits, and ignored writes. -/
  busy : Bool := false
  reply : List Byte := []
  ignored : Nat := 0
  /-- Requests sent by req_len, and configuration requests answered with Request Retry Status (R462). -/
  requests : Nat := 0
  retries : Nat := 0
deriving DecidableEq, Repr

/-! ## Management sessions (R447, R469 to R483) -/

/-- A reply: op, status, index, subindex, detail and data (R473). -/
structure Reply where
  op : Nat
  status : Nat
  index : Nat
  sub : Nat
  detail : Nat := 0
  data : List Byte := []
deriving DecidableEq, Repr

/-- A SEGMENT write under way (R478): object, whether it is to be staged, and the bytes so far. -/
structure PartialWrite where
  key : Nat
  staged : Bool
  bytes : List Byte
deriving DecidableEq, Repr

/-- One management session, by the number that the module assigned. -/
structure Mgmt where
  /-- Order 2 has been sent; `isOpen` after order 3 (R447). -/
  live : Bool := false
  isOpen : Bool := false
  transport : Transport := .mailbox 0
  /-- Usage bits of the key that authenticates it, the claim case, and the Balhel firmware key (R441, R442). -/
  usage : Nat := 0
  claim : Bool := false
  balhel : Bool := false
  /-- Numbers of the requests executed (of the last 64 and the highest), one above the highest, and the last
  64 replies kept (R471). -/
  next : Nat := 0
  executed : List Nat := []
  kept : List (Nat × Reply) := []
  /-- Messages in this direction, for the limit of R447. -/
  sent : Nat := 0
  /-- Staged set by object (R479), the SEGMENT writes under way, subscriptions with period in ms (R481), the
  notifications so far, and frozen objects (R478). -/
  staged : List (Nat × List Byte) := []
  writing : List PartialWrite := []
  subs : List (Nat × Nat) := []
  notified : Nat := 0
  frozen : List (Nat × List Byte) := []
  /-- The session's own read_slot of the log (R509). -/
  readSlot : Nat := 0
deriving DecidableEq, Repr

/-! ## Security (R440 to R453) -/

/-- One firmware slot (R445). -/
structure FwSlot where
  valid : Bool := true
  version : Nat := 0
  measurement : List Byte := []
deriving DecidableEq, Repr

/-- What the security engine holds beside the dictionary's scalars. -/
structure Security where
  /-- The challenge that may be used once (R449). -/
  challenge : Option (List Byte) := none
  slot0 : FwSlot := {}
  slot1 : FwSlot := {}
  /-- Slot to run from the next module reset (R445). -/
  activate : Option Nat := none
  report : List Byte := []
  /-- A transition accepted and not yet complete: target state and whether operator keys are erased (R450). It has
  begun once the life-cycle state is the target. -/
  transition : Option (Nat × Bool) := none
deriving DecidableEq, Repr

/-! ## Messages that leave the module -/

/-- What the module sends, in the order of sending. -/
inductive OutMsg where
  /-- A write to host memory through a port (R455). -/
  | hostWrite (port : Nat) (addr : Nat) (data : List Byte)
  | msix (fn : Nat) (vector : Nat)
  /-- A read of host memory that the module has begun. -/
  | hostRead (port : Nat) (addr : Nat) (len : Nat)
  /-- Relay of a set to the modules of the relay box in the directions named (R223, R224), and a request
  upstream for a chunk again (R225). -/
  | relayHeader (set : Nat) (head : BundleHead) (dirs : List Nat)
  | relayChunk (set : Nat) (chunk : Nat) (data : List Byte) (dirs : List Nat)
  | relayAgain (set : Nat) (chunk : Nat)
  /-- A refetch of the chunk of a piece: source 0 bundle, 1 relay upstream, 2 twin (R232). -/
  | refetch (set : Nat) (piece : Nat) (source : Nat)
  /-- A message of a job to its other members (R292): a hurdle's arrival, clear or verdict, a wave or a flip
  with the mark count of the sender; the alignment and the fault message. -/
  | jobMessage (job : Nat) (mark : Nat) (kind : JobMsgKind)
  | jobAlign (job : Nat)
  | jobFault (job : Nat) (code : Nat)
  /-- A pair frame (R314), and the messages of mirroring (R320, R321). -/
  | pairFrame (frame : W64)
  | mirrorEntry (session : Nat) (vaddr : Nat) (data : List Byte)
  | mirrorVerdict (p : Nat) (lap : Nat) (verdict : Verdict) (sessions : List MirrorSession)
  | shadowMessage (sequence : Nat) (body : ShadowBody)
  /-- Swiuth: a reply, a notification (session, count, index, subindex, data), a refusal, order 2 of the
  handshake (R447, R470 to R481). -/
  | swReply (session : Nat) (seq : Nat) (r : Reply)
  | swNotify (session : Nat) (count : Nat) (index : Nat) (sub : Nat) (data : List Byte)
  | swRefusal (t : Transport) (status : Nat)
  | swOrder2 (t : Transport) (session : Nat) (body : List Byte)
  | swClose (session : Nat)
  /-- A configuration request answered with Request Retry Status, or served (R462). -/
  | configReply (port : Nat) (fn : Nat) (retry : Bool)
  /-- The FN line is driven for 1 us (R316, R323). -/
  | driveFence
  /-- Granules for a landing area of the neighbour in a direction, and which of them are poisoned (R298, R103). -/
  | fabricWrite (dir : Nat) (mask : Nat) (channel : Nat) (granule : Nat) (data : List Byte) (poisoned : List Nat)
deriving DecidableEq, Repr

/-! ## The whole state -/

structure State where
  /-- Scalar objects of the dictionary (R487), by number; an object not listed holds its default. -/
  od : KV Nat := []
  /-- DOMAIN objects written by software, by number; one not listed holds its default. -/
  dom : KV (List Byte) := []
  /-- Scratchpads (R87) and DRAM stacks (R16); both are zero where not listed. -/
  scratch : Memory := []
  stack : Memory := []
  /-- Stack granules marked poisoned by a write whose source failed parity (R103). -/
  stackPoison : List Nat := []
  cores : KV Core := []
  clusters : KV Cluster := []
  arrays : KV Arr := []
  chains : KV ChainState := []
  frames : KV Frame := []
  parts : KV Part := []
  sessions : KV Session := []
  subRings : KV SubRing := []
  compRings : KV CompRing := []
  recorder : Recorder := {}
  yield : YieldMap := {}
  sets : KV WSet := []
  /-- Sets whose relayed chunks are only forwarded (R224). -/
  transits : List Transit := []
  blocks : KV Block := []
  sensors : KV Sensor := []
  plant : Plant := {}
  fabric : Fabric := {}
  pair : Pair := {}
  pcie : KV PciePort := []
  fns : KV HostFn := []
  /-- Round-robin of fetching: the ring served last of priority 0 and of priority 1 (R240). -/
  served0 : Nat := 0
  served1 : Nat := 0
  mgmt : KV Mgmt := []
  /-- Number of the next management session. -/
  nextMgmt : Nat := 1
  security : Security := {}
  /-- Commits that are counted, in epoch order (R414). -/
  commits : List Commit := []
  /-- The stored configuration: committed values in module flash, by object (R416, R490). -/
  stored : KV (List Byte) := []
  /-- Messages sent, oldest first. -/
  out : List OutMsg := []
  /-- MODEL's own: number of the next free value. -/
  free : Nat := 0
  /-- Commands waiting, first in, first out. -/
  pending : List Instr := []
deriving DecidableEq, Repr

/-- The module in reset, before the input monitor first releases it (R350, R379): bring_up_state is BOOTING, every
object holds its default, every memory is empty, and no command waits. -/
def State.reset : State := {}

/-- Why a command cannot run at all. -/
inductive Fault where
  /-- Raised by a command whose operands name a core, partition, block, link, port or other unit that the
  module does not have (R7, R10): no such event exists. Safe: the machine stops. -/
  | noSuchUnit (kind : String) (n : Nat)
deriving DecidableEq, Repr

/-- Why a command has no meaning. -/
inductive Refusal where
  /-- Raised by Machine/Dispatch.lean for a command without a meaning. Safe: the machine stops. -/
  | notModelled (mnemonic : String)
deriving DecidableEq, Repr

/-- What a command answers. -/
abbrev Result := Host.Outcome State Fault Refusal

end Sys2Proof.Machine
end

