-- ==== Sys2Proof/Machine/Ops.lean ====
section
/-! DEFINITION. The named operations over the state that every family of commands shares: the
dictionary's scalars and DOMAINs, the sparse groups, the numbering of clusters and blocks, the event
recorder's acceptance of an event, and the raising of a partition fault. -/

namespace Sys2Proof.Machine

/-! ## The dictionary's values -/

/-- Default of a written DOMAIN object (R494 to R512). -/
def domDefault (k : Nat) : List Byte :=
  if k = K.mgmtAddresses then List.replicate 34 0
  else if k = K.cfgLastCommit then List.replicate 12 0
  else if k = K.pwrCoreTarget then (List.range 144).flatMap (fun _ => natLe 810 2)
  else if k = K.heatJunctionThresholds then [85, 90, 95, 100, 105]
  else if k = K.heatStackThresholds then [85, 88, 91, 94, 97]
  else if k = K.sessSessionRanges then List.replicate 512 0
  else if k = K.wtRegionFrames then List.replicate 576 0
  else if k = K.fabTorusPosition then [0, 0, 0]
  else if k = K.fabTorusDims then [1, 1, 1]
  else if k = K.pairPartitionMap then List.replicate 48 0xFF
  else if k = K.pairMirroredRings then List.replicate 4096 0
  else if k = K.pairRingSide then List.replicate 4096 0
  else if k = K.pcieRingRanges then
    [0, 0, 0, 0x40, 0, 0, 0, 0x40] ++ List.replicate (63 * 8) 0 ++
      [0, 0x40, 0, 0x40, 0, 0x40, 0, 0x40] ++ List.replicate (63 * 8) 0
  else if k = K.pcieTargetRate then [64, 64]
  else if k = K.clsFunctions 0 then [1, 0, 0, 0, 0, 0, 0, 0, 1, 0, 0, 0, 0, 0, 0, 0]
  else if k / 256 / 8 = 0x5000 / 8 ∧ k % 256 = 4 then List.replicate 16 0xFF
  else if 0x4000 ≤ k / 256 ∧ k / 256 < 0x4030 then
    (if k % 256 = 0x17 then List.replicate 32 0xFF
     else if k % 256 = 0x1A then List.replicate 4096 0
     else if k % 256 = 0x22 then [0, 0, 0, 0] else [])
  else []

/-- The value of a scalar object. -/
def odGet (s : State) (k : Nat) : Nat := kvGet (objDefault k) s.od k

/-- Give a scalar object a value. -/
def odSet (s : State) (k v : Nat) : State := { s with od := kvSet (objDefault k) s.od k v }

/-- Set or clear one bit of a scalar object. -/
def odBit (s : State) (k bit : Nat) (v : Bool) : State :=
  let x := odGet s k
  odSet s k (if x.testBit bit then (if v then x else x - 2 ^ bit) else if v then x + 2 ^ bit else x)

/-- Add to a counter; every counter saturates (R491). -/
def bump (s : State) (k : Nat) (n : Nat := 1) : State :=
  odSet s k (Nat.min (odGet s k + n) (objTop k))

/-- Raise a recorded maximum. -/
def odMax (s : State) (k v : Nat) : State := odSet s k (Nat.min (Nat.max (odGet s k) v) (objTop k))

/-- Set a scalar, saturating at its type's largest value. -/
def odPut (s : State) (k v : Nat) : State := odSet s k (Nat.min v (objTop k))

/-- The value of a DOMAIN that software writes. -/
def domGet (s : State) (k : Nat) : List Byte := kvGet (domDefault k) s.dom k

def domSet (s : State) (k : Nat) (v : List Byte) : State :=
  { s with dom := kvSet (domDefault k) s.dom k v }

/-- A number held in bytes [off, off + len) of a DOMAIN. -/
def domField (s : State) (k off len : Nat) : Nat := fieldLe (domGet s k) off len

/-! ## The sparse groups -/

def coreOf (s : State) (i : Nat) : Core := kvGet {} s.cores i
def setCore (s : State) (i : Nat) (c : Core) : State := { s with cores := kvSet {} s.cores i c }
def updCore (s : State) (i : Nat) (f : Core → Core) : State := setCore s i (f (coreOf s i))

def clusterOf (s : State) (i : Nat) : Cluster := kvGet {} s.clusters i
def setCluster (s : State) (i : Nat) (c : Cluster) : State :=
  { s with clusters := kvSet {} s.clusters i c }
def updCluster (s : State) (i : Nat) (f : Cluster → Cluster) : State := setCluster s i (f (clusterOf s i))

def arrOf (s : State) (i : Nat) : Arr := kvGet {} s.arrays i
def setArr (s : State) (i : Nat) (a : Arr) : State := { s with arrays := kvSet {} s.arrays i a }
def updArr (s : State) (i : Nat) (f : Arr → Arr) : State := setArr s i (f (arrOf s i))

def chainOf (s : State) (i : Nat) : ChainState := kvGet {} s.chains i
def setChain (s : State) (i : Nat) (c : ChainState) : State := { s with chains := kvSet {} s.chains i c }
def updChain (s : State) (i : Nat) (f : ChainState → ChainState) : State := setChain s i (f (chainOf s i))

def frameOf (s : State) (i : Nat) : Frame := kvGet {} s.frames i
def setFrame (s : State) (i : Nat) (f : Frame) : State := { s with frames := kvSet {} s.frames i f }
def updFrame (s : State) (i : Nat) (f : Frame → Frame) : State := setFrame s i (f (frameOf s i))

def partOf (s : State) (p : Nat) : Part := kvGet {} s.parts p
def setPart (s : State) (p : Nat) (x : Part) : State := { s with parts := kvSet {} s.parts p x }
def updPart (s : State) (p : Nat) (f : Part → Part) : State := setPart s p (f (partOf s p))

def sessOf (s : State) (i : Nat) : Session := kvGet {} s.sessions i
def setSess (s : State) (i : Nat) (x : Session) : State := { s with sessions := kvSet {} s.sessions i x }
def updSess (s : State) (i : Nat) (f : Session → Session) : State := setSess s i (f (sessOf s i))

def subOf (s : State) (r : Nat) : SubRing := kvGet {} s.subRings r
def setSub (s : State) (r : Nat) (x : SubRing) : State := { s with subRings := kvSet {} s.subRings r x }
def updSub (s : State) (r : Nat) (f : SubRing → SubRing) : State := setSub s r (f (subOf s r))

def compOf (s : State) (r : Nat) : CompRing := kvGet {} s.compRings r
def setComp (s : State) (r : Nat) (x : CompRing) : State := { s with compRings := kvSet {} s.compRings r x }
def updComp (s : State) (r : Nat) (f : CompRing → CompRing) : State := setComp s r (f (compOf s r))

def wsetOf (s : State) (i : Nat) : WSet := kvGet {} s.sets i
def setWset (s : State) (i : Nat) (x : WSet) : State := { s with sets := kvSet {} s.sets i x }
def updWset (s : State) (i : Nat) (f : WSet → WSet) : State := setWset s i (f (wsetOf s i))

def blkOf (s : State) (b : Nat) : Block := kvGet {} s.blocks b
def setBlk (s : State) (b : Nat) (x : Block) : State := { s with blocks := kvSet {} s.blocks b x }
def updBlk (s : State) (b : Nat) (f : Block → Block) : State := setBlk s b (f (blkOf s b))

def sensorOf (s : State) (i : Nat) : Sensor := kvGet {} s.sensors i
def setSensor (s : State) (i : Nat) (x : Sensor) : State := { s with sensors := kvSet {} s.sensors i x }
def updSensor (s : State) (i : Nat) (f : Sensor → Sensor) : State := setSensor s i (f (sensorOf s i))

def portOf (s : State) (i : Nat) : PciePort := kvGet {} s.pcie i
def updPort (s : State) (i : Nat) (f : PciePort → PciePort) : State :=
  { s with pcie := kvSet {} s.pcie i (f (portOf s i)) }

def fnOf (s : State) (i : Nat) : HostFn := kvGet {} s.fns i
def updFn (s : State) (i : Nat) (f : HostFn → HostFn) : State :=
  { s with fns := kvSet {} s.fns i (f (fnOf s i)) }

def mgmtOf (s : State) (i : Nat) : Mgmt := kvGet {} s.mgmt i
def setMgmt (s : State) (i : Nat) (x : Mgmt) : State := { s with mgmt := kvSet {} s.mgmt i x }
def updMgmt (s : State) (i : Nat) (f : Mgmt → Mgmt) : State := setMgmt s i (f (mgmtOf s i))

/-- Send a message. -/
def emit (s : State) (m : OutMsg) : State := { s with out := s.out ++ [m] }

/-- Draw the number of a free value. -/
def drawFree (s : State) : Nat × State := (s.free, { s with free := s.free + 1 })

/-- The value of an object that several partitions read, as it is in force in one of them (R414). -/
def inForce (s : State) (p k : Nat) : Nat :=
  match (partOf s p).overrides.find? (fun e => e.1 == k) with
  | some e => e.2
  | none => odGet s k

/-! ## Units named by a command -/

/-- The 864 clusters of the module (R7). -/
def clusterCount : Nat := 864

/-- A command names a unit the module has, or no such event exists. -/
def atUnit (ok : Bool) (kind : String) (n : Nat) (next : State) : Result :=
  if ok then .next next else .fault (.noSuchUnit kind n)

def atPart (p : Nat) (next : State) : Result := atUnit (decide (p < 48)) "partition" p next
def atSess (i : Nat) (next : State) : Result := atUnit (decide (i < 4096)) "session" i next
def atRing (r : Nat) (next : State) : Result := atUnit (decide (r < 32768)) "ring" r next
def atFn (f : Nat) (next : State) : Result := atUnit (decide (f < 128)) "function" f next
def atSet (i : Nat) (next : State) : Result := atUnit (decide (i < 4096)) "weight set" i next
def atBlock (b : Nat) (next : State) : Result := atUnit (decide (b < 144)) "block" b next
def atCluster (c : Nat) (next : State) : Result := atUnit (decide (c < clusterCount)) "cluster" c next

/-! ## Numbering (R7, R8) -/

def clusterX (c : Nat) : Nat := c % 24
def clusterY (c : Nat) : Nat := c / 24

/-- The die of a cluster (R8). -/
def dieOf (c : Nat) : Nat := (clusterY c / 6) * 4 + clusterX c / 6

/-- The stack block of a cluster (R8). -/
def blockOf (c : Nat) : Nat :=
  let lx := clusterX c % 6
  let ly := clusterY c % 6
  dieOf c * 6 + (ly / 2) * 2 + lx / 3

/-- The clusters of a rectangle, in rising order. -/
def rectClusters (ox oy w h : Nat) : List Nat :=
  (List.range h).flatMap (fun dy => (List.range w).map (fun dx => (oy + dy) * 24 + (ox + dx)))

/-- The clusters of a block. -/
def blockClusters (b : Nat) : List Nat :=
  let die := b / 6
  let loc := b % 6
  rectClusters ((die % 4) * 6 + (loc % 2) * 3) ((die / 4) * 6 + (loc / 2) * 2) 3 2

/-- The blocks of a rectangle of whole blocks, in rising order. -/
def rectBlocks (ox oy w h : Nat) : List Nat :=
  (rectClusters ox oy w h).foldl (fun acc c => insertNat (blockOf c) acc) []

def Part.clusters (p : Part) : List Nat := rectClusters p.ox p.oy p.width p.height
def Part.blocks (p : Part) : List Nat := rectBlocks p.ox p.oy p.width p.height

/-- Is a cluster inside the partition's rectangle? -/
def Part.holds (p : Part) (c : Nat) : Bool :=
  decide (p.ox ≤ clusterX c ∧ clusterX c < p.ox + p.width ∧
    p.oy ≤ clusterY c ∧ clusterY c < p.oy + p.height)

/-- A partition that occupies its rectangle (R22). -/
def Part.loaded (p : Part) : Bool := p.state ≠ .empty

/-- A partition whose cores run laps. -/
def Part.runs (p : Part) : Bool := decide (p.state = .running) || decide (p.state = .draining)

/-- The loaded partition that holds a cluster. -/
def partAt (s : State) (c : Nat) : Option Nat :=
  (s.parts.find? (fun e => e.2.loaded && e.2.holds c)).map (·.1)

/-- The loaded partition that holds a block. -/
def partOfBlock (s : State) (b : Nat) : Option Nat :=
  match blockClusters b with
  | c :: _ => partAt s c
  | [] => none

/-- The core-count variant for a number of presented cores: the largest carried that they suffice for (R59);
0 where there is none. -/
def variantFor (variants : List Nat) (presented : Nat) : Nat :=
  (variants.filter (fun v => decide (v ≤ presented))).foldl Nat.max 0

/-- Cores of a cluster that run its partition's lap program. -/
def coresUsed (s : State) (pt : Part) (cl : Nat) : Nat :=
  match pt.program with
  | none => (clusterOf s cl).presented
  | some g => variantFor g.variants (clusterOf s cl).presented

/-- The cores of a partition, by their presented numbers (R9, R25). -/
def partCores (s : State) (p : Nat) : List Nat :=
  let pt := partOf s p
  pt.clusters.flatMap (fun c => (List.range (coresUsed s pt c)).map (fun k => c * 16 + k))

/-- The dies of a partition. -/
def Part.dies (p : Part) : List Nat := p.clusters.foldl (fun acc c => insertNat (dieOf c) acc) []

/-- Apply a function to every number of a list in turn. -/
def forEach {α : Type} (l : List α) (f : State → α → State) (s : State) : State := l.foldl f s

/-! ## The event recorder takes an event (R427 to R434) -/

/-- Codes that are always recorded (R432). -/
def neverSuppressed (code : Nat) : Bool :=
  [0xB001, 0xB002, 0xB003, 0xB004, 0x1001, 0x1200, 0x2100, 0x4000, 0x9000, 0xA100].contains code

def sourceCode : EventSource → Nat
  | .recorder => 0 | .mpA => 1 | .mpB => 2 | .cluster => 3 | .regulator => 4 | .pciePort => 5
  | .geannaPort => 6 | .pairBus => 7 | .edgeInput => 8

/-- The 64 bytes of a record (R428). -/
def recordBytes (seq : Nat) (e : Event) (repeats : Nat) : List Byte :=
  let body := natLe seq 8 ++ natLe e.code 2 ++ natLe (sourceCode e.source) 1 ++
    natLe (if repeats = 0 then 0 else 1) 1 ++ natLe e.location 2 ++ natLe e.partition 1 ++ [0] ++
    natLe e.lap 6 ++ [0, 0] ++ padTo 32 e.payload ++ natLe repeats 4
  body ++ natLe (crc32 body).toNat 4

/-- The management processor that records (R428): the primary. -/
def mpSource (s : State) : EventSource := if odGet s K.devPrimaryMp = 0 then .mpA else .mpB

def Recorder.nextSeq (r : Recorder) : Nat := r.firstSeq + r.slots.length

/-- Last committed record: later records wait for a reserved slot (R429). -/
def Recorder.lastSeq (r : Recorder) : Nat :=
  match indexWhere (fun (x : RecSlot) => x.reserved.isSome) r.slots with
  | some i => r.firstSeq + i - 1
  | none => r.nextSeq - 1

/-- Slots of the log (R427). -/
def logSlots : Nat := 1048576

/-- Put one slot at the end; when the number reaches the ceiling, the ceiling rises by 2^20 (R430). -/
def Recorder.push (r : Recorder) (x : RecSlot) : Recorder :=
  { r with
    slots := r.slots ++ [x]
    ceiling := if r.nextSeq ≥ r.ceiling then r.ceiling + 2 ^ 20 else r.ceiling }

def Recorder.full (r : Recorder) : Bool := decide (r.slots.length ≥ logSlots)

/-- Write FULL into the last slot when only that one is left (R434). -/
def Recorder.fillUp (r : Recorder) : Recorder :=
  if r.slots.length = logSlots - 1 then
    r.push { bytes := recordBytes r.nextSeq { code := 0xB004, source := .recorder } 0 }
  else r

/-- Suppressed events of a code and location not yet carried (R431). -/
def Recorder.pendingCount (r : Recorder) (code loc : Nat) : Nat :=
  match r.windows.find? (fun w => w.code == code && w.location == loc) with
  | some w => w.count
  | none => 0

/-- Is a suppress window of this code and location open? -/
def Recorder.inWindow (r : Recorder) (code loc : Nat) : Bool :=
  r.windows.any (fun w => w.code == code && w.location == loc && w.isOpen)

def Recorder.dropWindow (r : Recorder) (code loc : Nat) : Recorder :=
  { r with windows := r.windows.filter (fun w => !(w.code == code && w.location == loc)) }

/-- After a record of a code and location is committed, its window opens and its count is carried. -/
def Recorder.openWindow (r : Recorder) (code loc : Nat) (windowMs : Nat) : Recorder :=
  let r := r.dropWindow code loc
  if windowMs = 0 then r
  else { r with windows := r.windows ++ [{ code, location := loc, isOpen := true, count := 0 }] }

/-- Count one suppressed event. -/
def Recorder.suppress (r : Recorder) (code loc : Nat) : Recorder :=
  { r with windows := r.windows.map (fun w =>
      if w.code == code && w.location == loc then { w with count := w.count + 1 } else w) }

/-- The recorder writes a record of its own, never suppressed and never dropped but for a full log. -/
def recordOwn (s : State) (code : Nat) (payload : List Byte) : State :=
  let r := s.recorder
  if r.full then s
  else { s with recorder := (r.push { bytes := recordBytes r.nextSeq { code, source := .recorder, payload } 0 }).fillUp }

/-- An event reaches the recorder from hardware: committed, suppressed (R431) or dropped (R434). -/
def recordEvent (s : State) (e : Event) : State :=
  let r := s.recorder
  if !r.accepting then s
  else if !neverSuppressed e.code && r.inWindow e.code e.location then
    bump { s with recorder := r.suppress e.code e.location } K.recSuppressed
  else if r.full then bump s K.recEventsDropped
  else
    let r1 := r.push { bytes := recordBytes r.nextSeq e (r.pendingCount e.code e.location) }
    let r2 := if neverSuppressed e.code then r1
      else r1.openWindow e.code e.location (odGet s K.recSuppressWindow)
    { s with recorder := r2.fillUp }

/-- A flush of the log to flash starts, or the one that runs is extended to the last record (R436). -/
def startFlush (s : State) : State :=
  { s with recorder := { s.recorder with flushing := some s.recorder.lastSeq } }

/-! ## Replace request (R421 to R423) -/

/-- Set a bit of the replace request, with its urgency (1 planned, 2 prompt). A bit is set once; a trigger of the
bit with a higher urgency counts and is recorded again. The health state follows (R421). -/
def replaceRequest (s : State) (bit urgency : Nat) : State :=
  let bits := odGet s K.hlthReplaceRequest
  let was := bits / 2 ^ bit % 2 = 1
  if was ∧ (urgency < 2 ∨ s.plant.prompt.contains bit) then s
  else
    let s := if was then s else odSet s K.hlthReplaceRequest (bits + 2 ^ bit)
    let s := if urgency < 2 then s else { s with plant := { s.plant with prompt := insertNat bit s.plant.prompt } }
    let s := odSet s K.hlthReplaceUrgency (Nat.max (odGet s K.hlthReplaceUrgency) urgency)
    let s := if odGet s K.hlthHealthState = 2 then s else odSet s K.hlthHealthState 1
    let s := bump s K.hlthReplaceEvents
    recordEvent s { code := 0xA100, source := .recorder, payload := natLe bit 1 }

/-! ## Partition faults (R400, R401) -/

/-- A partition takes a fault: only the first is kept for the management processor; a later one is
counted and recorded (R401). -/
def raiseFault (s : State) (p code cluster : Nat) : State :=
  let pt := partOf s p
  if !pt.runs && pt.state ≠ .faulted then s
  else if pt.fault = none ∧ pt.state ≠ .faulted then setPart s p { pt with fault := some (code, cluster) }
  else
    let s := setPart s p { pt with laterFaults := pt.laterFaults + 1 }
    recordEvent s {
      code := 0x4000, source := .cluster, location := cluster, partition := p, lap := pt.lap
      payload := natLe code 2 ++ natLe cluster 2 ++ natLe pt.hurdle 2 }

end Sys2Proof.Machine
end

