-- ==== Sys2Proof/Machine/Yield.lean ====
section
/-! DEFINITION. The yield map (R384 to R386) and the binding of spare cores (R387). -/

namespace Sys2Proof.Machine

/-- The 16 bytes of an entry (R384). -/
def yieldEntryBytes (e : YieldEntry) : List Byte :=
  natLe e.type 1 ++ natLe e.source 1 ++ natLe e.location 2 ++ natLe e.unit 1 ++ natLe e.sub 1 ++
    natLe e.index 2 ++ natLe e.value 4 ++ natLe e.added 4

/-- Every binding that applies: the entries, and those for which there was no room. -/
def yieldAll (s : State) : List YieldEntry := s.yield.entries ++ s.yield.unwritten

/-- Most entries the map holds (R385). -/
def yieldMax : Nat := 65536

/-- The failed physical cores of a cluster (R384 type 0x01). -/
def failedCores (s : State) (cl : Nat) : List Nat :=
  ((yieldAll s).filter (fun e => e.type == 1 && e.location == cl)).foldl (fun acc e => insertNat e.unit acc) []

/-- The physical cores a cluster presents, by logical number: core 16 takes the place of the lowest that failed
among 0 to 15, and the good cores follow in order (R387). -/
def coreOrder (s : State) (cl : Nat) : List Nat :=
  let f := failedCores s cl
  let spare := if f.contains 16 then none else f.head?
  ((List.range 16).map (fun k => if some k = spare then 16 else k)).filter (fun k => !(f.contains k))

/-- The physical core of a core number. -/
def physCore (s : State) (ci : Nat) : Nat := getAt (ci % 16) (coreOrder s (ci / 16)) (ci % 16)

/-- Is any router of the cluster failed (R384 type 0x05)? -/
def routerFailed (s : State) (cl : Nat) : Bool :=
  (yieldAll s).any (fun e => e.type == 5 && e.location == cl)

/-- Cores that a cluster presents (R386, R387). -/
def presentedCores (s : State) (cl : Nat) : Nat :=
  let f := failedCores s cl
  if routerFailed s cl then 0
  else if f.contains 16 then 16 - (f.length - 1)
  else Nat.min 16 (17 - f.length)

/-- Bind the spares of a cluster again (R386). -/
def rebind (s : State) (cl : Nat) : State :=
  updCluster s cl (fun c => { c with presented := presentedCores s cl })

/-- A runtime entry is written when its event occurs; without room only its binding applies (R385). -/
def addYield (s : State) (type location unit sub index value : Nat) : State :=
  let y := s.yield
  let e : YieldEntry := { type, source := 2, location, unit, sub, index, value, added := y.generation + 1 }
  if y.entries.length ≥ yieldMax then
    replaceRequest (bump { s with yield := { y with unwritten := y.unwritten ++ [e] } } K.yldYieldOverflow) 13 1
  else
    recordEvent { s with yield := { y with generation := y.generation + 1, entries := y.entries ++ [e] } }
      { code := 0xA000, source := .recorder, location, payload := yieldEntryBytes e }

end Sys2Proof.Machine
end

