-- ==== Sys2Proof/Machine/Reset.lean ====
section
/-! DEFINITION. What stops when a module reset or a power-fail begins (R350, R390, R405), the start of a module
reset (R389), and the start of a life-cycle transition (R450). The bring-up that follows is in
Machine/BringUp.lean. -/

namespace Sys2Proof.Machine

/-- The last record before a reset or a power-fail; nothing is accepted after it (R436). -/
def recordLast (s : State) (e : Event) : State :=
  let s := startFlush (recordEvent s e)
  { s with recorder := { s.recorder with accepting := false } }

/-- A PCI Express port that has stopped; the level of its reset line stays. -/
def quietPort (x : PciePort) : PciePort := { asserted := x.asserted, chatter := x.chatter }

/-- A port begins training, once bring-up has come to the ports; one held in reset does not (R379, R463, R467). -/
def trainPort (s : State) (i : Nat) : State :=
  let x := portOf s i
  if x.asserted ∨ x.chatter ∨ odGet s K.devBringUpState < 7 then s
  else
    let s := recordEvent s { code := 0xD000, source := .pciePort, location := i, payload := natLe i 1 ++ natLe x.state 1 ++ [1] }
    updPort s i (fun x => { x with
      state := 1, linkDown := false, retrainDue := false, trainings := Nat.min (x.trainings + 1) (2 ^ 32 - 1) })

/-- Every partition, session, ring, weight set and management session ends without a completion, and nothing
more is posted (R405, R472). A commit before its commit point is lost, which the next bring-up records; one past
it is in the stored configuration (R416). -/
def stopWork (s : State) : State :=
  let s := odSet (odSet s K.devBringUpState 0) K.hlthMpState 0
  let s := odSet (odSet s K.meshMeshState 0) K.pairPairState 0
  let s := updPort (updPort s 0 quietPort) 1 quietPort
  { s with
    cores := [], clusters := [], chains := [], parts := [], sessions := [], subRings := [], compRings := []
    sets := [], transits := [], fns := [], mgmt := [], fabric := {}
    pair := { prHigh := s.pair.prHigh, prLevel := s.pair.prLevel }
    commits := s.commits.filter (fun c => decide (c.phase ≠ .switching))
    security := { s.security with challenge := none, report := [] } }

/-- A module reset starts. During one, a second cause is recorded and otherwise ignored (R390). -/
def startReset (s : State) (cause : Nat) : State :=
  let e : Event := { code := 0x1001, source := mpSource s, payload := natLe cause 1 }
  if !s.plant.powered ∨ s.plant.powerFail then s
  else if s.plant.resetting then recordEvent s e
  else
    let s := stopWork (recordLast s e)
    odSet { s with plant := { s.plant with resetting := true, heldBringUp := none } } K.devResetCause cause

/-- A reset that a request has asked for starts once the reply is on its way. -/
def takeReset (s : State) : State :=
  match s.plant.resetDue with
  | none => s
  | some cause => startReset { s with plant := { s.plant with resetDue := none } } cause

/-- An accepted life-cycle transition begins once no commit is in its switch stage (R450, R452). -/
def beginTransition (s : State) : State :=
  match s.security.transition with
  | none => s
  | some t =>
    if t.1 = odGet s K.secLifecycleState ∨ s.plant.resetting ∨ s.commits.any (fun c => decide (c.phase = .switching)) then s
    else startReset (odSet s K.secLifecycleState t.1) 5

end Sys2Proof.Machine
end

