-- ==== Sys2Proof/Machine/Operands.lean ====
section
/-! DEFINITION. Operand forms of a core's commands: the fields of a descriptor (R71), the granules of an
area (R72), the held and working halves of a paired area (R73), rows of packed elements (R72, R80), weight
tiles (R80) and block scales (R80, R144). An area is read as one number, its byte 0 least significant. -/

namespace Sys2Proof.Machine

/-! ## Descriptor fields (R71) -/

def dField (d : W64) (hi lo : Nat) : Nat := bitsOf d.toNat hi lo
def dBase (d : W64) : Nat := dField d 4 0
def dStripe (d : W64) : Nat := dField d 7 5
def dStart (d : W64) : Nat := dField d 17 8
def dLength (d : W64) : Nat := dField d 32 18
def dFormat (d : W64) : Nat := dField d 36 33
def dPitch (d : W64) : Nat := dField d 46 37
def dPaired (d : W64) : Bool := d.getLsbD 47
def dAlt (d : W64) : Nat := dField d 52 48
def dHeld (d : W64) : Bool := d.getLsbD 53

/-- Element format of a descriptor (R74). The loader refuses the reserved codes (R69). -/
def dFmt (d : W64) : Fmt := (Fmt.ofCode (dFormat d)).getD .bf16

/-- "No operand" in a descriptor field. -/
def noDesc : BitVec 6 := 63

/-- A core's descriptor by index; not yet written ones are zero. -/
def descOf (c : Core) (i : BitVec 6) : W64 := kvGet 0 c.descs i.toNat

/-- Invert the held half of a descriptor (R73). -/
def swapHeld (d : W64) : W64 := d ^^^ (1#64 <<< 53)

/-! ## Areas (R72, R73) -/

/-- First bank used: reads of a paired area use the held half, writes the working half (R73). -/
def areaBank (d : W64) (write : Bool) : Nat :=
  if dPaired d && (dHeld d != write) then dAlt d else dBase d

/-- Scratch address of bank `b`, granule `g` of core `ci`. -/
def scratchAddr (ci b g : Nat) : Nat := ci * 2 ^ 21 + b * 2 ^ 16 + g * 64

/-- Scratch address of granule `g` of an area (R72). -/
def granAddr (ci : Nat) (d : W64) (write : Bool) (g : Nat) : Nat :=
  scratchAddr ci (areaBank d write + g % 2 ^ dStripe d) (dStart d + g / 2 ^ dStripe d)

/-- Granules of an area. -/
def areaGranules (d : W64) : Nat := dLength d + 1

/-- The addresses of an area's first granules that hold `n` bytes; never past the area. -/
def areaAddrs (ci : Nat) (d : W64) (write : Bool) (n : Nat) : List Nat :=
  (List.range (Nat.min ((n + 63) / 64) (areaGranules d))).map (granAddr ci d write)

/-- The bank of a scratch address. -/
def bankOfAddr (a : Nat) : Nat := a / 2 ^ 16 % 32

/-- `n` bytes of an area from its start. What a command reads past its area the manual does not state:
free bytes, numbered from the state's counter. -/
def readArea (s : State) (ci : Nat) (d : W64) (n : Nat) : List Byte :=
  let inside := ((areaAddrs ci d false n).flatMap (fun a => memReadN s.scratch a 64)).take n
  inside ++ (List.range (n - inside.length)).map (fun i => Config.freeByte (s.free + i))

/-- An area's first `n` bytes as one number. -/
def areaNat (s : State) (ci : Nat) (d : W64) (n : Nat) : Nat := leNat (readArea s ci d n)

/-- Write whole granules: parity becomes good, so a poison mark goes (R87, R103). -/
def writeGranule (s : State) (ci : Nat) (addr : Nat) (bytes : List Byte) : State :=
  let s := { s with scratch := memWriteN s.scratch addr bytes }
  let c := coreOf s ci
  if c.poison.contains addr then setCore s ci { c with poison := c.poison.filter (· ≠ addr) } else s

/-- Split bytes into granules. -/
def granules : Nat → List Byte → List (List Byte)
  | 0, _ => []
  | n + 1, bs => if bs = [] then [] else bs.take 64 :: granules n (bs.drop 64)

/-- Write bytes to an area's working half from its start; what does not fit is dropped. -/
def writeArea (s : State) (ci : Nat) (d : W64) (bytes : List Byte) : State :=
  ((areaAddrs ci d true bytes.length).zip (granules (bytes.length / 64 + 1) bytes)).foldl
    (fun s e => writeGranule s ci e.1 e.2) s

/-! ## Rows of elements (R72, R80) -/

/-- First bit of a row: granule boundaries where the pitch is nonzero, else rows follow each other. -/
def rowBit (d : W64) (cols r : Nat) : Nat :=
  if dPitch d = 0 then r * cols * (dFmt d).bits else r * dPitch d * 512

/-- Bytes of an area that `rows` rows of `cols` elements take. -/
def extent (d : W64) (rows cols : Nat) : Nat :=
  if rows = 0 then 0 else (rowBit d cols (rows - 1) + cols * (dFmt d).bits + 7) / 8

/-- `w` bits of a number from bit `bit`. -/
def bitsAt (n bit w : Nat) : Nat := (n >>> bit) % 2 ^ w

/-- Put `w` bits of `v` at bit `bit` of a number. -/
def putBits (n bit w v : Nat) : Nat := n % 2 ^ bit + v % 2 ^ w * 2 ^ bit + (n >>> (bit + w)) <<< (bit + w)

/-- Codes of one row. -/
def rowCodes (d : W64) (n cols r : Nat) : List Nat :=
  let w := (dFmt d).bits
  (List.range cols).map (fun j => bitsAt n (rowBit d cols r + j * w) w)

/-- Decode codes; `sc` gives the block scale byte of an element, where there is one. The count is of
invalid codes and of elements under a NaN scale (R142, R144, R147). -/
def decodeRow (f : Fmt) (sc : Nat → Option Nat) (codes : List Nat) : List FV × Nat :=
  (codes.zipIdx.map (fun (e : Nat × Nat) =>
      let v := decElem f e.1
      match sc e.2 with
      | none => (v.1, if v.2 then 1 else 0)
      | some b => if b = 255 then (FV.nan false, 1) else (FV.mul v.1 (decE8M0 b), if v.2 then 1 else 0))).foldr
    (fun (x : FV × Nat) (acc : List FV × Nat) => (x.1 :: acc.1, x.2 + acc.2)) ([], 0)

/-- Rows of an operand without block scales, as FP32 values. -/
def readRows (s : State) (ci : Nat) (d : W64) (rows cols : Nat) : List (List FV) × Nat :=
  let n := areaNat s ci d (extent d rows cols)
  (List.range rows).foldr (fun r acc =>
    let x := decodeRow (dFmt d) (fun _ => none) (rowCodes d n cols r)
    (x.1 :: acc.1, x.2 + acc.2)) ([], 0)

/-- Write rows of codes into an area's working half; padding between rows keeps what it holds. -/
def writeRows (s : State) (ci : Nat) (d : W64) (cols : Nat) (rows : List (List Nat)) : State :=
  let w := (dFmt d).bits
  let len := extent d rows.length cols
  let old := leNat ((areaAddrs ci d true len).flatMap (fun a => memReadN s.scratch a 64))
  let size := 64 * (areaAddrs ci d true len).length
  let new := rows.zipIdx.foldl (fun (n : Nat) (e : List Nat × Nat) =>
    putBits n (rowBit d cols e.2) (cols * w) (e.1.foldr (fun c acc => acc * 2 ^ w + c % 2 ^ w) 0)) old
  writeArea s ci d (natLe new size)

/-! ## Weight tiles and block scales (R80) -/

/-- Rows of K in a weight tile, the "Tile K rows" of R79's table: 128 for ternary and INT2; 64 for INT4, FP4 E2M1, L4,
FP6 E3M2, FP6 E2M3, INT8, FP8 E4M3, FP8 E5M2 and BF16. The layout of W, and what the loader checks of it, rest on it;
the table's rates are timing (log 60). -/
def tileK (f : Fmt) : Nat :=
  match f with
  | .ternary | .int2 => 128
  | _ => 64

def ceilDiv (a b : Nat) : Nat := (a + b - 1) / b

/-- Number of the tile that holds row `kk` and column `nn`: N tile outer, K tile inner. -/
def tileOf (f : Fmt) (k kk nn : Nat) : Nat := nn / 128 * ceilDiv k (tileK f) + kk / tileK f

/-- Place of a weight in the tiled layout, in elements: column-major inside its tile. -/
def weightPos (f : Fmt) (k kk nn : Nat) : Nat :=
  tileOf f k kk nn * (128 * tileK f) + nn % 128 * tileK f + kk % tileK f

/-- Bytes of the tiles of a K x N weight matrix. -/
def tilesBytes (f : Fmt) (k n : Nat) : Nat :=
  ceilDiv k (tileK f) * ceilDiv n 128 * (128 * tileK f) * f.bits / 8

/-- Place of a weight's scale byte among W's scales. -/
def weightScalePos (f : Fmt) (k kk nn : Nat) : Nat :=
  tileOf f k kk nn * (128 * (tileK f / 32)) + nn % 128 * (tileK f / 32) + kk % tileK f / 32

/-- A operand's scale bytes: one per 32 elements of K per row. -/
def aScales (f : Fmt) (m k : Nat) : Nat := if f.blockScaled then m * (k / 32) else 0
def wScales (f : Fmt) (k n : Nat) : Nat :=
  if f.blockScaled then ceilDiv k (tileK f) * ceilDiv n 128 * (128 * (tileK f / 32)) else 0

/-! ## What the lap program carries for a core (R25, R152) -/

/-- The partition of a core. -/
def partOfCore (s : State) (ci : Nat) : Option Nat := partAt s (ci / 16)

/-- The program of a core of a loaded partition: clusters counted from the rectangle's origin (R59). -/
def programOf (s : State) (ci : Nat) : Option CoreProgram :=
  match partOfCore s ci with
  | none => none
  | some p =>
    let pt := partOf s p
    match pt.program with
    | none => none
    | some g => g.cores.find? (fun x =>
        x.dx + pt.ox == clusterX (ci / 16) && x.dy + pt.oy == clusterY (ci / 16) && x.core == ci % 16 &&
          x.variant == coresUsed s pt (ci / 16))

/-- Which turn of its program the partition runs: true for the odd turn (R126). -/
def oddTurn (pt : Part) : Bool :=
  match pt.program with
  | some g => decide (pt.turns % 2 = 1) && g.cores.any (fun c => c.odd != [])
  | none => false

/-- The commands that a core runs in the present turn. -/
def bodyOf (s : State) (ci : Nat) : List CmdWord :=
  match programOf s ci, partOfCore s ci with
  | some g, some p => if oddTurn (partOf s p) && g.odd != [] then g.odd else g.even
  | _, _ => []

/-- An entry of a core's precision table; entries not carried are zero (R152). -/
def precisionOf (s : State) (ci i : Nat) : BitVec 128 :=
  match programOf s ci with
  | none => 0
  | some g => getAt 0 g.precision i

def pField (e : BitVec 128) (hi lo : Nat) : Nat := bitsOf e.toNat hi lo
def pFmt (e : BitVec 128) : Fmt := (Fmt.ofCode (pField e 3 0)).getD .int4
def pRounding (e : BitVec 128) : Nat := pField e 5 4
def pScope (e : BitVec 128) : Nat := pField e 6 6
def pWiden (e : BitVec 128) : Nat := pField e 9 7
def pCandidates (e : BitVec 128) : Nat := pField e 14 10
def pOutlier (e : BitVec 128) : Nat := pField e 16 15
def pFeedback (e : BitVec 128) : Nat := pField e 18 17
def pGroup (e : BitVec 128) : Nat := pField e 29 19
/-- A BF16 field of an entry. -/
def pBF (e : BitVec 128) (lo : Nat) : FV := decBF16 (BitVec.ofNat 16 (pField e (lo + 15) lo))

/-- Static outlier channels of an entry (R152). -/
def staticList (s : State) (ci i : Nat) : List Nat :=
  match programOf s ci with
  | none => []
  | some g => (g.staticLists.find? (fun x => x.1 == i)).map (·.2) |>.getD []

/-- Scale group of a row of `k` elements: 0 stands for the whole row (R152). -/
def groupSize (e : BitVec 128) (k : Nat) : Nat := if pGroup e = 0 then Nat.max k 1 else pGroup e

/-! ## What a command reads and writes, for power, parity and poison -/

/-- One use of an area by a command. -/
structure Use where
  desc : W64
  write : Bool
  bytes : Nat
deriving DecidableEq, Repr

def Use.addrs (ci : Nat) (u : Use) : List Nat := areaAddrs ci u.desc u.write u.bytes

/-- A use of the area of a descriptor field, none where the field says "no operand". -/
def useOf (c : Core) (i : BitVec 6) (write : Bool) (bytes : Nat) : List Use :=
  if i = noDesc then [] else [{ desc := descOf c i, write, bytes }]

def rowsUse (c : Core) (i : BitVec 6) (write : Bool) (rows cols : Nat) : List Use :=
  if i = noDesc then [] else [{ desc := descOf c i, write, bytes := extent (descOf c i) rows cols }]

/-- Bytes of an area that `rows` rows of `len` bytes take: row by row at the pitch, or one after another. -/
def rawExtent (d : W64) (rows len : Nat) : Nat :=
  if rows = 0 then 0 else (rows - 1) * (if dPitch d = 0 then len else dPitch d * 64) + len

/-- A use of an area by rows of bytes. -/
def rawUse (c : Core) (i : BitVec 6) (write : Bool) (rows len : Nat) : List Use :=
  useOf c i write (rawExtent (descOf c i) rows len)

/-- The scratch granules that the reads, and the writes, of a list of uses touch. -/
def readAddrs (ci : Nat) (us : List Use) : List Nat :=
  (us.filter (fun u => !u.write)).flatMap (Use.addrs ci)
def touchAddrs (ci : Nat) (us : List Use) : List Nat := us.flatMap (Use.addrs ci)

end Sys2Proof.Machine
end

