-- ==== Sys2Proof/Machine/Flags.lean ====
section
/-! DEFINITION. The flags of a core: the replay request bit and what sets it (R46, R89, R90, R103), the
abort bits (R38), the checker flag and the widen bits (R166), with the counts and records that go with
them; and the counters of number formats (R142, R144, R147, R150). -/

namespace Sys2Proof.Machine

/-- Set a core's replay request bit (R46). -/
def requestReplay (s : State) (ci : Nat) : State := updCore s ci (fun c => { c with replayReq := true })

/-- Set the abort bit of a session's lane on a core (R38 order 6). -/
def setAbort (s : State) (ci session : Nat) : State :=
  updCore s ci (fun c => { c with aborts := insertNat session c.aborts })

/-- Record a core's error under code 0x4100: core, bank and command index (R432). -/
def recordCore (s : State) (p ci bank idx : Nat) : State :=
  recordEvent s {
    code := 0x4100, source := .cluster, location := ci / 16, partition := p, lap := (partOf s p).lap
    payload := natLe (ci % 16) 2 ++ natLe bank 2 ++ natLe idx 4 }

/-- One word fails parity on a read (R90): the data stands, the replay request bit is set, the word and the
command index are held, counted and recorded. The same word a second time in a lap faults the partition (R91). -/
def parityError (s : State) (p ci idx : Nat) (word : Nat) : State :=
  let seen := (coreOf s ci).parityWords.contains word
  let s := requestReplay s ci
  let s := updCore s ci (fun c => { c with
    parityWords := insertNat word c.parityWords, lastParity := some (word, idx) })
  let s := bump s (K.statParityErrors p)
  let s := recordCore s p ci (bankOfAddr word) idx
  if seen then raiseFault s p 0x0005 (ci / 16) else s

/-- Address of a word. -/
def wordAddr (ci : Nat) (w : WordRef) : Nat := scratchAddr ci w.bank w.granule + 4 * w.word

/-- The parity errors a command meets: words named by the surroundings that lie in a granule it reads, and
every poisoned granule it reads (R103), which counts as an error of its first word. -/
def parityErrors (s : State) (p ci idx : Nat) (env : CoreEnv) (reads : List Nat) : State :=
  let words := (env.parity.map (wordAddr ci)).filter (fun a => reads.contains (a / 64 * 64))
  let poisoned := (coreOf s ci).poison.filter (fun a => reads.contains a)
  (words ++ poisoned).foldl (fun s w => parityError s p ci idx w) s

/-- One bank conflict (R89): the core holds the bank, both requesters and the command index of the later
access. At the same command in the rerun of its segment it faults (R48). -/
def bankConflict (s : State) (p ci idx : Nat) (later : Requester) (x : Conflict) : State :=
  let again := (coreOf s ci).oldConflicts.contains idx
  let s := requestReplay s ci
  let s := updCore s ci (fun c => { c with
    conflicts := insertNat idx c.conflicts
    lastConflict := some { bank := x.bank, earlier := x.other, later, index := idx } })
  let s := bump s (K.statBankConflicts p)
  let s := recordCore s p ci x.bank idx
  if again then raiseFault s p 0x0004 (ci / 16) else s

/-- All that befalls a command of a core as it runs; `who` is its requester. -/
def commandErrors (s : State) (p ci idx : Nat) (who : Requester) (env : CoreEnv) (reads : List Nat) : State :=
  env.conflicts.foldl (fun s x => bankConflict s p ci idx who x) (parityErrors s p ci idx env reads)

/-- Count invalid codes decoded (R142, R144, R147). -/
def countInvalid (s : State) (n : Nat) : State := if n = 0 then s else bump s K.numInvalidCodes n

/-- Count what conversions replaced or clamped (R150). -/
def countConv (s : State) (x : ConvCount) : State :=
  let s := if x.nonfinite = 0 then s else bump s K.numNonfiniteConversions x.nonfinite
  if x.saturated = 0 then s else bump s K.numSaturations x.saturated

/-- One draw of a core's stochastic-rounding generator: 16 bits, and the generator's next state (R151). -/
def drawRng (s : State) (ci : Nat) : Nat × State :=
  let c := coreOf s ci
  (c.rng.toNat % 2 ^ 16, setCore s ci { c with rng := Config.rngNext c.rng })

/-- Rounding mode of a command's rounding field (R77, R149); stochastic draws from the generator. -/
def roundingOf (s : State) (ci : Nat) (mode : Nat) : Rnd × State :=
  if mode = 1 then let x := drawRng s ci; (.stochastic x.1, x.2)
  else if mode = 2 then (.towardZero, s)
  else (.nearestEven, s)

/-- Convert one FP32 value into a format under a rounding field, counting (R149, R150). -/
def convOne (s : State) (ci : Nat) (f : Fmt) (mode : Nat) (v : FV) : Nat × State :=
  let r := roundingOf s ci mode
  let x := encElem f r.1 v
  (x.1, countConv r.2 x.2)

/-- Convert a row. -/
def convRow (s : State) (ci : Nat) (f : Fmt) (mode : Nat) : List FV → List Nat × State
  | [] => ([], s)
  | v :: r =>
    let a := convOne s ci f mode v
    let b := convRow a.2 ci f mode r
    (a.1 :: b.1, b.2)

/-- Convert and write rows into an area. -/
def storeRows (s : State) (ci : Nat) (d : W64) (mode cols : Nat) (rows : List (List FV)) : State :=
  let x := rows.foldl (fun (acc : List (List Nat) × State) row =>
    let y := convRow acc.2 ci (dFmt d) mode row
    (acc.1 ++ [y.1], y.2)) ([], s)
  writeRows x.2 ci d cols x.1

/-- Draw one bounded result (R160 to R162): a free value inside the bound. -/
def drawNear (s : State) (ref tol : Int) : FV × State :=
  let x := drawFree s
  (decF32 (freeNear x.1 ref tol), x.2)

/-- The result of a computation whose exact value is `ref` and whose error is bounded by `tol`; NaN and
infinities follow IEEE 754. -/
def boundedResult (s : State) (ref : FV) (tol : Int) : FV × State :=
  if ref.isFinite then drawNear s (fxOf ref) tol else (rF32 ref, s)

end Sys2Proof.Machine
end

