-- ==== Sys2Proof/Machine/Routes.lean ====
section
/-! DEFINITION. The bulk network (R277 to R281, R285 to R288): its links, the x-then-y routes of packets, the
channels they travel on, the detours, and the routes that a partition's traffic takes. -/

namespace Sys2Proof.Machine

/-! ## Links (R285, R306) -/

/-- x-links, y-links, then one edge link for each of the 2 PCI Express and 28 Geanna ports. -/
def xLinks : Nat := 828
def yLinks : Nat := 840
def linkCount : Nat := 1698

def linkOf (s : State) (l : Nat) : Link := kvGet {} s.fabric.links l
def updLink (s : State) (l : Nat) (f : Link → Link) : State :=
  { s with fabric := { s.fabric with links := kvSet {} s.fabric.links l (f (linkOf s l)) } }

/-- Attach clusters of the 30 ports in R285 order. -/
def edgeClusters : List Nat :=
  ([(1, 0), (4, 0),
    (23, 2), (23, 11), (23, 20), (23, 29), (0, 2), (0, 11), (0, 20), (0, 29),
    (2, 35), (8, 35), (14, 35), (20, 35), (14, 0), (17, 0), (20, 0), (23, 0),
    (23, 6), (23, 15), (23, 24), (23, 33), (0, 6), (0, 15), (0, 24), (0, 33),
    (8, 0), (9, 0), (10, 0), (11, 0)] : List (Nat × Nat)).map (fun e => e.2 * 24 + e.1)

/-- The clusters that a link joins. -/
def linkEnds (l : Nat) : List Nat :=
  if l < xLinks then [l / 23 * 24 + l % 23, l / 23 * 24 + l % 23 + 1]
  else if l < xLinks + yLinks then [l - xLinks, l - xLinks + 24]
  else [getAt 0 edgeClusters (l - xLinks - yLinks)]

/-- The link between two neighbouring routers. -/
def linkBetween (a b : Nat) : Nat :=
  let lo := Nat.min a b
  if clusterY a = clusterY b then clusterY lo * 23 + clusterX lo else xLinks + lo

/-- Does a link cross a reticle or die seam (R281, R282)? Reticles are 3 clusters wide and dies 6 by 6. -/
def stitched (l : Nat) : Bool :=
  if l < xLinks then (l % 23 + 1) % 3 == 0
  else if l < xLinks + yLinks then ((l - xLinks) / 24 + 1) % 6 == 0
  else false

/-- The partition that owns a link: it holds both end clusters (R279). -/
def linkOwner (s : State) (l : Nat) : Option Nat :=
  match linkEnds l with
  | [a, b] => match partAt s a with
    | some p => if (partOf s p).holds b then some p else none
    | none => none
  | _ => none

/-! ## Dimension order (R278) -/

/-- The coordinates passed on the way from one to another, the last included. -/
def steps (a b : Nat) : List Nat :=
  if a ≤ b then (List.range (b - a)).map (fun i => a + 1 + i) else (List.range (a - b)).map (fun i => a - 1 - i)

/-- The routers from one to another: along x to the column, then along y to the row. -/
def xyRoute (a b : Nat) : List Nat :=
  a :: (steps (clusterX a) (clusterX b)).map (fun x => clusterY a * 24 + x) ++
    (steps (clusterY a) (clusterY b)).map (fun y => y * 24 + clusterX b)

/-! ## Detours (R287, R288) -/

/-- A cluster whose bulk router has failed. -/
def routerDown (s : State) (cl : Nat) : Bool := s.fabric.bulkDown.contains cl

/-- A link takes no packets when it is marked failed, and while it retrains (R287, R394). -/
def linkClosed (s : State) (l : Nat) : Bool := (linkOf s l).failed || (linkOf s l).retraining

/-- Can a packet go on from one router to the next? -/
def hopOpen (s : State) (a b : Nat) : Bool := !(routerDown s b) && !(linkClosed s (linkBetween a b))

def pathOpen (s : State) (a : Nat) : List Nat → Bool
  | [] => true
  | b :: r => hopOpen s a b && pathOpen s b r

/-- The routers beside a hop from a to b: one row up or down of a hop along x, one column right or left of one
along y. -/
def besides (a b c : Nat) : List Nat :=
  if clusterY a = clusterY b then
    (if c + 24 < 864 then [c + 24] else []) ++ (if 24 ≤ c then [c - 24] else [])
  else (if clusterX c < 23 then [c + 1] else []) ++ (if 0 < clusterX c then [c - 1] else [])

/-- The ways round the link from a to b: beside the link and back. DESIGN CHOICE: of the two sides the one with the
higher row or column is tried first (log 182). -/
def linkDetours (a b : Nat) : List (List Nat) :=
  ((besides a b a).zip (besides a b b)).map (fun e => [e.1, e.2, b])

/-- The ways round router b between a and c: beside the three of them where they lie in line, else by the corner
across. -/
def routerDetours (a b c : Nat) : List (List Nat) :=
  if clusterX a = clusterX c ∨ clusterY a = clusterY c then
    ((besides a b a).zip ((besides a b b).zip (besides a b c))).map (fun e => [e.1, e.2.1, e.2.2, c])
  else [[a + c - b, c]]

/-- The hops of a packet along some routers, each marked where it is part of a detour; none where no detour
leads on. -/
def routeHops (s : State) : List Nat → Option (List (Nat × Bool))
  | a :: b :: c :: r =>
    if hopOpen s a b then (routeHops s (b :: c :: r)).map (fun l => (b, false) :: l)
    else if routerDown s b then
      ((routerDetours a b c).find? (pathOpen s a)).bind (fun d =>
        (routeHops s (c :: r)).map (fun l => d.map (fun x => (x, true)) ++ l))
    else
      ((linkDetours a b).find? (pathOpen s a)).bind (fun d =>
        (routeHops s (b :: c :: r)).map (fun l => d.map (fun x => (x, true)) ++ l))
  | [a, b] =>
    if hopOpen s a b then some [(b, false)]
    else if routerDown s b then none
    else ((linkDetours a b).find? (pathOpen s a)).map (fun d => d.map (fun x => (x, true)))
  | _ => some []

/-- The hops from one router to another; none where the route is unavailable, which every route across an element
that the detour tables do not cover is. -/
def routeFor (s : State) (a b : Nat) : Option (List (Nat × Bool)) :=
  let r := xyRoute a b
  if r.any s.fabric.uncovered.contains then none else routeHops s r

/-! ## Packets (R278, R279) -/

/-- The channel of a packet of a partition's lap program on one link: VC2 on a detour, VC0 on a link that the
partition owns, else VC1. -/
def channelOn (s : State) (p a b : Nat) (detour : Bool) : VChannel :=
  if detour then .vc2 else if linkOwner s (linkBetween a b) = some p then .vc0 else .vc1

/-- The hops of a route with their channels. -/
def hopChannels (s : State) (p : Nat) : Nat → List (Nat × Bool) → List Hop
  | _, [] => []
  | a, h :: r => { router := h.1, channel := channelOn s p a h.1 h.2 } :: hopChannels s p h.1 r

/-- A packet travels on a detour. -/
def Packet.detours (k : Packet) : Bool := k.hops.any (fun h => decide (h.channel = .vc2))

/-- The routers that a packet enters, its destination the last. -/
def Packet.routers (k : Packet) : List Nat := k.hops.map (·.router)

/-- Data flits of 256 bytes. -/
def Packet.flits (k : Packet) : Nat := ceilDiv k.granules 4

/-- The packets that carry `n` granules from one router to another, up to 16 flits in each. -/
def packetRun (s : State) (p src dst first n : Nat) : List Packet :=
  let hops := hopChannels s p src ((routeFor s src dst).getD [])
  (List.range (ceilDiv n 64)).map (fun i =>
    { source := src, dest := dst, first := first + 64 * i, granules := Nat.min 64 (n - 64 * i), hops })

/-- Runs of one value in a list, with the place each begins and its length. -/
def runsFrom (at_ : Nat) : List Nat → List (Nat × Nat × Nat)
  | [] => []
  | x :: r => match runsFrom (at_ + 1) r with
    | (y, f, n) :: l => if x = y then (x, at_, n + 1) :: l else (x, at_, 1) :: (y, f, n) :: l
    | [] => [(x, at_, 1)]

/-- The packets of a transfer of a core: `far` is the cluster at the far end of each granule. Granules whose far end
is the core's own cluster cross no link. -/
def packetsOf (s : State) (p cl : Nat) (inward : Bool) (far : List Nat) : List Packet :=
  ((runsFrom 0 far).filter (fun r => r.1 != cl)).flatMap (fun r =>
    if inward then packetRun s p r.1 cl r.2.1 r.2.2 else packetRun s p cl r.1 r.2.1 r.2.2)

/-- Far ends that no route leads to. -/
def cutOff (s : State) (cl : Nat) (inward : Bool) (far : List Nat) : Bool :=
  (runsFrom 0 far).any (fun r => (if inward then routeFor s r.1 cl else routeFor s cl r.1).isNone)

/-- Hops between two clusters (R281). -/
def hopCount (a b : Nat) : Nat := (xyRoute a b).length - 1

/-- The cluster of a block nearest to another, by which its stack is reached (R281): of those whose routers work, the
lowest where several are as near (DESIGN CHOICE, log 182). -/
def nearestOf (s : State) (cl b : Nat) : Nat :=
  let l := match (blockClusters b).filter (fun c => !(routerDown s c)) with
    | [] => blockClusters b
    | l => l
  l.foldl (fun best c => if hopCount c cl < hopCount best cl then c else best) (l.headD 0)

/-! ## The routes of a partition's traffic (R36, R288) -/

/-- The 16 bytes of a channel (R298, R299). -/
def channelOf (s : State) (p ch : Nat) : List Byte := slice (domGet s (K.partChannelTable p)) (16 * ch) 16

/-- Attach clusters of the ports that an edge channel names. -/
def channelPorts (e : List Byte) : List Nat :=
  if fieldLe e 0 1 = 1 then [getAt 0 edgeClusters (fieldLe e 1 1)]
  else ((List.range 4).filter (fun i => (fieldLe e 2 1).testBit i)).map (fun i =>
    getAt 0 edgeClusters (2 + 4 * fieldLe e 1 1 + i))

/-- The sets that a handle may stand for in a partition: the slot's, or the adapters of the lanes (R215). -/
def handleSets (s : State) (p h : Nat) : List Nat :=
  if h < 16 then [domField s (K.partSlotMap p) (2 * h) 2]
  else (partOf s p).lanes.filterMap (fun e => (sessOf s e.2.session).adapter)

/-- The blocks that hold pieces of the sets of a handle. -/
def handleBlocks (s : State) (p h : Nat) : List Nat :=
  ((handleSets s p h).flatMap (fun x => (wsetOf s x).table.filterMap (fun e =>
    if e.2.testBit 0 then some (bitsOf e.2 15 8) else none))).foldl (fun acc b => insertNat b acc) []

def placeBlocks (s : State) (p : Nat) : StackPlace → List Nat
  | .phys b _ => [b.toNat]
  | .set h _ => handleBlocks s p h.toNat

/-- The routes that a command of a core takes, as (from, to). Session pages lie in the core's own block, where they
are drawn (R188, R195), and cross no link. -/
def cmdRoutes (s : State) (p cl : Nat) : CoreCmd → List (Nat × Nat)
  | .dmaLoad a => match a.remote with
    | .phys b _ => [(nearestOf s cl b.toNat, cl)]
    | .session _ _ => []
    | .set h _ => (handleBlocks s p h.toNat).map (fun b => (nearestOf s cl b, cl))
  | .dmaStore a => match a.remote with
    | .phys b _ => [(cl, nearestOf s cl b.toNat)]
    | _ => []
  | .dmaCore a => [(cl, a.cluster.toNat)]
  | .dmaEdgeIn a =>
    let e := channelOf s p a.channel.toNat
    if fieldLe e 0 1 = 1 then (channelPorts e).map (fun x => (x, cl)) else [(nearestOf s cl (fieldLe e 8 1), cl)]
  | .dmaEdgeOut a => (channelPorts (channelOf s p a.channel.toNat)).map (fun x => (cl, x))
  | .gather a => (placeBlocks s p a.table).map (fun b => (nearestOf s cl b, cl))
  | _ => []

/-- The routes planned by a lap program with its rectangle at an origin: those of the cores that its variants give
each cluster. -/
def plannedRoutes (s : State) (p : Nat) (g : LapProgram) (ox oy : Nat) : List (Nat × Nat) :=
  g.cores.flatMap (fun c =>
    let cl := (oy + c.dy) * 24 + ox + c.dx
    if c.variant ≠ variantFor g.variants (clusterOf s cl).presented then []
    else (c.even ++ c.odd).flatMap (fun w => match decodeCommand w with
      | some cmd => cmdRoutes s p cl cmd
      | none => []))

/-- The packets of a partition on their way. -/
def packetsOut (s : State) (p : Nat) : List Packet :=
  (partCores s p).flatMap (fun ci => (coreOf s ci).transfers.flatMap (·.packets))

/-- The routes that a loaded partition's traffic takes: what its program plans and what is on its way. -/
def partRoutes (s : State) (p : Nat) : List (Nat × Nat) :=
  (match (partOf s p).program with
    | some g => plannedRoutes s p g (partOf s p).ox (partOf s p).oy
    | none => []) ++ (packetsOut s p).map (fun k => (k.source, k.dest))

/-- Does a route run over a link, from router to router? -/
def runsOver (l : Nat) : List Nat → Bool
  | a :: b :: r => linkBetween a b == l || runsOver l (b :: r)
  | _ => false

/-- Does a partition use a link (R36): it owns it, or its traffic runs over it? -/
def usesLink (s : State) (l p : Nat) : Bool :=
  linkOwner s l == some p || (partRoutes s p).any (fun r => runsOver l (xyRoute r.1 r.2))

/-- The partitions that use a link. -/
def linkUsers (s : State) (l : Nat) : List Nat :=
  (s.parts.filter (fun e => e.2.loaded && usesLink s l e.1)).map (·.1)

/-! ## Packets move to detours (R287) -/

/-- A packet whose way is closed takes the detour; where there is none it stays as it was. -/
def reroute (s : State) (p : Nat) (k : Packet) : Packet :=
  if pathOpen s k.source k.routers then k
  else { k with hops := match routeFor s k.source k.dest with
    | some l => hopChannels s p k.source l
    | none => k.hops }

/-- The packets of a list that moved to a detour. -/
def moved (a b : List Packet) : List Packet := ((a.zip b).filter (fun e => !e.1.detours && e.2.detours)).map (·.2)

/-- Packets that take detours are counted, and a detour in use is recorded and a reason to ask for a new module (R288,
R306, R422). The link named is the first of the closed ways that the packets would take. -/
def noteDetours (s : State) (ks : List Packet) : State :=
  match ks with
  | [] => s
  | k :: _ =>
    let way := xyRoute k.source k.dest
    let link := ((way.zip way.tail).find? (fun e => !(hopOpen s e.1 e.2))).map (fun e => linkBetween e.1 e.2)
    let s := bump s K.netDetourPackets ks.length
    replaceRequest (recordEvent s {
      code := 0x8100, source := .cluster, location := k.source, payload := natLe (link.getD 0xFFFF) 2 }) 9 1

/-- Every packet of a core looks at its way again; those that move to VC2 are counted (R306). -/
def rerouteCore (s : State) (ci : Nat) : State :=
  match partAt s (ci / 16) with
  | none => s
  | some p =>
    let ts := (coreOf s ci).transfers
    let ts' := ts.map (fun t => { t with packets := t.packets.map (reroute s p) })
    noteDetours (updCore s ci (fun c => { c with transfers := ts' })) (moved (ts.flatMap (·.packets)) (ts'.flatMap (·.packets)))

def rerouteAll (s : State) : State := s.cores.foldl (fun s e => rerouteCore s e.1) s

/-- Destination granules that a packet carries. -/
def carried (t : Transfer) (k : Packet) : List Nat := ((t.dst.drop k.first).take k.granules).map (·.addr)

/-- A packet in a failed element is lost: its transfer completes with the granules it carried marked poisoned, as an
error of the transfer (R103, R287). One whose way is open has not been lost. -/
def losePacket (s : State) (x : Nat × Nat × Nat) : State :=
  match (coreOf s x.1).transfers[x.2.1]? with
  | none => s
  | some t =>
    match t.packets[x.2.2]? with
    | none => s
    | some k =>
      if pathOpen s k.source k.routers then s
      else updCore s x.1 (fun c => { c with transfers := c.transfers.map (fun y =>
        if y.id = t.id then { y with poisoned := y.poisoned ++ carried t k } else y) })

/-- Traffic after a failure: packets in the failed element are lost, and the others take the detours. -/
def divert (s : State) (lost : List (Nat × Nat × Nat)) : State := rerouteAll (lost.foldl losePacket s)

end Sys2Proof.Machine
end

