-- ==== Sys2Proof/Machine/Blocks.lean ====
section
/-! DEFINITION. Stack blocks (R18): which are available (R23), waking (R348, R349), and the training of
their stacks (R392). -/

namespace Sys2Proof.Machine

/-- Blocks of the module (R7). -/
def blockCount : Nat := 144

def dieOfBlock (b : Nat) : Nat := b / 6

/-- Does the block hold a lost cluster (R386)? -/
def holdsLostCluster (s : State) (b : Nat) : Bool :=
  (blockClusters b).any (fun c => (clusterOf s c).presented == 0)

/-- Isolated, lost, or holding a lost cluster: what blocks_unavailable counts (R397). -/
def blockGone (s : State) (b : Nat) : Bool :=
  let x := blkOf s b
  x.mainOpen || decide (x.run = .isolated) || x.lost || decide (x.stack = .lost) || holdsLostCluster s b

/-- Is a block unavailable to loads and placements (R23, R213)? -/
def blockUnavailable (s : State) (b : Nat) : Bool :=
  let x := blkOf s b
  blockGone s b || decide (x.run = .heatOff) || decide (x.run = .supplyOff) ||
    decide (x.drain = some .heat) || decide (x.drain = some .supply)

/-- block_power_state of a block (R354). -/
def powerStateCode (x : Block) : Nat :=
  if x.transitOpen then 7
  else match x.run with
    | .isolated => 6
    | .supplyOff => 5
    | .heatOff => 4
    | .waking => 2
    | .idleOff => 1
    | .on => if x.capped then 3 else 0

/-- Are the block's CORE, ARRAY and SRAM domains on? -/
def coreOn (x : Block) : Bool := decide (x.run = .on)

/-! ## Oscillators (R370, R374, R382) -/

/-- An oscillator runs while its block's CORE domain is on and self-test has not left it out. -/
def oscActive (s : State) (cl : Nat) : Bool :=
  coreOn (blkOf s (blockOf cl)) && !((yieldAll s).any (fun e => e.type == 0x0D && e.location == cl))

/-- The grid neighbours of a cluster. -/
def gridNext (cl : Nat) : List Nat :=
  (if 0 < clusterX cl then [cl - 1] else []) ++ (if clusterX cl < 23 then [cl + 1] else []) ++
    (if 24 ≤ cl then [cl - 24] else []) ++ (if cl + 24 < clusterCount then [cl + 24] else [])

/-- Active oscillators reached from a set through active ones, in at most `n` steps. -/
def oscSpread (s : State) : Nat → List Nat → List Nat
  | 0, l => l
  | n + 1, l => oscSpread s n (l.foldl (fun acc cl =>
      (gridNext cl).foldl (fun acc x => if oscActive s x then insertNat x acc else acc) acc) l)

/-- The active oscillators with a path to row 0. -/
def oscConnected (s : State) : List Nat := oscSpread s clusterCount ((List.range 24).filter (oscActive s))

/-- Does a cluster's oscillator run free, with no path to row 0 (R374)? -/
def inIsland (s : State) (cl : Nat) : Bool := oscActive s cl && !((oscConnected s).contains cl)

/-! ## Stack training (R392, R393) -/

/-- The partitions that use a stack: its block is theirs, or it holds a piece of a set of their slot map. -/
def stackUsers (s : State) (b : Nat) : List Nat :=
  (s.parts.filter (fun e => e.2.loaded &&
    (e.2.blocks.contains b ||
      (List.range 16).any (fun i =>
        let set := domField s (K.partSlotMap e.1) (2 * i) 2
        (wsetOf s set).table.any (fun x => x.2.testBit 0 && bitsOf x.2 15 8 == b))))).map (·.1)

/-- A partition with class-0 lanes reserved; one that is still loading holds nothing back. -/
def hasClass0 (s : State) (p : Nat) : Bool :=
  decide ((partOf s p).state ≠ .loading) && decide (inForce s p (K.strClass0Lanes p) ≠ 0)

/-- The hurdle timer of a partition is suspended, or resumes (R36). -/
def holdTimer (s : State) (p : Nat) (up : Bool) : State :=
  updPart s p (fun x => { x with timerHolds := if up then x.timerHolds + 1 else x.timerHolds - 1 })

/-- The timers of the partitions that use a stack or own a link; for a member of a job, those of every member
(R393). -/
def holdTimers (s : State) (ps : List Nat) (up : Bool) : State :=
  ps.foldl (fun s p =>
    let job := odGet s (K.partJobId p)
    let s := holdTimer s p up
    if job = 0 then s else emit s (.jobMessage job (odGet s K.meshMarkCount) (.suspend up))) s

/-- Does another stack of the die retrain? -/
def dieRetraining (s : State) (b : Nat) : Bool :=
  (List.range 6).any (fun i =>
    let x := dieOfBlock b * 6 + i
    x != b && decide ((blkOf s x).stack = .retraining))

/-- Begin the retrain of a stack (R393 order 1). -/
def beginRetrain (s : State) (b : Nat) : State :=
  let users := stackUsers s b
  let s := updBlk s b (fun x => { x with stack := .retraining, retrainDue := false, timersHeld := users })
  holdTimers s users true

/-- A trigger of a retrain: it starts, or waits for the die's other stacks or for class-0 lanes (R392). -/
def triggerRetrain (s : State) (b : Nat) : State :=
  let x := blkOf s b
  if x.stack = .retraining ∨ x.stack = .lost then s
  else if (stackUsers s b).any (hasClass0 s) then
    recordEvent (updBlk s b (fun x => { x with stack := .held, retrainDue := true }))
      { code := 0xA001, source := mpSource s, location := b, payload := [0, 0] ++ natLe b 2 }
  else if dieRetraining s b then updBlk s b (fun x => { x with stack := .held, retrainDue := true })
  else beginRetrain s b

/-- After a retrain, or when class-0 lanes go, the lowest waiting stack of the die starts. -/
def nextRetrain (s : State) (die : Nat) : State :=
  match (List.range 6).find? (fun i =>
      let b := die * 6 + i
      (blkOf s b).retrainDue && !((stackUsers s b).any (hasClass0 s))) with
  | some i =>
    if (List.range 6).any (fun j => decide ((blkOf s (die * 6 + j)).stack = .retraining)) then s
    else beginRetrain s (die * 6 + i)
  | none => s

/-- A stack domain that has been off trains before use (R348). -/
def stackOn (s : State) (b : Nat) : State :=
  if (blkOf s b).stack = .off then triggerRetrain (updBlk s b (fun x => { x with stack := .held })) b else s

/-! ## Retraining of links (R394) -/

/-- Begin the retrain of a link: it closes to new packets, its traffic takes the detours, and the hurdle timers of the
partitions that use it are suspended (R36). -/
def beginLinkRetrain (s : State) (l : Nat) : State :=
  let users := linkUsers s l
  let s := updLink s l (fun x => { x with retraining := true, due := false, timersHeld := users })
  holdTimers (rerouteAll s) users true

/-- A trigger of a stitched link's retrain, under the class-0 rule of R392 (R394). -/
def triggerLink (s : State) (l : Nat) : State :=
  let x := linkOf s l
  if !(stitched l) ∨ x.failed ∨ x.retraining then s
  else if (linkOwner s l).toList.any (hasClass0 s) then
    if x.due then s
    else recordEvent (updLink s l (fun x => { x with due := true }))
      { code := 0xA001, source := mpSource s, location := 0xFFFF, payload := [1, 0] ++ natLe l 2 }
  else beginLinkRetrain s l

/-- Held link retrains start when no class-0 lanes are left on the owner. -/
def nextLinks (s : State) : State :=
  (s.fabric.links.filter (fun e => e.2.due)).foldl (fun s e =>
    if (linkOwner s e.1).toList.any (hasClass0 s) then s else beginLinkRetrain s e.1) s

/-! ## Waking (R348, R349) -/

def dieWaking (s : State) (b : Nat) : Bool :=
  (List.range 6).any (fun i => decide ((blkOf s (dieOfBlock b * 6 + i)).run = .waking))

/-- Tokens of the vectors applied on a die by partitions whose laps run (R349). -/
def dieTokens (s : State) (die : Nat) : Nat :=
  ((s.clusters.filter (fun e => decide (dieOf e.1 = die) && (match partAt s e.1 with
    | some p => (partOf s p).runs && (partOf s p).inLap
    | none => false))).flatMap (fun e => e.2.tokens)).foldl (· + ·) 0

/-- Headroom of a die in whole W: 1,200 W less the base draws and the applied vectors, 16 tokens to the watt (R343,
R349). -/
def dieHeadroom (s : State) (die : Nat) : Nat :=
  (16 * (1200 - ((List.range 6).map (fun i => Config.baseDraw (die * 6 + i))).foldl (· + ·) 0) - dieTokens s die) / 16

/-- While a block of a die wakes, the least headroom is kept (R355). -/
def noteHeadroom (s : State) (die : Nat) : State :=
  if dieWaking s (die * 6) then
    { s with plant := { s.plant with
      headroomMin := kvSet 1200 s.plant.headroomMin die (Nat.min (dieHeadroom s die) (kvGet 1200 s.plant.headroomMin die)) } }
  else s

/-- Ask for a block to wake: one block of a die at a time. -/
def requestWake (s : State) (b : Nat) : State :=
  let x := blkOf s b
  if x.run = .idleOff then
    if dieWaking s b then setBlk s b { x with wakeDue := true }
    else noteHeadroom (setBlk s b { x with run := .waking, wakeDue := false }) (dieOfBlock b)
  else s

/-- The next waiting block of the die starts, in block-number order. -/
def nextWake (s : State) (die : Nat) : State :=
  match (List.range 6).find? (fun i => (blkOf s (die * 6 + i)).wakeDue) with
  | some i =>
    noteHeadroom (updBlk s (die * 6 + i) (fun x => { x with run := .waking, wakeDue := false })) die
  | none => s

/-! ## Counts of R386 -/

/-- Objects of the yield map's counts, after any change (R386). -/
def recountYield (s : State) : State :=
  let cs := List.range 864
  let pres := cs.map (fun c => (clusterOf s c).presented)
  let s := odSet s K.yldCoresUsable (pres.foldl (· + ·) 0)
  let s := odSet s K.yldClustersDegraded ((pres.filter (fun n => decide (n < 16))).length)
  let s := odSet s K.yldClustersLost ((pres.filter (fun n => decide (n = 0))).length)
  let left := (cs.filter (fun c => failedCores s c == [])).length
  let s := odSet s K.yldSpareCoresLeft left
  let s := odSet s K.yldBlocksUnavailable (((List.range blockCount).filter (blockGone s)).length)
  if left < odGet s K.hlthSpareCoreThreshold then replaceRequest s 0 1 else s

end Sys2Proof.Machine
end

