-- ==== Sys2Proof/Machine/Commits.lean ====
section
/-! DEFINITION. How a commit's values come into force (R50 to R53, R414 to R416, R489): the switch of a
partition at a baton, and the end of a commit. COMMIT itself is in Machine/Manage.lean. -/

namespace Sys2Proof.Machine

def objOf (k : Nat) : Option Obj := objFind (k / 256) (k % 256)

def isDomain (k : Nat) : Bool :=
  match objOf k with
  | some o => decide (o.type = .domain)
  | none => false

/-- Is an RWS object read by laps (R414)? -/
def perPart (k : Nat) : Bool :=
  match objOf k with
  | some o => o.perPart
  | none => false

/-- The partition at whose own index an object is. -/
def ownPart (k : Nat) : Option Nat :=
  let i := k / 256
  if 0x4000 ≤ i ∧ i < 0x4030 then some (i - 0x4000)
  else if 0x5100 ≤ i ∧ i < 0x5130 then some (i - 0x5100)
  else none

/-- Give an object the value that its bytes spell. -/
def setValue (s : State) (k : Nat) (v : List Byte) : State :=
  if isDomain k then domSet s k v else odSet s k (leNat v)

/-- The reservation of class 0 has ended: retrains that waited for it may start (R392). -/
def releaseRetrains (s : State) (p : Nat) : State := nextLinks ((partOf s p).dies.foldl nextRetrain s)

/-- The elements of core_target that belong to some blocks take new values. -/
def setTargets (s : State) (blocks : List Nat) (v : List Byte) : State :=
  blocks.foldl (fun s b =>
    domSet s K.pwrCoreTarget (spliceBytes (domGet s K.pwrCoreTarget) (2 * b) (slice v (2 * b) 2))) s

/-- One value of a commit takes effect in a partition that switches. -/
def switchValue (s : State) (p : Nat) (k : Nat) (v : List Byte) : State :=
  if !(perPart k) then s
  else match ownPart k with
    | some q =>
      if q ≠ p then s
      else
        let s := setValue (updPart s p (fun x => { x with overrides := x.overrides.filter (fun e => e.1 != k) })) k v
        if k = K.strClass0Lanes p ∧ leNat v = 0 then releaseRetrains s p else s
    | none =>
      if k = K.pwrCoreTarget then setTargets s (partOf s p).blocks v
      else updPart s p (fun x =>
        { x with overrides := x.overrides.filter (fun e => e.1 != k) ++ [(k, leNat v)] })

/-- A partition that has become EMPTY takes the values committed at its own index and for its blocks (R489). -/
def takeStored (s : State) (p : Nat) (blocks : List Nat) : State :=
  s.stored.foldl (fun s e =>
    if e.1 = K.pwrCoreTarget then setTargets s blocks e.2
    else if perPart e.1 && ownPart e.1 == some p then setValue s e.1 e.2
    else s) s

/-- The 12 bytes of last_commit (R425). -/
def commitBytes (epoch result reason key part : Nat) : List Byte :=
  natLe epoch 4 ++ natLe result 1 ++ natLe reason 1 ++ natLe (key / 256) 2 ++ natLe (key % 256) 1 ++
    natLe part 1 ++ [0, 0]

/-- last_commit changes, and the commit is recorded (R432). -/
def noteCommit (s : State) (bytes : List Byte) : State :=
  recordEvent (domSet s K.cfgLastCommit bytes) { code := 0x1200, source := mpSource s, payload := bytes }

/-- Number of commits in their switch stage. -/
def countSwitching (s : State) : State :=
  odSet s K.cfgCommitsSwitching ((s.commits.filter (fun c => decide (c.phase = .switching))).length)

/-- An object that several partitions read takes its new value once every named partition has switched; a
partition that has switched to a later commit keeps that one's. -/
def settleShared (s : State) (k : Nat) (v : List Byte) : State :=
  if !(perPart k) ∨ (ownPart k).isSome ∨ k = K.pwrCoreTarget then s
  else
    let s := setValue s k v
    s.parts.foldl (fun s e => updPart s e.1 (fun x =>
      { x with overrides := x.overrides.filter (fun o => !(o.1 == k && o.2 == leNat v)) })) s

/-- A commit has been applied to every named partition. -/
def finishCommit (s : State) (c : Commit) : State :=
  let s := { s with commits := s.commits.filter (fun x => x.epoch != c.epoch) }
  let s := c.values.foldl (fun s e => settleShared s e.1 e.2) s
  let s := bump s K.cfgCommits
  countSwitching (noteCommit s (commitBytes c.epoch 0 0 0 0xFF))

/-- A partition has switched, or leaves a commit. -/
def leaveCommit (s : State) (p : Nat) (c : Commit) : State :=
  let left := c.parts.filter (· ≠ p)
  let s := { s with commits := s.commits.map (fun x => if x.epoch = c.epoch then { x with parts := left } else x) }
  if c.phase = .switching ∧ left = [] then finishCommit s c else s

/-- At a commit or abort baton: the partition passes at most one epoch switch (R414). -/
def switchEpoch (s : State) (p : Nat) : State :=
  match s.commits.find? (fun c => c.parts.contains p) with
  | none => s
  | some c =>
    if c.phase ≠ .switching then s
    else
      let s := c.values.foldl (fun s e => switchValue s p e.1 e.2) s
      leaveCommit (odSet s (K.partActiveEpoch p) c.epoch) p c

/-- A partition that faults, is reset or is unloaded leaves every commit (R53, R414, R415); the values at its
own index take effect for its next load. -/
def leaveCommits (s : State) (p : Nat) : State :=
  let mine := s.commits.filter (fun c => c.parts.contains p)
  let s := mine.foldl (fun s c =>
    let s := if c.phase = .switching then
        c.values.foldl (fun s e => if ownPart e.1 = some p then setValue s e.1 e.2 else s) s
      else s
    let s := if c.phase = .switching then
        recordEvent s {
          code := 0x1200, source := mpSource s, partition := p
          payload := commitBytes c.epoch 2 0 0 p }
      else s
    leaveCommit s p ((s.commits.find? (fun x => x.epoch == c.epoch)).getD c)) s
  updPart s p (fun x => { x with overrides := [] })

end Sys2Proof.Machine
end

