-- ==== Sys2Proof/Machine/Pieces.lean ====
section
/-! DEFINITION. Weight sets as commands read them (R212 to R217): handles, piece-table entries, where a
byte of a set lies, and the bind count (R221). -/

namespace Sys2Proof.Machine

/-! ## Piece-table entries (R215) -/

def pV (e : Nat) : Bool := e.testBit 0
def pQ (e : Nat) : Bool := e.testBit 1
def pL (e : Nat) : Bool := e.testBit 2
def pBlock (e : Nat) : Nat := bitsOf e 15 8
def pFrame (e : Nat) : Nat := bitsOf e 36 16
def pieceEntry (block frame : Nat) : Nat := 1 + block * 2 ^ 8 + frame * 2 ^ 16

/-- Stack address of a granule of a block. -/
def physAddr (block granule : Nat) : Nat := block * 2 ^ 37 + granule * 64

/-! ## Handles (R215, R217) -/

/-- The set ID in a slot of a partition's slot map; 0xFFFF is empty. -/
def slotOf (s : State) (p i : Nat) : Nat := domField s (K.partSlotMap p) (2 * i) 2

def setSlot (s : State) (p i set : Nat) : State :=
  domSet s (K.partSlotMap p) (spliceBytes (domGet s (K.partSlotMap p)) (2 * i) (natLe set 2))

/-- A lane of a partition; an empty lane names session 0xFFFF, which does not exist. -/
def laneOf (s : State) (p lane : Nat) : Lane := kvGet { session := 0xFFFF } (partOf s p).lanes lane

/-- The adapter in the lap's lane adapter table: 0xFFFF for an empty lane or none bound. -/
def laneAdapter (s : State) (p lane : Nat) : Nat :=
  ((sessOf s (laneOf s p lane).session).adapter).getD 0xFFFF

/-- What a handle names. -/
inductive Handle where
  | slot (set : Nat)
  | lane (lane : Nat) (set : Nat)
  | refused
deriving DecidableEq, Repr

def handleOf (s : State) (p h : Nat) : Handle :=
  if h < 16 then .slot (slotOf s p h)
  else if 0xF000 ≤ h then .lane (h - 0xF000) (laneAdapter s p (h - 0xF000))
  else .refused

/-! ## Reading a set -/

/-- Where a byte of a set lies, or why it cannot be read. -/
inductive PieceAt where
  | at_ (addr : Nat)
  | held
  | lost
  | outside
deriving DecidableEq, Repr

/-- The place of byte `off` of a set. A piece without V has not passed its check or does not exist. -/
def pieceAt (s : State) (set off : Nat) : PieceAt :=
  let e := kvGet 0 (wsetOf s set).table (off / 65536)
  if pL e then .lost
  else if pQ e then .held
  else if pV e then .at_ (pBlock e * 2 ^ 37 + pFrame e * 65536 + off % 65536)
  else .outside

/-- Bytes of a set, granule by granule; none where any granule cannot be read. -/
def readSet (s : State) (set off : Nat) : Nat → Option (List Byte)
  | 0 => some []
  | n + 1 =>
    match pieceAt s set off with
    | .at_ a => (readSet s set (off + 64) n).map (fun r => memReadN s.stack a 64 ++ r)
    | _ => none

/-- Does any of `n` granules from byte `off` meet a condition? -/
def setAny (s : State) (set off n : Nat) (f : PieceAt → Bool) : Bool :=
  (List.range n).any (fun i => f (pieceAt s set (off + 64 * i)))

/-- What a read of `n` granules of a set meets first: out of the set, lost, held, or readable. -/
def setRead (s : State) (set off n : Nat) : PieceAt :=
  if setAny s set off n (fun x => decide (x = .outside)) then .outside
  else if setAny s set off n (fun x => decide (x = .lost)) then .lost
  else if setAny s set off n (fun x => decide (x = .held)) then .held
  else pieceAt s set off

/-- A repair source read whole (R120): its bytes, or why not. -/
inductive SourceRead where
  | bytes (l : List Byte)
  | held
  | lost
deriving DecidableEq, Repr

def readPlace (s : State) (p : Nat) (x : StackPlace) (granules : Nat) : SourceRead :=
  match x with
  | .phys b g => .bytes (memReadN s.stack (physAddr b.toNat g.toNat) (64 * granules))
  | .set h g =>
    match handleOf s p h.toNat with
    | .slot set =>
      match setRead s set (64 * g.toNat) granules with
      | .held => .held
      | .at_ _ => .bytes ((readSet s set (64 * g.toNat) granules).getD [])
      | _ => .lost
    | _ => .lost

/-! ## Bind count (R221) -/

/-- Slot-map entries of loaded partitions that name the set (a partition's bindings are released as it becomes
EMPTY, R391), active or pending under a flip, and open sessions bound to it. -/
def bindCount (s : State) (set : Nat) : Nat :=
  ((s.parts.filter (fun e => e.2.loaded)).flatMap (fun e =>
      (List.range 16).filter (fun i => slotOf s e.1 i == set))).length +
    (s.parts.filter (fun e => match e.2.flip with
      | some f => (if f.gap then f.old else f.set) == set
      | none => false)).length +
    (s.sessions.filter (fun e => decide (e.2.state ≠ .free) && e.2.adapter == some set)).length

end Sys2Proof.Machine
end

