-- ==== Sys2Proof/Machine/Matrix.lean ====
section
/-! DEFINITION. The matrix engine (R77 to R80, R145, R148): MMA. Integer operands accumulate exactly in
INT32; other operands accumulate in FP32, and each result is a free value within the accumulation bound
of R161 around the exact sum. -/

namespace Sys2Proof.Machine

/-- Activation rows with their block scales, and the invalid codes met (R80, R144). -/
def mmaRows (s : State) (ci : Nat) (d : W64) (scales : List Byte) (m k : Nat) : List (List FV) × Nat :=
  let n := areaNat s ci d (extent d m k)
  let f := dFmt d
  (List.range m).foldr (fun r acc =>
    let sc : Nat → Option Nat := fun j =>
      if f.blockScaled then some (getAt 0 scales (r * (k / 32) + j / 32)).toNat else none
    let x := decodeRow f sc (rowCodes d n k r)
    (x.1 :: acc.1, x.2 + acc.2)) ([], 0)

/-- Weight columns with their block scales; `scales` begins with W's first scale byte (R80). -/
def mmaCols (s : State) (ci : Nat) (d : W64) (scales : List Byte) (k n : Nat) : List (List FV) × Nat :=
  let f := dFmt d
  let num := areaNat s ci d (tilesBytes f k n)
  (List.range n).foldr (fun nn acc =>
    let sc : Nat → Option Nat := fun kk =>
      if f.blockScaled then some (getAt 0 scales (weightScalePos f k kk nn)).toNat else none
    let codes := (List.range k).map (fun kk => bitsAt num (weightPos f k kk nn * f.bits) f.bits)
    let x := decodeRow f sc codes
    (x.1 :: acc.1, x.2 + acc.2)) ([], 0)

/-- Exact sum of products, and the sum of their magnitudes. -/
def dotExact (a w : List FV) : FV × FV :=
  (a.zip w).foldl (fun acc e =>
    let t := FV.mul e.1 e.2
    (FV.add acc.1 t, FV.add acc.2 t.abs)) (FV.zero, FV.zero)

/-- Bound on an FP32 accumulation over `k` products: K * 2^-24 * sum |v||w|. The term 2K * 2^-24 of R161 covers the
engine and the reference of R160 together; each has half of it. -/
def accTol (k : Nat) (p : FV) : Int := fxOf p * (k : Nat) / 2 ^ 24

/-- Split a list into groups of `g`. -/
def groupsOf {α : Type} (g : Nat) : Nat → List α → List (List α)
  | 0, _ => []
  | n + 1, l => if l.isEmpty then [] else l.take g :: groupsOf g n (l.drop g)

/-- What the FP32 accumulator takes in (R145): the products one by one; where an operand is block-scaled, the exact sum
of each block of 32, scaled, as FP32 holds it. -/
def accTerms (scaled : Bool) (a w : List FV) : List FV :=
  if scaled then (groupsOf 32 (a.length + 1) (a.zip w)).map (fun b => rF32 (dotExact (b.map (·.1)) (b.map (·.2))).1)
  else (a.zip w).map (fun e => FV.mul e.1 e.2)

/-- An FP32 accumulation: of one term exactly that term, else a free value within the bound. -/
def accumulate (s : State) (k : Nat) (mag : FV) : List FV → FV × State
  | [x] => (rF32 x, s)
  | l => boundedResult s (l.foldl FV.add FV.zero) (accTol k mag)

/-- One output element of MMA before its conversion into Out (R78, R145). -/
def mmaElem (s : State) (int scaled : Bool) (k : Nat) (a w : List FV) (prev : Option FV) : FV × State :=
  let x := dotExact a w
  match int, prev with
  | true, none => (x.1, s)
  | true, some v => (rF32 (FV.add v (rF32 x.1)), s)
  | false, none => accumulate s k x.2 (accTerms scaled a w)
  | false, some v => accumulate s (k + 1) (FV.add x.2 v.abs) (v :: accTerms scaled a w)

/-- The rows of Out, thread by thread. -/
def mmaOut (s : State) (int scaled : Bool) (k : Nat) (rows cols : List (List FV)) (prev : List (List FV)) :
    List (List FV) × State :=
  rows.zipIdx.foldl (fun (acc : List (List FV) × State) (e : List FV × Nat) =>
    let row := cols.zipIdx.foldl (fun (ra : List FV × State) (f : List FV × Nat) =>
      let p := (prev[e.2]?).bind (fun l => l[f.2]?)
      let y := mmaElem ra.2 int scaled k e.1 f.1 p
      (ra.1 ++ [y.1], y.2)) ([], acc.2)
    (acc.1 ++ [row.1], row.2)) ([], s)

/-- What MMA reads and writes. -/
def mmaUses (c : Core) (a : MmaArgs) : List Use :=
  let fa := dFmt (descOf c a.a)
  let fw := dFmt (descOf c a.w)
  let m := a.m.toNat
  let k := a.k.toNat
  let n := a.n.toNat
  rowsUse c a.a false m k ++ useOf c a.w false (tilesBytes fw k n) ++
    useOf c a.scale false (aScales fa m k + wScales fw k n) ++
    (if a.accumulate then rowsUse c a.out false m n else []) ++ rowsUse c a.out true m n

/-- MMA: Out = A x W, or Out += A x W (R77). -/
def effMma (s : State) (ci : Nat) (a : MmaArgs) : State :=
  let c := coreOf s ci
  let dA := descOf c a.a
  let dW := descOf c a.w
  let dO := descOf c a.out
  let m := a.m.toNat
  let k := a.k.toNat
  let n := a.n.toNat
  let fa := dFmt dA
  let fw := dFmt dW
  let na := aScales fa m k
  let scales := if a.scale = noDesc then [] else readArea s ci (descOf c a.scale) (na + wScales fw k n)
  let rows := mmaRows s ci dA scales m k
  let cols := mmaCols s ci dW (scales.drop na) k n
  let prev := if a.accumulate then (readRows s ci dO m n).1 else []
  let s := countInvalid s (rows.2 + cols.2)
  let out := mmaOut s (fa.integer && fw.integer) (fa.blockScaled || fw.blockScaled) k rows.1 cols.1 prev
  storeRows out.2 ci dO a.rounding.toNat n out.1

end Sys2Proof.Machine
end

