-- ==== Sys2Proof/Machine/Vector.lean ====
section
/-! DEFINITION. The vector unit (R82 to R86, R154 to R158, R160 to R169): one effect per function. Inputs
are widened to FP32; results of the functions that R162 only bounds are free values inside the bound;
conversion into dst is nearest-even (R83). -/

namespace Sys2Proof.Machine

/-! ## Operand helpers -/

def vRows (a : VecArgs) : Nat := a.rows.toNat
def vLen (a : VecArgs) : Nat := a.length.toNat
def vImm (a : VecArgs) : FV := decBF16 a.imm

/-- A row of zeros stands for an operand that is not given. -/
def rowOf (m : List (List FV)) (r : Nat) : List FV := getAt [] m r

/-- An operand of `rows` rows, with its invalid codes. -/
def vRead (s : State) (ci : Nat) (i : BitVec 6) (rows cols : Nat) : List (List FV) × Nat :=
  if i = noDesc then ([], 0) else readRows s ci (descOf (coreOf s ci) i) rows cols

/-- Store a result in dst with nearest-even rounding (R83). -/
def vStore (s : State) (ci : Nat) (a : VecArgs) (cols : Nat) (rows : List (List FV)) : State :=
  storeRows s ci (descOf (coreOf s ci) a.dst) 0 cols rows

/-- Apply a result function, threaded through the free values, to each element of each row. -/
def mapRows (f : State → Nat → Nat → FV → FV × State) (s : State) (m : List (List FV)) :
    List (List FV) × State :=
  m.zipIdx.foldl (fun (acc : List (List FV) × State) (e : List FV × Nat) =>
    let row := e.1.zipIdx.foldl (fun (ra : List FV × State) (x : FV × Nat) =>
      let y := f ra.2 e.2 x.2 x.1
      (ra.1 ++ [y.1], y.2)) ([], acc.2)
    (acc.1 ++ [row.1], row.2)) ([], s)

/-- A function of each element of a, with a row-and-column view of b and c. -/
def elementwise (s : State) (ci : Nat) (a : VecArgs) (f : State → FV → FV → FV → FV × State) : State :=
  let n := vLen a
  let ra := vRead s ci a.a (vRows a) n
  let rb := vRead s ci a.b (vRows a) n
  let rc := vRead s ci a.c (vRows a) n
  let s := countInvalid s (ra.2 + rb.2 + rc.2)
  let y := mapRows (fun s r j x => f s x (getAt FV.zero (rowOf rb.1 r) j) (getAt FV.zero (rowOf rc.1 r) j)) s ra.1
  vStore y.2 ci a n y.1

/-- A correctly rounded or exact function (R162). -/
def exactFn (f : FV → FV → FV → FV) (s : State) (x y z : FV) : FV × State := (rF32 (f x y z), s)

/-- A function with a relative and an absolute bound, both in fixed point; `special` gives the result for
operands that are not finite, none where the manual states none. -/
def boundedFn (ref : Int → Int) (relLog absTol : Nat) (special : FV → Option FV) (s : State) (x : FV) :
    FV × State :=
  match special x with
  | some v => (v, s)
  | none =>
    if x.isFinite then
      let r := ref (fxOf x)
      drawNear s r ((r.natAbs : Int) / 2 ^ relLog + (absTol : Nat))
    else let d := drawFree s; (decF32 (Config.freeF32 d.1), d.2)

/-! ## Elementwise functions (codes 0x00 to 0x16) -/

def vecCopy (s : State) (ci : Nat) (a : VecArgs) : State := elementwise s ci a (exactFn (fun x _ _ => x))
def vecAdd (s : State) (ci : Nat) (a : VecArgs) : State := elementwise s ci a (exactFn (fun x y _ => FV.add x y))
def vecSub (s : State) (ci : Nat) (a : VecArgs) : State := elementwise s ci a (exactFn (fun x y _ => FV.sub x y))
def vecMul (s : State) (ci : Nat) (a : VecArgs) : State := elementwise s ci a (exactFn (fun x y _ => FV.mul x y))
/-- One rounding of a x b + c. -/
def vecFma (s : State) (ci : Nat) (a : VecArgs) : State :=
  elementwise s ci a (exactFn (fun x y z => FV.add (FV.mul x y) z))
def vecMax (s : State) (ci : Nat) (a : VecArgs) : State := elementwise s ci a (exactFn (fun x y _ => FV.maxV x y))
def vecMin (s : State) (ci : Nat) (a : VecArgs) : State := elementwise s ci a (exactFn (fun x y _ => FV.minV x y))
def vecScale (s : State) (ci : Nat) (a : VecArgs) : State :=
  elementwise s ci a (exactFn (fun x _ _ => FV.mul x (vImm a)))

/-- exp: +Inf above 88.72 (R162), 0 at -Inf. -/
def vecExp (s : State) (ci : Nat) (a : VecArgs) : State :=
  elementwise s ci a (fun s x _ _ => boundedFn fxExp 22 0 (fun x =>
    match x with
    | .nan t => some (.nan t)
    | .inf t => some (if t then FV.zero else .inf false)
    | v => if FV.lt (.fin false 8872 0) (FV.mul v (.fin false 100 0)) then some (.inf false) else none) s x)

/-- 1/a; a zero gives an infinity of its sign (IEEE 754). -/
def vecRecip (s : State) (ci : Nat) (a : VecArgs) : State :=
  elementwise s ci a (fun s x _ _ => boundedFn (fun v => fxDiv fxOne v) 22 0 (fun x =>
    match x with
    | .nan t => some (.nan t)
    | .inf t => some (.fin t 0 0)
    | .fin t m _ => if m = 0 then some (.inf t) else none) s x)

/-- 1/sqrt(a): NaN below zero, an infinity at zero (IEEE 754). -/
def vecRsqrt (s : State) (ci : Nat) (a : VecArgs) : State :=
  elementwise s ci a (fun s x _ _ => boundedFn (fun v => fxDiv fxOne (fxSqrt v)) 22 0 (fun x =>
    match x with
    | .nan t => some (.nan t)
    | .inf t => some (if t then .nan false else FV.zero)
    | .fin t m _ => if m = 0 then some (.inf t) else if t then some (.nan false) else none) s x)

/-- 2^-n in fixed point. -/
def fxEps (n : Nat) : Nat := 2 ^ (fxBits - n)

def vecSilu (s : State) (ci : Nat) (a : VecArgs) : State :=
  elementwise s ci a (fun s x _ _ => boundedFn fxSilu 21 (fxEps 30) (fun x =>
    match x with | .nan t => some (.nan t) | .inf false => some (.inf false) | _ => none) s x)
def vecGelu (s : State) (ci : Nat) (a : VecArgs) : State :=
  elementwise s ci a (fun s x _ _ => boundedFn fxGelu 21 (fxEps 30) (fun x =>
    match x with | .nan t => some (.nan t) | .inf false => some (.inf false) | _ => none) s x)
def vecSigmoid (s : State) (ci : Nat) (a : VecArgs) : State :=
  elementwise s ci a (fun s x _ _ => boundedFn fxSigmoid 22 (fxEps 23) (fun x =>
    match x with | .nan t => some (.nan t) | .inf t => some (if t then FV.zero else FV.ofInt 1) | _ => none) s x)
def vecTanh (s : State) (ci : Nat) (a : VecArgs) : State :=
  elementwise s ci a (fun s x _ _ => boundedFn fxTanh 22 (fxEps 23) (fun x =>
    match x with | .nan t => some (.nan t) | .inf t => some (.fin t 1 0) | _ => none) s x)

/-! ## Reductions and norms (0x20 to 0x2A) -/

/-- One FP32 value per row. -/
def reduction (s : State) (ci : Nat) (a : VecArgs) (f : State → List FV → FV × State) : State :=
  let ra := vRead s ci a.a (vRows a) (vLen a)
  let s := countInvalid s ra.2
  let y := ra.1.foldl (fun (acc : List (List FV) × State) row =>
    let v := f acc.2 row
    (acc.1 ++ [[v.1]], v.2)) ([], s)
  vStore y.2 ci a 1 y.1

def sumFV (l : List FV) : FV := l.foldl FV.add FV.zero
def sumAbs (l : List FV) : FV := l.foldl (fun acc x => FV.add acc x.abs) FV.zero
def squares (l : List FV) : List FV := l.map (fun x => FV.mul x x)

/-- Bound of a sum over L elements: ceil(log2 L) * 2^-24 * sum |x| (R162). -/
def sumTol (l : List FV) : Int := fxOf (sumAbs l) * (clog2 l.length : Nat) / 2 ^ 24

def vecSum (s : State) (ci : Nat) (a : VecArgs) : State :=
  reduction s ci a (fun s l => boundedResult s (sumFV l) (sumTol l))
def vecMaxr (s : State) (ci : Nat) (a : VecArgs) : State :=
  reduction s ci a (fun s l => (l.tail.foldl FV.maxV (l.headD FV.zero), s))
def vecSumsq (s : State) (ci : Nat) (a : VecArgs) : State :=
  reduction s ci a (fun s l => boundedResult s (sumFV (squares l)) (sumTol (squares l)))

/-- A function of whole rows; b and c are single rows. -/
def rowwise (s : State) (ci : Nat) (a : VecArgs) (f : State → List FV → List FV → List FV → List FV × State) :
    State :=
  let ra := vRead s ci a.a (vRows a) (vLen a)
  let rb := vRead s ci a.b 1 (vLen a)
  let rc := vRead s ci a.c 1 (vLen a)
  let s := countInvalid s (ra.2 + rb.2 + rc.2)
  let y := ra.1.foldl (fun (acc : List (List FV) × State) row =>
    let v := f acc.2 row (rowOf rb.1 0) (rowOf rc.1 0)
    (acc.1 ++ [v.1], v.2)) ([], s)
  vStore y.2 ci a (vLen a) y.1

/-- Thread a function over a list. -/
def mapSt {α β : Type} (f : State → α → β × State) (s : State) (l : List α) : List β × State :=
  l.foldl (fun (acc : List β × State) x => let y := f acc.2 x; (acc.1 ++ [y.1], y.2)) ([], s)

/-- A row less its mean, and its mean square, as exact values; what is not finite follows IEEE 754 (R146). -/
def centred (remove : Bool) (row : List FV) : List FV × FV :=
  let len := FV.ofInt (row.length : Int)
  let ys := if remove then row.map (fun x => FV.sub x (FV.div (sumFV row) len)) else row
  (ys, FV.div (sumFV (squares ys)) len)

/-- a x b / sqrt(mean(a^2) + imm) after an optional removal of the mean, plus a bias (R83). An element whose operands are
finite, over a root above 0, is a free value within its bound; any other is what IEEE 754 gives. -/
def normRow (remove : Bool) (imm : FV) (s : State) (row gain bias : List FV) : List FV × State :=
  let len : Int := (row.length : Int)
  let c := centred remove row
  let root := FV.sqrt (FV.add c.2 imm)
  mapSt (fun s (e : FV × Nat) =>
    let g := getAt FV.zero gain e.2
    let r := FV.add (FV.div (FV.mul e.1 g) root) (getAt FV.zero bias e.2)
    if r.isFinite && root.isFinite then
      drawNear s (fxOf r) (((fxOf r).natAbs : Int) * len / 2 ^ 24 + ((fxOf r).natAbs : Int) / 2 ^ 21)
    else (rF32 r, s)) s c.1.zipIdx

def vecRmsnorm (s : State) (ci : Nat) (a : VecArgs) : State :=
  rowwise s ci a (fun s row b _ => normRow false (vImm a) s row b [])
def vecLayernorm (s : State) (ci : Nat) (a : VecArgs) : State :=
  rowwise s ci a (fun s row b c => normRow true (vImm a) s row b c)

/-- Softmax of a row in fixed point; -Inf elements weigh nothing. -/
def softmaxRef (row : List FV) : List Int :=
  let m := row.tail.foldl FV.maxV (row.headD FV.zero)
  let es := row.map (fun x => match x with
    | .fin _ _ _ => fxExp (fxOf (FV.sub x m))
    | _ => 0)
  let t := es.foldl (· + ·) 0
  es.map (fun e => fxDiv e t)

def vecSoftmax (s : State) (ci : Nat) (a : VecArgs) : State :=
  rowwise s ci a (fun s row _ _ =>
    if row.all (fun x => x.isFinite || decide (x = FV.inf true)) && row.any FV.isFinite then
      mapSt (fun s (r : Int) => drawNear s r (r / 2 ^ 21 + (row.length : Int) * (fxEps 24 : Nat))) s (softmaxRef row)
    else (row.map (fun _ => FV.nanOf row), s))

/-! ## ROPE, DEQUANT, TOPK -/

/-- Rotate the pairs (2i, 2i+1) of a row by the angles of row r of b, in radians (R83, R162). -/
def vecRope (s : State) (ci : Nat) (a : VecArgs) : State :=
  let half := vLen a / 2
  let ra := vRead s ci a.a (vRows a) (vLen a)
  let rb := vRead s ci a.b (vRows a) half
  let s := countInvalid s (ra.2 + rb.2)
  let y := mapSt (fun s (e : List FV × Nat) =>
    mapSt (fun s (x : FV × Nat) =>
      let even := getAt FV.zero e.1 (x.2 / 2 * 2)
      let odd := getAt FV.zero e.1 (x.2 / 2 * 2 + 1)
      let th := getAt FV.zero (rowOf rb.1 e.2) (x.2 / 2)
      if even.isFinite && odd.isFinite && th.isFinite then
        let sc := fxSinCos (fxOf th)
        let r := if x.2 % 2 = 0 then fxMul (fxOf even) sc.2 - fxMul (fxOf odd) sc.1
          else fxMul (fxOf even) sc.1 + fxMul (fxOf odd) sc.2
        drawNear s r ((((fxOf even).natAbs + (fxOf odd).natAbs : Nat) : Int) / 2 ^ 22)
      else if th.isFinite then
        let sc := fxSinCos (fxOf th)
        (rF32 (if x.2 % 2 = 0 then FV.sub (FV.mul even (fxVal sc.2)) (FV.mul odd (fxVal sc.1))
          else FV.add (FV.mul even (fxVal sc.1)) (FV.mul odd (fxVal sc.2))), s)
      else (FV.nanOf [even, odd, th], s)) s e.1.zipIdx) s ra.1.zipIdx
  vStore y.2 ci a (vLen a) y.1

/-- Bytes of the scales of `rows` rows of `k` elements: E8M0 per 32, else BF16 per group of the entry. -/
def scaleBytes (f : Fmt) (e : BitVec 128) (rows k : Nat) : Nat :=
  if f.blockScaled then rows * ceilDiv k 32 else rows * ceilDiv k (groupSize e k) * 2

/-- Scale of element j of row r, from scale bytes laid out by R156; the flag marks a NaN block. -/
def scaleAt (f : Fmt) (e : BitVec 128) (bytes : List Byte) (k r j : Nat) : FV × Bool :=
  if f.blockScaled then
    let b := (getAt 0 bytes (r * ceilDiv k 32 + j / 32)).toNat
    (decE8M0 b, b == 255)
  else
    let i := r * ceilDiv k (groupSize e k) + j / groupSize e k
    (decBF16 (BitVec.ofNat 16 (fieldLe bytes (2 * i) 2)), false)

/-- a expanded by the scales in b; the scale groups are those of precision entry param. -/
def vecDequant (s : State) (ci : Nat) (a : VecArgs) : State :=
  let c := coreOf s ci
  let e := precisionOf s ci (a.param.toNat % 64)
  let da := descOf c a.a
  let f := dFmt da
  let k := vLen a
  let n := areaNat s ci da (extent da (vRows a) k)
  let bytes := if a.b = noDesc then [] else readArea s ci (descOf c a.b) (scaleBytes f e (vRows a) k)
  let rows := (List.range (vRows a)).map (fun r =>
    (rowCodes da n k r).zipIdx.map (fun (x : Nat × Nat) =>
      let v := decElem f x.1
      let sc := scaleAt f e bytes k r x.2
      (if sc.2 then FV.nan false else rF32 (FV.mul v.1 sc.1), if v.2 || sc.2 then 1 else 0)))
  let s := countInvalid s ((rows.map (fun r => (r.map (·.2)).foldl (· + ·) 0)).foldl (· + ·) 0)
  vStore s ci a k (rows.map (fun r => r.map (·.1)))

/-- Is x placed before y in a descending order? A NaN is placed with the smallest. -/
def ahead (x y : FV) : Bool := if x.isNaN then false else if y.isNaN then true else FV.lt y x

/-- Indices of the `n` largest, in descending order, ties to the lower index. -/
def topIndices (n : Nat) (row : List FV) : List (FV × Nat) :=
  (sortBy (fun (x y : FV × Nat) => !(ahead y.1 x.1)) row.zipIdx).take n

/-- Write raw bytes row by row at the places of rows of `len` bytes. -/
def writeRawRows (s : State) (ci : Nat) (d : W64) (len : Nat) (rows : List (List Byte)) : State :=
  let pitch := if dPitch d = 0 then len else dPitch d * 64
  let old := (areaAddrs ci d true (rawExtent d rows.length len)).flatMap (fun a => memReadN s.scratch a 64)
  let new := rows.zipIdx.foldl (fun (bs : List Byte) (e : List Byte × Nat) => spliceBytes bs (e.2 * pitch) e.1) old
  writeArea s ci d (new.take old.length)

/-- The param largest values of each row as FP32 value and U32 index (R83). -/
def vecTopk (s : State) (ci : Nat) (a : VecArgs) : State :=
  let ra := vRead s ci a.a (vRows a) (vLen a)
  let s := countInvalid s ra.2
  let n := a.param.toNat
  let rows := ra.1.map (fun row => (topIndices n row).flatMap (fun e =>
    natLe (encF32 e.1).toNat 4 ++ natLe e.2 4))
  writeRawRows s ci (descOf (coreOf s ci) a.dst) (n * 8) rows

/-! ## QUANT (R154 to R158) -/

/-- Magnitude of a finite value, compared exactly. -/
def magLe (a b : FV) : Bool := !(FV.lt b.abs a.abs)

/-- Largest magnitude of a group. -/
def amax (g : List FV) : FV := g.foldl (fun m x => if FV.lt m x.abs then x.abs else m) FV.zero

/-- Scale of a group by R155: its stored bits (BF16 or E8M0) and its value. -/
def chooseScale (f : Fmt) (g : List FV) : Nat × FV :=
  let m := amax g
  if f.blockScaled then
    if m.isZero then (0, decE8M0 0) else
    let lim : FV := match f with
      | .int8 => .fin false 127 (-6)
      | _ => let l := f.largest; .fin false l.1 l.2
    let e := ((List.range 255).find? (fun e => magLe m (FV.mul lim (decE8M0 e)))).getD 254
    (e, decE8M0 e)
  else
    let d : FV := match f with
      | .int4 => .fin false 15 (-1)
      | _ => .fin false 3 (-1)
    if m.isZero then (1, decBF16 1) else
    match FV.div m d with
    | .fin _ q e =>
      let r := roundSig .up 8 (-133) q e
      let bits := (packF32 false (r.1 * 2 ^ 16) (r.2 - 16)).toNat / 65536
      (bits, decBF16 (BitVec.ofNat 16 bits))
    | _ => (1, decBF16 1)

/-- Outlier channels of a row, and dynamic candidates that do not fit (R157). -/
def outlierList (e : BitVec 128) (static : List Nat) (v : List FV) : List Nat × Nat :=
  let k := v.length
  let limit := k / 64
  let st := if pOutlier e % 2 = 1 then static.filter (· < k) else []
  let kept := st.take limit
  if pOutlier e / 2 = 1 then
    let sq := sumFV (squares v)
    let th := FV.mul (pBF e 96) (pBF e 96)
    let bar := FV.mul th sq
    let cands := v.zipIdx.filter (fun x =>
      FV.lt bar (FV.mul (FV.mul x.1 x.1) (FV.ofInt k)) && !(st.contains x.2))
    let order := sortBy (fun (x y : FV × Nat) => !(FV.lt x.1.abs y.1.abs)) cands
    let room := limit - kept.length
    (kept ++ (order.take room).map (·.2), order.length - room)
  else (kept, 0)

/-- What QUANT makes of one row: codes, scales, outlier list with values, residual row, written-back row. -/
structure QuantRow where
  codes : List Nat
  scales : List Nat
  list : List (Nat × FV)
  residual : List FV
  back : List FV

/-- Quantize one row (R154). -/
def quantRow (s : State) (ci : Nat) (f : Fmt) (e : BitVec 128) (static : List Nat) (row res : List FV) :
    QuantRow × State :=
  let v0 := if pFeedback e = 1 then row.zipIdx.map (fun x => rF32 (FV.add x.1 (getAt FV.zero res x.2))) else row
  let bad := (v0.filter (fun x => !x.isFinite)).length
  let v1 := v0.map (fun x => if x.isFinite then x else FV.zero)
  let s := if bad = 0 then s else bump s K.numNonfiniteConversions bad
  let ol := outlierList e static v1
  let s := if ol.2 = 0 then s else bump s K.numOutlierOverflow ol.2
  let v := v1.zipIdx.map (fun x => if ol.1.contains x.2 then FV.zero else x.1)
  let gs := if f.blockScaled then 32 else groupSize e row.length
  let out := mapSt (fun s (g : List FV) =>
    let sc := chooseScale f g
    let cs := mapSt (fun s (x : FV) => convOne s ci f (pRounding e) (FV.div x sc.2)) s g
    ((cs.1, sc), cs.2)) s (groupsOf gs (row.length + 1) v)
  let codes := out.1.flatMap (·.1)
  let deq := out.1.flatMap (fun x => x.1.map (fun c => FV.mul (decElem f c).1 x.2.2))
  let beta := pBF e 112
  let residual := v.zipIdx.map (fun x =>
    if ol.1.contains x.2 then FV.zero else FV.mul beta (FV.sub x.1 (getAt FV.zero deq x.2)))
  ({ codes, scales := out.1.map (·.2.1), list := ol.1.map (fun i => (i, getAt FV.zero v1 i)), residual, back := v }, out.2)

/-- Bytes of one row's outlier list: count, then floor(K/64) slots, padded to a granule (R156). -/
def listBytes (k : Nat) (l : List (Nat × FV)) : List Byte :=
  let slots := l.flatMap (fun x => natLe x.1 2 ++ natLe (encElem .bf16 .nearestEven x.2).1 2)
  let body := natLe l.length 4 ++ padTo (k / 64 * 4) slots
  padTo (ceilDiv body.length 64 * 64) body

/-- Bytes QUANT writes to c. -/
def quantCBytes (f : Fmt) (e : BitVec 128) (rows k : Nat) : Nat :=
  let sc := scaleBytes f e rows k
  ceilDiv sc 64 * 64 + rows * (ceilDiv (4 + k / 64 * 4) 64 * 64)

/-- QUANT (R154). -/
def vecQuant (s : State) (ci : Nat) (a : VecArgs) : State :=
  let c := coreOf s ci
  let k := vLen a
  let idx := a.param.toNat % 64
  let e := precisionOf s ci idx
  let dd := descOf c a.dst
  let f := dFmt dd
  let ra := vRead s ci a.a (vRows a) k
  let rb := vRead s ci a.b (vRows a) k
  let s := countInvalid s (ra.2 + rb.2)
  let static := staticList s ci idx
  let out := mapSt (fun s (x : List FV × Nat) => quantRow s ci f e static x.1 (rowOf rb.1 x.2)) s ra.1.zipIdx
  let s := writeRows out.2 ci dd k (out.1.map (·.codes))
  let s := if pFeedback e = 0 ∨ a.b = noDesc then s
    else storeRows s ci (descOf c a.b) 0 k (out.1.map (·.residual))
  let w := if f.blockScaled then 1 else 2
  let sc := out.1.flatMap (fun q => q.scales.flatMap (fun x => natLe x w))
  let area := padTo (ceilDiv sc.length 64 * 64) sc ++ out.1.flatMap (fun q => listBytes k q.list)
  let s := if a.c = noDesc then s else writeArea s ci (descOf c a.c) area
  storeRows s ci (descOf c a.a) 0 k (out.1.map (·.back))

/-! ## OUTLIER (R85) -/

def vecOutlier (s : State) (ci : Nat) (a : VecArgs) : State :=
  let c := coreOf s ci
  let limit := a.param.toNat
  let given := vRows a
  let used := Nat.min given limit
  let n := vLen a
  let list := readArea s ci (descOf c a.a) (4 * used)
  let w := (vRead s ci a.b used n).1
  let dst := descOf c a.dst
  let old := (readRows s ci dst 1 n).1
  let acts := (List.range used).map (fun i => decBF16 (BitVec.ofNat 16 (fieldLe list (4 * i + 2) 2)))
  let y := mapSt (fun s (j : Nat) =>
    let col := w.map (fun row => getAt FV.zero row j)
    let x := dotExact acts col
    let prev := getAt FV.zero (rowOf old 0) j
    boundedResult s (FV.add prev x.1) (accTol (used + 1) (FV.add x.2 prev.abs))) s (List.range n)
  let s := storeRows y.2 ci dst 0 n [y.1]
  match partOfCore s ci with
  | some p => if given > limit then bump s (K.statOutlierTruncations p) else s
  | none => s

/-! ## CHECK (R86, R164 to R169) -/

/-- Level of the ladder that an entry's format stands for (R167). -/
def entryLevel (e : BitVec 128) : Nat :=
  match pFmt e with
  | .fp6e2 => 1
  | .int8 => 2
  | _ => 0

/-- Bytes of the codes of CHECK's 16 columns of K elements. -/
def checkCodeBytes (f : Fmt) (k : Nat) : Nat := (16 * k * f.bits + 7) / 8

/-- Bytes of the E8M0 scales that belong to those columns in a block-scaled format, one per 32 elements. -/
def checkBlockBytes (f : Fmt) (k : Nat) : Nat := if f.blockScaled then 16 * ceilDiv k 32 else 0

/-- Does the entry check an array operation, whose columns have a scale in each array of the chain? DEDUCED: the
sign of it is an analog coefficient c_analog that is not zero (R165 does not name one; log 176). -/
def checksArray (e : BitVec 128) : Bool := decide (pField e 79 64 ≠ 0)

/-- Bytes of CHECK's weight operand (R165): 16 columns of K elements as stored, with the E8M0 scales of a block-scaled
format after them, then their BF16 column scales, a set for each array of the chain for an array operation. -/
def checkWBytes (f : Fmt) (e : BitVec 128) (k : Nat) : Nat :=
  checkCodeBytes f k + checkBlockBytes f k + 32 * (if checksArray e then ceilDiv k 512 else 1)

/-- Column scale of weight (i, j) of CHECK's weight operand. -/
def checkWScale (f : Fmt) (e : BitVec 128) (k : Nat) (bytes : List Byte) (i j : Nat) : FV :=
  let arr := if checksArray e then i / 512 else 0
  decBF16 (BitVec.ofNat 16 (fieldLe bytes (checkCodeBytes f k + checkBlockBytes f k + 2 * (arr * 16 + j)) 2))

/-- One weight of CHECK's operand before its column scale, as it expands; the flag marks an invalid code or a NaN
block, which is counted (R142, R144, R147). -/
def checkWElem (f : Fmt) (k : Nat) (bytes : List Byte) (i j : Nat) : FV × Bool :=
  let v := decElem f (bitsAt (leNat (bytes.take (checkCodeBytes f k))) ((j * k + i) * f.bits) f.bits)
  if !f.blockScaled then v
  else
    let b := (getAt 0 bytes (checkCodeBytes f k + j * ceilDiv k 32 + i / 32)).toNat
    (FV.mul v.1 (decE8M0 b), v.2 || b == 255)

/-- Deviation and bound of one column (R160, R165). -/
def checkColumn (s : State) (e : BitVec 128) (v : List FV) (scales : List FV) (w : Nat → FV)
    (ws : Nat → FV) (result : FV) : (FV × FV) × State :=
  let idx := v.zipIdx
  let p := idx.foldl (fun acc x => FV.add acc (FV.mul x.1 (w x.2)).abs) FV.zero
  let q := idx.foldl (fun acc x => FV.add acc (FV.mul (w x.2).abs (getAt FV.zero scales x.2))) FV.zero
  let gs := if (pFmt e).blockScaled then 32 else groupSize e v.length
  let a := (List.range (ceilDiv v.length gs)).foldl (fun acc g =>
    FV.add acc (FV.mul (getAt FV.zero scales (g * gs)) (ws (g * gs)).abs)) FV.zero
  let exact := idx.foldl (fun acc x => FV.add acc (FV.mul x.1 (w x.2))) FV.zero
  let ref := boundedResult s exact (accTol v.length p)
  let bound := FV.add (FV.add (FV.mul (pBF e 32) p) (FV.mul (pBF e 48) q))
    (FV.add (FV.mul (pBF e 64) a) (pBF e 80))
  (((FV.sub result ref.1).abs, bound), ref.2)

/-- Result of a CHECK: largest deviation, whether any column misses, largest deviation / bound. -/
structure CheckResult where
  deviation : FV
  miss : Bool
  ratio : FV

/-- Compute a CHECK's 16 columns. -/
def checkTile (s : State) (ci : Nat) (a : VecArgs) (e : BitVec 128) : CheckResult × State :=
  let c := coreOf s ci
  let k := vLen a
  let v := rowOf (vRead s ci a.a 1 k).1 0
  let f := dFmt (descOf c a.b)
  let bytes := readArea s ci (descOf c a.b) (checkWBytes f e k)
  let res := rowOf (vRead s ci a.c 1 16).1 0
  let gs := if (pFmt e).blockScaled then 32 else groupSize e k
  let scales := (groupsOf gs (k + 1) v).flatMap (fun g =>
    let sc := chooseScale (pFmt e) g
    g.map (fun _ => sc.2))
  let bad := (List.range 16).map (fun j => ((List.range k).filter (fun i => (checkWElem f k bytes i j).2)).length)
  let s := countInvalid s (bad.foldl (· + ·) 0)
  let cols := mapSt (fun s (j : Nat) =>
    let ws := fun i => checkWScale f e k bytes i j
    let w := fun i => FV.mul (checkWElem f k bytes i j).1 (ws i)
    checkColumn s e v scales w ws (getAt FV.zero res j)) s (List.range 16)
  ({ deviation := cols.1.foldl (fun m x => FV.maxV m x.1) FV.zero
     miss := cols.1.any (fun x => !(FV.le x.1 x.2))
     ratio := cols.1.foldl (fun m x => FV.maxV m (rF32 (FV.div x.1 x.2))) FV.zero }, cols.2)

/-- Skip the block that a CHECK guards: its length is rows - 1 (R166). -/
def skipBlock (s : State) (ci : Nat) (a : VecArgs) : State :=
  updCore s ci (fun c => { c with skip := vRows a - 1 })

/-- Count one executed widening block (R172). -/
def countWiden (s : State) (level : Nat) : State :=
  if level = 1 then bump s K.numWidenLevel1 else bump s K.numWidenLevel2

/-- Is a command a guard CHECK of an entry, with a block (R166)? -/
def guards (entry : Nat) (w : CmdWord) : Bool :=
  match decodeCommand w with
  | some (.vec .check a) => a.param.toNat / 64 == 31 && a.param.toNat % 64 == entry && decide (1 < a.rows.toNat)
  | _ => false

/-- Is a sampled CHECK that of the last level the program carries (R168)? At tile scope its block is the next level; at
layer scope the next level is the block of a guard of the same entry, and level 2 has none. -/
def lastLevel (s : State) (ci : Nat) (a : VecArgs) (e : BitVec 128) : Bool :=
  if pScope e = 0 then decide (vRows a = 1)
  else decide (entryLevel e = 2) || !((bodyOf s ci).any (guards (a.param.toNat % 64)))

/-- A sampled CHECK misses its bound: what follows depends on the mode and the scope (R166, R168, R169). -/
def checkMiss (s : State) (p ci : Nat) (a : VecArgs) (e : BitVec 128) (ratio : FV) : State :=
  let s := bump s K.numCheckMisses
  if lastLevel s ci a e then
    let s := bump s K.numLadderExhausted
    let s := bump s (K.statLadderExhausted p)
    recordEvent s {
      code := 0x7100, source := .cluster, location := ci / 16, partition := p, lap := (partOf s p).lap
      payload := natLe (a.param.toNat % 64) 1 ++ natLe (encF32 ratio).toNat 4 }
  else if inForce s p K.numCheckerMode ≠ 1 then
    skipBlock (recordEvent s {
      code := 0x7100, source := .cluster, location := ci / 16, partition := p, lap := (partOf s p).lap
      payload := natLe (a.param.toNat % 64) 1 ++ natLe (encF32 ratio).toNat 4 }) ci a
  else
    let s := bump s (K.statWidenings p)
    if pScope e = 0 then countWiden s (entryLevel e + 1)
    else updCore s ci (fun c => { c with widenOut := insertNat (pWiden e) c.widenOut })

/-- Does the sequencer skip a CHECK with its block (R164, R169)? Every CHECK while the checker is off, and a sampled
CHECK in the laps that its candidate number does not name. -/
def checkSkipped (s : State) (p ci : Nat) (a : VecArgs) : Bool :=
  let cand := a.param.toNat / 64
  decide (inForce s p K.numCheckerMode = 0) ||
    (cand != 31 && cand != (partOf s p).lap % (pCandidates (precisionOf s ci (a.param.toNat % 64)) + 1))

/-- A sampled CHECK that is executed (R86, R165): on a miss it holds its own command index, which the sequencer has
just moved past. -/
def vecCheck (s : State) (ci : Nat) (a : VecArgs) : State :=
  match partOfCore s ci with
  | none => s
  | some p =>
    let e := precisionOf s ci (a.param.toNat % 64)
    let x := checkTile s ci a e
    let s := bump x.2 K.numChecksRun
    let s := updCore s ci (fun c =>
      { c with checker := x.1.miss, missTile := if x.1.miss then some (c.pos - 1) else c.missTile })
    let s := if FV.lt (decF32 (BitVec.ofNat 32 (odGet s K.numMaxDeviationRatio))) x.1.ratio
      then odSet s K.numMaxDeviationRatio (encF32 x.1.ratio).toNat else s
    let s := storeRows s ci (descOf (coreOf s ci) a.dst) 0 1 [[x.1.deviation]]
    if x.1.miss then checkMiss s p ci a e x.1.ratio else skipBlock s ci a

/-- A guard CHECK (R166): its block runs if the entry's widen bit came back with the last clear. -/
def vecGuard (s : State) (ci : Nat) (a : VecArgs) : State :=
  let e := precisionOf s ci (a.param.toNat % 64)
  if inForce s ((partOfCore s ci).getD 0) K.numCheckerMode = 1 ∧ (coreOf s ci).widenIn.contains (pWiden e) then
    (if vRows a > 1 then countWiden s (entryLevel e + 1) else s)
  else skipBlock s ci a

/-! ## Dispatch over the functions -/

/-- What a VEC reads and writes. -/
def vecUses (s : State) (ci : Nat) (fn : VecFn) (a : VecArgs) : List Use :=
  let c := coreOf s ci
  let r := vRows a
  let n := vLen a
  let e := precisionOf s ci (a.param.toNat % 64)
  match fn with
  | .sum | .maxr | .sumsq => rowsUse c a.a false r n ++ rowsUse c a.dst true r 1
  | .rmsnorm | .layernorm => rowsUse c a.a false r n ++ rowsUse c a.b false 1 n ++ rowsUse c a.c false 1 n ++
      rowsUse c a.dst true r n
  | .softmax => rowsUse c a.a false r n ++ rowsUse c a.dst true r n
  | .rope => rowsUse c a.a false r n ++ rowsUse c a.b false r (n / 2) ++ rowsUse c a.dst true r n
  | .quant => rowsUse c a.a false r n ++ rowsUse c a.b false r n ++ rowsUse c a.a true r n ++
      rowsUse c a.b true r n ++ rowsUse c a.dst true r n ++
      useOf c a.c true (quantCBytes (dFmt (descOf c a.dst)) e r n)
  | .dequant => rowsUse c a.a false r n ++
      useOf c a.b false (scaleBytes (dFmt (descOf c a.a)) e r n) ++ rowsUse c a.dst true r n
  | .topk => rowsUse c a.a false r n ++ rawUse c a.dst true r (a.param.toNat * 8)
  | .outlier => useOf c a.a false (4 * Nat.min r a.param.toNat) ++
      rowsUse c a.b false (Nat.min r a.param.toNat) n ++ rowsUse c a.dst false 1 n ++ rowsUse c a.dst true 1 n
  | .check =>
      if a.param.toNat / 64 = 31 then [] else
      rowsUse c a.a false 1 n ++ useOf c a.b false (checkWBytes (dFmt (descOf c a.b)) e n) ++
        rowsUse c a.c false 1 16 ++ rowsUse c a.dst true 1 1
  | _ => rowsUse c a.a false r n ++ rowsUse c a.b false r n ++ rowsUse c a.c false r n ++ rowsUse c a.dst true r n

/-- The effect of a VEC function (R83). -/
def effVec (s : State) (ci : Nat) (fn : VecFn) (a : VecArgs) : State :=
  match fn with
  | .copy => vecCopy s ci a | .add => vecAdd s ci a | .sub => vecSub s ci a | .mul => vecMul s ci a
  | .fma => vecFma s ci a | .max => vecMax s ci a | .min => vecMin s ci a | .scale => vecScale s ci a
  | .exp => vecExp s ci a | .recip => vecRecip s ci a | .rsqrt => vecRsqrt s ci a
  | .silu => vecSilu s ci a | .gelu => vecGelu s ci a | .sigmoid => vecSigmoid s ci a
  | .tanh => vecTanh s ci a | .sum => vecSum s ci a | .maxr => vecMaxr s ci a
  | .sumsq => vecSumsq s ci a | .rmsnorm => vecRmsnorm s ci a | .layernorm => vecLayernorm s ci a
  | .softmax => vecSoftmax s ci a | .rope => vecRope s ci a | .quant => vecQuant s ci a
  | .dequant => vecDequant s ci a | .topk => vecTopk s ci a | .outlier => vecOutlier s ci a
  | .check => if a.param.toNat / 64 = 31 then vecGuard s ci a else vecCheck s ci a

end Sys2Proof.Machine
end

