-- ==== Sys2Proof/Machine/Arrays.lean ====
section
/-! DEFINITION. The in-memory arrays (R107 to R136): conversion, splits, canaries and monitors of ARR_MVM,
ARR_WRITE with verify and spares, the lap mask, maintenance at hurdle 0, calibration and rewriting. -/

namespace Sys2Proof.Machine

/-! ## Chains -/

/-- Chain table of a core (R119). -/
def chainsOf (s : State) (ci : Nat) : List Chain :=
  match programOf s ci with
  | some g => g.chains
  | none => []

/-- Number of the chain with the given arrays. -/
def chainNumber (s : State) (ci first count : Nat) : Option Nat :=
  indexWhere (fun (c : Chain) => c.first == first && c.count == count) (chainsOf s ci)

/-- Number of the chain that holds a logical array. -/
def chainHolding (s : State) (ci a : Nat) : Option Nat :=
  indexWhere (fun (c : Chain) => decide (c.first ≤ a ∧ a < c.first + c.count)) (chainsOf s ci)

/-- Array numbers of a chain of a core. -/
def chainArrays (s : State) (ci ch : Nat) : List Nat :=
  let c := getAt { first := 0, count := 0 } (chainsOf s ci) ch
  (List.range c.count).map (fun i => ci * 32 + c.first + i)

/-- A chain is off when any of its arrays is outside the lap mask (R125). -/
def chainOff (s : State) (ci ch : Nat) : Bool := (chainArrays s ci ch).any (fun a => !(arrOf s a).masked)

/-- Chains of a cluster, as (core, chain). -/
def clusterChains (s : State) (cl : Nat) : List (Nat × Nat) :=
  (List.range 16).flatMap (fun k =>
    (List.range (chainsOf s (cl * 16 + k)).length).map (fun ch => (cl * 16 + k, ch)))

/-- Chains of a cluster that are off (R125). -/
def chainsOff (s : State) (cl : Nat) : Nat :=
  ((clusterChains s cl).filter (fun x => chainOff s x.1 x.2)).length

/-- Keep the largest number of chains off in one cluster, which is at most 2 (R125, R138). -/
def noteChainsOff (s : State) (p cl : Nat) : State :=
  odMax s (K.statChainsOffMax p) (Nat.min 2 (chainsOff s cl))

/-- Arrays of a chain leave the lap mask during a lap; a third chain off in the cluster faults the partition (R125). -/
def arraysLeave (s : State) (p ci ch : Nat) (arrs : List Nat) : State :=
  let was := chainOff s ci ch
  let before := chainsOff s (ci / 16)
  let s := arrs.foldl (fun s a => updArr s a (fun x => { x with masked := false })) s
  let s := noteChainsOff s p (ci / 16)
  if !was ∧ before ≥ 2 then raiseFault s p 0x000A (ci / 16) else s

/-- A chain leaves the lap mask. -/
def leaveMask (s : State) (p ci ch : Nat) : State := arraysLeave s p ci ch (chainArrays s ci ch)

/-- A single array leaves the lap mask, and its chain is off with it. -/
def arrayLeaves (s : State) (a : Nat) : State :=
  match partOfCore s (a / 32), chainHolding s (a / 32) (a % 32) with
  | some p, some ch => arraysLeave s p (a / 32) ch [a]
  | _, _ => updArr s a (fun x => { x with masked := false })

/-! ## Cell contents (R108, R142) -/

/-- Code of R118's wfmt for a format. -/
def wfmtOf : Fmt → Nat
  | .ternary => 0
  | .int2 => 1
  | _ => 2

/-- Weights per row of a stored format. -/
def weightsPerRow (wfmt : Nat) : Nat := if wfmt = 2 then 128 else 256

/-- Slice weights, least significant slice first. -/
def slices (wfmt : Nat) : List Int :=
  match wfmt with
  | 0 => [1, -1]
  | 1 => [1, -2]
  | _ => [1, 2, 4, -8]

/-- W of R108. -/
def sliceTotal (wfmt : Nat) : Nat := ((slices wfmt).map Int.natAbs).foldl (· + ·) 0

/-- A ternary row with its invalid codes stored as zeros, and their number (R142). -/
def cleanTernary (row : List Byte) : List Byte × Nat :=
  let n := leNat row
  let bad := (List.range 256).filter (fun j => bitsAt n (2 * j) 2 == 3)
  (natLe (bad.foldl (fun m j => putBits m (2 * j) 2 0) n) 64, bad.length)

/-- A stored row; rows not written hold zeros. -/
def arrRow (x : Arr) (r : Nat) : List Byte := kvGet (List.replicate 64 0) x.rows r

def setArrRow (x : Arr) (r : Nat) (b : List Byte) : Arr :=
  { x with rows := kvSet (List.replicate 64 0) x.rows r b }

/-- A row as an array stores it: an invalid ternary code is a pair of zeros, whoever writes it (R142). -/
def storedRow (wfmt : Nat) (row : List Byte) : List Byte := if wfmt = 0 then (cleanTernary row).1 else row

/-! ## Repair sources (R120, R135, R233) -/

/-- The array that an image of a lap program is for. -/
def imageArray (pt : Part) (x : ArrayImage) : Nat :=
  (((pt.oy + x.dy) * 24 + pt.ox + x.dx) * 16 + x.core) * 32 + x.array

/-- Granules of a repair source: 512 rows, then the weight scales. -/
def repairGranules (wfmt : Nat) : Nat := 512 + ceilDiv (2 * weightsPerRow wfmt) 64

/-- The repair source of an array, read whole; none where it has none. -/
def repairOf (s : State) (a : Nat) : Option SourceRead :=
  let x := arrOf s a
  match x.repair, partAt s (a / 512) with
  | some place, some p => some (readPlace s p place (repairGranules x.wfmt))
  | _, _ => none

/-- Write an array from the bytes of its source: rows, then scales. -/
def fillArray (x : Arr) (src : List Byte) : Arr :=
  let x := (List.range 512).foldl (fun (x : Arr) r => setArrRow x r (storedRow x.wfmt (slice src (64 * r) 64))) x
  (List.range (weightsPerRow x.wfmt)).foldl (fun (x : Arr) j =>
    { x with scales := kvSet 0 x.scales j (BitVec.ofNat 16 (fieldLe src (512 * 64 + 2 * j) 2)) }) x

/-- Do an array's contents agree with its repair source? (R135) -/
def matchesRepair (s : State) (a : Nat) : Bool :=
  match repairOf s a with
  | some (.bytes l) => decide (fillArray (arrOf s a) l = arrOf s a)
  | _ => true

/-! ## Queues for maintenance (R128, R133) -/

/-- Queue a chain for calibration; a chain that has drifted more than 8 degrees goes to the front. -/
def queueCalibration (s : State) (ci ch : Nat) : State :=
  let key := ci * 8 + ch
  let arrs := chainArrays s ci ch
  let gov := (clusterOf s (ci / 16)).govTemp
  let front := arrs.any (fun a => decide ((gov - (arrOf s a).calTemp).natAbs > 80))
  if (chainOf s key).queued then
    updCluster s (ci / 16) (fun c => { c with
      calQueue := if front && c.calQueue.contains key then key :: c.calQueue.filter (· ≠ key) else c.calQueue })
  else if !(arrs.any (fun a => decide ((arrOf s a).state = .ready))) then s
  else
    let s := arrs.foldl (fun s a => updArr s a (fun x =>
      if x.state = .ready then { x with state := .calPending } else x)) s
    let s := updChain s key (fun c => { c with queued := true })
    updCluster s (ci / 16) (fun c =>
      { c with calQueue := if front then key :: c.calQueue else c.calQueue ++ [key] })

/-- The lap of a core's partition. -/
def lapAt (s : State) (ci : Nat) : Nat :=
  match partOfCore s ci with
  | some p => (partOf s p).lap
  | none => 0

/-- An array that is to be rewritten: one that was SUSPECT leaves it in this lap (R133). -/
def Arr.toRewrite (lap : Nat) (x : Arr) : Arr :=
  { x with
    state := .writePending, passed := false, checking := false
    leftSuspect := if x.state = .suspect then some lap else x.leftSuspect }

/-- Some arrays of a chain wait for a rewrite from their repair source (R133, R135). -/
def rewriteArraysOf (s : State) (ci ch : Nat) (arrs : List Nat) : State :=
  let key := ci * 8 + ch
  let s := arrs.foldl (fun s a => updArr s a (Arr.toRewrite (lapAt s ci))) s
  updCluster s (ci / 16) (fun c =>
    { c with rewriteQueue := if c.rewriteQueue.contains key then c.rewriteQueue else c.rewriteQueue ++ [key] })

/-- Queue a chain for a rewrite: its persistent arrays, but for RETIRED ones. -/
def queueRewrite (s : State) (ci ch : Nat) : State :=
  let arrs := (chainArrays s ci ch).filter (fun a =>
    (arrOf s a).persist && decide ((arrOf s a).state ≠ .retired))
  if arrs = [] then s else rewriteArraysOf s ci ch arrs

/-- Record an array event under code 0x7000: core, array, deviation (R432). -/
def recordArray (s : State) (p ci a : Nat) (dev : FV) : State :=
  recordEvent s {
    code := 0x7000, source := .cluster, location := ci / 16, partition := p, lap := (partOf s p).lap
    payload := natLe (ci % 16) 2 ++ natLe (a % 32) 1 ++ natLe (encF32 dev).toNat 4 }

/-- A range or full-scale alarm on a chain (R131, R133): calibration; at the third within 1,024 laps of the last one the
persistent arrays wait for a rewrite, and the lap-written ones are calibrated again. -/
def monitorAlarm (s : State) (p ci ch : Nat) : State :=
  let key := ci * 8 + ch
  let s := bump s (K.statMonitorAlarms p)
  let s := recordArray s p ci (getAt 0 (chainArrays s ci ch) 0) FV.zero
  let s := updChain s key (fun c => { c with alarms := c.alarms + 1 })
  let c := chainOf s key
  let recent := decide ((partOf s p).lap ≤ c.calLap + 1024)
  queueCalibration (if c.alarms ≥ odGet s K.arrAlarmRewriteCount ∧ recent then queueRewrite s ci ch else s) ci ch

/-! ## Spares and retirement (R122, R130, R135) -/

/-- The spares-below-threshold trigger (R422 bit 1). -/
def checkSpares (s : State) : State :=
  let t := odGet s K.hlthSpareArrayThreshold
  let total := 442368 * 8
  if odGet s K.arrSpareRowsLeft * 100 < total * t ∨ odGet s K.arrSpareColumnsLeft * 100 < total * t then
    replaceRequest s 1 1
  else s

/-- Physical array behind a logical one. -/
def physArray (s : State) (a : Nat) : Nat := ((arrOf s a).phys).getD (a % 32)

/-- A free physical array of a core: in no chain, not retired, and not already bound (R134). -/
def freeArray (s : State) (ci : Nat) : Option Nat :=
  (List.range 32).find? (fun k =>
    (chainHolding s ci k).isNone && decide ((arrOf s (ci * 32 + k)).state ≠ .retired) &&
      (arrOf s (ci * 32 + k)).phys.isNone &&
      !((List.range 32).any (fun j => (arrOf s (ci * 32 + j)).phys == some k)))

/-- An array is RETIRED with nothing to replace it (R135): recorded, and a reason to ask for a new module. -/
def retireForGood (s : State) (a : Nat) : State :=
  let s := addYield s 4 (a / 512) (physCore s (a / 32)) (physArray s a) 0 0xFF
  let s := updArr s a (fun x => { x with state := .retired, passed := false, checking := false })
  let s := match partOfCore s (a / 32) with
    | some p => recordArray s p (a / 32) a FV.zero
    | none => s
  replaceRequest s 1 1

/-- An array is written from its repair source (R135). While the source is held the array waits for a rewrite (R232);
from a lost one it goes to RETIRED (R233). An array with no source waits for the next ARR_WRITE. -/
def writeFromSource (s : State) (a : Nat) : State :=
  match repairOf s a with
  | some (.bytes l) => updArr s a (fun x => fillArray x l)
  | some .lost => retireForGood (arrayLeaves s a) a
  | some .held =>
    match chainHolding s (a / 32) (a % 32) with
    | some ch => rewriteArraysOf s (a / 32) ch [a]
    | none => s
  | none => s

/-- A logical array with a free physical array behind it: what that array's cells, spares and trims hold. -/
def Arr.behind (x y : Arr) (k : Nat) : Arr :=
  { x with
    phys := some k, state := .calibrating, passed := false, checking := false, rows := y.rows, scales := y.scales
    rowsBound := y.rowsBound, colsBound := y.colsBound, trims := y.trims, fullScale := [], converted := 0 }

/-- A spare is needed and not left, or a lap-written array fails again: a free array takes the logical
index and is written and calibrated, or the array is RETIRED (R135). -/
def retireArray (s : State) (a : Nat) : State :=
  let ci := a / 32
  let s := arrayLeaves s a
  let s := match (arrOf s a).phys with
    | some k => updArr s (ci * 32 + k) (fun x => { x with state := .retired })
    | none => s
  match freeArray s ci with
  | some k =>
    let s := addYield s 4 (ci / 16) (physCore s ci) (physArray s a) 0 k
    let s := setArr s a ((arrOf s a).behind (arrOf s (ci * 32 + k)) k)
    let s := bump s K.arrFreeArraysBound
    if (arrOf s a).persist then writeFromSource s a else s
  | none => retireForGood s a

/-- Bind a spare bit-column of an array (R122, R130); false where none was left. -/
def bindColumn (s : State) (a col : Nat) : Bool × State :=
  let n := (arrOf s a).colsBound.length
  let v := if n < 8 then n else 0xFF
  let s := addYield s 3 (a / 512) (physCore s (a / 32)) (physArray s a) col v
  if n < 8 then
    let s := updArr s a (fun x => { x with colsBound := x.colsBound ++ [col] })
    (true, checkSpares (odSet s K.arrSpareColumnsLeft (odGet s K.arrSpareColumnsLeft - 1)))
  else (false, retireArray s a)

/-- Bind a spare row of an array (R122); false where none was left. -/
def bindRow (s : State) (a row : Nat) : Bool × State :=
  let n := (arrOf s a).rowsBound.length
  let v := if n < 8 then n else 0xFF
  let s := addYield s 2 (a / 512) (physCore s (a / 32)) (physArray s a) row v
  if n < 8 then
    let s := updArr s a (fun x => { x with rowsBound := x.rowsBound ++ [row] })
    (true, checkSpares (odSet s K.arrSpareRowsLeft (odGet s K.arrSpareRowsLeft - 1)))
  else (false, retireArray s a)

/-- Bind spares for bit-columns, then rows, until one is not left: what failed after it belongs to the array that
has gone. -/
def bindAll (s : State) (a : Nat) (cols rows : List Nat) : Bool × State :=
  let x := cols.foldl (fun (acc : Bool × State) c => if acc.1 then bindColumn acc.2 a c else acc) (true, s)
  rows.foldl (fun (acc : Bool × State) r => if acc.1 then bindRow acc.2 a r else acc) x

/-- Cells that mismatch twice bind spares: a bit-column met in two or more rows, else a row (R122). -/
def bindSpares (s : State) (a : Nat) (cells : List (Nat × Nat)) : State :=
  let cols := cells.foldl (fun acc e => insertNat e.2 acc) []
  let bad := cols.filter (fun c => decide (((cells.filter (fun e => e.2 == c)).foldl
    (fun acc e => insertNat e.1 acc) []).length ≥ 2))
  let rows := (cells.filter (fun e => !bad.contains e.2)).foldl (fun acc e => insertNat e.1 acc) []
  (bindAll s a bad rows).2

/-! ## ARR_WRITE (R120 to R123) -/

def arrWriteUses (c : Core) (a : ArrWriteArgs) : List Use :=
  useOf c a.src false (64 * (a.rows.toNat + 1)) ++
    useOf c a.scale false (2 * weightsPerRow (wfmtOf (dFmt (descOf c a.src))))

/-- ARR_WRITE writes rows and scales into one array. -/
def effArrWrite (s : State) (ci : Nat) (env : CoreEnv) (w : ArrWriteArgs) : State :=
  let c := coreOf s ci
  let ai := ci * 32 + w.array.toNat
  let x := arrOf s ai
  if x.state = .retired then bump s K.arrFallbackDroppedWrites
  else
    let d := descOf c w.src
    let f := dFmt d
    let n := w.rows.toNat + 1
    let bytes := readArea s ci d (64 * n)
    let rows := (List.range n).map (fun i =>
      if c.poison.contains (granAddr ci d false i) then (List.replicate 64 (0 : Byte), 0)
      else if f = .ternary then cleanTernary (slice bytes (64 * i) 64) else (slice bytes (64 * i) 64, 0))
    let s := countInvalid s ((rows.map (·.2)).foldl (· + ·) 0)
    let x := rows.zipIdx.foldl (fun (x : Arr) e => setArrRow x (w.firstRow.toNat + e.2) e.1.1) x
    let sc := if w.scale = noDesc then [] else readArea s ci (descOf c w.scale) (2 * weightsPerRow (wfmtOf f))
    let x := (List.range (sc.length / 2)).foldl (fun (x : Arr) j =>
      { x with scales := kvSet 0 x.scales j (BitVec.ofNat 16 (fieldLe sc (2 * j) 2)) }) x
    let x := { x with wfmt := wfmtOf f, persist := w.persist, repair := if w.persist then some w.repair else none }
    let s := setArr s ai x
    if w.verify then bindSpares s ai env.cells else s

/-! ## ARR_MVM (R109 to R114, R118, R124) -/

/-- Input multiplier u (R109). -/
def inputMult : Fmt → Int
  | .ternary => 8
  | .int2 => 4
  | _ => 1

/-- Integer value of an input element. -/
def inputInt (f : Fmt) (code : Nat) : Int :=
  match (decElem f code).1 with
  | .fin t m _ => if t then -(m : Int) else m
  | _ => 0

/-- k of a command: rows of the chain. -/
def mvmK (a : ArrMvmArgs) : Nat := (a.count.toNat - 1) * 512 + a.rowsLast.toNat + 1
def mvmGroup (a : ArrMvmArgs) : Nat := if a.group then 128 else 64
/-- Rows of the i-th array of the chain. -/
def mvmRows (a : ArrMvmArgs) (i : Nat) : Nat := if i + 1 = a.count.toNat then a.rowsLast.toNat + 1 else 512
/-- Groups of one input row over the chain. -/
def mvmGroups (a : ArrMvmArgs) : Nat :=
  ((List.range a.count.toNat).map (fun i => ceilDiv (mvmRows a i) (mvmGroup a))).foldl (· + ·) 0

/-- Has the governing temperature left the 8 degrees around an array's last calibration? -/
def beyondCal (s : State) (ai : Nat) : Bool :=
  decide (80 < ((clusterOf s (ai / 512)).govTemp - (arrOf s ai).calTemp).natAbs)

/-- Converter error e: 1 LSB; 2 from the time the temperature has left the 8 degrees around the last calibration until
the next one (R111). -/
def convError (s : State) (ai : Nat) : Nat := if (arrOf s ai).stale || beyondCal s ai then 2 else 1

/-- A converter's code for eight times the ideal sum `t`: a free code within e LSB, in -64 to 63 (R111). -/
def convCode (n : Nat) (e : Nat) (t : Int) : Int :=
  let c := Config.freeCode n
  if (8 * c - t).natAbs ≤ 8 * e ∧ -64 ≤ c ∧ c ≤ 63 then c else min 63 (max (-64) ((t + 4) / 8))

/-- Eight times the ideal sum of a bit-column over rows [lo, lo + len) for inputs x, and the same with
magnitudes (R111, R112). -/
def columnSum (cells : List Nat) (u : Int) (xs : List Int) (lo len col : Nat) : Int × Nat :=
  (List.range len).foldl (fun (acc : Int × Nat) i =>
    if (getAt 0 cells (lo + i)).testBit col then
      let t := u * getAt 0 xs (lo + i)
      (acc.1 + t, acc.2 + t.natAbs)
    else acc) (0, 0)

/-- Conversion of one group of one array: sub-groups after a possible split (R112). -/
def groupParts (cells : List Nat) (u : Int) (xs : List Int) (lo len : Nat) : List (Nat × Nat) :=
  if len > 64 ∧ (List.range 512).any (fun c => decide ((columnSum cells u xs lo len c).2 > 512)) then
    [(lo, 64), (lo + 64, len - 64)]
  else [(lo, len)]

/-- The codes of one array for one input row: per group, the codes of all bit-columns of its parts. -/
def arrayCodes (base e : Nat) (cells : List Nat) (u : Int) (xs : List Int) (rows gs : Nat) :
    List (List (List Int)) :=
  (List.range (ceilDiv rows gs)).map (fun g =>
    (groupParts cells u xs (g * gs) (Nat.min gs (rows - g * gs))).map (fun pt =>
      (List.range 512).map (fun c => convCode (base + pt.1 * 8 + c) e (columnSum cells u xs pt.1 pt.2 c).1)))

/-- Sum over slices of sigma * code for weight column j. -/
def sliceSum (wfmt : Nat) (codes : List Int) (j : Nat) : Int :=
  let sl := slices wfmt
  (sl.zipIdx.map (fun e => e.1 * getAt 0 codes (j * sl.length + e.2))).foldl (· + ·) 0

/-- What one input row gives on a chain: FV terms of each weight column, splits, and for each conversion its array and
the bit-columns whose code was -64 or +63. -/
structure MvmRow where
  terms : List (List FV)
  splits : Nat
  full : List (Nat × List Nat)

/-- Convert one input row on a chain (R113). `xs` are its integers, `scales` its group scales, `base` the first of its
command's free codes. -/
def mvmRow (s : State) (base ci : Nat) (a : ArrMvmArgs) (u : Int) (r : Nat) (xs : List Int) (scales : List FV)
    (weighted : Bool) : MvmRow :=
  let gs := mvmGroup a
  let n := weightsPerRow a.wfmt.toNat
  (List.range a.count.toNat).foldl (fun (acc : MvmRow × Nat) i =>
    let ai := ci * 32 + a.firstArray.toNat + i
    let x := arrOf s ai
    let rows := mvmRows a i
    let cells := (List.range rows).map (fun k => leNat (arrRow x k))
    let codes := arrayCodes (base + (r * 32 + i) * 4608) (convError s ai) cells u (xs.drop (i * 512)) rows gs
    let terms := (List.range n).map (fun j =>
      let ws := if weighted then decBF16 (kvGet 0 x.scales j) else FV.ofInt 1
      codes.zipIdx.flatMap (fun g => g.1.map (fun pt =>
        FV.mul ws (FV.mul (getAt FV.zero scales (acc.2 + g.2)) (FV.ofInt (8 / u * sliceSum a.wfmt.toNat pt j))))))
    let full := codes.flatMap (fun g => g.map (fun pt =>
      (ai, (pt.zipIdx.filter (fun c => c.1 == 63 || c.1 == -64)).map (·.2))))
    ({ terms := (List.range n).map (fun j => getAt [] acc.1.terms j ++ getAt [] terms j)
       splits := acc.1.splits + (codes.filter (fun g => decide (g.length > 1))).length
       full := acc.1.full ++ full }, acc.2 + codes.length)) ({ terms := [], splits := 0, full := [] }, 0) |>.1

/-- Free values that one ARR_MVM may draw. -/
def mvmDraws (rows : Nat) : Nat := rows * 32 * 4608

def arrMvmUses (c : Core) (a : ArrMvmArgs) : List Use :=
  let m := a.m.toNat
  let n := weightsPerRow a.wfmt.toNat
  let k := mvmK a
  let w := (dFmt (descOf c a.inp)).bits
  rowsUse c a.inp false m k ++ useOf c a.scale false (2 * m * mvmGroups a) ++
    useOf c a.canary false (8 * (ceilDiv (k * w) 512 * 64) + 32 * n + 4) ++
    (if a.accumulate then rowsUse c a.out false m n else []) ++ rowsUse c a.out true m n

/-- The range monitor sees one output: a window that is full restarts, and the count that passes the threshold raises
an alarm (R131). -/
def monitorOutput (window top : Nat) (lo hi : FV) (acc : ChainState × Nat) (x : FV) : ChainState × Nat :=
  let c := if window ≤ acc.1.seen then { acc.1 with outside := 0, seen := 0 } else acc.1
  if FV.le lo x && FV.le x hi then ({ c with seen := c.seen + 1 }, acc.2)
  else ({ c with seen := c.seen + 1, outside := c.outside + 1 }, acc.2 + (if c.outside = top then 1 else 0))

/-- The range monitor (R131): outputs outside the envelope of the command's entry. DESIGN CHOICE: with accumulate = 1 the
value compared is the accumulated one, which Out receives (R131 does not say; log 178). -/
def rangeMonitor (s : State) (p ci ch : Nat) (a : ArrMvmArgs) (outs : List FV) : State :=
  if a.env = noDesc then s else
  let table := match programOf s ci with
    | some g => g.envelopes
    | none => []
  let e := getAt (0, 0) table a.env.toNat
  let x := outs.foldl (monitorOutput (odGet s K.arrMonitorWindow) (odGet s K.arrMonitorThreshold) (decF32 e.1)
    (decF32 e.2)) (chainOf s (ci * 8 + ch), 0)
  (List.range x.2).foldl (fun s _ => monitorAlarm s p ci ch) (setChain s (ci * 8 + ch) x.1)

/-- Conversions of a full-scale window (R131). -/
def scaleWindow : Nat := 4096

/-- One conversion of an array in the full-scale counts: a window that is full restarts. -/
def convSeen (x : Arr) (cols : List Nat) : Arr :=
  let x := if scaleWindow ≤ x.converted then { x with fullScale := [], converted := 0 } else x
  { x with converted := x.converted + 1, fullScale := cols.foldl (fun m c => kvUpd 0 m c (· + 1)) x.fullScale }

/-- The full-scale counts (R131): all converters of an array convert in step. -/
def fullScaleCount (s : State) (p ci ch : Nat) (convs : List (Nat × List Nat)) : State :=
  convs.foldl (fun s h =>
    let x := convSeen (arrOf s h.1) h.2
    (h.2.filter (fun c => kvGet 0 x.fullScale c == odGet s K.arrFullscaleThreshold + 1)).foldl
      (fun s _ => monitorAlarm s p ci ch) (setArr s h.1 x)) s

/-- A canary failure (R132, R133): replay, out of the mask, SUSPECT or worse. The chain keeps the column and the
deviation, for which the record has no field. -/
def canaryFails (s : State) (p ci ch col dev : Nat) : State :=
  let s := requestReplay s ci
  let s := leaveMask s p ci ch
  let s := bump s (K.statCanaryFailures p)
  let s := updChain s (ci * 8 + ch) (fun c => { c with canary := some (col, dev) })
  let s := recordArray s p ci (getAt 0 (chainArrays s ci ch) 0) (FV.ofInt dev)
  let lap := (partOf s p).lap
  (chainArrays s ci ch).foldl (fun s a =>
    let x := arrOf s a
    let again := match x.leftSuspect with
      | some l => decide (lap ≤ l + 1024)
      | none => false
    if x.state = .retired then s
    else if again && x.persist then rewriteArraysOf s ci ch [a]
    else if again then retireArray s a
    else setArr s a { x with state := .suspect, masked := false, passed := false, checking := false }) s

/-- The canary row of a checked lap (R132). -/
def canaryRow (s : State) (base p ci ch : Nat) (a : ArrMvmArgs) (f : Fmt) : State :=
  if a.canary = noDesc ∨ !(partOf s p).checkedLap then s else
  let c := coreOf s ci
  let k := mvmK a
  let n := weightsPerRow a.wfmt.toNat
  let stride := ceilDiv (k * f.bits) 512 * 64
  let v := (partOf s p).lap % 8
  let area := readArea s ci (descOf c a.canary) (8 * stride + 32 * n + 4)
  let bits := leNat (slice area (v * stride) stride)
  let s := if f = .ternary then
      countInvalid s ((List.range k).filter (fun i => bitsAt bits (i * 2) 2 == 3)).length else s
  let xs := (List.range k).map (fun i => inputInt f (bitsAt bits (i * f.bits) f.bits))
  let ones := (List.range (mvmGroups a)).map (fun _ => FV.ofInt 1)
  let u := inputMult f
  let row := mvmRow s base ci a u a.m.toNat xs ones false
  let tol := fieldLe area (8 * stride + 32 * n) 4
  let bound := (List.range a.count.toNat).foldl (fun acc i =>
    acc + ceilDiv (mvmRows a i) (mvmGroup a) * (8 * convError s (ci * 32 + a.firstArray.toNat + i) *
      sliceTotal a.wfmt.toNat) / u.natAbs) 0
  let dev := (List.range n).foldl (fun (m : Nat × Nat) j =>
    let sum := fxOf (sumFV (getAt [] row.terms j)) / fxOne
    let d := (sum - twos 32 (fieldLe area (8 * stride + (v * n + j) * 4) 4)).natAbs
    if m.2 < d then (j, d) else m) (0, 0)
  let s := fullScaleCount s p ci ch row.full
  let s := if row.splits = 0 then s else bump s (K.statOverrangeSplits p) row.splits
  if dev.2 > Nat.min tol bound then canaryFails s p ci ch dev.1 dev.2 else s

/-- A parity error of a weight-scale register: the array goes SUSPECT (R133, R135). -/
def scaleParity (s : State) (p ci ch : Nat) (cells : List (Nat × Nat)) : State :=
  cells.foldl (fun s e =>
    let ai := ci * 32 + e.1
    if (chainArrays s ci ch).contains ai ∧ (arrOf s ai).state ≠ .retired then
      leaveMask (updArr s ai (fun x => { x with state := .suspect, passed := false, checking := false })) p ci ch
    else s) s

/-- ARR_MVM on the arrays (R113): every array of the chain is in the lap mask. DESIGN CHOICE: its results are rounded
into Out to nearest-even; R149 names a rounding field, which R118 does not give the command (log 180). -/
def effArrMvm (s : State) (ci : Nat) (env : CoreEnv) (a : ArrMvmArgs) : State :=
  match partOfCore s ci, chainNumber s ci a.firstArray.toNat a.count.toNat with
  | some p, some ch =>
    if (chainArrays s ci ch).any (fun x => decide ((arrOf s x).wfmt ≠ a.wfmt.toNat)) then
      raiseFault s p 0x0009 (ci / 16)
    else
      let c := coreOf s ci
      let d := descOf c a.inp
      let f := dFmt d
      let u := inputMult f
      let k := mvmK a
      let n := weightsPerRow a.wfmt.toNat
      let m := a.m.toNat
      let num := areaNat s ci d (extent d m k)
      let gpr := mvmGroups a
      let scb := readArea s ci (descOf c a.scale) (2 * m * gpr)
      let prev := if a.accumulate then (readRows s ci (descOf c a.out) m n).1 else []
      let invalid := if f = .ternary then
        ((List.range m).map (fun r => ((rowCodes d num k r).filter (· == 3)).length)).foldl (· + ·) 0 else 0
      let base := s.free
      let s := countInvalid { s with free := base + mvmDraws (m + 1) } invalid
      let rows := (List.range m).map (fun r =>
        mvmRow s base ci a u r ((rowCodes d num k r).map (inputInt f))
          ((List.range gpr).map (fun g => decBF16 (BitVec.ofNat 16 (fieldLe scb (2 * (r * gpr + g)) 2)))) true)
      let outs := mapSt (fun s (e : MvmRow × Nat) =>
        mapSt (fun s (x : List FV × Nat) =>
          let t := sumFV x.1
          match (prev[e.2]?).bind (fun l => l[x.2]?) with
          | none => boundedResult s t (accTol k (sumAbs x.1))
          | some v => boundedResult s (FV.add v t) (accTol (k + 1) (FV.add (sumAbs x.1) v.abs)))
          s e.1.terms.zipIdx) s rows.zipIdx
      let s := storeRows outs.2 ci (descOf c a.out) 0 n outs.1
      let splits := (rows.map (·.splits)).foldl (· + ·) 0
      let s := if splits = 0 then s else bump s (K.statOverrangeSplits p) splits
      let s := rangeMonitor s p ci ch a (outs.1.flatMap (fun r => r))
      let s := fullScaleCount s p ci ch (rows.flatMap (·.full))
      let s := scaleParity s p ci ch env.cells
      canaryRow s base p ci ch a f
  | _, _ => s

/-- Is every array of the chain in the lap mask? (R124) -/
def chainIn (s : State) (ci : Nat) (a : ArrMvmArgs) : Bool :=
  (List.range a.count.toNat).all (fun i => (arrOf s (ci * 32 + a.firstArray.toNat + i)).masked)

/-! ## Hurdle 0 (R123, R125, R129, R135) -/

/-- Calibrated arrays return to READY (R129 order 7). -/
def returnReady (s : State) (lap ci ch : Nat) : State :=
  (chainArrays s ci ch).foldl (fun s a =>
    let x := arrOf s a
    if x.state = .calibrating ∧ x.passed then
      setArr s a { x with
        state := .ready, passed := false, fromSuspect := false
        leftSuspect := if x.fromSuspect then some lap else x.leftSuspect }
    else s) s

/-- The calibration of SUSPECT arrays begins; they stay outside the mask (R135). -/
def checkSuspects (s : State) (ci ch : Nat) : State :=
  (chainArrays s ci ch).foldl (fun s a => updArr s a (fun x =>
    if x.state = .suspect then { x with checking := true } else x)) s

/-- May maintenance of this chain start: no more than one chain of the cluster would then be off. -/
def mayMaintain (s : State) (cl ci ch : Nat) : Bool :=
  decide (((clusterChains s cl).filter (fun x =>
    (x != (ci, ch)) && (chainArrays s x.1 x.2).any (fun a =>
      !([ArrState.ready, ArrState.calPending].contains (arrOf s a).state)))).length = 0)

/-- Start what is due in one cluster: one chain of the rewrite queue or of the calibration queue. -/
def startMaintenance (s : State) (cl : Nat) : State :=
  let c := clusterOf s cl
  let s := match c.rewriteQueue with
    | key :: rest =>
      if mayMaintain s cl (key / 8) (key % 8) then
        let s := setCluster s cl { c with rewriteQueue := rest }
        (chainArrays s (key / 8) (key % 8)).foldl (fun s a => updArr s a (fun x =>
          if x.state = .writePending then { x with state := .writing } else x)) s
      else s
    | [] => s
  let c := clusterOf s cl
  match c.calQueue with
  | key :: rest =>
    if mayMaintain s cl (key / 8) (key % 8) then
      let s := setCluster s cl { c with calQueue := rest }
      (chainArrays s (key / 8) (key % 8)).foldl (fun s a => updArr s a (fun x =>
        if x.state = .calPending then { x with state := .calibrating, passed := false } else x)) s
    else s
  | [] => s

/-- Freeze the lap mask of a chain: READY arrays, and those whose calibration has not started (R123, R135). -/
def freezeMask (s : State) (ci ch : Nat) : State :=
  (chainArrays s ci ch).foldl (fun s a => updArr s a (fun x =>
    { x with masked := decide (x.state = .ready) || decide (x.state = .calPending) })) s

/-- Everything the arrays of a partition do at hurdle 0. -/
def arraysHurdleZero (s : State) (p : Nat) : State :=
  let pt := partOf s p
  pt.clusters.foldl (fun s cl =>
    let chains := clusterChains s cl
    let s := chains.foldl (fun s x => checkSuspects (returnReady s pt.lap x.1 x.2) x.1 x.2) s
    let s := startMaintenance s cl
    let s := chains.foldl (fun s x => freezeMask s x.1 x.2) s
    let s := noteChainsOff s p cl
    if chainsOff s cl > 2 then raiseFault s p 0x000A cl else s) s

/-! ## Completions of maintenance -/

/-- Cells of a bit-column that a spare has replaced, until the next ARR_WRITE: free values. -/
def freeColumn (s : State) (a col : Nat) : State :=
  let s' := { s with free := s.free + 512 }
  updArr s' a (fun x => (List.range 512).foldl (fun (x : Arr) r =>
    let bit := if (Config.freeByte (s.free + r)).getLsbD 0 then 1 else 0
    setArrRow x r (natLe (putBits (leNat (arrRow x r)) col 1 bit) 64)) x)

/-- Converters of an array that fail the residual check (R130): spare bit-columns replace theirs, and the affected rows
are rewritten from the repair source of a persistent array. -/
def replaceColumns (s : State) (a : Nat) (cols : List Nat) : State :=
  let x := bindAll s a cols []
  if !x.1 then x.2
  else if (arrOf x.2 a).persist then writeFromSource x.2 a
  else cols.foldl (fun s c => freeColumn s a c) x.2

/-- An array passes its calibration (R129 order 6): trims and temperature are kept, and it waits for hurdle 0. -/
def passCalibration (s : State) (a : Nat) (trims : List Nat) : State :=
  updArr s a (fun x => { x with
    state := .calibrating, passed := true, checking := false, stale := false, trims := trims.map (· % 64)
    calTemp := (clusterOf s (a / 512)).govTemp
    fromSuspect := x.fromSuspect || decide (x.state = .suspect) })

/-- The calibration of one array ends; `bad` are its converters that failed the residual check. A CALIBRATING array then
has spares bound and is calibrated again (R130); a SUSPECT one, like one whose contents differ from its repair source,
goes to WRITE_PENDING (R135). -/
def arrayCalibrated (s : State) (ci ch a : Nat) (trims bad : List Nat) : State :=
  let x := arrOf s a
  if x.state = .suspect then
    let s := if bad = [] then s else (bindAll s a bad []).2
    if (arrOf s a).state ≠ .suspect then s
    else if bad ≠ [] ∨ (x.persist && !(matchesRepair s a)) then rewriteArraysOf s ci ch [a]
    else passCalibration s a trims
  else if bad ≠ [] then replaceColumns s a bad
  else passCalibration s a trims

/-- CALIBRATION_COMPLETE (R129, R130) of a chain; `trims` has a list for each of its arrays, of the offset and gain trims
of its converters and its pulse-unit trim. -/
def calibrationDone (s : State) (ci ch : Nat) (trims : List (List Nat)) (failed : List (Nat × Nat)) : State :=
  let arrs := (chainArrays s ci ch).zipIdx.filter (fun e =>
    let x := arrOf s e.1
    (decide (x.state = .calibrating) && !x.passed) || (decide (x.state = .suspect) && x.checking))
  if arrs = [] then s else
  let badOf (a : Nat) : List Nat := (failed.filter (fun e => ci * 32 + e.1 == a)).map (·.2)
  let lap := lapAt s ci
  let s := arrs.foldl (fun s e => arrayCalibrated s ci ch e.1 (getAt [] trims e.2) (badOf e.1)) s
  if arrs.any (fun e => badOf e.1 != []) then s
  else
    let s := updChain s (ci * 8 + ch) (fun c => { c with queued := false, alarms := 0, calLap := lap })
    bump s K.arrCalibrations

/-- A rewrite waits while its source is held (R232). -/
def rewriteHeld (s : State) (arrs : List Nat) : Bool := arrs.any (fun a => repairOf s a == some .held)

/-- REWRITE_COMPLETE (R135): the chain has been written from its repair source; mismatches bind spares, and
calibration follows. A rewrite from a lost piece takes the array to RETIRED (R233). DESIGN CHOICE: `rewrites` counts
one for the chain, whatever number of its arrays was rewritten (R137 does not say; log 179). -/
def rewriteDone (s : State) (ci ch : Nat) (mismatch : List (Nat × Nat × Nat)) : State :=
  let arrs := (chainArrays s ci ch).filter (fun a => decide ((arrOf s a).state = .writing))
  if arrs = [] ∨ rewriteHeld s arrs then s else
  let s := arrs.foldl (fun s a =>
    match repairOf s a with
    | some .lost => retireForGood s a
    | src =>
      let s := updArr s a (fun x =>
        { (match src with
            | some (.bytes l) => fillArray x l
            | _ => x) with state := .calibrating, passed := false })
      bindSpares s a ((mismatch.filter (fun e => ci * 32 + e.1 == a)).map (fun e => (e.2.1, e.2.2)))) s
  bump s K.arrRewrites

end Sys2Proof.Machine
end

