-- ==== Sys2Proof/Machine/Paging.lean ====
section
/-! DEFINITION. Key/value pages (R187 to R200, R206): table entries, frames and their draws, the walk of a
translation unit, copy on write, reclaiming and freeing, and lost pages. -/

namespace Sys2Proof.Machine

/-! ## Entries (R188, R189) -/

def eV (e : Nat) : Bool := e.testBit 0
def eH (e : Nat) : Bool := e.testBit 1
def eN (e : Nat) : Bool := e.testBit 2
def eS (e : Nat) : Bool := e.testBit 3
def eP (e : Nat) : Bool := e.testBit 4
def eBlock (e : Nat) : Nat := bitsOf e 15 8
def eFrame (e : Nat) : Nat := bitsOf e 36 16
def eGen (e : Nat) : Nat := bitsOf e 44 37
def eLap (e : Nat) : Nat := bitsOf e 63 48
/-- Host slot of an entry whose H is set. -/
def eSlot (e : Nat) : Nat := bitsOf e 47 16

def setBit (e i : Nat) (b : Bool) : Nat := putBits e i 1 (if b then 1 else 0)

/-- A root or L2 entry to a table. -/
def tableEntry (block frame : Nat) : Nat := 1 + block * 2 ^ 8 + frame * 2 ^ 16

/-- A leaf entry of a page drawn in a work lap. -/
def leafEntry (block frame gen lap : Nat) : Nat :=
  1 + 4 + block * 2 ^ 8 + frame * 2 ^ 16 + gen % 256 * 2 ^ 37 + lap % 2 ^ 16 * 2 ^ 48

/-- A leaf or L2 entry of a page in host memory; it keeps its block (R203 order 5). -/
def hostEntry (block slot : Nat) : Nat := 2 + block * 2 ^ 8 + slot % 2 ^ 32 * 2 ^ 16

/-- Stack address of a frame. -/
def frameAddr (block frame : Nat) : Nat := block * 2 ^ 37 + frame * 65536

def readEntry (s : State) (table idx : Nat) : Nat := leNat (memReadN s.stack (table + 8 * idx) 8)
def writeEntry (s : State) (table idx e : Nat) : State :=
  { s with stack := memWriteN s.stack (table + 8 * idx) (natLe e 8) }

/-- The entries of a table page that are not zero, as (index, entry). -/
def tableEntries (s : State) (table : Nat) : List (Nat × Nat) :=
  let idx := (s.stack.filter (fun c => decide (table ≤ c.1 ∧ c.1 < table + 65536))).foldl
    (fun acc c => insertNat ((c.1 - table) / 8) acc) []
  idx.map (fun i => (i, readEntry s table i))

/-! ## Frames (R193 to R195, R212) -/

/-- Frames of a stack (R188). -/
def framesPerStack : Nat := 1464843

def frameKey (block frame : Nat) : Nat := block * 2 ^ 21 + frame

/-- Frames of a block's weight region; the model places it at the foot of the stack. -/
def regionOf (s : State) (b : Nat) : Nat := domField s K.wtRegionFrames (4 * b) 4

/-- Frames of a block outside its weight region that are in use or withdrawn, in rising order. -/
def usedFrames (s : State) (b : Nat) : List Nat :=
  let lo := regionOf s b
  (s.frames.filter (fun e => decide (e.1 / 2 ^ 21 = b ∧ lo ≤ e.1 % 2 ^ 21 ∧ e.2.use ≠ .free))).map (fun e => e.1 % 2 ^ 21)

/-- Free frames of a block (R194). -/
def freeFrames (s : State) (b : Nat) : Nat := framesPerStack - regionOf s b - (usedFrames s b).length

/-- The lowest free frame at or above `lo`, given the used ones in rising order. -/
def firstFree (lo : Nat) (used : List Nat) : Nat := used.foldl (fun c f => if f = c then c + 1 else c) lo

/-- Which free frame a draw takes is open (R195): a free value chooses; it must be free. -/
def pickFrame (s : State) (b : Nat) : Nat × State :=
  let lo := regionOf s b
  let x := drawFree s
  let span := framesPerStack - lo
  let cand := lo + (if span = 0 then 0 else Config.framePick x.1 % span)
  if (frameOf s (frameKey b cand)).use = .free then (cand, x.2)
  else (firstFree lo (usedFrames s b), x.2)

/-- Take a frame for a session: generation up by one, one sharer (R193). -/
def takeFrame (s : State) (b f : Nat) : State :=
  updFrame s (frameKey b f) (fun x => { use := .session, gen := (x.gen + 1) % 256, sharers := 1 })

/-- Draw a frame of a block for a session's class, if it may take one (R195). -/
def drawFrame (s : State) (p b cls : Nat) : Option Nat × State :=
  let free := freeFrames s b
  if free = 0 ∨ (free ≤ odGet s (K.partClass0Reserve p) ∧ cls ≠ 0) then (none, s)
  else
    let x := pickFrame s b
    (some x.1, bump (takeFrame x.2 b x.1) (K.statKvPagesDrawn p))

/-- Draw a page for a table and clear it. -/
def drawTable (s : State) (p b cls : Nat) : Option Nat × State :=
  match drawFrame s p b cls with
  | (some f, s) => (some f, { s with stack := memZero s.stack (frameAddr b f) 65536 })
  | (none, s) => (none, s)

/-- One sharer of a frame goes; at zero the frame returns to the free list (R197). -/
def dropFrame (s : State) (b f : Nat) : State :=
  updFrame s (frameKey b f) (fun x =>
    if x.use ≠ .session then { x with sharers := x.sharers - 1 }
    else if x.sharers ≤ 1 then { x with sharers := 0, use := .free }
    else { x with sharers := x.sharers - 1 })

/-! ## Translation units (R190, R191) -/

/-- Key of a TLB entry: session and va[47:16]. -/
def tlbKey (sess va : Nat) : Nat := sess * 2 ^ 32 + va / 2 ^ 16

/-- Drop a session's cached entries in every cluster of a partition. -/
def tlbDropSession (s : State) (p sess : Nat) : State :=
  (partOf s p).clusters.foldl (fun s cl => updCluster s cl (fun c =>
    { c with tlb := c.tlb.filter (fun e => decide (e.1 / 2 ^ 32 ≠ sess)),
             ptrs := c.ptrs.filter (fun e => decide (e.1 / 2 ^ 19 ≠ sess)) })) s

/-- Drop one cached entry in every cluster of a partition. -/
def tlbDropEntry (s : State) (p key : Nat) : State :=
  (partOf s p).clusters.foldl (fun s cl => updCluster s cl (fun c => { c with tlb := kvErase c.tlb key })) s

/-- Cache a leaf entry and a stream pointer: 2,048 entries and 64 pointers; a full unit drops one (R191). -/
def tlbInsert (s : State) (cl key entry ptrKey ptr : Nat) : State :=
  let x := drawFree s
  updCluster x.2 cl (fun c =>
    let t := if c.tlb.length ≥ 2048 ∧ !(c.tlb.any (fun e => e.1 == key))
      then c.tlb.eraseIdx (Config.tlbVictim x.1 % 2048) else c.tlb
    let q := if c.ptrs.length ≥ 64 ∧ !(c.ptrs.any (fun e => e.1 == ptrKey)) then c.ptrs.eraseIdx (Config.tlbVictim x.1 % 64) else c.ptrs
    { c with tlb := kvPut t key entry, ptrs := kvPut q ptrKey ptr })

/-- How a key/value access ends (R190). -/
inductive Walk where
  | phys (addr : Nat) (gen : Nat)
  | unmapped
  | notResident
  | lost (block frame : Nat)
  | noPages
  | cut
  | badAddress
  | below
deriving DecidableEq, Repr

/-- Position that a virtual address stands for (R175). -/
def vaPosition (va : Nat) : Nat := if va.testBit 28 then bitsOf va 22 3 else bitsOf va 27 8

/-- Draw a table at a level, if the access may. -/
def needTable (s : State) (p cl cls : Nat) (write : Bool) : Option Nat × State :=
  if write then drawTable s p (blockOf cl) cls else (none, s)

/-- A translation unit's lease on a leaf entry it has drawn in the lap (R192, R406). -/
def addLease (s : State) (p cl sess va : Nat) : State :=
  updCluster s cl (fun c => { c with leases := (sess, va / 2 ^ 16, (partOf s p).lap) :: c.leases })

/-- The leaf table of a stream: its address, creating tables for a write (R190). -/
def leafTable (s : State) (p cl sess va : Nat) (write : Bool) : (Walk ⊕ Nat) × State :=
  let x := sessOf s sess
  let b := blockOf cl
  let r := kvGet 0 x.root (bitsOf va 47 42)
  let l2 : Option Nat × State :=
    if eV r then (some (frameAddr (eBlock r) (eFrame r)), s)
    else match needTable s p cl x.cls write with
      | (some f, s) =>
        (some (frameAddr b f), updSess s sess (fun x => { x with root := kvSet 0 x.root (bitsOf va 47 42) (tableEntry b f) }))
      | (none, s) => (none, s)
  match l2 with
  | (none, s) => (.inl (if write then .noPages else .unmapped), s)
  | (some t, s) =>
    let e := readEntry s t (bitsOf va 41 29)
    if eH e then (.inl .notResident, s)
    else if eV e then (.inr (frameAddr (eBlock e) (eFrame e)), s)
    else match needTable s p cl x.cls write with
      | (some f, s) => (.inr (frameAddr b f), writeEntry s t (bitsOf va 41 29) (tableEntry b f))
      | (none, s) => (.inl (if write then .noPages else .unmapped), s)

/-- Copy on write (R198): clear S where this is the last sharer, else a private copy. -/
def copyOnWrite (s : State) (p sess table idx e : Nat) : Option Nat × State :=
  let b := eBlock e
  let fr := frameOf s (frameKey b (eFrame e))
  if fr.sharers ≤ 1 then
    let e' := setBit e 3 false
    (some e', writeEntry s table idx e')
  else
    match drawFrame s p b (sessOf s sess).cls with
    | (none, s) => (none, s)
    | (some f, s) =>
      let bytes := memReadN s.stack (frameAddr b (eFrame e)) 65536
      let s := { s with stack := memWriteN s.stack (frameAddr b f) bytes }
      let s := dropFrame s b (eFrame e)
      let s := bump s (K.statCowCopies p)
      let e' := leafEntry b f (frameOf s (frameKey b f)).gen (partOf s p).workLap
      (some e', writeEntry s table idx e')

/-- The walk of the translation unit of cluster `cl` for a session's virtual byte address (R190). -/
def translate (s : State) (p cl sess va : Nat) (write tentative : Bool) : Walk × State :=
  let x := sessOf s sess
  if (partOf s p).cutSessions.contains sess then (.cut, bump s (K.statTagMismatches p))
  else if va.testBit 28 && decide (bitsOf va 27 23 ≠ 0) then (.badAddress, s)
  else if write && tentative && decide (vaPosition va < x.len) then (.below, s)
  else
    let key := tlbKey sess va
    let cached := kvGet 0 (clusterOf s cl).tlb key
    if eV cached && !(write && eS cached) && !(eP cached) then
      (.phys (frameAddr (eBlock cached) (eFrame cached) + va % 65536) (eGen cached), s)
    else
      let s := if eV cached then s else bump s (K.statTlbMisses p)
      match leafTable s p cl sess va write with
      | (.inl w, s) => (w, s)
      | (.inr t, s) =>
        let idx := bitsOf va 28 16
        let e := readEntry s t idx
        if eP e then (.lost (eBlock e) (eFrame e), s)
        else if eH e then (.notResident, s)
        else
          let got : Option Nat × State :=
            if eV e then (if write && eS e then copyOnWrite (tlbDropEntry s p key) p sess t idx e else (some e, s))
            else if !write then (some 0, s)
            else match drawFrame s p (blockOf cl) x.cls with
              | (some f, s) =>
                let e' := leafEntry (blockOf cl) f (frameOf s (frameKey (blockOf cl) f)).gen (partOf s p).workLap
                (some e', addLease (writeEntry s t idx e') p cl sess va)
              | (none, s) => (none, s)
          match got with
          | (none, s) => (.noPages, s)
          | (some 0, s) => (.unmapped, s)
          | (some e, s) =>
            let s := tlbInsert s cl key e (sess * 2 ^ 19 + bitsOf va 47 29) t
            (.phys (frameAddr (eBlock e) (eFrame e) + va % 65536) (eGen e), s)

/-- Does the frame of a translated access still carry its generation? (R193) -/
def genOk (s : State) (addr : Nat) (gen : Nat) : Bool :=
  (frameOf s (frameKey (addr / 2 ^ 37) (addr % 2 ^ 37 / 65536))).gen == gen

/-- A draw found no frame: the session is marked and its lane's abort bit set (R196). -/
def noPages (s : State) (p ci sess : Nat) : State :=
  let s := bump s (K.statKvAllocFailures p)
  let s := updSess s sess (fun x => { x with
    abortStatus := some ((x.abortStatus).getD 0x0E), excused := x.excused || decide (x.cls = 0) })
  setAbort s ci sess

/-! ## Over a session's whole table -/

/-- The leaf tables of a session: (L2 table, index, entry). -/
def leafTables (s : State) (sess : Nat) : List (Nat × Nat × Nat) :=
  ((sessOf s sess).root.filter (fun r => eV r.2)).flatMap (fun r =>
    let t := frameAddr (eBlock r.2) (eFrame r.2)
    (tableEntries s t).map (fun e => (t, e.1, e.2)))

/-- Every leaf entry of a session held in a stack: (leaf table, index, entry, virtual page number). -/
def leafEntries (s : State) (sess : Nat) : List (Nat × Nat × Nat × Nat) :=
  ((sessOf s sess).root.filter (fun r => eV r.2)).flatMap (fun r =>
    (tableEntries s (frameAddr (eBlock r.2) (eFrame r.2))).flatMap (fun l =>
      if eV l.2 then
        let t := frameAddr (eBlock l.2) (eFrame l.2)
        (tableEntries s t).map (fun e => (t, e.1, e.2, r.1 * 2 ^ 26 + l.1 * 2 ^ 13 + e.1))
      else []))

/-- First position of a leaf index: data pages of 256, scale pages of 8,192 positions (R175, R187). -/
def firstPosition (idx : Nat) : Nat := if idx < 4096 then 256 * idx else 8192 * (idx - 4096)

/-- Free every page and table of a session (R197). -/
def freeSessionPages (s : State) (p sess : Nat) : State :=
  let leaves := leafEntries s sess
  let tables := leafTables s sess
  let roots := (sessOf s sess).root
  let s := leaves.foldl (fun s e => if eV e.2.2.1 then dropFrame s (eBlock e.2.2.1) (eFrame e.2.2.1) else s) s
  let s := tables.foldl (fun s e => if eV e.2.2 then dropFrame s (eBlock e.2.2) (eFrame e.2.2) else s) s
  let s := roots.foldl (fun s r => if eV r.2 then dropFrame s (eBlock r.2) (eFrame r.2) else s) s
  tlbDropSession (updSess s sess (fun x => { x with root := [] })) p sess

/-- Commit a session's pages (R200): of the pages drawn in the laps named, those wholly at or beyond the new
length are reclaimed, and N is cleared on the rest. -/
def settlePagesOf (s : State) (p sess newLen : Nat) (ofLap : Nat → Bool) : State :=
  (leafEntries s sess).foldl (fun s e =>
    let ent := e.2.2.1
    if eV ent && eN ent && ofLap (eLap ent) then
      if firstPosition e.2.1 ≥ newLen then
        let s := dropFrame (writeEntry s e.1 e.2.1 0) (eBlock ent) (eFrame ent)
        bump (tlbDropEntry s p (sess * 2 ^ 32 + e.2.2.2)) (K.statKvPagesReclaimed p)
      else tlbDropEntry (writeEntry s e.1 e.2.1 (setBit ent 2 false)) p (sess * 2 ^ 32 + e.2.2.2)
    else s) s

/-- Commit a session's pages of the work lap. -/
def settlePages (s : State) (p sess newLen : Nat) : State :=
  let key := (partOf s p).workLap % 2 ^ 16
  settlePagesOf s p sess newLen (fun k => k == key)

/-- Would a FORK take any shared frame above 255 sharers? (R177) -/
def forkFits (s : State) (sess len : Nat) : Bool :=
  (leafEntries s sess).all (fun e =>
    !(eV e.2.2.1) || decide (firstPosition e.2.1 ≥ len) ||
      decide ((frameOf s (frameKey (eBlock e.2.2.1) (eFrame e.2.2.1))).sharers < 255))

/-- FORK copies the parent's tables into new table pages and shares every page below the length (R198): the units
drop the parent's cached entries, whose S was clear. The new tables are drawn in the blocks of the old ones; none
where no frame is left. -/
def forkPages (s : State) (p parent child : Nat) : Bool × State :=
  let s := tlbDropSession s p parent
  let x := sessOf s parent
  let y := sessOf s child
  (x.root.filter (fun r => eV r.2)).foldl (fun (acc : Bool × State) r =>
    if !acc.1 then acc else
    let b := eBlock r.2
    match drawTable acc.2 p b y.cls with
    | (none, s) => (false, s)
    | (some f, s) =>
      let s := updSess s child (fun y => { y with root := kvSet 0 y.root r.1 (tableEntry b f) })
      (tableEntries s (frameAddr b (eFrame r.2))).foldl (fun (acc : Bool × State) l =>
        if !acc.1 ∨ !(eV l.2) then acc else
        let lb := eBlock l.2
        match drawTable acc.2 p lb y.cls with
        | (none, s) => (false, s)
        | (some lf, s) =>
          let s := writeEntry s (frameAddr b f) l.1 (tableEntry lb lf)
          let old := frameAddr lb (eFrame l.2)
          (true, (tableEntries s old).foldl (fun s e =>
            if eV e.2 ∧ firstPosition e.1 < x.len then
              let e' := setBit e.2 3 true
              let s := writeEntry (writeEntry s old e.1 e') (frameAddr lb lf) e.1 e'
              updFrame s (frameKey (eBlock e.2) (eFrame e.2)) (fun f => { f with sharers := f.sharers + 1 })
            else s) s)) (true, s)) (true, s)

/-- The leases of a unit expire (R192, R407): entries with N = 1 that it drew are reclaimed, as for an abort. -/
def expireLeases (s : State) (p cl : Nat) : State :=
  let s := (clusterOf s cl).leases.foldl (fun s l =>
    (leafEntries s l.1).foldl (fun s e =>
      let ent := e.2.2.1
      if e.2.2.2 = l.2.1 ∧ eV ent ∧ eN ent then
        tlbDropEntry (dropFrame (writeEntry s e.1 e.2.1 0) (eBlock ent) (eFrame ent)) p (l.1 * 2 ^ 32 + e.2.2.2)
      else s) s) s
  updCluster s cl (fun c => { c with leases := [] })

/-- The sessions that a partition's fenced units held leases for (R54). -/
def fencedSessions (s : State) (p : Nat) : List Nat :=
  (((partOf s p).clusters.filter (fun cl => (clusterOf s cl).fenced)).flatMap (fun cl =>
    (clusterOf s cl).leases.map (·.1))).foldl (fun acc i => insertNat i acc) []

/-- The leases of a partition's fenced units expire (R54). -/
def expireFenced (s : State) (p : Nat) : State :=
  ((partOf s p).clusters.filter (fun cl => (clusterOf s cl).fenced)).foldl (fun s cl => expireLeases s p cl) s

/-- A lap's leases end with it (R406). -/
def endLeases (s : State) (p : Nat) : State :=
  (partOf s p).clusters.foldl (fun s cl => updCluster s cl (fun c => { c with leases := [] })) s

/-- The sessions whose leaf entries map a frame. -/
def sessionsOfFrame (s : State) (b f : Nat) : List Nat :=
  (s.sessions.filter (fun x =>
    (leafEntries s x.1).any (fun e => eV e.2.2.1 && eBlock e.2.2.1 == b && eFrame e.2.2.1 == f))).map (·.1)

/-- An uncorrectable error in a key/value frame (R206): P is set in every entry that maps it, the frame is
withdrawn and recorded, and the sessions end with KV_LOST at the abort baton. -/
def loseFrame (s : State) (p ci b f : Nat) : State :=
  let owners := sessionsOfFrame s b f
  let s := owners.foldl (fun s sess =>
    let s := (leafEntries s sess).foldl (fun s e =>
      if eV e.2.2.1 && eBlock e.2.2.1 == b && eFrame e.2.2.1 == f then
        tlbDropEntry (writeEntry s e.1 e.2.1 (setBit e.2.2.1 4 true)) p (sess * 2 ^ 32 + e.2.2.2)
      else s) s
    let s := updSess s sess (fun x => { x with abortStatus := some ((x.abortStatus).getD 0x0F) })
    setAbort s ci sess) s
  if (frameOf s (frameKey b f)).use = .withdrawn then s
  else
    let s := updFrame s (frameKey b f) (fun x => { x with use := .withdrawn })
    addYield (bump s (K.statKvLost p)) 8 b 1 0 0 f

end Sys2Proof.Machine
end

