-- ==== Sys2Proof/Machine/Attention.lean ====
section
/-! DEFINITION. ATTN (R179 to R186): lanes and rows, pages and their assignment to parts, and the three
operations. Queries and probabilities are quantized to FP8 E4M3, and every sum is a free value within the accumulation
bound of R161, every weight one within SOFTMAX's bound of R162. Scores of partial records are kept in powers of two, as
the merge of R182 reads them. -/

namespace Sys2Proof.Machine

/-- A lane entry (R180). -/
structure LaneEntry where
  session : Nat
  p0 : Nat
  block : Nat
deriving DecidableEq, Repr

def attnDim (a : AttnArgs) : Nat := if a.dim then 64 else 128
def attnHeads (a : AttnArgs) : Nat := a.group.toNat + 1

/-- Lane entries of a command, in order. -/
def laneEntries (s : State) (ci : Nat) (a : AttnArgs) : List LaneEntry :=
  let n := a.lanes.toNat + 1
  let bs := readArea s ci (descOf (coreOf s ci) a.lane) (16 * n)
  (List.range n).map (fun i =>
    { session := fieldLe bs (16 * i) 2, p0 := fieldLe bs (16 * i + 4) 4, block := fieldLe bs (16 * i + 8) 4 })

/-- Is a lane processed? (R179 sel, R181) -/
def laneTaken (a : AttnArgs) (l : LaneEntry) : Bool :=
  decide (l.block ≠ 0) && (if a.sel = 1 then decide (l.block ≤ 8192)
    else if a.sel = 2 then decide (l.block > 8192) else true)

/-- Query positions of a lane on this core (R181). -/
def lanePositions (a : AttnArgs) (l : LaneEntry) : List Nat :=
  (List.range l.block).filterMap (fun i =>
    if !a.split || decide (i / 64 % (a.parts.toNat + 1) = a.part.toNat) then some (l.p0 + i) else none)

/-- The core's rows: lane and query position, one per head (R181). -/
def attnRows (s : State) (ci : Nat) (a : AttnArgs) : List (LaneEntry × Nat) :=
  ((laneEntries s ci a).filter (laneTaken a)).flatMap (fun l =>
    (lanePositions a l).flatMap (fun p => List.replicate (attnHeads a) (l, p)))

/-- First position attended by position p (R180). -/
def windowLow (a : AttnArgs) (p : Nat) : Nat := if a.window = 0 then 0 else p + 1 - a.window.toNat

/-- Is page i of a session this part's? (R182) -/
def pageMine (a : AttnArgs) (sess i : Nat) : Bool :=
  a.split || decide ((i + sess) % (a.parts.toNat + 1) = a.part.toNat)

/-- Pages that some row of a lane attends to and that this core processes. -/
def lanePages (a : AttnArgs) (l : LaneEntry) : List Nat :=
  let ps := lanePositions a l
  match ps.head?, ps.getLast? with
  | some lo, some hi => ((List.range (hi / 256 + 1)).filter (fun i => decide (windowLow a lo / 256 ≤ i) && pageMine a l.session i))
  | _, _ => []

/-- A fetched page: its number, and the key and value of each of its 256 positions. -/
structure FetchedPage where
  page : Nat
  data : List Byte
  scales : List Byte

/-- One key (which = 0) or value (which = 1) element, with its block scale (R175, R176). -/
def kvElem (f : FetchedPage) (pos which elem : Nat) : FV :=
  let code := (getAt 0 f.data (pos % 256 * 256 + which * 128 + elem)).toNat
  let sc := (getAt 0 f.scales (pos % 256 * 8 + which * 4 + elem / 32)).toNat
  FV.mul (decElem .fp8e4 code).1 (decE8M0 sc)

/-- How fetching the pages of one lane ends. -/
inductive Fetch where
  | ok (p : List FetchedPage)
  | fault (code : Nat)

/-- A fetched access: the physical bytes, zeros where a generation is stale or the session is cut out. -/
def fetchBytes (s : State) (p : Nat) (addr gen n : Nat) : List Byte × State :=
  if genOk s addr gen then (memReadN s.stack addr n, s)
  else (List.replicate n 0, bump s (K.statTagMismatches p))

/-- Fetch one page and its scales; none where the page is lost, is not mapped by fault, or met an
uncorrectable error (R206). -/
def fetchPage (s : State) (p ci : Nat) (stream : Nat) (sess page : Nat) (bad : List (Nat × Nat)) :
    (Option FetchedPage ⊕ Nat) × State :=
  let cl := ci / 16
  let va := stream * 2 ^ 29 + page * 65536
  let vs := stream * 2 ^ 29 + 2 ^ 28 + page * 2048
  match translate s p cl sess va false false with
  | (.phys d g, s) =>
    match translate s p cl sess vs false false with
    | (.phys e h, s) =>
      let fd := (d / 2 ^ 37, d % 2 ^ 37 / 65536)
      let fe := (e / 2 ^ 37, e % 2 ^ 37 / 65536)
      if bad.contains fd then (.inl none, loseFrame s p ci fd.1 fd.2)
      else if bad.contains fe then (.inl none, loseFrame s p ci fe.1 fe.2)
      else
        let x := fetchBytes s p d g 65536
        let y := fetchBytes x.2 p e h 2048
        (.inl (some { page, data := x.1, scales := y.1 }), y.2)
    | (.cut, s) => (.inl (some { page, data := [], scales := [] }), s)
    | (.lost b f, s) => (.inl none, loseFrame s p ci b f)
    | (.notResident, s) => (.inr 0x000B, s)
    | (_, s) => (.inr 0x0008, s)
  | (.cut, s) => (.inl (some { page, data := [], scales := [] }), s)
  | (.lost b f, s) => (.inl none, loseFrame s p ci b f)
  | (.notResident, s) => (.inr 0x000B, s)
  | (_, s) => (.inr 0x0008, s)

/-- Fetch a list of pages; a page that is lost is left out. -/
def fetchPages (s : State) (p ci stream sess : Nat) (bad : List (Nat × Nat)) : List Nat → Fetch × State
  | [] => (.ok [], s)
  | i :: r =>
    match fetchPage s p ci stream sess i bad with
    | (.inr c, s) => (.fault c, s)
    | (.inl x, s) =>
      match fetchPages s p ci stream sess bad r with
      | (.fault c, s) => (.fault c, s)
      | (.ok l, s) => (.ok (x.toList ++ l), s)

/-- A row in FP8 E4M3 with a scale for each 32 elements, rounded to nearest-even (R184, R155): the values it then
stands for. -/
def quantFp8 (s : State) (ci : Nat) (row : List FV) : List FV × State :=
  let out := mapSt (fun s (g : List FV) =>
    let sc := (chooseScale .fp8e4 g).2
    let cs := mapSt (fun s (x : FV) => convOne s ci .fp8e4 0 (FV.div x sc)) s g
    (cs.1.map (fun c => FV.mul (decElem .fp8e4 c).1 sc), cs.2)) s (groupsOf 32 (row.length + 1) row)
  (out.1.flatten, out.2)

/-- Elements of a page's attended positions that stand under a NaN scale (R144). -/
def nanElems (a : AttnArgs) (lo hi : Nat) (f : FetchedPage) : Nat :=
  let off := if a.half then 64 else 0
  ((List.range 256).flatMap (fun i =>
    if f.page * 256 + i < lo ∨ hi < f.page * 256 + i then []
    else [0, 1].flatMap (fun which => (List.range (attnDim a / 32)).filter (fun b =>
      getAt 0 f.scales (i * 8 + which * 4 + off / 32 + b) == 255)))).length * 32

/-- Invalid elements that a lane's pages decode. -/
def laneInvalid (a : AttnArgs) (x : LaneEntry × List FetchedPage) : Nat :=
  match (lanePositions a x.1).head?, (lanePositions a x.1).getLast? with
  | some lo, some hi => (x.2.map (nanElems a (windowLow a lo) hi)).foldl (· + ·) 0
  | _, _ => 0

/-- Positions of a page that position p attends to (R180). -/
def attended (a : AttnArgs) (p : Nat) (f : FetchedPage) : List Nat :=
  ((List.range 256).map (f.page * 256 + ·)).filter (fun pos => decide (windowLow a p ≤ pos ∧ pos ≤ p))

/-- One score: the quantized query row against a key, formed as MMA forms it, times the score scale (R181, R184). -/
def scoreOf (s : State) (a : AttnArgs) (q : List FV) (f : FetchedPage) (pos : Nat) : FV × State :=
  let k := (List.range (attnDim a)).map (fun i => kvElem f pos 0 ((if a.half then 64 else 0) + i))
  let x := accumulate s (attnDim a) (dotExact q k).2 (accTerms true q k)
  (rF32 (FV.mul (decBF16 a.scale) x.1), x.2)

/-- One element of the values of some positions of a page. -/
def valuesAt (a : AttnArgs) (f : FetchedPage) (ps : List Nat) (j : Nat) : List FV :=
  ps.map (fun pos => kvElem f pos 1 ((if a.half then 64 else 0) + j))

/-- A score that makes its row NaN (IEEE 754). -/
def badScore (x : FV) : Bool := x.isNaN || decide (x = .inf false)

/-- Weight of a score under a maximum, near exp(score - m) within SOFTMAX's bound for a row of n (R162). -/
def weightNear (n : Nat) (m : FV) (s : State) (x : FV) : FV × State :=
  if x.isFinite then
    let w := fxExp (fxOf x - fxOf m)
    drawNear s w (w / 2 ^ 21 + (n : Int) * (fxEps 24 : Nat))
  else (FV.zero, s)

/-- A row's running state in fused mode: maximum, sum and unnormalised output. -/
structure AttnRun where
  m : FV := .inf true
  l : FV := FV.zero
  o : List FV

/-- A row whose scores are not all numbers. -/
def AttnRun.none (a : AttnArgs) (v : FV) : AttnRun := { m := v, l := v, o := List.replicate (attnDim a) v }

/-- One page of a row in fused mode (R183): the weights of its positions under the running maximum are the probability
row that is quantized, and what the row has summed is rescaled to that maximum. -/
def pageStep (s : State) (ci : Nat) (a : AttnArgs) (q : List FV) (p : Nat) (r : AttnRun) (f : FetchedPage) :
    AttnRun × State :=
  let ps := attended a p f
  if ps = [] ∨ r.m.isNaN then (r, s)
  else
    let sc := mapSt (fun s pos => scoreOf s a q f pos) s ps
    if sc.1.any badScore then (AttnRun.none a (FV.nanOf (q ++ sc.1)), sc.2)
    else
      let m := sc.1.foldl FV.maxV r.m
      let w := mapSt (weightNear ps.length m) sc.2 sc.1
      let lo := ps.headD 0 % 256
      let ph := quantFp8 w.2 ci (List.replicate lo FV.zero ++ w.1)
      let old := if r.m.isFinite then fxVal (fxExp (fxOf r.m - fxOf m)) else FV.zero
      let l := boundedResult ph.2 (FV.add (FV.mul old r.l) (sumFV w.1))
        (accTol (ps.length + 1) (FV.add (FV.mul old r.l) (sumFV w.1)))
      let o := mapSt (fun s (x : FV × Nat) =>
        let y := dotExact (ph.1.drop lo) (valuesAt a f ps x.2)
        let prev := FV.mul old x.1
        boundedResult s (FV.add prev y.1) (accTol (ps.length + 1) (FV.add prev.abs y.2))) l.2 r.o.zipIdx
      ({ m, l := l.1, o := o.1 }, o.2)

/-- A row over its fetched pages in fused mode, its query quantized. -/
def runRow (s : State) (ci : Nat) (a : AttnArgs) (q : List FV) (pages : List FetchedPage) (p : Nat) : AttnRun × State :=
  let y := quantFp8 s ci q
  pages.foldl (fun acc f => pageStep acc.2 ci a y.1 p acc.1 f) ({ o := List.replicate (attnDim a) FV.zero }, y.2)

/-- One row of op 0 in fused mode. A row of which no page is left, all of them lost, is zeros. -/
def fullRow (s : State) (ci : Nat) (a : AttnArgs) (q : List FV) (pages : List FetchedPage) (p : Nat) : List FV × State :=
  let r := runRow s ci a q pages p
  if r.1.m = .inf true then (r.1.o, r.2)
  else mapSt (fun s (x : FV) =>
    let y := FV.div x r.1.l
    boundedResult s y (fxOf y.abs / 2 ^ 22)) r.2 r.1.o

/-- A row of op 0 in two-pass mode (R183): its m and l, and its output. The first pass finds m and l; in the second the
scores stand in BF16, are normalised in place, quantized page by page and multiplied by the values. -/
def twoPassRow (s : State) (ci : Nat) (a : AttnArgs) (q : List FV) (pages : List FetchedPage) (p : Nat) :
    (FV × FV × List FV) × State :=
  let y := quantFp8 s ci q
  let live := pages.filter (fun f => attended a p f ≠ [])
  let n := (live.map (fun f => (attended a p f).length)).foldl (· + ·) 0
  let sc := mapSt (fun s (f : FetchedPage) => mapSt (fun s pos => scoreOf s a y.1 f pos) s (attended a p f)) y.2 live
  if sc.1.any (fun l => l.any badScore) then
    let v := FV.nanOf (y.1 ++ sc.1.flatten)
    ((v, v, List.replicate (attnDim a) v), sc.2)
  else
    let m := sc.1.flatten.foldl FV.maxV (.inf true)
    let w := mapSt (weightNear n m) sc.2 sc.1.flatten
    let l := boundedResult w.2 (sumFV w.1) (accTol n (sumFV w.1))
    let ph := mapSt (fun s (x : List FV × FetchedPage) =>
      let ps := mapSt (fun s (v : FV) =>
        let b := decBF16 (BitVec.ofNat 16 (encElem .bf16 .nearestEven v).1)
        let e := fxDiv (if b.isFinite then fxExp (fxOf b - fxOf m) else 0) (fxOf l.1)
        let z := drawNear s e (e / 2 ^ 21 + (n : Int) * (fxEps 24 : Nat))
        (decBF16 (BitVec.ofNat 16 (encElem .bf16 .nearestEven z.1).1), z.2)) s x.1
      let lo := (attended a p x.2).headD 0 % 256
      let z := quantFp8 ps.2 ci (List.replicate lo FV.zero ++ ps.1)
      (z.1.drop lo, z.2)) l.2 (sc.1.zip live)
    let o := mapSt (fun s (j : Nat) =>
      let x := dotExact ph.1.flatten (live.flatMap (fun f => valuesAt a f (attended a p f) j))
      boundedResult s x.1 (accTol n x.2)) ph.2 (List.range (attnDim a))
    ((m, l.1, o.1), o.2)

/-- One record of op 1: O, m, l as FP32 words, the maximum in powers of two as the merge reads it (R182). -/
def partialRow (s : State) (ci : Nat) (a : AttnArgs) (q : List FV) (pages : List FetchedPage) (p : Nat) :
    List W32 × State :=
  let r := runRow s ci a q pages p
  let m := if r.1.m.isFinite then
      let x := fxMul (fxOf r.1.m) fxLog2e
      drawNear r.2 x ((x.natAbs : Int) / 2 ^ 22)
    else (r.1.m, r.2)
  (r.1.o.map (fun x => encF32 x) ++ [encF32 m.1, encF32 r.1.l], m.2)

/-- Merge the records of one row (R182). A record whose m is -Inf weighs nothing; where all are, O is 0/0, which the
manual does not state, and is a free value. -/
def mergeRow (s : State) (a : AttnArgs) (recs : List (List FV)) : List FV × State :=
  let d := attnDim a
  let ms := recs.map (fun r => getAt FV.zero r d)
  let live := recs.filter (fun r => getAt FV.zero r d != .inf true)
  if ms.any badScore then (List.replicate d (FV.nanOf ms), s)
  else match live with
  | [] => mapSt (fun s _ => let x := drawFree s; (decF32 (Config.freeF32 x.1), x.2)) s (List.range d)
  | _ =>
    let m := ms.foldl FV.maxV (.inf true)
    let ws := live.map (fun r => fxVal (fxExp2 (fxOf (getAt FV.zero r d) - fxOf m)))
    let l := dotExact ws (live.map (fun r => getAt FV.zero r (d + 1)))
    mapSt (fun s (i : Nat) =>
      let o := dotExact ws (live.map (fun r => getAt FV.zero r i))
      let y := FV.div o.1 l.1
      boundedResult s y (accTol (2 * recs.length + 4) (FV.div o.2 l.1).abs)) s (List.range d)

/-- The staging area holds the last two pages fetched: 1,024 data granules, then 32 scale granules each. -/
def stagePages (s : State) (ci : Nat) (a : AttnArgs) (pages : List FetchedPage) : State :=
  let d := descOf (coreOf s ci) a.kvbuf
  let pad (f : FetchedPage) : List Byte := padTo 65536 f.data ++ padTo 2048 f.scales
  match pages.reverse with
  | [] => s
  | [x] => writeArea s ci d (pad x)
  | x :: y :: _ => if pages.length % 2 = 0 then writeArea s ci d (pad y ++ pad x) else writeArea s ci d (pad x ++ pad y)

/-- Fetch for every processed lane, in order; a fault stops the command. -/
def fetchLanes (s : State) (p ci : Nat) (a : AttnArgs) (bad : List (Nat × Nat)) :
    List LaneEntry → (List (LaneEntry × List FetchedPage) ⊕ Nat) × State
  | [] => (.inl [], s)
  | l :: r =>
    match fetchPages s p ci a.stream.toNat l.session bad (lanePages a l) with
    | (.fault c, s) => (.inr c, s)
    | (.ok pages, s) =>
      match fetchLanes s p ci a bad r with
      | (.inr c, s) => (.inr c, s)
      | (.inl rest, s) => (.inl ((l, pages) :: rest), s)

/-- The fetched pages of a lane. -/
def pagesOf (x : List (LaneEntry × List FetchedPage)) (l : LaneEntry) : List FetchedPage :=
  ((x.find? (fun e => e.1 == l)).map (·.2)).getD []

/-- What ATTN reads and writes in scratch. -/
def attnUses (s : State) (ci : Nat) (op : BitVec 2) (a : AttnArgs) : List Use :=
  let c := coreOf s ci
  let rows := (attnRows s ci a).length
  let d := attnDim a
  let q := if op = 2 then useOf c a.q false (rows * (a.parts.toNat + 1) * (d + 2) * 4) else rowsUse c a.q false rows d
  let o := if op = 1 then rawUse c a.out true rows ((d + 2) * 4) else rowsUse c a.out true rows d
  q ++ useOf c a.lane false (16 * (a.lanes.toNat + 1)) ++ o ++
    (if op = 2 then [] else useOf c a.kvbuf true (2112 * 64)) ++
    (if op = 0 ∧ ((laneEntries s ci a).filter (laneTaken a)).any (fun l => decide (l.block > 8192)) then
      useOf c a.work true (64 * areaGranules (descOf c a.work)) else [])

/-- ATTN op 0 (R181, R183): fused, or two-pass for blocks beyond 8,192 positions. A two-pass lane leaves each of its
rows' m and l in the work area, in row order; the rest of the area, where the score tiles stood, is free values. -/
def effAttnFull (s : State) (p ci idx : Nat) (a : AttnArgs) (bad : List (Nat × Nat)) : State :=
  let lanes := (laneEntries s ci a).filter (laneTaken a)
  if !a.split && lanes.any (fun l => decide (l.block > 8192)) then
    raiseFault (recordCore s p ci 0 idx) p 0x0008 (ci / 16)
  else
    match fetchLanes s p ci a bad lanes with
    | (.inr c, s) => raiseFault s p c (ci / 16)
    | (.inl pages, s) =>
      let c := coreOf s ci
      let rows := attnRows s ci a
      let qs := (readRows s ci (descOf c a.q) rows.length (attnDim a)).1
      let s := countInvalid s ((pages.map (laneInvalid a)).foldl (· + ·) 0)
      let out := mapSt (fun s (e : (LaneEntry × Nat) × Nat) =>
        if e.1.1.block > 8192 then
          let x := twoPassRow s ci a (rowOf qs e.2) (pagesOf pages e.1.1) e.1.2
          ((x.1.2.2, natLe (encF32 x.1.1).toNat 4 ++ natLe (encF32 x.1.2.1).toNat 4), x.2)
        else
          let x := fullRow s ci a (rowOf qs e.2) (pagesOf pages e.1.1) e.1.2
          ((x.1, []), x.2)) s rows.zipIdx
      let s := stagePages out.2 ci a (pages.flatMap (·.2))
      let two := (lanes.filter (fun l => decide (l.block > 8192))).length
      let s := if two = 0 then s else bump s (K.statAttnTwoPass p) two
      let s := if two = 0 ∨ a.work = noDesc then s
        else
          let ml := out.1.flatMap (·.2)
          let d := descOf c a.work
          let rest := 64 * areaGranules d - ml.length
          writeArea { s with free := s.free + rest } ci d
            (ml ++ (List.range rest).map (fun i => Config.freeByte (s.free + i)))
      storeRows s ci (descOf c a.out) 0 (attnDim a) (out.1.map (·.1))

/-- ATTN op 1 (R182): one partial record per row. -/
def effAttnPartial (s : State) (p ci : Nat) (a : AttnArgs) (bad : List (Nat × Nat)) : State :=
  let lanes := (laneEntries s ci a).filter (laneTaken a)
  match fetchLanes s p ci a bad lanes with
  | (.inr c, s) => raiseFault s p c (ci / 16)
  | (.inl pages, s) =>
    let c := coreOf s ci
    let rows := attnRows s ci a
    let qs := (readRows s ci (descOf c a.q) rows.length (attnDim a)).1
    let s := countInvalid s ((pages.map (laneInvalid a)).foldl (· + ·) 0)
    let out := mapSt (fun s (e : (LaneEntry × Nat) × Nat) =>
      partialRow s ci a (rowOf qs e.2) (pagesOf pages e.1.1) e.1.2) s rows.zipIdx
    let s := stagePages out.2 ci a (pages.flatMap (·.2))
    writeRawRows s ci (descOf c a.out) ((attnDim a + 2) * 4) (out.1.map (fun r => r.flatMap (fun w => natLe w.toNat 4)))

/-- ATTN op 2 (R182): merge the records of all parts. -/
def effAttnMerge (s : State) (ci : Nat) (a : AttnArgs) : State :=
  let c := coreOf s ci
  let n := (attnRows s ci a).length
  let d := attnDim a
  let parts := a.parts.toNat + 1
  let bytes := readArea s ci (descOf c a.q) (n * parts * (d + 2) * 4)
  let out := mapSt (fun s (r : Nat) =>
    mergeRow s a ((List.range parts).map (fun k => (List.range (d + 2)).map (fun i =>
      decF32 (BitVec.ofNat 32 (fieldLe bytes ((((r * parts + k) * (d + 2)) + i) * 4) 4)))))) s (List.range n)
  storeRows out.2 ci (descOf c a.out) 0 d out.1

end Sys2Proof.Machine
end

