-- ==== Sys2Proof/Machine/Completions.lean ====
section
/-! DEFINITION. Status codes (R248), and the forming of a completion (R245): it joins its completion ring's
list of completions not yet posted. -/

namespace Sys2Proof.Machine

/-! ## Status codes (R248) -/

def stSuccess : Nat := 0x00
def stInvalidOpcode : Nat := 0x01
def stInvalidField : Nat := 0x02
def stNoSession : Nat := 0x03
def stSessionBusy : Nat := 0x04
def stSessionState : Nat := 0x05
def stSessionEvicted : Nat := 0x06
def stSessionAccess : Nat := 0x07
def stClassDenied : Nat := 0x08
def stPartitionState : Nat := 0x09
def stPartitionFaulted : Nat := 0x0A
def stCancelled : Nat := 0x0B
def stContextFull : Nat := 0x0C
def stForkLimit : Nat := 0x0D
def stKvNoPages : Nat := 0x0E
def stKvLost : Nat := 0x0F
def stKvIntegrity : Nat := 0x10
def stKvSwapFull : Nat := 0x11
def stHostAccess : Nat := 0x12
def stWeightAccess : Nat := 0x13
def stWeightShape : Nat := 0x14
def stWeightUnavailable : Nat := 0x15
def stWeightLimit : Nat := 0x16
def stWeightDuplicate : Nat := 0x17
def stWeightBusy : Nat := 0x18
def stWeightSignature : Nat := 0x19
def stWeightNoSpace : Nat := 0x1A
def stWeightDigest : Nat := 0x1B
def stWeightChanged : Nat := 0x1C
def stWeightLost : Nat := 0x1D
def stFlipGap : Nat := 0x1E
def stBlockLost : Nat := 0x1F
def stFenced : Nat := 0x20
def stMirrorLost : Nat := 0x21
def stSessionLimit : Nat := 0x22

/-- The parts of a completion that its command decides. -/
structure Done where
  tag : Nat
  opcode : Nat
  status : Nat
  session : Nat := 0xFFFF
  flags : Nat := 0
  result : List Byte := []
  recordSession : Option Nat := none
  records : Nat := 0
  ending : Bool := false
deriving DecidableEq, Repr

/-- Place of the next completion in the order of forming: above that of every completion not yet posted. -/
def nextPlace (s : State) : Nat :=
  s.compRings.foldl (fun n r => r.2.ready.foldl (fun n c => Nat.max n (c.place + 1)) n) 0

/-- Form the completion of a command of a submission ring: it goes to the ring's completion ring with the
ring's fetch position, and the command is no longer outstanding (R240, R245). -/
def complete (s : State) (ring : Nat) (d : Done) : State :=
  let q := subOf s ring
  let c : Compl := {
    tag := d.tag, opcode := d.opcode, status := d.status, sq := ring, sqHead := q.fetch
    session := d.session, flags := d.flags, result := d.result
    recordSession := d.recordSession, records := d.records, place := nextPlace s, ending := d.ending }
  let s := setSub s ring { q with outstanding := q.outstanding - 1 }
  updComp s q.cq (fun x => { x with ready := x.ready ++ [c] })

/-- An unsolicited completion of a session's end (R245). -/
def completeUnsolicited (s : State) (ring session status records : Nat) : State :=
  let q := subOf s ring
  let c : Compl := {
    tag := 0xFFFF, opcode := 0, status, sq := ring, sqHead := q.fetch, session, flags := 6, result := []
    recordSession := some session, records, place := nextPlace s, ending := true }
  updComp s q.cq (fun x => { x with ready := x.ready ++ [c] })

end Sys2Proof.Machine
end

