-- ==== Sys2Proof/Machine/Sha3.lean ====
section
/-! DEFINITION. SHA3-512, the digest of bundles, chunks, evicted images and firmware (R203, R209, R210,
R446). The manual names the function and does not define it; its definition here is that of the published
standard (PRESUMED, notes/assumptions). -/

namespace Sys2Proof.Machine

def keccakRot : List Nat :=
  [0, 1, 62, 28, 27, 36, 44, 6, 55, 20, 3, 10, 43, 25, 39, 41, 45, 15, 21, 8, 18, 2, 61, 56, 14]

def keccakRc : List W64 :=
  [0x1#64, 0x8082#64, 0x800000000000808A#64, 0x8000000080008000#64, 0x808B#64, 0x80000001#64,
   0x8000000080008081#64, 0x8000000000008009#64, 0x8A#64, 0x88#64, 0x80008009#64, 0x8000000A#64,
   0x8000808B#64, 0x800000000000008B#64, 0x8000000000008089#64, 0x8000000000008003#64,
   0x8000000000008002#64, 0x8000000000000080#64, 0x800A#64, 0x800000008000000A#64,
   0x8000000080008081#64, 0x8000000000008080#64, 0x80000001#64, 0x8000000080008008#64]

/-- Lane (x, y) of the 25-lane state. -/
def lane (a : List W64) (x y : Nat) : W64 := getAt 0 a (x % 5 + 5 * (y % 5))

def overLanes (f : Nat → Nat → W64) : List W64 := (List.range 25).map (fun i => f (i % 5) (i / 5))

/-- One round of the permutation: column parities, rotation and transposition, the nonlinear row step. -/
def keccakRound (a : List W64) (rc : W64) : List W64 :=
  let col := (List.range 5).map (fun x => lane a x 0 ^^^ lane a x 1 ^^^ lane a x 2 ^^^ lane a x 3 ^^^ lane a x 4)
  let mix := (List.range 5).map (fun x => getAt 0 col ((x + 4) % 5) ^^^ (getAt 0 col ((x + 1) % 5)).rotateLeft 1)
  let a := overLanes (fun x y => lane a x y ^^^ getAt 0 mix x)
  -- the lane that comes to (x, y) is lane (x + 3 y, x) of before
  let b := overLanes (fun x y => (lane a (x + 3 * y) x).rotateLeft (getAt 0 keccakRot ((x + 3 * y) % 5 + 5 * x)))
  let c := overLanes (fun x y => lane b x y ^^^ (~~~ (lane b (x + 1) y) &&& lane b (x + 2) y))
  setAt c 0 (getAt 0 c 0 ^^^ rc)

/-- Absorb one block of 72 bytes. -/
def sha3Absorb (a : List W64) (block : List Byte) : List W64 :=
  let a := a.zipIdx.map (fun e => if e.2 < 9 then e.1 ^^^ BitVec.ofNat 64 (fieldLe block (8 * e.2) 8) else e.1)
  keccakRc.foldl keccakRound a

def sha3Blocks : Nat → List Byte → List (List Byte)
  | 0, _ => []
  | n + 1, bs => bs.take 72 :: sha3Blocks n (bs.drop 72)

/-- The 64-byte digest of a byte string. -/
def sha3 (bs : List Byte) : List Byte :=
  let n := bs.length / 72 + 1
  let pad := n * 72 - bs.length
  let tail : List Byte := if pad = 1 then [0x86] else 0x06 :: (List.replicate (pad - 2) 0 ++ [0x80])
  let a := (sha3Blocks n (bs ++ tail)).foldl sha3Absorb (List.replicate 25 0)
  (a.take 8).flatMap (fun w => natLe w.toNat 8)

end Sys2Proof.Machine
end

