-- ==== Sys2Proof/Machine/Weights.lean ====
section
/-! DEFINITION. Weight sets (R209 to R237): staging, the relay, unloading and wiping, quarantine, refetch
and loss of pieces. -/

namespace Sys2Proof.Machine

/-! ## Bundles (R209 to R211) -/

def chunkBytes : Nat := 16777216
def piecesPerChunk : Nat := 256

def hField (h : BundleHead) (off len : Nat) : Nat := fieldLe h.headerBytes off len

/-- The 8 bytes of a placement entry. -/
def placementBytes (x : Placement) : List Byte :=
  natLe x.first 4 ++ natLe x.pieces 2 ++ natLe x.block 1 ++ [0]

/-- The set's measurement (R210). -/
def measure (h : BundleHead) : List Byte :=
  sha3 (h.headerBytes ++ h.digests.flatMap (fun d => d) ++ h.placements.flatMap placementBytes)

/-! ## Operator keys (R441, R443) -/

/-- The operator key table: entries of 2,600 bytes. -/
def operatorKeys (s : State) : List (List Byte) :=
  let v := domGet s K.secOperatorKeys
  (List.range (v.length / 2600)).map (fun i => slice v (2600 * i) 2600)

/-- A key_id: bytes 0 to 7 of the digest of the public key. -/
def keyIdOf (pub : List Byte) : List Byte := (sha3 pub).take 8

/-- Usage bits of the operator key of a key_id. -/
def keyUsage (s : State) (keyId : List Byte) : Option Nat :=
  ((operatorKeys s).find? (fun e => keyIdOf (e.drop 8) == keyId)).map (fun e => fieldLe e 0 1)

/-- Does the key that a bundle's header names sign weight sets: is it in the table, with usage bit 3 (R210, R443)? -/
def setKeyOk (s : State) (h : BundleHead) : Bool :=
  match keyUsage s (slice h.headerBytes 32 8) with
  | some u => u.testBit 3
  | none => false

/-- Do the runs cover pieces [from, n) once, in ascending order? -/
def runsCover (n : Nat) : Nat → List Placement → Bool
  | at_, [] => at_ == n
  | at_, x :: r => x.first == at_ && decide (1 ≤ x.pieces) && decide (x.block < 144 ∨ x.block = 0xFF) &&
      runsCover n (at_ + x.pieces) r

/-- Is a header good, its limits apart (R209)? -/
def headerGood (h : BundleHead) : Bool :=
  let image := hField h 16 8
  h.headerBytes.length == 256 &&
    slice h.headerBytes 0 4 == asciiBytes "VWS1" && hField h 4 2 == 1 && decide (hField h 6 1 ≤ 1) &&
    hField h 7 1 == 0 && hField h 72 184 == 0 && image % 65536 == 0 &&
    hField h 24 4 == ceilDiv image chunkBytes && hField h 28 4 == h.placements.length &&
    decide (1 ≤ h.placements.length ∧ h.placements.length ≤ 65535) &&
    h.digests.length == hField h 24 4 && runsCover (image / 65536) 0 h.placements

/-- Image limit (R211). -/
def imageLimit : Nat := 137438953472

/-- Preferred block of a piece. -/
def preferred (w : WSet) (piece : Nat) : Nat :=
  match w.head with
  | none => 0xFF
  | some h => (h.placements.find? (fun x => decide (x.first ≤ piece ∧ piece < x.first + x.pieces))).map (·.block)
      |>.getD 0xFF

/-! ## The weight regions (R212, R213) -/

/-- Frames of a block's weight region; the model places the region at the foot of the stack. -/
def regionFrames (s : State) (b : Nat) : Nat := domField s K.wtRegionFrames (4 * b) 4

/-- Frames of a block's region that are taken or withdrawn, in rising order. -/
def regionUsed (s : State) (b : Nat) : List Nat :=
  (s.frames.filter (fun e => decide (e.1 / 2 ^ 21 = b ∧ e.1 % 2 ^ 21 < regionFrames s b ∧ e.2.use ≠ .free))).map
    (fun e => e.1 % 2 ^ 21)

def regionFree (s : State) (b : Nat) : Nat := regionFrames s b - (regionUsed s b).length

/-- Key of a frame's entry. -/
def weightFrameKey (b f : Nat) : Nat := b * 2 ^ 21 + f

/-- Take the lowest free frame of a block's region. -/
def takeRegion (s : State) (b : Nat) : Nat × State :=
  let f := (regionUsed s b).foldl (fun c x => if x = c then c + 1 else c) 0
  (f, stackOn (requestWake (updFrame s (weightFrameKey b f) (fun x => { x with use := .weight })) b) b)

/-- A frame of a region returns to it (R221). -/
def freeRegion (s : State) (b f : Nat) : State :=
  updFrame s (weightFrameKey b f) (fun x => if x.use = .weight then { x with use := .free } else x)

/-- The block in which a piece goes (R213), `avoid` excepted: its preferred one, or the available block
with most free region frames, the lower number on a tie. -/
def chooseBlock (s : State) (pref : Nat) (avoid : Nat → Bool) : Option Nat :=
  let ok (b : Nat) : Bool := !(blockUnavailable s b) && !(avoid b) && decide (0 < regionFree s b)
  if pref < blockCount && ok pref then some pref
  else (List.range blockCount).foldl (fun (best : Option Nat) b =>
    if !(ok b) then best
    else match best with
      | none => some b
      | some c => if regionFree s c < regionFree s b then some b else best) none

/-- Reserve a frame for a piece, not yet readable. -/
def placePiece (s : State) (set piece : Nat) : Option State :=
  let w := wsetOf s set
  let pref := preferred w piece
  match chooseBlock s pref (fun _ => false) with
  | none => none
  | some b =>
    let x := takeRegion s b
    some (updWset x.2 set (fun w => { w with
      table := kvSet 0 w.table piece (pieceEntry b x.1 - 1)
      misplaced := if pref < blockCount ∧ pref ≠ b then insertNat piece w.misplaced
        else w.misplaced.filter (· ≠ piece) }))

/-- Reserve every piece of a list. -/
def placePieces (s : State) (set : Nat) : List Nat → Option State
  | [] => some s
  | x :: r =>
    match placePiece s set x with
    | none => none
    | some s => placePieces s set r

/-- Frames of one copy of the piece table. -/
def tableFrames (w : WSet) : Nat := ceilDiv (8 * w.pieces) 65536

/-- Take `n` frames of one block. -/
def takeFrames (s : State) (b : Nat) : Nat → List Nat × State
  | 0 => ([], s)
  | n + 1 =>
    let x := takeRegion s b
    let y := takeFrames x.2 b n
    (x.1 :: y.1, y.2)

/-- Write one copy of the piece table in a block of another die than those in use (R409). -/
def placeCopy (s : State) (set : Nat) : Option State :=
  let w := wsetOf s set
  let n := tableFrames w
  match chooseBlock s 0xFF (fun b =>
      w.copies.any (fun c => dieOfBlock c.1 == dieOfBlock b) || decide (regionFree s b < n)) with
  | none => none
  | some b =>
    let x := takeFrames s b n
    some (updWset x.2 set (fun w => { w with copies := w.copies ++ [(b, x.1)] }))

/-- The pieces for which frames are taken, with their entries: all of them from LOADING on. -/
def placedPieces (w : WSet) : List (Nat × Nat) :=
  if w.state = .empty ∨ w.state = .verifying then []
  else (List.range w.pieces).map (fun p => (p, kvGet 0 w.table p))

/-- Return every frame of a set to its region; what the frames hold is the caller's matter. -/
def releaseFrames (s : State) (set : Nat) : State :=
  let w := wsetOf s set
  let s := (placedPieces w).foldl (fun s e => freeRegion s (pBlock e.2) (pFrame e.2)) s
  let s := w.copies.foldl (fun s c => c.2.foldl (fun s f => freeRegion s c.1 f) s) s
  updWset s set (fun w => { w with table := [], copies := [], misplaced := [] })

/-! ## Ends of a stage (R221) -/

/-- Post the completion of a stage, if one is outstanding. -/
def finishStage (s : State) (set status result : Nat) : State :=
  match (wsetOf s set).stage with
  | none => s
  | some (ring, tag) =>
    let s := updWset s set (fun w => { w with stage := none })
    complete s ring { tag, opcode := 0x20, status, result := natLe result 2 }

/-- The result of a stage or relay is recorded (R432). -/
def recordSet (s : State) (set status piece : Nat) : State :=
  recordEvent s {
    code := 0x6000, source := mpSource s
    payload := natLe set 2 ++ natLe status 1 ++ natLe piece 4 }

/-- A set becomes EMPTY: nothing of it is kept. -/
def emptySet (s : State) (set : Nat) : State := setWset s set {}

/-- Leave VERIFYING without loading: reserved frames go back, and the stage completes. -/
def failVerify (s : State) (set status result : Nat) : State :=
  let s := finishStage (recordSet s set status 0) set status result
  emptySet (releaseFrames s set) set

/-- A set goes to WIPING. -/
def startWipe (s : State) (set : Nat) : State :=
  updWset s set (fun w => { w with state := .wiping, stage := none, quarantine := [], unplaced := [] })

/-- Leave LOADING without success. -/
def failLoad (s : State) (set status : Nat) : State :=
  startWipe (finishStage (recordSet s set status 0) set status set) set

/-- Sets whose owner is lost go once nothing is bound to them (R221). -/
def dropUnowned (s : State) : State :=
  (s.sets.filter (fun e => e.2.ownerLost && (decide (e.2.state = .loaded) || decide (e.2.state = .damaged)))).foldl
    (fun s e => if bindCount s e.1 = 0 then startWipe s e.1 else s) s

/-! ## The relay tree (R223) -/

/-- May a message leave in a direction (0 +X, 1 -X, 2 +Y, ...) and stay in the relay box? -/
def inBox (s : State) (dir : Nat) : Bool :=
  let axis := dir / 2
  let box := domGet s K.relayRelayBox
  let dim := Nat.max 1 (domField s K.fabTorusDims axis 1)
  let off := (domField s K.fabTorusPosition axis 1 + dim - fieldLe box axis 1 % dim) % dim
  let ext := fieldLe box (3 + axis) 1
  if dir % 2 = 0 then decide (off + 1 < ext) else decide (0 < off ∧ off < ext)

/-- Directions in which a module sends on what reached it travelling in `dir`; none is the source. -/
def relayDirs (s : State) (dir : Option Nat) : List Nat :=
  let own := match dir with
    | none => [0, 1]
    | some d => [d]
  let axis := match dir with
    | none => 0
    | some d => d / 2
  let turn := (if axis < 1 then [2, 3] else []) ++ (if axis < 2 then [4, 5] else [])
  (own ++ turn).filter (inBox s)

/-- Forward a chunk. -/
def forwardChunk (s : State) (set chunk : Nat) (data : List Byte) (dir : Option Nat) : State :=
  let dirs := relayDirs s dir
  if dirs = [] then s
  else bump (emit s (.relayChunk set chunk data dirs)) K.relayChunksForwarded

/-! ## Staging (R219 to R221) -/

/-- Is another base set of this measurement on the module (R211)? -/
def duplicateOf (s : State) (set : Nat) (m : List Byte) : Option Nat :=
  (s.sets.find? (fun e => decide (e.1 ≠ set) && e.2.kind == 0 && e.2.measurement == m &&
    (decide (e.2.state = .loading) || decide (e.2.state = .loaded) || decide (e.2.state = .damaged)))).map (·.1)

/-- What the header gives the set. -/
def takeHeader (s : State) (set : Nat) (h : BundleHead) : State :=
  updWset s set (fun w => { w with
    head := some h, kind := hField h 6 1, shapeId := hField h 8 8, imageBytes := hField h 16 8
    pieces := hField h 16 8 / 65536, measurement := measure h
    owner := if hField h 6 1 = 1 then w.owner else 0xFF })

/-- STAGE_HEADER_READ: order 1 of R220. -/
def effStageHeader (s : State) (set : Nat) (head : Option BundleHead) : State :=
  let w := wsetOf s set
  if w.state ≠ .verifying ∨ w.head ≠ none ∨ w.relayedIn then s
  else match head with
    | none => failVerify (bump s K.pcieHostReadErrors) set stHostAccess set
    | some h =>
      if hField h 16 8 > imageLimit then failVerify s set stWeightLimit set
      else if !(headerGood h) then failVerify s set stWeightSignature set
      else if hField h 6 1 = 0 ∧ w.owner % 64 ≠ 0 then failVerify s set stWeightAccess set
      else match (if hField h 6 1 = 0 then duplicateOf s set (measure h) else none) with
        | some other => failVerify s set stWeightDuplicate other
        | none => takeHeader s set h

/-- Reserve frames for every piece and for the two copies of the piece table (R220 order 3). -/
def reserveSet (s : State) (set : Nat) : Option State :=
  match placePieces s set (List.range (wsetOf s set).pieces) with
  | none => none
  | some s =>
    match placeCopy s set with
    | none => none
    | some s => placeCopy s set

/-- The bytes of a chunk. -/
def chunkLen (w : WSet) (chunk : Nat) : Nat := Nat.min chunkBytes (w.imageBytes - chunk * chunkBytes)

/-- Where the image begins in the bundle (R209). -/
def imageOffset (h : BundleHead) : Nat :=
  ceilDiv (256 + 64 * h.digests.length + 8 * h.placements.length + 4627) 65536 * 65536

/-- Begin the read of a chunk from the bundle. -/
def askChunk (s : State) (set chunk : Nat) : State :=
  let w := wsetOf s set
  match w.head with
  | none => s
  | some h => emit s (.hostRead w.port (w.addr + imageOffset h + chunk * chunkBytes) (chunkLen w chunk))

/-- Write the pieces of a chunk into their frames; they become readable (R210). -/
def writeChunk (s : State) (set chunk : Nat) (data : List Byte) : State :=
  (List.range (ceilDiv data.length 65536)).foldl (fun s i =>
    let piece := chunk * piecesPerChunk + i
    let e := kvGet 0 (wsetOf s set).table piece
    let e := if pV e then e else e + 1
    let addr := pBlock e * 2 ^ 37 + pFrame e * 65536
    let s := { s with stack := memWriteN s.stack addr (slice data (65536 * i) 65536) }
    updWset s set (fun w => { w with table := kvSet 0 w.table piece e })) s

/-- Is a chunk the right length and its digest good? -/
def chunkGood (w : WSet) (chunk : Nat) (data : List Byte) : Bool :=
  match w.head with
  | none => false
  | some h => data.length == chunkLen w chunk && sha3 data == getAt [] h.digests chunk

/-- The chunk to read next: those to read again first, else the next of the image. -/
def nextChunk (w : WSet) : Option Nat :=
  match w.reread with
  | c :: _ => some c
  | [] => if w.chunk * chunkBytes < w.imageBytes then some w.chunk else none

/-- The chunk read last has been kept. -/
def chunkDone (w : WSet) : WSet :=
  match w.reread with
  | _ :: r => { w with reread := r, again := false }
  | [] => { w with chunk := w.chunk + 1, again := false }

/-- All chunks have passed: the set is LOADED and its stage completes (R220 order 5). -/
def setLoaded (s : State) (set : Nat) : State :=
  let s := updWset s set (fun w => { w with state := .loaded })
  dropUnowned (finishStage (recordSet s set stSuccess 0) set stSuccess set)

/-- WEIGHT_CHUNK_READ: order 4 of R220. -/
def effChunk (s : State) (set chunk : Nat) (data : ChunkIn) : State :=
  let w := wsetOf s set
  if w.state ≠ .loading ∨ w.relayedIn ∨ nextChunk w ≠ some chunk then s
  else match data with
    | .hostError => failLoad (bump s K.pcieHostReadErrors) set stHostAccess
    | .bytes d =>
      if !(chunkGood w chunk d) then
        if w.again then failLoad s set stWeightDigest
        else askChunk (updWset s set (fun w => { w with again := true })) set chunk
      else
        let s := writeChunk s set chunk d
        let s := if w.relaySource ∧ w.reread = [] then forwardChunk s set chunk d none else s
        let s := updWset s set chunkDone
        match nextChunk (wsetOf s set) with
        | none => setLoaded s set
        | some c => askChunk s set c

/-! ## Receiving a relay (R224, R225) -/

/-- Frames of a transit buffer: two chunks. -/
def transitFrames : Nat := 512

def transitOf (s : State) (set : Nat) : Option Transit := s.transits.find? (fun t => t.set == set)

/-- A transit ends: its buffer is zeros, and its frames return to the region. -/
def endTransit (s : State) (set : Nat) : State :=
  match transitOf s set with
  | none => s
  | some t =>
    let s := { s with transits := s.transits.filter (fun t => t.set != set) }
    t.frames.foldl (fun s f =>
      freeRegion { s with stack := memZero s.stack (t.block * 2 ^ 37 + f * 65536) 65536 } t.block f) s

/-- A module that cannot keep a relayed set only forwards it, through a buffer of two chunks in its region. DESIGN
CHOICE: where no block has the frames for the buffer, chunks are checked and forwarded without it (log 181). -/
def refuseRelay (s : State) (set : Nat) (h : BundleHead) : State :=
  let s := endTransit s set
  let t : Transit := { set, head := h }
  let x : Transit × State := match chooseBlock s 0xFF (fun b => decide (regionFree s b < transitFrames)) with
    | none => (t, s)
    | some b =>
      let y := takeFrames s b transitFrames
      ({ t with block := b, frames := y.1 }, y.2)
  let s := bump { x.2 with transits := x.2.transits ++ [x.1] } K.relayRelaysRefused
  recordEvent s { code := 0x6100, source := mpSource s, payload := natLe set 2 ++ natLe 0 4 }

/-- RELAY_HEADER: the header is sent on and checked by the receiver itself (R221, R224). A relay of an ID takes the
place of what was in transit under it. -/
def effRelayHeader (s : State) (set dir : Nat) (h : BundleHead) : State :=
  let s := endTransit s set
  let dirs := relayDirs s (some dir)
  let s := if dirs = [] then s else emit s (.relayHeader set h dirs)
  let bad := hField h 6 1 = 0 ∧ (duplicateOf s set (measure h)).isSome
  if (wsetOf s set).state ≠ .empty ∨ !(headerGood h) ∨ hField h 16 8 > imageLimit ∨ bad then refuseRelay s set h
  else takeHeader (updWset s set (fun w => { w with state := .verifying, relayedIn := true, owner := 0xFF })) set h

/-- Put a chunk into the half of a transit's buffer that is its turn. -/
def bufferChunk (s : State) (t : Transit) (chunk : Nat) (d : List Byte) : State :=
  ((t.frames.drop (chunk % 2 * piecesPerChunk)).take (ceilDiv d.length 65536)).zipIdx.foldl (fun s e =>
    { s with stack := memWriteN s.stack (t.block * 2 ^ 37 + e.1 * 65536) (slice d (65536 * e.2) 65536) }) s

/-- A chunk in transit: buffered, its digest checked, and forwarded; the last one ends the transit. A chunk that fails
is asked for again, once; on a second failure nothing further is forwarded (R224, R225). -/
def transitChunk (s : State) (t : Transit) (dir chunk : Nat) (d : List Byte) : State :=
  if chunk ≠ t.chunk then s
  else
    let s := bufferChunk (bump s K.relayChunksReceived) t chunk d
    let put (t : Transit) : State := { s with transits := s.transits.map (fun y => if y.set = t.set then t else y) }
    if headerGood t.head && !(chunkGood { imageBytes := hField t.head 16 8, head := some t.head } chunk d) then
      let s' := bump s K.relayChunksRejected
      if t.again then endTransit s' t.set
      else emit (bump (put { t with again := true }) K.relayChunksRejected) (.relayAgain t.set chunk)
    else
      let s := forwardChunk (put { t with chunk := chunk + 1, again := false }) t.set chunk d (some dir)
      if hField t.head 24 4 ≤ chunk + 1 then endTransit s t.set else s

/-- A chunk of a relayed set that this module keeps. -/
def keptChunk (s : State) (set dir chunk : Nat) (d : List Byte) : State :=
  let w := wsetOf s set
  if w.state ≠ .loading ∨ !w.relayedIn ∨ nextChunk w ≠ some chunk then s
  else
    let s := bump s K.relayChunksReceived
    if !(chunkGood w chunk d) then
      let s := bump s K.relayChunksRejected
      if w.again then startWipe (recordSet s set stWeightDigest 0) set
      else emit (updWset s set (fun w => { w with again := true })) (.relayAgain set chunk)
    else
      let s := forwardChunk (writeChunk s set chunk d) set chunk d (some dir)
      let s := updWset s set chunkDone
      match nextChunk (wsetOf s set) with
      | none => setLoaded s set
      | some _ => s

/-- RELAY_CHUNK: checked, kept or only passed on, and forwarded after a good check; while the set is VERIFYING it
waits. -/
def effRelayChunk (s : State) (set dir chunk : Nat) (d : List Byte) : State :=
  match transitOf s set with
  | some t => transitChunk s t dir chunk d
  | none =>
    if (wsetOf s set).state = .verifying ∧ (wsetOf s set).relayedIn then
      updWset s set (fun w => { w with early := w.early ++ [(dir, chunk, d)] })
    else keptChunk s set dir chunk d

/-- The chunks of a relayed set that waited for its signature. -/
def takeEarly (s : State) (set : Nat) (l : List (Nat × Nat × List Byte)) : State :=
  l.foldl (fun s c => effRelayChunk s set c.1 c.2.1 c.2.2) s

/-- SIGNATURE_VERIFIED: orders 2 and 3 of R220, for a stage and for a relayed set; the key must be one that signs weight
sets, and no other base set of the measurement may have been loaded meanwhile (R211). A relay's header goes out when
loading begins. A relayed set that fails is only forwarded (R224). -/
def effSignature (s : State) (set : Nat) (ok : Bool) : State :=
  let w := wsetOf s set
  if w.state ≠ .verifying then s
  else match w.head with
    | none => s
    | some h =>
      let fail (s : State) (status result : Nat) : State :=
        if w.relayedIn then takeEarly (refuseRelay (emptySet s set) set h) set w.early
        else failVerify s set status result
      if !ok ∨ !(setKeyOk s h) then fail (bump s K.secSignatureFailures) stWeightSignature set
      else match (if w.kind = 0 then duplicateOf s set w.measurement else none) with
        | some other => fail s stWeightDuplicate other
        | none =>
          match reserveSet s set with
          | none => fail s stWeightNoSpace set
          | some s =>
            let s := updWset s set (fun w => { w with state := .loading, chunk := 0, again := false, early := [] })
            if w.relayedIn then takeEarly s set w.early
            else
              let s := if w.relaySource then emit s (.relayHeader set h (relayDirs s none)) else s
              askChunk s set 0

/-- RELAY_TIMEOUT (R225). -/
def effRelayTimeout (s : State) (set : Nat) : State :=
  let s1 := endTransit s set
  let w := wsetOf s set
  let s2 := recordEvent s1 { code := 0x6100, source := mpSource s, payload := natLe set 2 ++ natLe w.chunk 4 }
  if w.relayedIn ∧ w.state = .loading then startWipe s2 set
  else if w.relayedIn ∧ w.state = .verifying then emptySet s2 set
  else s1

/-! ## Refetching pieces (R232, R233) -/

/-- The repair sources of a set, in order: retained bundle, relay upstream, twin. -/
def repairSources (s : State) (w : WSet) : List Nat :=
  (if w.retained then [0] else []) ++ (if w.relayedIn then [1] else []) ++
    (if [2, 3, 4].contains (odGet s K.pairPairState) then [2] else [])

/-- A transfer that a lost piece stops: it ends with data the manual does not state. -/
def loseTransfer (s : State) (ci : Nat) (t : Transfer) : State :=
  let n := 64 * t.dst.length
  let x := (List.range n).map (fun i => Config.freeByte (s.free + i))
  let s := updCore { s with free := s.free + n } ci (fun c => { c with transfers := c.transfers.map (fun y =>
    if y.id = t.id then { y with ready := true, heldSet := none, wants := [], data := x } else y) })
  match partAt s (ci / 16), t.viaLane with
  | some p, some lane =>
    let sess := (laneOf s p lane).session
    setAbort (updSess s sess (fun x => { x with abortStatus := some ((x.abortStatus).getD stWeightLost) })) ci sess
  | some p, none => raiseFault s p 0x000C (ci / 16)
  | none, _ => s

/-- Held reads of a set proceed where its pieces can be read again (R232), or meet the loss (R233). -/
def retryHeld (s : State) (set : Nat) : State :=
  s.cores.foldl (fun s e =>
    e.2.transfers.foldl (fun s t =>
      match t.heldSet with
      | some (st, g) =>
        if st ≠ set then s
        else match setRead s set (64 * g) t.dst.length with
          | .held => s
          | .at_ _ =>
            let d := (readSet s set (64 * g) t.dst.length).getD []
            updCore s e.1 (fun c => { c with transfers := c.transfers.map (fun y =>
              if y.id = t.id then { y with ready := true, heldSet := none, data := d } else y) })
          | _ => loseTransfer s e.1 t
      | none => s) s) s

/-- A piece is lost (R233). -/
def losePiece (s : State) (set piece : Nat) : State :=
  let s := updWset s set (fun w => { w with
    state := if w.state = .loaded then .damaged else w.state
    table := kvSet 0 w.table piece (kvGet 0 w.table piece / 8 * 8 + 5)
    quarantine := kvErase w.quarantine piece, unplaced := w.unplaced.filter (· ≠ piece) })
  retryHeld (recordSet (bump s K.wtPiecesLost) set stWeightLost piece) set

/-- Ask for a quarantined piece's chunk from the first source there is from a place of the order on, or lose the
piece. A source that does not hold the chunk, as a twin without a set of the same measurement, answers so. -/
def askFrom (s : State) (set piece from_ : Nat) : State :=
  match (repairSources s (wsetOf s set)).filter (fun x => decide (from_ ≤ x)) with
  | [] => losePiece s set piece
  | x :: _ => emit (updWset s set (fun w => { w with asked := kvSet 0 w.asked piece x })) (.refetch set piece x)

def askRefetch (s : State) (set piece : Nat) : State := askFrom s set piece 0

/-- A piece is quarantined and refetched: cause 1 an uncorrectable error, 2 its block's loss (R232). -/
def quarantine (s : State) (set piece cause : Nat) : State :=
  let e := kvGet 0 (wsetOf s set).table piece
  if !(pV e) ∨ pQ e ∨ pL e then s
  else askRefetch (updWset s set (fun w => { w with
    table := kvSet 0 w.table piece (e + 2), quarantine := kvSet 0 w.quarantine piece cause })) set piece

/-- Does a piece of a chunk wait for refetch: then the whole chunk's good digest serves it. -/
def effRefetch (s : State) (set piece : Nat) (fin : RefetchEnd) : State :=
  let w := wsetOf s set
  let cause := kvGet 0 w.quarantine piece
  if cause = 0 ∨ (w.state ≠ .loaded ∧ w.state ≠ .damaged) then s
  else match fin with
    | .noSource => askFrom s set piece (kvGet 0 w.asked piece + 1)
    | .bytes d =>
      let chunk := piece / piecesPerChunk
      if !(chunkGood w chunk d) then losePiece s set piece
      else
        let old := kvGet 0 w.table piece
        let pref := preferred w piece
        match chooseBlock s pref (fun _ => false) with
        | none => recordSet (updWset s set (fun w => { w with unplaced := insertNat piece w.unplaced })) set stWeightNoSpace piece
        | some b =>
          let x := takeRegion s b
          let at_ := b * 2 ^ 37 + x.1 * 65536
          let s := { x.2 with stack := memWriteN x.2.stack at_ (slice d (piece % piecesPerChunk * 65536) 65536) }
          let s := updWset s set (fun w => { w with
            table := kvSet 0 w.table piece (pieceEntry b x.1)
            quarantine := kvErase w.quarantine piece, unplaced := w.unplaced.filter (· ≠ piece)
            misplaced := if pref < blockCount ∧ pref ≠ b then insertNat piece w.misplaced
              else w.misplaced.filter (· ≠ piece) })
          let s := if cause = 1 then
              addYield (updFrame s (weightFrameKey (pBlock old) (pFrame old)) (fun f => { f with use := .withdrawn }))
                8 (pBlock old) 2 0 0 (pFrame old)
            else freeRegion s (pBlock old) (pFrame old)
          retryHeld (recordSet (bump s K.wtPiecesRefetched) set stSuccess piece) set

/-- A region frame has been freed: pieces without a frame are refetched again (R232). -/
def retryUnplaced (s : State) : State :=
  s.sets.foldl (fun s e => e.2.unplaced.foldl (fun s piece =>
    askRefetch (updWset s e.1 (fun w => { w with unplaced := w.unplaced.filter (· ≠ piece) })) e.1 piece) s) s

/-- The set and piece of a stack granule inside a weight region. -/
def pieceOfAddr (s : State) (a : Nat) : Option (Nat × Nat) :=
  let b := a / 2 ^ 37
  let f := a % 2 ^ 37 / 65536
  s.sets.findSome? (fun e =>
    (e.2.table.find? (fun x => pV x.2 && pBlock x.2 == b && pFrame x.2 == f)).map (fun x => (e.1, x.1)))

/-- A block's stack is gone (R340 order 4): pieces of loaded sets are refetched elsewhere; a set still
loading places its lost pieces again and reads their chunks again; piece-table copies are written anew. -/
def blockPiecesLost (s : State) (b : Nat) : State :=
  s.sets.foldl (fun s e =>
    let w := wsetOf s e.1
    let here := ((placedPieces w).filter (fun x => pBlock x.2 == b)).map (·.1)
    let s := if w.copies.any (fun c => c.1 == b) then
        let s := updWset s e.1 (fun w => { w with copies := w.copies.filter (fun c => c.1 != b) })
        (placeCopy s e.1).getD s
      else s
    if here = [] then s
    else match w.state with
      | .loading =>
        match placePieces s e.1 here with
        | none => failLoad s e.1 stWeightNoSpace
        | some s =>
          let read := (here.map (· / piecesPerChunk)).filter (fun c => decide (c < w.chunk))
          updWset s e.1 (fun w => { w with reread := read.foldl (fun acc c => insertNat c acc) w.reread })
      | .loaded | .damaged => here.foldl (fun s p => quarantine s e.1 p 2) s
      | _ => s) s

/-! ## Unloading and wiping (R221, R231) -/

/-- A write to unload that R221 accepts, or the error STATE or WEIGHT_BUSY that it gets. -/
def unloadSet (s : State) (set : Nat) : Except Bool State :=
  let w := wsetOf s set
  match w.state with
  | .empty | .wiping => .error false
  | .verifying => .ok (retryUnplaced (failVerify s set stCancelled set))
  | .loading => .ok (failLoad s set stCancelled)
  | .loaded | .damaged => if bindCount s set = 0 then .ok (startWipe s set) else .error true

/-- SET_WIPE_COMPLETE: the frames are zeros and return to the region. -/
def effSetWipe (s : State) (set : Nat) : State :=
  let w := wsetOf s set
  if w.state ≠ .wiping then s
  else
    let s := (placedPieces w).foldl (fun s e =>
      { s with stack := memZero s.stack (pBlock e.2 * 2 ^ 37 + pFrame e.2 * 65536) 65536 }) s
    retryUnplaced (emptySet (releaseFrames s set) set)

end Sys2Proof.Machine
end

