-- ==== Sys2Proof/Machine/Dma.lean ====
section
/-! DEFINITION. The DMA engine (R99 to R104), the hardware cache (R93 to R98) and bank power (R92, R105).
A transfer takes its data when it is issued and lands at its completion. -/

namespace Sys2Proof.Machine

/-! ## Counts of writes in flight (R104) -/

def XferKind.toScratch : XferKind → Bool
  | .stackRead | .coreWrite | .edgeRead | .gather => true
  | .stackWrite | .edgeWrite => false

/-- Transfers in flight whose destination meets a condition. -/
def incoming (s : State) (scratch : Bool) (f : Nat → Bool) : Nat :=
  ((s.cores.flatMap (fun e => e.2.transfers)).filter (fun t =>
    (t.kind.toScratch == scratch) && (scratch || decide (t.kind = .stackWrite)) && t.dst.any (fun g => f g.addr))).length

def bankIncoming (s : State) (ci bank : Nat) : Nat := incoming s true (fun a => a / 2 ^ 16 == ci * 32 + bank)

/-- Writes on their way to a block: to its stack, or to a bank of its clusters. -/
def blockIncoming (s : State) (b : Nat) : Nat :=
  incoming s false (fun a => a / 2 ^ 37 == b) + incoming s true (fun a => (blockClusters b).contains (a / 2 ^ 25))

/-- Writes that a core has issued and that are in flight (R31). -/
def writesInFlight (c : Core) : Nat :=
  (c.transfers.filter (fun t => decide (t.kind = .stackWrite) || decide (t.kind = .coreWrite) ||
    decide (t.kind = .edgeWrite))).length

/-! ## Transfers -/

/-- Does a transfer's data come to the core that issued it? -/
def XferKind.inward : XferKind → Bool
  | .stackRead | .edgeRead | .gather => true
  | .stackWrite | .coreWrite | .edgeWrite => false

/-- Start a transfer: its packets leave, and it counts in its DMA counter (R101, R278). `far` is the cluster at the far
end of each granule. A transfer that no route leads to faults the partition (R288). -/
def startTransfer (s : State) (ci : Nat) (far : List Nat) (t : Transfer) : State :=
  let cl := ci / 16
  let p := (partAt s cl).getD 0
  if cutOff s cl t.kind.inward far then raiseFault s p 0x000E cl
  else
    let packets := packetsOf s p cl t.kind.inward far
    updCore (noteDetours s (packets.filter Packet.detours)) ci (fun c => { c with
      transfers := c.transfers ++ [{ t with id := c.nextXfer, packets }], nextXfer := c.nextXfer + 1
      counters := kvUpd 0 c.counters t.counter (· + 1) })

/-- End a transfer: its counter falls, and issue that waited for it goes on (R101, R67). -/
def endTransfer (s : State) (ci : Nat) (t : Transfer) : State :=
  updCore s ci (fun c => { c with
    transfers := c.transfers.filter (fun y => y.id ≠ t.id)
    counters := kvUpd 0 c.counters t.counter (· - 1)
    hold := if c.hold = .transfer t.id then .none else c.hold })

/-- Granules of a run of bytes. -/
def granList (data : List Byte) : List (List Byte) := granules (data.length / 64 + 1) data

/-- Bytes of a block's stack: 96 GB (R16, R18), of which its frames take all but a rest below one frame (R188). -/
def stackBytes : Nat := 96 * 10 ^ 9

/-- The granules of an area of a core. -/
def areaSize (d : W64) : Nat := areaGranules d

def scratchDst (ci : Nat) (d : W64) (n : Nat) : List Gran :=
  (areaAddrs ci d true (64 * n)).map (fun a => { addr := a })

/-- Destination granules that a poisoned source granule reaches. -/
def poisonDst (dst : List Gran) (bad : List Nat) : List Nat :=
  (dst.zipIdx.filter (fun e => bad.contains e.2)).map (fun e => e.1.addr)

/-- Indices of the granules of an address list that meet a condition. -/
def badIdx {α : Type} (f : α → Bool) (l : List α) : List Nat := (l.zipIdx.filter (fun e => f e.1)).map (·.2)

/-! ## Form 0 (R99, R100, R103, R193, R206, R217) -/

/-- What one granule of a session read gives: its bytes, whether they are bad and where they lie, or a fault. -/
def sessionGran (s : State) (p ci sess va : Nat) : (List Byte × Bool × Option Nat) × Option Nat × State :=
  match translate s p (ci / 16) sess va false false with
  | (.phys a g, s) =>
    if genOk s a g then ((memReadN s.stack a 64, s.stackPoison.contains a, some a), none, s)
    else ((List.replicate 64 0, false, none), none, bump s (K.statTagMismatches p))
  | (.cut, s) => ((List.replicate 64 0, false, none), none, s)
  | (.lost b f, s) => ((memReadN s.stack (frameAddr b f) 64, true, none), none, loseFrame s p ci b f)
  | (.notResident, s) => ((List.replicate 64 0, false, none), some 0x000B, s)
  | (_, s) => ((List.replicate 64 0, false, none), some 0x0008, s)

/-- Every granule of a session read in turn; the first fault stops it. -/
def sessionRead (s : State) (p ci sess va : Nat) : Nat → (List Byte × List (Bool × Option Nat)) × Option Nat × State
  | 0 => (([], []), none, s)
  | n + 1 =>
    match sessionGran s p ci sess va with
    | (_, some c, s) => (([], []), some c, s)
    | (x, none, s) =>
      let r := sessionRead s p ci sess (va + 64) n
      ((x.1 ++ r.1.1, x.2 :: r.1.2), r.2.1, r.2.2)

/-- Far ends of `n` granules in a block's stack. -/
def farBlock (s : State) (ci b n : Nat) : List Nat := List.replicate n (nearestOf s (ci / 16) b)

/-- Far ends of granules at stack addresses; a granule without one crosses no link. -/
def farAddrs (s : State) (ci : Nat) (l : List (Option Nat)) : List Nat :=
  l.map (fun a => match a with
    | some a => nearestOf s (ci / 16) (a / 2 ^ 37)
    | none => ci / 16)

/-- Far ends of `n` granules of a set. -/
def farSet (s : State) (ci set g n : Nat) : List Nat :=
  (List.range n).map (fun i => nearestOf s (ci / 16) (pBlock (kvGet 0 (wsetOf s set).table ((g + i) / 1024))))

/-- Is a session one of the partition's: open here, in a lane that a job's root has given (R297), or cut out of the
lap in progress (R190)? -/
def sessionHere (s : State) (p sess : Nat) : Bool :=
  (decide ((sessOf s sess).state ≠ .free) && (sessOf s sess).part == p) ||
    (partOf s p).lanes.any (fun e => e.2.session == sess) || (partOf s p).cutSessions.contains sess

def effDmaLoad (s : State) (p ci : Nat) (a : DmaStackArgs) : State :=
  let d := descOf (coreOf s ci) a.loc
  let n := areaSize d
  let dst := scratchDst ci d n
  let t : Transfer := { id := 0, kind := .stackRead, counter := a.counter.toNat, sync := !a.async, dst, data := [] }
  match a.remote with
  | .phys b g =>
    if !((partOf s p).blocks.contains b.toNat) ∨ (g.toNat + n) * 64 > stackBytes then raiseFault s p 0x0008 (ci / 16)
    else
      let at_ := physAddr b.toNat g.toNat
      let bad := badIdx (fun i => s.stackPoison.contains (at_ + 64 * i)) (List.range n)
      startTransfer s ci (farBlock s ci b.toNat n) { t with
        data := memReadN s.stack at_ (64 * n), poisoned := poisonDst dst bad }
  | .session x v =>
    if !(sessionHere s p x.toNat) then raiseFault s p 0x0008 (ci / 16)
    else match sessionRead s p ci x.toNat (v.toNat * 64) n with
      | (_, some c, s) => raiseFault s p c (ci / 16)
      | (r, none, s) =>
        startTransfer s ci (farAddrs s ci (r.2.map (·.2))) { t with
          data := r.1, poisoned := poisonDst dst (badIdx (fun e => e.1) r.2), session := some x.toNat
          stackAt := r.2.zipIdx.filterMap (fun e => e.1.2.map (fun a => (e.2, a))) }
  | .set h g =>
    let read (set : Nat) (via : Option Nat) : State :=
      let t := { t with sources := (List.range n).map (fun i => (i, set, (g.toNat + i) / 1024)) }
      let far := farSet s ci set g.toNat n
      match setRead s set (64 * g.toNat) n with
      | .outside => raiseFault s p 0x0008 (ci / 16)
      | .held => startTransfer s ci far { t with ready := false, heldSet := some (set, g.toNat), viaLane := via }
      | .at_ _ =>
        let bad := badIdx (fun i => match pieceAt s set (64 * (g.toNat + i)) with
          | .at_ x => s.stackPoison.contains x
          | _ => false) (List.range n)
        startTransfer s ci far { t with
          data := (readSet s set (64 * g.toNat) n).getD [], poisoned := poisonDst dst bad, viaLane := via }
      | .lost =>
        let id := (coreOf s ci).nextXfer
        loseTransfer (startTransfer s ci far { t with viaLane := via }) ci { t with id, viaLane := via }
    match handleOf s p h.toNat with
    | .slot set => read set none
    | .lane _ 0xFFFF =>
      startTransfer (bump s (K.statAdapterZeroReads p)) ci [] { t with data := List.replicate (64 * n) 0 }
    | .lane l set => read set (some l)
    | .refused => raiseFault s p 0x0008 (ci / 16)

/-! ## Form 1 (R58, R103, R190, R196) -/

/-- The destination of one granule of a session write; none where the write is dropped. A fenced unit's writes are
dropped at its router and counted (R407). -/
def sessionDst (s : State) (p ci sess va : Nat) (tentative : Bool) : Option Gran × Option Nat × State :=
  if (clusterOf s (ci / 16)).fenced then (none, none, bump s K.hlthLeasesExpired)
  else match translate s p (ci / 16) sess va true tentative with
  | (.phys a g, s) => (some { addr := a, gen := some g }, none, s)
  | (.noPages, s) => (none, none, noPages s p ci sess)
  | (.cut, s) => (none, none, s)
  | (.lost b f, s) => (none, none, loseFrame s p ci b f)
  | (.notResident, s) => (none, some 0x000B, s)
  | (.badAddress, s) => (none, some 0x0008, s)
  | (_, s) => (none, some 0x0006, s)

/-- Destinations of a session write, granule by granule, with the bytes that go there. -/
def sessionWrite (s : State) (p ci sess va : Nat) (tentative : Bool) :
    List (List Byte × Bool) → List (Gran × List Byte × Bool) × Option Nat × State
  | [] => ([], none, s)
  | x :: r =>
    match sessionDst s p ci sess va tentative with
    | (_, some c, s) => ([], some c, s)
    | (g, none, s) =>
      let y := sessionWrite s p ci sess (va + 64) tentative r
      ((match g with
        | some g => [(g, x.1, x.2)]
        | none => []) ++ y.1, y.2.1, y.2.2)

/-- The source area of a write: its bytes, and which granules failed parity or are poisoned. -/
def sourceArea (s : State) (ci : Nat) (env : CoreEnv) (d : W64) : List (List Byte × Bool) :=
  let addrs := areaAddrs ci d false (64 * areaSize d)
  let failed := (env.parity.map (fun w => wordAddr ci w / 64 * 64)) ++ (coreOf s ci).poison
  addrs.map (fun a => (memReadN s.scratch a 64, failed.contains a))

def effDmaStore (s : State) (p ci : Nat) (env : CoreEnv) (a : DmaStackArgs) : State :=
  let d := descOf (coreOf s ci) a.loc
  let src := sourceArea s ci env d
  let n := src.length
  let start (s : State) (l : List (Gran × List Byte × Bool)) (sess : Option Nat) : State :=
    startTransfer s ci (farAddrs s ci (l.map (fun e => some e.1.addr))) {
      id := 0, kind := .stackWrite, counter := a.counter.toNat, sync := !a.async
      dst := l.map (·.1), data := l.flatMap (fun e => e.2.1)
      poisoned := (l.filter (fun e => e.2.2)).map (fun e => e.1.addr)
      tentative := a.tentative, session := sess }
  match a.remote with
  | .phys b g =>
    let at_ := physAddr b.toNat g.toNat
    if !((partOf s p).blocks.contains b.toNat) then raiseFault s p 0x0006 (ci / 16)
    else if (g.toNat + n) * 64 > stackBytes then raiseFault s p 0x0008 (ci / 16)
    else if g.toNat * 64 < regionFrames s b.toNat * 65536 then raiseFault s p 0x0006 (ci / 16)
    else start s (src.zipIdx.map (fun e => ({ addr := at_ + 64 * e.2 }, e.1))) none
  | .session x v =>
    if !(sessionHere s p x.toNat) then raiseFault s p 0x0006 (ci / 16)
    else match sessionWrite s p ci x.toNat (v.toNat * 64) a.tentative src with
      | (_, some c, s) => raiseFault s p c (ci / 16)
      | (l, none, s) =>
        -- a tentative entry of a mirrored session goes to the twin as it is written (R320)
        let s := if a.tentative ∧ (sessOf s x.toNat).mirrored ∧ [2, 3, 4].contains (odGet s K.pairPairState) then
            bump (emit s (.mirrorEntry x.toNat (v.toNat * 64) (src.flatMap (·.1)))) K.pairMirrorBytes (64 * n)
          else s
        start s l (some x.toNat)
  | .set _ _ => raiseFault s p 0x0006 (ci / 16)

/-! ## Form 2 (R99, R100) -/

def effDmaCore (s : State) (p ci : Nat) (env : CoreEnv) (a : DmaCoreArgs) : State :=
  let src := sourceArea s ci env (descOf (coreOf s ci) a.loc)
  let cl := a.cluster.toNat
  let dest := cl * 16 + a.core.toNat
  if !((partOf s p).holds cl) ∨ cl ≥ 864 ∨ a.core.toNat ≥ (clusterOf s cl).presented then
    raiseFault s p 0x0006 (ci / 16)
  else
    let dst := scratchDst dest (descOf (coreOf s dest) a.desc) src.length
    let l := dst.zip src
    startTransfer s ci (List.replicate l.length cl) {
      id := 0, kind := .coreWrite, counter := a.counter.toNat, sync := !a.async, dst
      data := l.flatMap (fun e => e.2.1), target := dest
      poisoned := (l.filter (fun e => e.2.2)).map (fun e => e.1.addr) }

/-! ## Forms 3 and 4 (R298, R299) -/

/-- Far ends of `n` granules that go through the ports of a channel: the packets of one transfer take its ports in turn,
granule by granule of a packet (DESIGN CHOICE: R299 leaves the port of the mask open, log 182). -/
def farPorts (e : List Byte) (n : Nat) : List Nat :=
  let ports := channelPorts e
  (List.range n).map (fun i => getAt 0 ports (i / 64 % ports.length))

def effDmaEdgeIn (s : State) (p ci : Nat) (a : DmaEdgeArgs) : State :=
  let e := channelOf s p a.channel.toNat
  let d := descOf (coreOf s ci) a.loc
  let n := areaSize d
  let g := a.granule.toNat
  let t : Transfer := {
    id := 0, kind := .edgeRead, counter := a.counter.toNat, sync := !a.async, dst := scratchDst ci d n
    data := [], channel := a.channel.toNat, offset := g }
  if g + n > fieldLe e 4 4 then raiseFault s p 0x0008 (ci / 16)
  else if fieldLe e 0 1 = 1 then
    startTransfer (emit s (.hostRead (fieldLe e 1 1) (fieldLe e 8 8 + 64 * g) (64 * n))) ci (farPorts e n) t
  else if fieldLe e 0 1 = 2 then
    let at_ := frameAddr (fieldLe e 8 1) (fieldLe e 9 4) + 64 * g
    let bad := badIdx (fun i => s.stackPoison.contains (at_ + 64 * i)) (List.range n)
    startTransfer s ci (farBlock s ci (fieldLe e 8 1) n) { t with
      data := memReadN s.stack at_ (64 * n), poisoned := poisonDst t.dst bad }
  else raiseFault s p 0x0008 (ci / 16)

def effDmaEdgeOut (s : State) (p ci : Nat) (env : CoreEnv) (a : DmaEdgeArgs) : State :=
  let e := channelOf s p a.channel.toNat
  let src := sourceArea s ci env (descOf (coreOf s ci) a.loc)
  let n := src.length
  let g := a.granule.toNat
  let data := src.flatMap (·.1)
  let t : Transfer := {
    id := 0, kind := .edgeWrite, counter := a.counter.toNat, sync := !a.async, dst := []
    data, channel := a.channel.toNat, offset := g }
  if fieldLe e 0 1 = 1 then
    if g + n > fieldLe e 4 4 then raiseFault s p 0x0008 (ci / 16)
    else startTransfer (emit s (.hostWrite (fieldLe e 1 1) (fieldLe e 8 8 + 64 * g) data)) ci (farPorts e n) t
  else if fieldLe e 0 1 = 2 then
    let bad := badIdx (fun x => x.2) src
    let s := emit s (.fabricWrite (fieldLe e 1 1) (fieldLe e 2 1) (fieldLe e 3 1) g data bad)
    startTransfer (bump s (K.statFabricBytesOut p) (64 * n)) ci (farPorts e n) t
  else raiseFault s p 0x0008 (ci / 16)

/-! ## The hardware cache (R93 to R98) -/

/-- The set that a table of space 2 lies in. -/
def placeSet (s : State) (p : Nat) : StackPlace → Option Nat
  | .phys _ _ => none
  | .set h _ => match handleOf s p h.toNat with
    | .slot set => some set
    | .lane _ set => some set
    | .refused => none

/-- Key of the first line of a table's space: the space with its block or handle, by which a line is tagged, and for
space 2 the set in force when the access begins, from which the line is fetched (R94, R218). -/
def spaceKey (s : State) (p : Nat) (place : StackPlace) : Nat :=
  match place with
  | .phys b _ => b.toNat * 2 ^ 40
  | .set h _ => 2 ^ 60 + h.toNat * 2 ^ 40 + (match placeSet s p place with
    | some set => (set + 1) * 2 ^ 64
    | none => 0)

def lineAddr (key : Nat) : Nat := key % 2 ^ 40

/-- Tag of a line (R94). -/
def lineTag (key : Nat) : Nat := key % 2 ^ 64

/-- Set of a line in a cache of `c` banks (R94). -/
def cacheSet (c l : Nat) : Nat :=
  let n := 128 * c
  if n = 0 then 0 else (l % n) ^^^ (l / n % n)

/-- Scratch address of the slot of a set and way. -/
def slotAddr (ci c set way : Nat) : Nat :=
  scratchAddr ci (32 - c + (if c = 0 then 0 else set % c)) 0 + ((if c = 0 then 0 else set / c) * 4 + way) * 128

/-- The way that holds a line. -/
def findWay (c : Core) (key : Nat) : Option Nat :=
  let set := cacheSet c.cacheBanks (lineAddr key)
  (List.range 4).find? (fun w => kvGet none c.lines (set * 4 + w) == some (lineTag key))

/-- Tree bits after a use of a way: bit 0 the root, bits 1 and 2 its halves, each pointing away. -/
def touchTree (bits way : Nat) : Nat :=
  let b0 := if way < 2 then 1 else 0
  let b1 := if way < 2 then 1 - way % 2 else bits / 2 % 2
  let b2 := if way < 2 then bits / 4 % 2 else 1 - way % 2
  b0 + 2 * b1 + 4 * b2

/-- The way that the tree gives up. -/
def treeVictim (bits : Nat) : Nat :=
  if bits % 2 = 0 then bits / 2 % 2 else 2 + bits / 4 % 2

/-- The way a fill takes: one that holds nothing, else the tree's. -/
def fillWay (c : Core) (set : Nat) : Nat :=
  ((List.range 4).find? (fun w => kvGet none c.lines (set * 4 + w) == none)).getD (treeVictim (kvGet 0 c.plru set))

/-- Where a line's 128 bytes lie in a stack. -/
def lineSource (s : State) (key : Nat) : PieceAt :=
  match key / 2 ^ 64 with
  | 0 => .at_ (key / 2 ^ 40 * 2 ^ 37 + lineAddr key * 128)
  | n + 1 => pieceAt s n (lineAddr key * 128)

/-- Is a line that arrives still what its tag stands for? A handle that a flip or a new lane table has given another
set since the access began is not cached (R97, R218). -/
def lineCurrent (s : State) (p key : Nat) : Bool :=
  match key / 2 ^ 64 with
  | 0 => true
  | n + 1 => placeSet s p (.set (BitVec.ofNat 16 ((lineTag key - 2 ^ 60) / 2 ^ 40)) 0) == some n

/-- Granules of a line, 0 and 1, that a poisoned write has marked (R103). -/
def linePoison (s : State) (addr : Nat) : List Nat :=
  (List.range 2).filter (fun g => s.stackPoison.contains (addr + 64 * g))

/-- Put a line into the cache and its bank. -/
def fillLine (s : State) (ci key : Nat) (data : List Byte) : State :=
  let c := coreOf s ci
  let set := cacheSet c.cacheBanks (lineAddr key)
  let w := fillWay c set
  let s := { s with scratch := memWriteN s.scratch (slotAddr ci c.cacheBanks set w) data }
  setCore s ci { c with
    lines := kvSet none c.lines (set * 4 + w) (some (lineTag key))
    plru := kvSet 0 c.plru set (touchTree (kvGet 0 c.plru set) w) }

/-- Lines that gathers of a core wait for and that are not being fetched. -/
def wantedLines (c : Core) : List Nat :=
  ((c.transfers.flatMap (fun t => t.wants)).map (·.1)).foldl (fun acc k =>
    if acc.contains k ∨ c.fetching.contains k then acc else acc ++ [k]) []

/-- Up to 32 misses are outstanding (R95). -/
def fetchMore (c : Core) : Core :=
  { c with fetching := c.fetching ++ (wantedLines c).take (32 - c.fetching.length) }

/-- Begin the fetches that there is room for; each line fetched is a miss (R106). -/
def fetchLines (s : State) (p ci : Nat) : State :=
  let c := coreOf s ci
  let n := (fetchMore c).fetching.length - c.fetching.length
  setCore (if n = 0 then s else bump s (K.statCacheMisses p) n) ci (fetchMore c)

/-- The parts of lines that one row needs: (line, byte of the line, bytes, byte of the data). -/
def rowParts (space : Nat) (off len at_ : Nat) : Nat → List (Nat × Nat × Nat × Nat)
  | 0 => []
  | n + 1 =>
    if len = 0 then []
    else
      let k := Nat.min len (128 - off % 128)
      (space + off / 128, off % 128, k, at_) :: rowParts space (off + k) (len - k) (at_ + k) n

/-- A cache line or its tag fails parity (R98): the line is invalid, and the error is counted and recorded; the
replay request bit stays as it is. -/
def lineError (s : State) (p ci idx set way : Nat) : State :=
  let c := coreOf s ci
  recordCore (setCore s ci { c with lines := kvErase c.lines (set * 4 + way), cacheParity := c.cacheParity + 1 }) p ci
    (bankOfAddr (slotAddr ci c.cacheBanks set way)) idx

/-- Serve one part of a row from the cache, or miss (R95, R98). -/
def servePart (p : Nat) (env : CoreEnv) (ci idx : Nat) (acc : State × List Byte × List (Nat × Nat × Nat × Nat))
    (w : Nat × Nat × Nat × Nat) : State × List Byte × List (Nat × Nat × Nat × Nat) :=
  let s := acc.1
  let c := coreOf s ci
  match findWay c w.1 with
  | some way =>
    let set := cacheSet c.cacheBanks (lineAddr w.1)
    let a := slotAddr ci c.cacheBanks set way
    if env.tags.contains (set * 4 + way) ∨
        env.parity.any (fun x => decide (a ≤ wordAddr ci x ∧ wordAddr ci x < a + 128)) then
      (lineError s p ci idx set way, acc.2.1, acc.2.2 ++ [w])
    else
      let s := setCore s ci { c with plru := kvSet 0 c.plru set (touchTree (kvGet 0 c.plru set) way) }
      (bump s (K.statCacheHits p), spliceBytes acc.2.1 w.2.2.2 (memReadN s.scratch (a + w.2.1) w.2.2.1), acc.2.2)
  | none => (s, acc.2.1, acc.2.2 ++ [w])

/-- Bytes of a table's space from its start: the block's stack, or the set's image. -/
def tableLimit (s : State) (p : Nat) : StackPlace → Nat
  | .phys b _ => if (partOf s p).blocks.contains b.toNat then stackBytes else 0
  | .set h _ =>
    match handleOf s p h.toNat with
    | .slot set => (wsetOf s set).imageBytes
    | .lane _ set => (wsetOf s set).imageBytes
    | .refused => 0

def placeGranule : StackPlace → Nat
  | .phys _ g => g.toNat
  | .set _ g => g.toNat

/-- Is a gather lane-indirect through no adapter? -/
def zeroTable (s : State) (p : Nat) : StackPlace → Bool
  | .phys _ _ => false
  | .set h _ => match handleOf s p h.toNat with
    | .lane _ 0xFFFF => true
    | _ => false

def placeLane (s : State) (p : Nat) : StackPlace → Option Nat
  | .phys _ _ => none
  | .set h _ => match handleOf s p h.toNat with
    | .lane l _ => some l
    | _ => none

def gatherUses (c : Core) (a : GatherArgs) : List Use :=
  useOf c a.idx false (4 * a.count.toNat) ++ useOf c a.dst true (a.count.toNat * a.rowBytes.toNat)

/-- The pieces from which each destination granule of a gather takes its bytes. -/
def gatherSources (s : State) (p : Nat) (a : GatherArgs) (offs : List Nat) : List (Nat × Nat × Nat) :=
  match placeSet s p a.table with
  | none => []
  | some set => offs.zipIdx.flatMap (fun e =>
      (List.range (a.rowBytes.toNat / 16)).map (fun k =>
        ((e.2 * a.rowBytes.toNat + 16 * k) / 64, set, (e.1 + 16 * k) / 65536)))

/-- Far ends of the granules of a gather: the block that each missing line is fetched from. -/
def farLines (s : State) (ci n : Nat) (wants : List (Nat × Nat × Nat × Nat)) : List Nat :=
  farAddrs s ci ((List.range n).map (fun i =>
    (wants.find? (fun w => decide (w.2.2.2 < 64 * i + 64 ∧ 64 * i < w.2.2.2 + w.2.2.1))).bind (fun w =>
      match lineSource s w.1 with
      | .at_ a => some a
      | _ => none)))

/-- CGATHER (R96). -/
def effGather (s : State) (p ci idx : Nat) (env : CoreEnv) (a : GatherArgs) : State :=
  let c := coreOf s ci
  let rb := a.rowBytes.toNat
  let n := a.count.toNat
  let list := readArea s ci (descOf c a.idx) (4 * n)
  let offs := (List.range n).map (fun i => 64 * placeGranule a.table + fieldLe list (4 * i) 4 * rb)
  let t : Transfer := {
    id := 0, kind := .gather, counter := a.counter.toNat, sync := !a.async
    dst := scratchDst ci (descOf c a.dst) (ceilDiv (n * rb) 64), data := List.replicate (n * rb) 0
    viaLane := placeLane s p a.table, sources := gatherSources s p a offs }
  if zeroTable s p a.table then startTransfer (bump s (K.statAdapterZeroReads p) n) ci [] t
  else if offs.any (fun o => decide (o + rb > tableLimit s p a.table)) then raiseFault s p 0x0008 (ci / 16)
  else
    let parts := offs.zipIdx.flatMap (fun e => rowParts (spaceKey s p a.table) e.1 rb (e.2 * rb) (rb / 128 + 2))
    let x := parts.foldl (servePart p env ci idx) (s, t.data, [])
    let t := { t with data := x.2.1, wants := x.2.2, ready := x.2.2.isEmpty }
    let id := (coreOf x.1 ci).nextXfer
    let s := startTransfer x.1 ci (farLines x.1 ci t.dst.length t.wants) t
    if x.2.2.any (fun w => decide (lineSource s w.1 = .lost)) then loseTransfer s ci { t with id }
    else fetchLines s p ci

/-- Destination granules that take bytes of a line's poisoned granules. -/
def poisonWants (t : Transfer) (bad : List Nat) (mine : List (Nat × Nat × Nat × Nat)) : List Nat :=
  (mine.filter (fun w => bad.any (fun g => decide (w.2.1 < 64 * g + 64 ∧ 64 * g < w.2.1 + w.2.2.1)))).flatMap (fun w =>
    ((List.range t.dst.length).filter (fun i => decide (w.2.2.2 < 64 * i + 64 ∧ 64 * i < w.2.2.2 + w.2.2.1))).filterMap
      (fun i => (t.dst[i]?).map (·.addr)))

/-- Give a line's bytes to the gathers that wait for it; `bad` are its poisoned granules. -/
def serveWaits (c : Core) (key : Nat) (data : List Byte) (bad : List Nat) : Core :=
  { c with transfers := c.transfers.map (fun t =>
      let mine := t.wants.filter (fun w => w.1 == key)
      if mine = [] then t
      else
        let rest := t.wants.filter (fun w => w.1 != key)
        { t with
          data := mine.foldl (fun d w => spliceBytes d w.2.2.2 (slice data w.2.1 w.2.2.1)) t.data
          wants := rest, ready := rest.isEmpty, poisoned := t.poisoned ++ poisonWants t bad mine }) }

/-- The way that a fill of a line takes. -/
def lineSlot (c : Core) (key : Nat) : Nat × Nat :=
  let set := cacheSet c.cacheBanks (lineAddr key)
  (set, fillWay c set)

/-- CACHE_FILL (R95, R98): a line arrives; with a parity error it is fetched again, and the way it was to take holds
nothing. A line with a poisoned granule serves its gathers, whose destinations are marked, and is not cached. -/
def effCacheFill (s : State) (ci index : Nat) (parity : Bool) : State :=
  match (coreOf s ci).fetching[index]?, partAt s (ci / 16) with
  | some key, some p =>
    match lineSource s key with
    | .at_ a =>
      if parity then
        let w := lineSlot (coreOf s ci) key
        bump (lineError s p ci (coreOf s ci).pos w.1 w.2) (K.statCacheMisses p)
      else
        let data := memReadN s.stack a 128
        let bad := linePoison s a
        let s := if bad = [] ∧ lineCurrent s p key then fillLine s ci key data else s
        fetchLines (updCore s ci (fun c => serveWaits { c with fetching := c.fetching.filter (· ≠ key) } key data bad)) p ci
    | .held => s
    | _ =>
      let ts := (coreOf s ci).transfers.filter (fun t => t.wants.any (fun w => w.1 == key))
      let s := updCore s ci (fun c => { c with fetching := c.fetching.filter (· ≠ key) })
      fetchLines (ts.foldl (fun s t => loseTransfer s ci t) s) p ci
  | _, _ => s

/-- CINVAL (R97): every line of the core's cache goes. -/
def invalidateCache (s : State) (ci : Nat) : State := updCore s ci (fun c => { c with lines := [], plru := [] })

/-! ## DMA_TRANSFER_COMPLETE (R101, R103, R193) -/

/-- Write one granule to a stack: its poison mark is as the source's. -/
def writeStackGran (s : State) (addr : Nat) (data : List Byte) (bad : Bool) : State :=
  { s with
    stack := memWriteN s.stack addr data
    stackPoison := if bad then insertNat addr s.stackPoison else s.stackPoison.filter (· ≠ addr) }

/-- Power of the bank that holds a scratch byte. -/
def powerAt (s : State) (addr : Nat) : BankPower := (kvGet {} (coreOf s (addr / 2 ^ 21)).banks (bankOfAddr addr)).power

/-- Does a transfer write to a bank whose power-up is pending? It completes once the bank is up (R92). -/
def awaitsBank (s : State) (t : Transfer) : Bool :=
  t.kind.toScratch && t.dst.any (fun g => decide (powerAt s g.addr = .poweringUp))

/-- Land a transfer's data at its destination. A write that reaches a bank that is off faults the partition (R92). -/
def landData (s : State) (p : Nat) (t : Transfer) (data : List Byte) : State :=
  (t.dst.zip (granList data)).foldl (fun s e =>
    if t.kind.toScratch then
      let core := e.1.addr / 2 ^ 21
      if powerAt s e.1.addr = .off then raiseFault s p 0x0007 (core / 16) else
      let s := writeGranule s core e.1.addr e.2
      if t.poisoned.contains e.1.addr then
        updCore s core (fun c => { c with poison := insertNat e.1.addr c.poison })
      else s
    else match e.1.gen with
      | some g =>
        if genOk s e.1.addr g then writeStackGran s e.1.addr e.2 (t.poisoned.contains e.1.addr)
        else bump s (K.statTagMismatches p)
      | none => writeStackGran s e.1.addr e.2 (t.poisoned.contains e.1.addr)) s

/-- Mark destination granules poisoned. -/
def badPieces (s : State) (bad : List Nat) (t : Transfer) : State :=
  bad.foldl (fun s i =>
    match t.dst[i]? with
    | some g => updCore s (g.addr / 2 ^ 21) (fun c => { c with poison := insertNat g.addr c.poison })
    | none => s) s

/-- Count correctable stack errors: in a weight set's piece at corrected_errors (R232), elsewhere by the block of the
session's page (R206). -/
def countCorrected (s : State) (t : Transfer) (l : List Nat) : State :=
  l.foldl (fun s i =>
    if t.sources.any (fun x => x.1 == i) then bump s K.wtCorrectedErrors
    else match kvFind t.stackAt i with
      | some a => updBlk s (a / 2 ^ 37) (fun b => { b with corrected := b.corrected + 1 })
      | none => s) s

/-- DMA_TRANSFER_COMPLETE. `fin.bad` are the granules that met an uncorrectable stack error; the pieces they
come from are quarantined (R232). -/
def effXferDone (s : State) (ci index : Nat) (fin : DmaEnd) (hostData : List Byte) : State :=
  match (coreOf s ci).transfers[index]? with
  | none => s
  | some t =>
    if !t.ready ∨ awaitsBank s t then s else
    let p := (partAt s (ci / 16)).getD 0
    let host := decide (t.kind = .edgeRead) && fieldLe (channelOf s p t.channel) 0 1 == 1
    if fin.refused then
      if t.kind = .edgeWrite ∧ fieldLe (channelOf s p t.channel) 0 1 = 2 then
        raiseFault (endTransfer s ci t) p 0x0008 (ci / 16)
      else if host then
        endTransfer (badPieces (bump s K.pcieHostReadErrors) (List.range t.dst.length) t) ci t
      else endTransfer s ci t
    else
      let s := landData s p t (if host then padTo (64 * t.dst.length) hostData else t.data)
      let s := if t.kind = .stackRead ∨ t.kind = .gather ∨ (t.kind = .edgeRead ∧ !host) then badPieces s fin.bad t else s
      let s := countCorrected s t fin.corrected
      let s := (t.sources.filter (fun x => fin.bad.contains x.1)).foldl (fun s x => quarantine s x.2.1 x.2.2 1) s
      endTransfer s ci t

/-! ## Bank power (R88, R92, R105) -/

def bankOf (c : Core) (b : Nat) : Bank := kvGet {} c.banks b

/-- BANK_POWER with on = 0: the named scratch banks become pending-off. -/
def effBankOff (s : State) (ci : Nat) (mask : BitVec 32) : State :=
  updCore s ci (fun c => (List.range 32).foldl (fun (c : Core) b =>
    let k := bankOf c b
    if mask.getLsbD b && decide (k.mode = .scratch) && decide (k.power ≠ .off) then
      { c with banks := kvSet {} c.banks b { k with power := .pendingOff } }
    else c) c)

/-- BANK_POWER with on = 1: banks that are off, or that a request has marked to go off, start their zero fill. -/
def effBankOn (s : State) (ci : Nat) (mask : BitVec 32) : State :=
  updCore s ci (fun c => (List.range 32).foldl (fun (c : Core) b =>
    let k := bankOf c b
    if mask.getLsbD b && decide (k.mode = .scratch) then
      match k.power with
      | .off => { c with banks := kvSet {} c.banks b { k with power := .poweringUp } }
      | .pendingOff => { c with banks := kvSet {} c.banks b { k with power := .poweringUp } }
      | _ => c
    else c) c)

/-- BANK_POWER_UP_COMPLETE: the bank is zeros with good parity. -/
def effBankUp (s : State) (ci b : Nat) : State :=
  let c := coreOf s ci
  if (bankOf c b).power ≠ .poweringUp then s
  else
    let lo := scratchAddr ci b 0
    let s := { s with scratch := memZero s.scratch lo 65536 }
    setCore s ci { c with
      banks := kvSet {} c.banks b { bankOf c b with power := .on }
      poison := c.poison.filter (fun a => decide (a < lo ∨ lo + 65536 ≤ a)) }

/-- BANK_SWITCH_OFF: a pending-off bank whose count is zero goes off and loses its contents. -/
def effBankSwitchOff (s : State) (ci b : Nat) : State :=
  let c := coreOf s ci
  if (bankOf c b).power ≠ .pendingOff ∨ bankIncoming s ci b ≠ 0 then s
  else
    let lo := scratchAddr ci b 0
    setCore { s with scratch := memZero s.scratch lo 65536 } ci { c with
      banks := kvSet {} c.banks b { bankOf c b with power := .off }
      poison := c.poison.filter (fun a => decide (a < lo ∨ lo + 65536 ≤ a)) }

/-- Cores with writes in flight to destinations that meet a condition, in rising order. -/
def issuersTo (s : State) (scratch : Bool) (f : Nat → Bool) : List Nat :=
  (s.cores.filter (fun e => e.2.transfers.any (fun t =>
    (t.kind.toScratch == scratch) && (scratch || decide (t.kind = .stackWrite)) && t.dst.any (fun g => f g.addr)))).map (·.1)

/-- LATE_WRITE is counted and recorded once against each partition that issued the pending writes (R105). The record
names the lowest such core and its command position. -/
def lateWrite (s : State) (issuers : List Nat) (bank : Nat) : State :=
  (issuers.foldl (fun (acc : List Nat × State) ci =>
    match partAt acc.2 (ci / 16) with
    | some p =>
      if acc.1.contains p then acc
      else (p :: acc.1, recordCore (bump acc.2 (K.statLateWrites p)) p ci bank (coreOf acc.2 ci).pos)
    | none => acc) ([], s)).2

end Sys2Proof.Machine
end

