-- ==== Sys2Proof/Machine/Issue.lean ====
section
/-! DEFINITION. The sequencer of a core (R25, R65 to R68, R75, R76): which engine a command goes to, when it
may issue, what it does when it issues, and the commands that wait. -/

namespace Sys2Proof.Machine

/-! ## Classes of command -/

/-- The engine queue a command enters (R66). -/
def cmdEngine : CoreCmd → Option Engine
  | .mma _ | .attn _ _ => some .matrix
  | .arrMvm _ | .arrWrite _ => some .array
  | .vec _ _ => some .vector
  | .dmaLoad _ | .dmaStore _ | .dmaCore _ | .dmaEdgeIn _ | .dmaEdgeOut _ | .gather _ | .cinval => some .dma
  | .nop | .desc _ | .hurdle _ _ | .fence _ | .bankPower _ _ | .dmaWait _ _ => none

/-- The requester of a bank that a command is (R89). -/
def cmdRequester (c : CoreCmd) : Requester :=
  match cmdEngine c with
  | some .matrix => .matrix
  | some .array => .array
  | some .dma => .dma
  | _ => .vector

/-- Does issue hold until the command completes (R67)? -/
def cmdHolds : CoreCmd → Bool
  | .mma a => !a.async
  | .attn _ a => !a.async
  | .arrMvm a => !a.async
  | .arrWrite a => !a.async
  | .vec _ a => !a.async
  | .dmaLoad a | .dmaStore a => !a.async
  | .dmaCore a => !a.async
  | .dmaEdgeIn a | .dmaEdgeOut a => !a.async
  | .gather a => !a.async
  | _ => true

/-- The DMA counter a command adds to (R101). -/
def cmdCounter : CoreCmd → Option Nat
  | .dmaLoad a | .dmaStore a => some a.counter.toNat
  | .dmaCore a => some a.counter.toNat
  | .dmaEdgeIn a | .dmaEdgeOut a => some a.counter.toNat
  | .gather a => some a.counter.toNat
  | _ => none

/-- The token field that a command's energy is drawn from: 0 mx, 1 ar, 2 vu, 3 me (R343). -/
def cmdField (c : CoreCmd) : Option Nat :=
  match cmdEngine c with
  | some .matrix => some 0
  | some .array => some 1
  | some .vector => some 2
  | some .dma => some 3
  | none => match c with
    | .bankPower true _ => some 3
    | _ => none

def Core.queue (c : Core) : Engine → Nat
  | .matrix => c.qMatrix
  | .array => c.qArray
  | .vector => c.qVector
  | .dma => c.qDma

def Core.setQueue (c : Core) (e : Engine) (n : Nat) : Core :=
  match e with
  | .matrix => { c with qMatrix := n }
  | .array => { c with qArray := n }
  | .vector => { c with qVector := n }
  | .dma => { c with qDma := n }

/-- Depth of an engine queue (R66). -/
def queueDepth : Engine → Nat
  | .dma => 16
  | _ => 4

/-- The scratch areas a command reads and writes. -/
def cmdUses (s : State) (ci : Nat) (cmd : CoreCmd) : List Use :=
  let c := coreOf s ci
  let whole (i : BitVec 6) (w : Bool) : List Use := useOf c i w (64 * areaSize (descOf c i))
  match cmd with
  | .mma a => mmaUses c a
  | .attn op a => attnUses s ci op a
  | .arrMvm a => arrMvmUses c a
  | .arrWrite a => arrWriteUses c a
  | .vec fn a => vecUses s ci fn a
  | .dmaLoad a => whole a.loc true
  | .dmaStore a => whole a.loc false
  | .dmaCore a => whole a.loc false
  | .dmaEdgeIn a => whole a.loc true
  | .dmaEdgeOut a => whole a.loc false
  | .gather a => gatherUses c a
  | _ => []

/-- Is any bank that the command touches in a power state? -/
def touchesBank (s : State) (ci : Nat) (cmd : CoreCmd) (f : BankPower → Bool) : Bool :=
  (touchAddrs ci (cmdUses s ci cmd)).any (fun a => f (bankOf (coreOf s ci) (bankOfAddr a)).power)

/-! ## When a command may issue -/

/-- Have the engines completed what they were given? Bits as in FENCE (R76). -/
def Core.idle (c : Core) (engines : BitVec 4) : Bool :=
  (!engines.getLsbD 0 || c.qMatrix == 0) && (!engines.getLsbD 1 || c.qArray == 0) &&
    (!engines.getLsbD 2 || c.qVector == 0) && (!engines.getLsbD 3 || (c.qDma == 0 && c.transfers.isEmpty))

/-- Is the core's program longer than its program buffer (R65)? -/
def streamed (s : State) (ci : Nat) : Bool :=
  match programOf s ci with
  | some g => decide (g.even.length + g.odd.length > 4096)
  | none => false

/-- The credit a cluster has in a field, and whether the field's value is 0 (R344, R345). -/
def creditFor (s : State) (ci f : Nat) : Nat :=
  let cl := clusterOf s (ci / 16)
  if getAt 0 cl.tokens f = 0 then 0 else getAt 0 cl.credit f

/-- Events drawn from a credit in their order: what is left of the credit, and the events it does not cover. Of
an event above `top`, four refills, the credit covers a part, so that refills come to cover the whole. -/
def coverEvents (top : Nat) : Nat → List Nat → Nat × List Nat
  | credit, [] => (credit, [])
  | credit, e :: r =>
    if e ≤ credit then coverEvents top (credit - e) r
    else if top < e then (0, (e - credit) :: r) else (credit, e :: r)

/-- Core-rail voltage of a block in mV: the reading of the last report, or the set-point before there is one (DESIGN
CHOICE, log 185). -/
def railMv (s : State) (b : Nat) : Nat :=
  match (kvGet (0, 0, 0) s.plant.report (b * 6)).2.1 with
  | 0 => (blkOf s b).setPoint / 10
  | n => n

/-- Energy of a metered event: for a core-rail unit scaled by (voltage / 0.75 V) squared, in whole pJ (R344). -/
def eventPj (s : State) (ci : Nat) (e : Metered) : Nat :=
  let v := railMv s (blockOf (ci / 16))
  if e.core then e.pj * v * v / (750 * 750) else e.pj

/-- Draw a command's metered events from the credit of its field (R344). -/
def coverCmd (s : State) (ci f : Nat) (w : Waiting) : Nat × List Nat :=
  coverEvents (4 * 15625 * getAt 0 (clusterOf s (ci / 16)).tokens f) (creditFor s ci f) (w.env.events.map (eventPj s ci))

/-- Does an event of the command exceed its field's credit? -/
def overdraws (s : State) (ci : Nat) (w : Waiting) : Bool :=
  match cmdField w.cmd with
  | some f => (coverCmd s ci f w).2 != []
  | none => false

/-- Everything but credit that issue of a command waits for. -/
def readyToIssue (s : State) (ci : Nat) (cmd : CoreCmd) : Bool :=
  let c := coreOf s ci
  (!(streamed s ci) || decide (0 < c.ahead)) &&
  (match cmdEngine cmd with
    | some e => decide (c.queue e < queueDepth e)
    | none => true) &&
  (match cmdCounter cmd with
    | some k => decide (kvGet 0 c.counters k < 4095)
    | none => true) &&
  !(touchesBank s ci cmd (fun x => decide (x = .poweringUp))) &&
  (match cmd with
    | .fence e => c.idle e
    | .dmaWait k t => decide (kvGet 0 c.counters k.toNat ≤ t.toNat)
    | .hurdle form a => form == 2 || (c.idle 7 && (!a.checkpoint || writesInFlight c == 0))
    | _ => true)

/-! ## What holds a sequencer (R55) -/

/-- Cause of a wait for a transfer: a stack or a host window is memory, another core the network, another
module remote. -/
def xferCause (s : State) (p : Nat) (t : Transfer) : StallCause :=
  match t.kind with
  | .stackRead | .stackWrite | .gather => .memory
  | .coreWrite => .network
  | .edgeRead | .edgeWrite => if fieldLe (channelOf s p t.channel) 0 1 = 2 then .remote else .memory

/-- Cause of a hold, or of a command that cannot issue for another reason than credit. Waiting for an engine to
compute has none. -/
def holdCause (s : State) (p ci : Nat) (cmd : CoreCmd) : StallCause :=
  let c := coreOf s ci
  match c.hold with
  | .engine _ _ => .none
  | .hurdle _ => c.stall
  | .transfer id => match c.transfers.reverse.find? (fun t => t.id == id) with
    | some t => xferCause s p t
    | none => .memory
  | .none =>
    if streamed s ci && c.ahead == 0 then .memory
    else if touchesBank s ci cmd (fun x => decide (x = .poweringUp)) then .memory
    else match cmd with
      | .fence _ | .dmaWait _ _ | .hurdle _ _ | .dmaLoad _ | .dmaStore _ | .dmaCore _ | .dmaEdgeIn _
      | .dmaEdgeOut _ | .gather _ | .cinval => match c.transfers with
        | t :: _ => xferCause s p t
        | [] => .none
      | _ => .none

def markStall (s : State) (ci : Nat) (x : StallCause) : State := updCore s ci (fun c => { c with stall := x })

/-! ## What a command does when it issues -/

/-- Arrival at a hurdle (R30, R32): an unexpected number faults the partition. The core's replay request bit goes
with the arrival at a checkpoint (R46) and its widen bits with any arrival (R166): what is set later belongs to
the next. -/
def arriveAt (s : State) (p ci : Nat) (form : BitVec 2) (a : HurdleArgs) : State :=
  let pt := partOf s p
  let h := a.hurdle.toNat
  if h ≠ pt.hurdle then raiseFault s p 0x0001 (ci / 16)
  else
    let s := setPart s p { pt with arrived := insertNat ci pt.arrived, lastLate := ci, remoteLast := false }
    updCore s ci (fun c => { c with
      arrived := some h, arrival := some a, arrivedAt := c.pos, rngArrived := c.rng
      sentReplay := a.checkpoint && c.replayReq, replayReq := !a.checkpoint && c.replayReq
      widenSent := c.widenOut, widenOut := []
      hold := if form = 0 then .hurdle h else c.hold })

/-- The wait of a split pair (R30). -/
def waitAt (s : State) (ci : Nat) (a : HurdleArgs) : State :=
  updCore s ci (fun c =>
    if c.clearedSplit = some a.hurdle.toNat then { c with clearedSplit := none }
    else { c with hold := .hurdle a.hurdle.toNat })

/-- The effect of a command on its engine, memory and flags. -/
def cmdEffect (s : State) (p ci idx : Nat) (w : Waiting) : State :=
  match w.cmd with
  | .nop => s
  | .desc a => updCore s ci (fun c => { c with descs := kvSet 0 c.descs a.index.toNat a.desc })
  | .hurdle form a => if form = 2 then waitAt s ci a else arriveAt s p ci form a
  | .fence _ => s
  | .bankPower true m => effBankOn s ci m
  | .bankPower false m => effBankOff s ci m
  | .mma a => effMma s ci a
  | .arrMvm a => effArrMvm s ci w.env a
  | .arrWrite a => effArrWrite s ci w.env a
  | .attn op a =>
    if op = 0 then effAttnFull s p ci idx a w.bad
    else if op = 1 then effAttnPartial s p ci a w.bad
    else effAttnMerge s ci a
  | .vec fn a => effVec s ci fn a
  | .dmaLoad a => effDmaLoad s p ci a
  | .dmaStore a => effDmaStore s p ci w.env a
  | .dmaCore a => effDmaCore s p ci w.env a
  | .dmaEdgeIn a => effDmaEdgeIn s p ci a
  | .dmaEdgeOut a => effDmaEdgeOut s p ci w.env a
  | .dmaWait _ _ => s
  | .gather a => effGather s p ci idx w.env a
  | .cinval => invalidateCache s ci

/-- A cluster's credit in a field becomes what covering events has left of it. -/
def setCredit (s : State) (ci f n : Nat) : State :=
  updCluster s (ci / 16) (fun c => { c with credit := setAt c.credit f n })

/-- The command enters its engine's queue, draws its energy, and holds issue if it is synchronous. -/
def enqueue (s : State) (p ci : Nat) (w : Waiting) (firstId : Nat) : State :=
  let s := match cmdField w.cmd with
    | some f => if w.env.events = [] then s else setCredit s ci f (coverCmd s ci f w).1
    | none => s
  match cmdEngine w.cmd with
  | none => s
  | some e =>
    let s := updCore s ci (fun c =>
      let c := c.setQueue e (c.queue e + 1)
      if !(cmdHolds w.cmd) then c
      else if (cmdCounter w.cmd).isSome then
        (if c.nextXfer ≠ firstId then { c with hold := .transfer firstId } else c)
      else { c with hold := .engine e (c.queue e) })
    if cmdHolds w.cmd then markStall s ci (holdCause s p ci w.cmd) else s

/-- The sequencer moves past a command. -/
def advance (s : State) (ci : Nat) : State :=
  let long := streamed s ci
  updCore s ci (fun c => { c with pos := c.pos + 1, ahead := if long then c.ahead - 1 else c.ahead })

/-- Issue a command. An ARR_MVM whose chain is outside the lap mask is not issued: its fallback block
follows; one that is issued skips that block (R124). -/
def issueCmd (s : State) (p ci : Nat) (w : Waiting) : State :=
  let idx := (coreOf s ci).pos
  let s := advance s ci
  let fallback := match w.cmd with
    | .arrMvm a => !(chainIn s ci a)
    | _ => false
  if fallback then bump s (K.statFallbacks p)
  else if touchesBank s ci w.cmd (fun x => decide (x = .off)) then raiseFault s p 0x0007 (ci / 16)
  else
    let s := commandErrors s p ci idx (cmdRequester w.cmd) w.env (readAddrs ci (cmdUses s ci w.cmd))
    let id := (coreOf s ci).nextXfer
    let s := enqueue (cmdEffect s p ci idx w) p ci w id
    match w.cmd with
    | .arrMvm a => updCore s ci (fun c => { c with skip := a.fbSkip.toNat })
    | _ => s

/-- Skip one command (R124, R166). -/
def skipCmd (s : State) (ci : Nat) : State :=
  advance (updCore s ci (fun c => { c with skip := c.skip - 1 })) ci

/-- The CHECK that a command is, where the sequencer skips it with its block (R164, R169). -/
def skippedCheck (s : State) (p ci : Nat) : CoreCmd → Option VecArgs
  | .vec .check a => if checkSkipped s p ci a then some a else none
  | _ => none

/-- The sequencer passes over a CHECK and its block: nothing of it issues. -/
def passCheck (s : State) (ci : Nat) (a : VecArgs) : State := skipBlock (advance s ci) ci a

/-- An event beyond the credit holds its unit until refills cover it (R345): the events before it are drawn, and
the overdraw is counted once for each event. -/
def holdOverdraw (s : State) (p ci : Nat) (w : Waiting) (rest : List Waiting) : State :=
  match cmdField w.cmd with
  | none => s
  | some f =>
    let x := coverCmd s ci f w
    let s := if w.overdrawn && x.2.length == w.env.events.length then s
      else bump (bump s (K.statOverdraws p)) K.pacerOverdraws
    let s := markStall (setCredit s ci f x.1) ci .pacer
    updCore s ci (fun c => { c with
      waiting := { w with env := { w.env with events := x.2.map (fun n => { pj := n, core := false }) }, overdrawn := true } :: rest })

/-- Issue what waits, as long as it can issue. -/
def drain (p ci : Nat) : Nat → State → State
  | 0, s => s
  | n + 1, s =>
    let c := coreOf s ci
    match c.waiting with
    | [] => s
    | w :: rest =>
      if c.hold ≠ .none then markStall s ci (holdCause s p ci w.cmd)
      else if 0 < c.skip then drain p ci n (skipCmd (updCore s ci (fun c => { c with waiting := rest })) ci)
      else if let some a := skippedCheck s p ci w.cmd then
        drain p ci n (passCheck (updCore s ci (fun c => { c with waiting := rest })) ci a)
      else if !(readyToIssue s ci w.cmd) then markStall s ci (holdCause s p ci w.cmd)
      else if overdraws s ci w then holdOverdraw s p ci w rest
      else drain p ci n (issueCmd (updCore s ci (fun c => { c with waiting := rest })) p ci w)

/-- Let a core go on issuing. -/
def resume (s : State) (ci : Nat) : State :=
  match partAt s (ci / 16) with
  | some p => if (partOf s p).runs then drain p ci (coreOf s ci).waiting.length s else s
  | none => s

/-- A command reaches a core's sequencer: it joins those that wait, and the sequencer issues what it can. -/
def coreCmd (s : State) (ci : Nat) (w : Waiting) : State :=
  match partAt s (ci / 16) with
  | some p =>
    if (partOf s p).runs then
      resume (updCore s ci (fun c => { c with waiting := c.waiting ++ [w] })) ci
    else s
  | none => s

/-- ENGINE_COMMAND_COMPLETE (R66, R65). -/
def effEngineDone (s : State) (ci : Nat) (e : Engine) (progParity : Bool) : State :=
  let c := coreOf s ci
  let c := if progParity then { c with progParity := c.progParity + 1 } else c
  if c.queue e = 0 then setCore s ci c
  else
    let c := c.setQueue e (c.queue e - 1)
    let c := match c.hold with
      | .engine f left =>
        if f ≠ e then c else { c with hold := if left ≤ 1 then .none else .engine f (left - 1) }
      | _ => c
    setCore s ci c

/-- STREAMED_COMMAND_ARRIVAL (R65). -/
def effStreamed (s : State) (ci : Nat) (progParity : Bool) : State :=
  updCore s ci (fun c => { c with
    ahead := Nat.min 4096 (c.ahead + 1)
    progParity := if progParity then c.progParity + 1 else c.progParity })

end Sys2Proof.Machine
end

