-- ==== Sys2Proof/Machine/Sessions.lean ====
section
/-! DEFINITION. Sessions as the queue engine and the home dies hold them (R249 to R256): their commands and
pending positions, the completion of a command, the end of a session, and paging to host memory (R203). -/

namespace Sys2Proof.Machine

/-! ## Entries and the functions they come from (R242, R456) -/

def eOp (e : List Byte) : Nat := fieldLe e 0 1
def eTag (e : List Byte) : Nat := fieldLe e 2 2
def eSess (e : List Byte) : Nat := fieldLe e 4 2
def ePart (e : List Byte) : Nat := fieldLe e 6 1

/-- A ring's entry in a function's ranges: base and count. -/
def subRange (s : State) (fn : Nat) : Nat × Nat :=
  (domField s K.pcieRingRanges (8 * fn) 2, domField s K.pcieRingRanges (8 * fn + 2) 2)
def sessRange (s : State) (fn : Nat) : Nat × Nat :=
  (domField s K.sessSessionRanges (4 * fn) 2, domField s K.sessSessionRanges (4 * fn + 2) 2)

def inRange (r : Nat × Nat) (i : Nat) : Bool := decide (r.1 ≤ i) && decide (i < r.1 + r.2)

def functionCount : Nat := 128

/-- The function whose range holds a submission ring. -/
def fnOfSub (s : State) (r : Nat) : Option Nat := (List.range functionCount).find? (fun f => inRange (subRange s f) r)

/-- The function of a ring. -/
def ringFn (s : State) (ring : Nat) : Nat := (fnOfSub s ring).getD 0

/-! ## Commands of a session -/

def SessCmd.isPrompt (c : SessCmd) : Bool := c.opcode == 2
def SessCmd.isGen (c : SessCmd) : Bool := c.opcode == 3
/-- Positions of a PROMPT_APPEND. -/
def SessCmd.count (c : SessCmd) : Nat := fieldLe c.bytes 16 4
/-- Positions of a PROMPT_APPEND not yet consumed. -/
def SessCmd.left (c : SessCmd) : Nat := if c.isPrompt then c.count - c.consumed else 0
def SessCmd.maxTokens (c : SessCmd) : Nat := fieldLe c.bytes 8 4
def SessCmd.specK (c : SessCmd) : Nat := fieldLe c.bytes 42 1
def SessCmd.genFlags (c : SessCmd) : Nat := fieldLe c.bytes 43 1

/-- Prompt positions that wait: those of fetched PROMPT_APPENDs, and a held one (R254). -/
def Session.pendingPositions (x : Session) : Nat :=
  (x.cmds.map SessCmd.left).foldl (· + ·) 0 + (if x.held.isSome then 1 else 0)

/-- Has a GENERATE been fetched? -/
def Session.hasGen (x : Session) : Bool := x.cmds.any (fun c => c.isGen)

/-- The GENERATE that runs: the first, once every earlier PROMPT_APPEND has completed. -/
def Session.running (x : Session) : Option SessCmd := x.cmds.find? (fun c => c.isGen)

/-- Is no PROMPT_APPEND ahead of the first GENERATE? -/
def Session.genFirst (x : Session) : Bool :=
  match x.cmds.find? (fun c => c.isPrompt || c.isGen) with
  | some c => c.isGen
  | none => false

/-- Replace the first command that meets a condition. -/
def updFirst {α : Type} (p : α → Bool) (f : α → α) : List α → List α
  | [] => []
  | x :: r => if p x then f x :: r else x :: updFirst p f r

def updGen (x : Session) (f : SessCmd → SessCmd) : Session :=
  { x with cmds := updFirst (fun c => c.isGen) f x.cmds }

/-- Committed token records so far, written or not. -/
def Session.recordCount (x : Session) : Nat := x.tokW + x.records.length

/-- Result bytes of a session's command (R246); `len` is the session's committed length. -/
def cmdResult (c : SessCmd) (reason len : Nat) : List Byte :=
  if c.opcode = 6 then natLe len 4
  else if c.isPrompt then natLe c.consumed 4
  else if c.isGen then natLe c.released 4 ++ natLe reason 1 ++ [0, 0, 0] ++ natLe c.lastPos 4
  else []

/-- Complete one command of a session; its records are written first (promise C). -/
def doneCmd (s : State) (sess : Nat) (c : SessCmd) (status reason flags : Nat) (ending : Bool := false) : State :=
  complete s c.ring {
    tag := c.tag, opcode := c.opcode, status, session := sess, flags
    result := cmdResult c reason (sessOf s sess).len, recordSession := some sess
    records := (sessOf s sess).recordCount, ending }

/-- Take a command out of a session. -/
def dropCmd (s : State) (sess : Nat) (c : SessCmd) : State :=
  updSess s sess (fun x => { x with cmds := x.cmds.filter (fun y => !(y.ring == c.ring && y.tag == c.tag && y.opcode == c.opcode)) })

/-- The session is ACTIVE while a PROMPT_APPEND or GENERATE is queued (R250); a GENERATE that starts gives its
seed (R265). -/
def settleState (s : State) (sess : Nat) : State :=
  updSess s sess (fun x =>
    let x := if x.genFirst then { x with seed := (x.running.map (·.seed)).getD x.seed } else x
    let busy := x.cmds.any (fun c => c.isPrompt || c.isGen)
    if x.state = .idle ∧ busy then { x with state := .active }
    else if x.state = .active ∧ !busy then { x with state := .idle }
    else x)

def finishCmd (s : State) (sess : Nat) (c : SessCmd) (status reason : Nat) : State :=
  settleState (dropCmd (doneCmd s sess c status reason 0) sess c) sess

/-! ## The end of a session (R251, R270) -/

/-- Reason code of a GENERATE that a session's end stops (R246). -/
def endReason (status : Nat) : Nat := if status = stCancelled then 3 else 4

/-- Does an entry fetched from a ring, and not yet dispatched, name a session as its own function's? SESSION_OPEN
names no open session. -/
def entryNames (s : State) (ring sess : Nat) (e : List Byte) : Bool :=
  decide (2 ≤ eOp e) && decide (eOp e ≤ 0x11) && eSess e == sess && inRange (sessRange s (ringFn s ring)) sess &&
    (sessOf s sess).fn == ringFn s ring

/-- The fetched commands of a session that have not been dispatched. -/
def undispatched (s : State) (sess : Nat) : List SessCmd :=
  s.subRings.flatMap (fun r => ((r.2.dispatch.zip r.2.fetchOrder).filter (fun e => entryNames s r.1 sess e.1)).map (fun e =>
    { ring := r.1, tag := eTag e.1, opcode := eOp e.1, bytes := e.1, order := e.2 }))

/-- The entries at the places named leave their rings. -/
def takeUndispatched (s : State) (l : List SessCmd) : State :=
  l.foldl (fun s c => updSub s c.ring (fun q =>
    let keep := (q.dispatch.zip q.fetchOrder).filter (fun e => e.2 != c.order)
    { q with dispatch := keep.map (·.1), fetchOrder := keep.map (·.2) })) s

/-- The completions of an ending session, in fetch order, those of fetched commands not yet dispatched among them;
the last carries flags bit 1. A CANCEL that is outstanding completes last: with SUCCESS when the end is its own. -/
def endCompletions (s : State) (sess status : Nat) (byCancel : Bool) : State :=
  let x := sessOf s sess
  let late := undispatched s sess
  let cancel := match x.cancel with
    | some c => some c
    | none => (late.find? (fun c => c.opcode == 5)).map (fun c => (c.ring, c.tag))
  let late := late.filter (fun c => c.opcode != 5 || (x.cancel.isNone && some (c.ring, c.tag) == cancel))
  let s := takeUndispatched s late
  let cmds := sortBy (fun a b => decide (a.order ≤ b.order)) (x.cmds ++ late.filter (fun c => c.opcode != 5))
  let n := cmds.length
  let s := cmds.zipIdx.foldl (fun s e =>
    let last := cancel.isNone && (e.2 + 1 == n)
    doneCmd s sess e.1 status (endReason status) (if last then 2 else 0) true) s
  match cancel with
  | some (ring, tag) =>
    complete s ring {
      tag, opcode := 5, status := if byCancel then stSuccess else status, session := sess, flags := 2
      result := natLe x.len 4, recordSession := some sess, records := x.recordCount, ending := true }
  | none =>
    if n = 0 then completeUnsolicited s x.openRing sess status x.recordCount else s

/-- Child contexts of FORKs that have not taken effect go with their parent. -/
def dropChildren (s : State) (sess : Nat) : State :=
  (s.sessions.filter (fun e => e.2.parent == some sess)).foldl (fun s e => setSess s e.1 {}) s

/-- Frames reserved for a restore and not taken are free again (R204). -/
def dropReserved (s : State) (sess : Nat) : State :=
  let s := (sessOf s sess).reserved.foldl (fun s e => updFrame s (frameKey e.1 e.2) (fun f =>
    if f.use = .reserved then { f with use := .free } else f)) s
  updSess s sess (fun y => { y with reserved := [] })

/-- A session that ends while it holds a lane is cut out of the lap in progress (R41, R190). -/
def cutLane (s : State) (sess : Nat) : State :=
  let p := (sessOf s sess).part
  if (partOf s p).lanes.any (fun e => e.2.session == sess) then
    updPart s p (fun x => { x with cutSessions := insertNat sess x.cutSessions })
  else s

/-- A session whose completions are formed is ENDING: its entries stop translating, its pages and slots go. -/
def retireSession (s : State) (sess : Nat) : State :=
  let s := cutLane (dropReserved s sess) sess
  let s := dropChildren (freeSessionPages s (sessOf s sess).part sess) sess
  updSess s sess (fun x => { x with
    state := .ending, cmds := [], cancel := none, drafts := [], nextDrafts := [], sampled := []
    slots := [], image := [], held := none, abortStatus := none, bitmaps := []
    root := [] })

/-- A session ends: its commands complete, and it retires. -/
def endSession (s : State) (sess status : Nat) (byCancel : Bool := false) : State :=
  let x := sessOf s sess
  if x.state = .free ∨ x.state = .ending then s
  else retireSession (endCompletions s sess status byCancel) sess

/-- Do a PCI Express port's rings carry a class-0 session (R466)? -/
def portClass0 (s : State) (port : Nat) : Bool :=
  s.sessions.any (fun e => decide (e.2.state ≠ .free) && !e.2.shadow && e.2.cls == 0 && e.2.port == port)

/-- A retrain of a port that waited for its class-0 sessions starts (R466). -/
def releasePorts (s : State) : State :=
  [0, 1].foldl (fun s i =>
    if (portOf s i).retrainDue && !(portClass0 s i) then
      let s := recordEvent s { code := 0xD000, source := .pciePort, location := i, payload := natLe i 1 ++ [2, 3] }
      updPort s i (fun x => { x with retrainDue := false, state := 3 })
    else s) s

/-- A session ends without completions (R464): nothing more of it is posted or written. -/
def dropSession (s : State) (sess : Nat) : State :=
  let x := sessOf s sess
  if x.state = .free then s
  else
    let s := freeSessionPages (cutLane (dropReserved s sess) sess) x.part sess
    releasePorts (dropUnowned (setSess (dropChildren s sess) sess {}))

/-- The context of an ENDING session is cleared once its last completion is posted (R250). -/
def clearSession (s : State) (sess : Nat) : State :=
  let posted := !(s.compRings.any (fun r => r.2.ready.any (fun c => c.recordSession == some sess)))
  if (sessOf s sess).state = .ending ∧ !(sessOf s sess).hostLost ∧ posted then releasePorts (dropUnowned (setSess s sess {})) else s

/-! ## Lanes -/

/-- A session's state as it is shown: from the fetch of a CANCEL it is ENDING (R250). -/
def Session.shown (x : Session) : SessState := if x.cancel.isSome then .ending else x.state

/-- Does a session hold a lane? -/
def holdsLane (s : State) (sess : Nat) : Bool :=
  (partOf s (sessOf s sess).part).lanes.any (fun e => e.2.session == sess)

/-- Open sessions of a class, or of a partition. -/
def openOfClass (s : State) (c : Nat) : Nat :=
  (s.sessions.filter (fun e => decide (e.2.state ≠ .free) && e.2.cls == c)).length
def openOf (s : State) (p : Nat) : List Nat :=
  (s.sessions.filter (fun e => decide (e.2.state ≠ .free) && !e.2.shadow && e.2.part == p)).map (·.1)

/-- Sessions homed on a die, of whatever partition (R249). -/
def homedOn (s : State) (d : Nat) : Nat :=
  (s.sessions.filter (fun e => decide (e.2.state ≠ .free) && !e.2.shadow && e.2.homeDie == d)).length

/-- The home die of a new session: the partition's die with the fewest sessions homed there, the lower number on a
tie. -/
def homeDieFor (s : State) (p : Nat) : Nat :=
  let homed (d : Nat) : Nat := homedOn s d
  match (partOf s p).dies with
  | [] => 0
  | d :: r => r.foldl (fun best x => if homed x < homed best then x else best) d

/-! ## Paging to host memory (R202 to R204) -/

/-- Swap slots of a partition that no session holds. -/
def freeSlots (s : State) (p : Nat) : List Nat :=
  let used := (openOf s p).flatMap (fun i => (sessOf s i).slots)
  (List.range (odGet s (K.partHostSwapPages p))).filter (fun k => !(used.contains k))

/-- The leaf tables of a session and their pages, as they are written out. -/
def sessionImage (s : State) (sess : Nat) : List EvTable :=
  ((sessOf s sess).root.filter (fun r => eV r.2)).flatMap (fun r =>
    ((tableEntries s (frameAddr (eBlock r.2) (eFrame r.2))).filter (fun l => eV l.2)).map (fun l =>
      { place := r.1 * 2 ^ 13 + l.1, block := eBlock l.2
        pages := ((tableEntries s (frameAddr (eBlock l.2) (eFrame l.2))).filter (fun e => eV e.2)).map (fun e =>
          { idx := e.1, block := eBlock e.2, data := memReadN s.stack (frameAddr (eBlock e.2) (eFrame e.2)) 65536 }) }))

/-- Slots an image needs: one for each page and each leaf table. -/
def imageSlots (im : List EvTable) : Nat := im.foldl (fun n t => n + t.pages.length + 1) 0

/-- The bytes of an image in transfer order: pages, then leaf tables. -/
def imagePages (im : List EvTable) : List Byte := im.flatMap (fun t => t.pages.flatMap (fun p => p.data))

/-- KV_EVICT takes effect at a boundary (orders 1 and 2 of R203). -/
def startEvict (s : State) (sess : Nat) (c : SessCmd) : State :=
  let x := sessOf s sess
  let im := sessionImage s sess
  let need := imageSlots im
  let free := freeSlots s x.part
  if free.length < need ∨ odGet s (K.partHostSwapPages x.part) = 0 then finishCmd s sess c stKvSwapFull 0
  else
    let slots := free.take need
    let base := odGet s (K.partHostSwapBase x.part)
    let port := odGet s (K.partHostSwapPort x.part)
    let tables := im.map (fun t => memReadN s.stack (match kvGet 0 x.root (t.place / 2 ^ 13) with
      | r => let l := readEntry s (frameAddr (eBlock r) (eFrame r)) (t.place % 2 ^ 13)
             frameAddr (eBlock l) (eFrame l)) 65536)
    let blobs := im.flatMap (fun t => t.pages.map (fun p => p.data)) ++ tables
    let s := (slots.zip blobs).foldl (fun s e => emit s (.hostWrite port (base + 65536 * e.1) e.2)) s
    updSess s sess (fun x => { x with
      before := x.state, state := .evicting, slots, image := im
      digest := sha3 (imagePages im ++ tables.flatMap (fun b => b))
      cmds := x.cmds.map (fun y => if y.tag = c.tag ∧ y.ring = c.ring then { y with running := true } else y) })

/-- The paging command under way of a session. -/
def pagingCmd (x : Session) : Option SessCmd :=
  x.cmds.find? (fun c => (c.opcode == 0x10 || c.opcode == 0x11) && c.running)

/-- Result of a paging command: slots moved. -/
def finishPaging (s : State) (sess status moved : Nat) : State :=
  match pagingCmd (sessOf s sess) with
  | none => s
  | some c =>
    let s := complete s c.ring {
      tag := c.tag, opcode := c.opcode, status, session := sess, result := natLe moved 4
      recordSession := some sess, records := (sessOf s sess).recordCount }
    settleState (dropCmd s sess c) sess

/-- Set the leaf and L2 entries of an evicted session to H = 1 and free its frames (order 3 of R203). -/
def evictEntries (s : State) (p sess : Nat) : State :=
  let slots := (sessOf s sess).slots
  let leaves := (leafEntries s sess).filter (fun e => eV e.2.2.1)
  let s := leaves.zipIdx.foldl (fun s x =>
    let e := x.1.2.2.1
    writeEntry (dropFrame s (eBlock e) (eFrame e)) x.1.1 x.1.2.1 (hostEntry (eBlock e) (getAt 0 slots x.2))) s
  let n := slots.length - (sessOf s sess).image.length
  let s := (leafTables s sess).zipIdx.foldl (fun s x =>
    let e := x.1.2.2
    if eV e then writeEntry (dropFrame s (eBlock e) (eFrame e)) x.1.1 x.1.2.1 (hostEntry (eBlock e) (getAt 0 slots (n + x.2)))
    else s) s
  tlbDropSession s p sess

/-- KV_EVICT_TRANSFER_COMPLETE (R203 orders 3 and 4, R204). -/
def effEvictDone (s : State) (sess : Nat) (ok : Bool) : State :=
  let x := sessOf s sess
  if x.state ≠ .evicting then s
  else if ok then
    let n := x.slots.length
    let s := updSess (evictEntries s x.part sess) sess (fun x => { x with state := .evicted })
    let s := bump s (K.statPagesEvicted x.part) n
    finishPaging s sess stSuccess n
  else
    let s := updSess s sess (fun x => { x with state := x.before, slots := [], image := [], digest := [] })
    finishPaging s sess stHostAccess 0

/-- Frames that a restore takes, by block. -/
def restoreNeeds (im : List EvTable) (b : Nat) : Nat :=
  im.foldl (fun n t => n + (if t.block = b then 1 else 0) + (t.pages.filter (fun p => p.block == b)).length) 0

/-- May a session's class take `n` frames of a block (R195)? -/
def framesFit (s : State) (p b cls n : Nat) : Bool :=
  let free := freeFrames s b
  n == 0 || (decide (n ≤ free) && (cls == 0 || decide (odGet s (K.partClass0Reserve p) + n ≤ free)))

/-- Reserve frames of the blocks that an image's tables and pages name (order 5 of R203). -/
def reserveFrames (s : State) (sess : Nat) (blocks : List Nat) : State :=
  blocks.foldl (fun s b =>
    let x := pickFrame s b
    let s := updFrame x.2 (frameKey b x.1) (fun f => { f with use := .reserved })
    updSess s sess (fun y => { y with reserved := y.reserved ++ [(b, x.1)] })) s

/-- Blocks of the frames of an image, in the order in which they are read back: leaf tables, then pages. -/
def imageBlocks (im : List EvTable) : List Nat := im.map (·.block) ++ im.flatMap (fun t => t.pages.map (·.block))

/-- KV_RESTORE takes effect at a boundary (order 5 of R203): leaf tables and then pages are read back. -/
def startRestore (s : State) (sess : Nat) (c : SessCmd) : State :=
  let x := sessOf s sess
  if (partOf s x.part).blocks.all (fun b => framesFit s x.part b x.cls (restoreNeeds x.image b)) then
    let base := odGet s (K.partHostSwapBase x.part)
    let port := odGet s (K.partHostSwapPort x.part)
    let n := x.slots.length - x.image.length
    let s := (x.slots.drop n ++ x.slots.take n).foldl (fun s k => emit s (.hostRead port (base + 65536 * k) 65536)) s
    updSess (reserveFrames s sess (imageBlocks x.image)) sess (fun x => { x with
      state := .restoring
      cmds := x.cmds.map (fun y => if y.tag = c.tag ∧ y.ring = c.ring then { y with running := true } else y) })
  else finishCmd s sess c stKvNoPages 0

/-- Take a frame of a block from those reserved for a session. -/
def takeReserved (s : State) (p sess b : Nat) : Option Nat × State :=
  match (sessOf s sess).reserved.find? (fun e => e.1 == b) with
  | none => (none, s)
  | some e =>
    let s := updSess s sess (fun y => { y with reserved := y.reserved.filter (· ≠ e) })
    (some e.2, bump (takeFrame s b e.2) (K.statKvPagesDrawn p))

/-- Read one leaf table and its pages back into new frames: entries valid, not shared (order 7 of R203). -/
def restoreTable (s : State) (p sess : Nat) (t : EvTable) : State :=
  let r := kvGet 0 (sessOf s sess).root (t.place / 2 ^ 13)
  match takeReserved s p sess t.block with
  | (none, s) => s
  | (some f, s) =>
    let s := { s with stack := memZero s.stack (frameAddr t.block f) 65536 }
    let s := writeEntry s (frameAddr (eBlock r) (eFrame r)) (t.place % 2 ^ 13) (tableEntry t.block f)
    t.pages.foldl (fun s pg =>
      match takeReserved s p sess pg.block with
      | (none, s) => s
      | (some g, s) =>
        let s := { s with stack := memWriteN s.stack (frameAddr pg.block g) pg.data }
        let e := leafEntry pg.block g (frameOf s (frameKey pg.block g)).gen 0
        writeEntry s (frameAddr t.block f) pg.idx (setBit e 2 false)) s

/-- KV_RESTORE_TRANSFER_COMPLETE (R203 orders 6 and 7, R204). -/
def effRestoreDone (s : State) (sess : Nat) (fin : RestoreEnd) : State :=
  let x := sessOf s sess
  if x.state ≠ .restoring then s
  else match fin with
    | .hostError => finishPaging (updSess (dropReserved s sess) sess (fun x => { x with state := .evicted })) sess stHostAccess 0
    | .digestMismatch => endSession (dropReserved s sess) sess stKvIntegrity
    | .ok =>
      let n := x.slots.length
      let s := x.image.foldl (fun s t => restoreTable s x.part sess t) s
      let s := updSess s sess (fun x => { x with state := .idle, slots := [], image := [], digest := [] })
      let s := bump s (K.statPagesRestored x.part) n
      settleState (finishPaging s sess stSuccess n) sess

/-- A CANCEL or CLOSE stops a session's paging: the paging command completes with CANCELLED (R204). -/
def stopPaging (s : State) (sess : Nat) : State :=
  match pagingCmd (sessOf s sess) with
  | none => s
  | some _ =>
    let s := finishPaging (dropReserved s sess) sess stCancelled 0
    updSess s sess (fun x =>
      if x.state = .evicting then { x with state := x.before, slots := [], image := [], digest := [] }
      else if x.state = .restoring then { x with state := .evicted }
      else x)

end Sys2Proof.Machine
end

