-- ==== Sys2Proof/Machine/Starter.lean ====
section
/-! DEFINITION. The starter (R259 to R263): which sessions are ready, the lane table of the next lap, its
prefill blocks and drafts, its share variants, and the reads of prompt tokens it starts (R253, R254). -/

namespace Sys2Proof.Machine

/-! ## Readiness (R262) -/

/-- Positions a session may hold (R177). -/
def kvMax (s : State) (p : Nat) : Nat := inForce s p (K.partKvMaxPositions p)

/-- Free records of a session's token ring (R241). -/
def tokenRoom (x : Session) : Nat :=
  let size := 2 ^ x.tokenLog2
  size - 1 - ((x.tokW % size + size - x.tokHead) % size + x.records.length)

/-- The bitmap slot that serves a position, with the slot remembered before it (R266). -/
def slotFor (x : Session) (remembered : Option (List Byte)) (pos : Nat) : Option (List Byte) :=
  let b := kvGet [] x.bitmaps (pos % 2 ^ x.bitmapLog2)
  if b ≠ [] ∧ (fieldLe b 4 1) % 2 = 1 ∧ fieldLe b 0 4 = pos then some b
  else match remembered with
    | some r => if fieldLe r 0 4 < pos then some r else none
    | none => none

def bitmapFor (x : Session) (pos : Nat) : Option (List Byte) := slotFor x x.remembered pos

/-- The slots that serve positions from `pos` on: one used with hold set is remembered for those after it. -/
def slotsFrom (x : Session) (remembered : Option (List Byte)) (pos : Nat) : Nat → List (Option (List Byte))
  | 0 => []
  | n + 1 =>
    let b := slotFor x remembered pos
    let keep := match b with
      | some y => if (fieldLe y 4 1).testBit 1 then b else remembered
      | none => remembered
    b :: slotsFrom x keep (pos + 1) n

/-- Does the running GENERATE apply the bitmap ring? -/
def usesBitmaps (x : Session) : Bool :=
  match x.running with
  | some g => g.genFlags % 2 == 1
  | none => false

/-- Positions from `pos` on for which bitmaps are at hand, up to `n`. -/
def bitmapRun (x : Session) (pos n : Nat) : Nat :=
  ((slotsFrom x x.remembered pos n).takeWhile (fun b => b.isSome)).length

/-- Prompt positions ahead of the first GENERATE. -/
def promptAhead (x : Session) : Nat :=
  ((x.cmds.takeWhile (fun c => !c.isGen)).map SessCmd.left).foldl (· + ·) 0

/-- Positions a prefill would carry: the pending token, a held position and the prompt, but for the one
held back while no GENERATE has been fetched (R254). -/
def prefillRem (x : Session) : Nat :=
  let prompt := promptAhead x
  let ahead := prompt + (if x.held.isSome && (x.hasGen || decide (0 < prompt)) then 1 else 0)
  if ahead = 0 then 0
  else ahead + (if x.pending.isSome then 1 else 0) - (if x.hasGen then 0 else 1)

/-- Does the session decode in the next lap: its GENERATE comes first and a token is pending? -/
def decodes (x : Session) : Bool := decide (prefillRem x = 0) && x.genFirst && x.pending.isSome

/-- Drafts the next lap verifies: up to spec_k and max_draft, and as far as bitmaps reach (R262, R267). -/
def draftsFor (s : State) (p : Nat) (x : Session) : List Nat :=
  match x.running with
  | none => []
  | some g =>
    let k := Nat.min (Nat.min g.specK (odGet s (K.strMaxDraft p))) x.drafts.length
    let k := if usesBitmaps x then Nat.min k (bitmapRun x (x.len + 1) (k + 1) - 1) else k
    x.drafts.take k

/-- A GENERATE's bias list has been read, where it has one (R253). -/
def biasReady (x : Session) : Bool :=
  match x.running with
  | some g => fieldLe g.bytes 40 2 == 0 || g.biasRead
  | none => true

/-- Will a paging command, or a CLOSE, take the session at its next boundary without a lane? -/
def withheld (x : Session) : Bool :=
  x.cmds.any (fun c => c.opcode == 0x10 || c.opcode == 0x11) || x.cancel.isSome

/-- Bytes of a bitmap slot (R266). -/
def slotBytes (s : State) (x : Session) : Nat := 64 + 64 * ceilDiv (odGet s (K.strVocabulary x.part)) 512

/-- Begin the read of a bitmap slot. -/
def askSlot (s : State) (sess slot : Nat) : State :=
  let x := sessOf s sess
  match x.bitmapBase with
  | some b => emit s (.hostRead x.port (b + slot * slotBytes s x) (slotBytes s x))
  | none => s

/-- The prefill block of R259. -/
def prefillBlock (s : State) (p rem : Nat) : Nat :=
  let pb := Nat.max 1 (Nat.min (inForce s p (K.strPrefillBlock p)) (odGet s (K.strPrefillPositionsMax p)))
  if rem = 0 then 0 else ceilDiv rem (ceilDiv rem pb)

/-- The first position that the session's running GENERATE would sample next (R254). -/
def firstSample (x : Session) : Nat := if prefillRem x = 0 then x.len + 1 else x.len + prefillRem x

/-- Read ahead the bitmap slots of the positions the next laps may sample (R266). -/
def askBitmaps (s : State) (sess : Nat) : State :=
  let x := sessOf s sess
  match x.running with
  | none => s
  | some g =>
    if !(usesBitmaps x) ∨ x.bitmapBase = none then s
    else
      let size := 2 ^ x.bitmapLog2
      (List.range (Nat.min size (2 + 2 * g.specK))).foldl (fun s i =>
        let pos := firstSample x + i
        let b := kvGet [] x.bitmaps (pos % size)
        if b ≠ [] ∧ fieldLe b 0 4 = pos ∧ (fieldLe b 4 1) % 2 = 1 then s else askSlot s sess (pos % size)) s

/-- Would the next lap sample a position of the session? -/
def wouldSample (s : State) (p : Nat) (x : Session) : Bool :=
  if prefillRem x = 0 then decodes x else x.hasGen && prefillBlock s p (prefillRem x) == prefillRem x

/-- R262. -/
def ready (s : State) (p sess : Nat) : Bool :=
  let x := sessOf s sess
  decide (x.state = .active) && x.part == p && !x.shadow && !x.forked && !(x.mirrored && odGet s K.pairPairState == 4) && !(x.records.any (fun r => r.mirror)) && x.parent.isNone && !(withheld x) &&
    decide (x.len < kvMax s p) &&
    (decide (0 < prefillRem x) || (decodes x && decide (x.len + 1 < kvMax s p))) &&
    decide (1 + ((x.running.map SessCmd.specK).getD 0) ≤ tokenRoom x) &&
    (!(wouldSample s p x) || (biasReady x && (!(usesBitmaps x) || (bitmapFor x (firstSample x)).isSome)))

/-- Ready sessions of a class without a lane, the longest wait first. -/
def waitingOf (s : State) (p : Nat) (lanes : KV Lane) (f : Nat → Bool) : List Nat :=
  sortBy (fun a b => decide ((sessOf s a).waitStamp ≤ (sessOf s b).waitStamp))
    ((openOf s p).filter (fun i => f (sessOf s i).cls && ready s p i && !(lanes.any (fun e => e.2.session == i))))

/-! ## Assigning lanes (R259 to R261) -/

def noLane : Lane := { session := 0xFFFF }

def laneFree (lanes : KV Lane) (i : Nat) : Bool := !(lanes.any (fun e => e.1 == i))

/-- The lowest free lane of a range. -/
def freeLane (lanes : KV Lane) (lo hi : Nat) : Option Nat :=
  ((List.range hi).drop lo).find? (laneFree lanes)

def putLane (s : State) (lanes : KV Lane) (i sess r : Nat) : KV Lane :=
  kvSet noLane lanes i { session := sess, lent := decide (i < r) && decide ((sessOf s sess).cls ≠ 0) }

/-- Of two holders, is the first the one to displace: lowest precedence, longest hold, highest lane? -/
def losesFirst (s : State) (a b : Nat × Lane) : Bool :=
  let ca := (sessOf s a.2.session).cls
  let cb := (sessOf s b.2.session).cls
  decide (ca > cb) || (ca == cb && (decide (a.2.laps > b.2.laps) || (a.2.laps == b.2.laps && decide (a.1 > b.1))))

def firstToLose (s : State) (l : List (Nat × Lane)) : Option (Nat × Lane) :=
  l.foldl (fun best e => match best with
    | none => some e
    | some b => if losesFirst s e b then some e else some b) none

/-- Class-0 sessions take reserved lanes, free or lent. -/
def giveReserved (s : State) (r : Nat) (lanes : KV Lane) : List Nat → KV Lane
  | [] => lanes
  | sess :: rest =>
    match freeLane lanes 0 r with
    | some i => giveReserved s r (putLane s lanes i sess r) rest
    | none =>
      match firstToLose s (lanes.filter (fun e => decide (e.1 < r) && e.2.lent)) with
      | some e => giveReserved s r (putLane s lanes e.1 sess r) rest
      | none => lanes

/-- Fill free lanes of a range from a list. -/
def giveFree (s : State) (r lo hi : Nat) (lanes : KV Lane) : List Nat → KV Lane
  | [] => lanes
  | sess :: rest =>
    match freeLane lanes lo hi with
    | some i => giveFree s r lo hi (putLane s lanes i sess r) rest
    | none => lanes

/-- Lanes outside the reserved ones that a class holds. -/
def heldBy (s : State) (r c : Nat) (lanes : KV Lane) : Nat :=
  (lanes.filter (fun e => decide (r ≤ e.1) && (sessOf s e.2.session).cls == c)).length

/-- Whole lanes of a class's floor (R261). -/
def floorLanes (s : State) (p total r c : Nat) : Nat := inForce s p (K.clsLaneFloor c) * (total - r) / 100

/-- Displacement at the end (R260): a waiting session of a higher class takes the lane of a holder past
min_hold; a class keeps its floor. -/
def displace (s : State) (p total r : Nat) (lanes : KV Lane) : List Nat → KV Lane
  | [] => lanes
  | sess :: rest =>
    let c := (sessOf s sess).cls
    let hold := inForce s p (K.strMinHold p)
    match firstToLose s (lanes.filter (fun e =>
        let k := (sessOf s e.2.session).cls
        decide (k > c) && decide (hold ≤ e.2.laps) &&
          (decide (e.1 < r) || decide (floorLanes s p total r k < heldBy s r k lanes)))) with
    | some e => displace s p total r (putLane s lanes e.1 sess r) rest
    | none => lanes

/-- The lanes of the next lap, their work not yet set. -/
def assignLanes (s : State) (p : Nat) : KV Lane :=
  let total := odGet s (K.strLanes p)
  let r := inForce s p (K.strClass0Lanes p)
  let keep := (partOf s p).lanes.filter (fun e => ready s p e.2.session && decide (e.1 < total))
  let keep := keep.map (fun e => (e.1, { e.2 with laps := e.2.laps + 1, kind := .idle, block := 0, samples := false }))
  let l := giveReserved s r keep (waitingOf s p keep (· == 0))
  let l := ((List.range 8).drop 1).foldl (fun l c =>
    let need := floorLanes s p total r c - heldBy s r c l
    giveFree s r r total l ((waitingOf s p l (· == c)).take need)) l
  let l := (List.range 8).foldl (fun l c =>
    let l := giveFree s r r total l (waitingOf s p l (· == c))
    giveFree s r 0 r l (waitingOf s p l (· == c))) l
  (List.range 8).foldl (fun l c => displace s p total r l (waitingOf s p l (· == c))) l

/-! ## The work of each lane -/

/-- Do prefill writes fall in a block at or below kv_low_mark? -/
def lowOnPages (s : State) (p : Nat) : Bool :=
  let pt := partOf s p
  match pt.program with
  | none => false
  | some g => g.streamWriters.any (fun e =>
      decide (freeFrames s (blockOf ((pt.oy + e.2 / 24) * 24 + pt.ox + e.2 % 24)) ≤ odGet s (K.partKvLowMark p)))

/-- Set one lane's work; `used` are the lap's prefill positions so far. -/
def setWork (s : State) (p : Nat) (low : Bool) (used : Nat) (l : Lane) : Lane × Nat :=
  let x := sessOf s l.session
  let rem := prefillRem x
  if 0 < rem then
    let b := prefillBlock s p rem
    if low ∨ used + b > odGet s (K.strPrefillPositionsMax p) then ({ l with p0 := x.len }, used)
    else ({ l with p0 := x.len, block := b, kind := .prefill, samples := x.hasGen && b == rem }, used + b)
  else
    let k := (draftsFor s p x).length
    ({ l with p0 := x.len, block := 1 + k, kind := if k = 0 then .decode else .verify, samples := true }, used)

def setWorks (s : State) (p : Nat) (low : Bool) : Nat → KV Lane → KV Lane
  | _, [] => []
  | used, e :: r =>
    let y := setWork s p low used e.2
    (e.1, y.1) :: setWorks s p low y.2 r

/-- Host addresses of the next `n` prompt tokens of a session, as runs of (address, count). -/
def promptRuns : Nat → List SessCmd → List (Nat × Nat)
  | 0, _ => []
  | _, [] => []
  | n + 1, c :: r =>
    if c.left = 0 then promptRuns (n + 1) r
    else
      let k := Nat.min (n + 1) c.left
      (fieldLe c.bytes 8 8 + 4 * c.consumed, k) :: promptRuns (n + 1 - k) r

/-- Begin the read of `n` prompt tokens. -/
def askTokens (s : State) (sess n : Nat) : State :=
  let x := sessOf s sess
  (promptRuns n x.cmds).foldl (fun s e => emit s (.hostRead x.port e.1 (4 * e.2))) s

/-- The slots that govern the positions of a lane (R266). -/
def mapsFor (x : Session) (first k : Nat) : List (List Byte) :=
  if usesBitmaps x then (slotsFrom x x.remembered first (k + 1)).map (fun b => b.getD []) else []

/-- What a session's context holds for its lane: whether the block begins with the pending token and the
held position, whether a position is held back after it, and the drafts it verifies. -/
def prepLane (s : State) (p : Nat) (l : Lane) : State :=
  let x := sessOf s l.session
  match l.kind with
  | .idle => s
  | .prefill =>
    let hold := !x.hasGen && l.block == prefillRem x
    let first := (if x.pending.isSome then 1 else 0) + (if x.held.isSome then 1 else 0)
    let fresh := l.block + (if hold then 1 else 0) - first
    let s := updSess s l.session (fun x => { x with
      useHeld := x.held.isSome, holdAfter := hold, holdNext := none, cutStatus := none
      block := x.pending.toList ++ x.held.toList, blockRead := decide (fresh = 0), sampled := []
      lapMaps := mapsFor x (x.len + l.block) 0 })
    if fresh = 0 then s else askTokens s l.session fresh
  | .decode | .verify =>
    updSess s l.session (fun x => { x with
      drafts := draftsFor s p x, block := x.pending.toList ++ draftsFor s p x, blockRead := true
      useHeld := false, holdAfter := false, holdNext := none, cutStatus := none, sampled := []
      lapMaps := mapsFor x (x.len + 1) (draftsFor s p x).length })

/-- A session whose only prompt position must be held back has it read (R254). -/
def holdOnly (s : State) (p : Nat) : State :=
  (openOf s p).foldl (fun s i =>
    let x := sessOf s i
    if x.state = .active ∧ !x.hasGen ∧ promptAhead x = 1 ∧ x.held.isNone ∧ x.pending.isNone ∧ !x.holdAfter ∧
        !(withheld x) then
      askTokens (updSess s i (fun x => { x with holdAfter := true, block := [], blockRead := false })) i 1
    else s) s

/-! ## Share variants (R263) -/

/-- The variant of one stage. -/
def chooseShare (g : LapProgram) (stage decodes prefill ctx : Nat) : Nat :=
  let ms := g.models.filter (fun m => m.stage == stage)
  if prefill = 0 ∧ ms.any (fun m => m.variant == 0) then 0
  else
    let time (m : StageModel) : Int := m.a + m.b * decodes + m.c * prefill + m.d * ctx
    match ms with
    | [] => 0
    | m :: r => (r.foldl (fun (best : StageModel) x =>
        if time x < time best ∨ (time x = time best ∧ x.variant < best.variant) then x else best) m).variant

def chooseShares (g : LapProgram) (lanes : KV Lane) : List Nat :=
  let dec := (lanes.filter (fun e => decide (e.2.kind = .decode) || decide (e.2.kind = .verify))).length
  let pre := (lanes.map (fun e => if e.2.kind = .prefill then e.2.block else 0)).foldl (· + ·) 0
  let ctx := (lanes.map (fun e => if e.2.kind = .idle then 0 else e.2.p0 + e.2.block)).foldl (· + ·) 0
  (List.range g.stages).map (fun st => chooseShare g st dec pre ctx)

/-! ## The whole table -/

/-- A session that loses its lane, or gains work, is stamped: waiting is ordered by stamps (R259). -/
def stampWait (s : State) (p sess : Nat) : State :=
  let n := (partOf s p).stamp + 1
  updSess (updPart s p (fun x => { x with stamp := n })) sess (fun x => { x with waitStamp := n })

/-- The shares of every stage for the lane table as it stands (R263). -/
def reshare (s : State) (p : Nat) : State :=
  match (partOf s p).program with
  | some g => updPart s p (fun x => { x with shares := chooseShares g x.lanes })
  | none => s

/-- Build the lane table of the next lap (R259). -/
def buildLanes (s : State) (p : Nat) : State :=
  let old := (partOf s p).lanes
  let lanes := setWorks s p (lowOnPages s p) 0 (assignLanes s p)
  let gone := (old.map (fun e => e.2.session)).filter (fun i => !(lanes.any (fun e => e.2.session == i)))
  let s := gone.foldl (fun s i => stampWait s p i) s
  let checked := lanes.any (fun e => decide (inForce s p (K.clsChecked (sessOf s e.2.session).cls) ≠ 0))
  let s := reshare (updPart s p (fun x => { x with lanes, shares := [], checkedLap := checked })) p
  let s := lanes.foldl (fun s e => updSess s e.2.session (fun x => { x with hadLane := true })) s
  let s := lanes.foldl (fun s e => prepLane s p e.2) s
  let s := holdOnly s p
  let s := (openOf s p).foldl askBitmaps s
  let s := odSet s (K.strLanesInUse p) lanes.length
  odSet s (K.strSessionsWaiting p) ((waitingOf s p lanes (fun _ => true)).length)

/-! ## HOST_READ_COMPLETE (R253, R254) -/

/-- Consume `n` prompt positions of a session, in order. -/
def consume : Nat → List SessCmd → List SessCmd
  | 0, l => l
  | _, [] => []
  | n + 1, c :: r =>
    let k := Nat.min (n + 1) c.left
    { c with consumed := c.consumed + k } :: consume (n + 1 - k) r

/-- PROMPT_APPENDs whose positions have all been consumed complete. -/
def finishPrompts (s : State) (sess : Nat) : State :=
  ((sessOf s sess).cmds.filter (fun c => c.isPrompt && c.left == 0)).foldl (fun s c =>
    finishCmd s sess c stSuccess 0) s

/-- The command that holds the n-th position left of a list of commands, and the positions left up to its end. -/
def promptAt : Nat → List SessCmd → Option SessCmd × Nat
  | _, [] => (none, 0)
  | n, c :: r =>
    if n < c.left then (some c, c.left)
    else let x := promptAt (n - c.left) r; (x.1, c.left + x.2)

/-- The first PROMPT_APPEND with positions left ends early. -/
def endPrompt (s : State) (sess status : Nat) : State :=
  match (sessOf s sess).cmds.find? (fun c => decide (0 < c.left)) with
  | some c => finishCmd s sess c status 0
  | none => s

/-- The lane of a session, with its number. -/
def laneWith (s : State) (p sess : Nat) : Option (Nat × Lane) :=
  (partOf s p).lanes.find? (fun e => e.2.session == sess)

def updLane (s : State) (p i : Nat) (f : Lane → Lane) : State :=
  updPart s p (fun x => { x with lanes := kvUpd noLane x.lanes i f })

/-- The tokens of a prefill block have been read, or the read of one buffer has failed after those given. -/
def promptRead (s : State) (sess : Nat) (l' : List Nat) (failed : Bool) : State :=
  let x := sessOf s sess
  let p := x.part
  let vocab := odGet s (K.strVocabulary p)
  match laneWith s p sess with
  | none =>
    -- the single position that is only held back
    if !x.holdAfter then s
    else match l' with
      | t :: _ =>
        if t < vocab then
          finishPrompts (updSess s sess (fun x => { x with
            held := some t, holdAfter := false, blockRead := true, cmds := consume 1 x.cmds })) sess
        else endPrompt (updSess s sess (fun x => { x with holdAfter := false })) sess stInvalidField
      | [] => endPrompt (updSess s sess (fun x => { x with holdAfter := false })) sess stHostAccess
  | some (i, l) =>
    if l.kind ≠ .prefill ∨ x.blockRead then s
    else if failed then
      -- no position of the block is scheduled; the command whose buffer could not be read ends
      let s := updLane s p i (fun l => { l with kind := .idle, block := 0, samples := false })
      let s := updSess s sess (fun x => { x with blockRead := true, holdAfter := false })
      match (promptAt l'.length x.cmds).1 with
      | some c => finishCmd s sess c stHostAccess 0
      | none => endPrompt s sess stHostAccess
    else
        let good := l'.takeWhile (fun t => decide (t < vocab))
        if good.length = l'.length then
          let hold := if x.holdAfter then l'.getLast? else none
          let body := if x.holdAfter then l'.dropLast else l'
          updSess s sess (fun x => { x with block := x.block ++ body, holdNext := hold, blockRead := true })
        else
          -- the block ends before the first invalid ID; the command ends at the baton
          let rest := promptAhead x - (promptAt good.length x.cmds).2
          let last := decide (rest = 0)
          let hold := if last && !x.hasGen then good.getLast? else none
          let body := if hold.isSome then good.dropLast else good
          let s := updSess s sess (fun x => { x with
            block := x.block ++ body, holdNext := hold, holdAfter := hold.isSome, blockRead := true
            cutStatus := some stInvalidField })
          let n := (sessOf s sess).block.length
          if good = [] then
            let s := updLane s p i (fun l => { l with kind := .idle, block := 0, samples := false })
            endPrompt (updSess s sess (fun x => { x with cutStatus := none })) sess stInvalidField
          else if n = 0 then
            -- only the held position is left of the block
            let s := updLane s p i (fun l => { l with kind := .idle, block := 0, samples := false })
            let s := updSess s sess (fun x => { x with
              held := hold, cutStatus := none, holdAfter := false, cmds := consume 1 x.cmds })
            endPrompt (finishPrompts s sess) sess stInvalidField
          else updLane s p i (fun l => { l with block := n, samples := last && x.hasGen })

/-- A GENERATE's bias list has been read (R253). -/
def biasListRead (s : State) (sess : Nat) (r : Option (List (Nat × W16))) : State :=
  let x := sessOf s sess
  let waits (g : SessCmd) : Bool := g.isGen && fieldLe g.bytes 40 2 != 0 && !g.biasRead
  match x.cmds.find? waits with
  | none => s
  | some g =>
    match r with
      | some l => updSess s sess (fun x => { x with cmds := updFirst waits (fun g => { g with bias := l, biasRead := true }) x.cmds })
      | none => finishCmd (bump s K.pcieHostReadErrors) sess g stHostAccess 5

/-- HOST_READ_COMPLETE. The shares are chosen for the lap as it will run (R263). -/
def effHostRead (s : State) (sess : Nat) (r : HostRead) : State :=
  if (sessOf s sess).state = .free then s
  else match r with
    | .prompt l failed =>
      let s := promptRead (if failed then bump s K.pcieHostReadErrors else s) sess (l.map (·.toNat)) failed
      if (partOf s (sessOf s sess).part).inLap then s else reshare s (sessOf s sess).part
    | .bias b => biasListRead s sess (b.map (fun l => l.map (fun e => (e.1.toNat, e.2))))

end Sys2Proof.Machine
end

