-- ==== Sys2Proof/Machine/Hurdles.lean ====
section
/-! DEFINITION. Hurdles and checkpoints (R25 to R36, R39, R44 to R49, R73): when a hurdle clears, what the
clear does, segment repeats, the verdict, the pacer's phase change (R343 to R346) and the hurdle timer. -/

namespace Sys2Proof.Machine

/-! ## Jobs (R295 to R297) -/

/-- Job of a partition; 0 = none. -/
def jobOf (s : State) (p : Nat) : Nat := odGet s (K.partJobId p)

/-- Does this module hold the root member of the partition's job (R294)? -/
def jobRoot (s : State) (p : Nat) : Bool :=
  (domGet s (K.partJobBox p)).take 3 == (domGet s K.fabTorusPosition).take 3

/-- Members of the job (R294, R295). -/
def jobMembers (s : State) (p : Nat) : Nat :=
  let b := domGet s (K.partJobBox p)
  Nat.max 1 (fieldLe b 3 1) * Nat.max 1 (fieldLe b 4 1) * Nat.max 1 (fieldLe b 5 1)

/-- Is a hurdle a job hurdle (R296)? Hurdle 0, every checkpoint and the verdict hurdle are. -/
def jobHurdle (s : State) (p h : Nat) : Bool :=
  decide (jobOf s p ≠ 0) &&
    (h == 0 ||
      (match (partOf s p).program with
        | some g => g.jobHurdles.contains h || g.checkpoints.contains h
        | none => false))

/-- Send a job message with this module's mark count (R301). -/
def sendJob (s : State) (p : Nat) (k : JobMsgKind) : State :=
  emit s (.jobMessage (jobOf s p) (odGet s K.meshMarkCount) k)

/-! ## Status gathered from the cores -/

def allArrived (s : State) (p : Nat) : Bool := (partCores s p).all (fun c => (partOf s p).arrived.contains c)

/-- Did any core arrive with its replay request bit set (R45, R46)? -/
def anyReplay (s : State) (p : Nat) : Bool := (partCores s p).any (fun c => (coreOf s c).sentReplay)

/-- Does CANCEL take effect at a verdict hurdle (R268)? -/
def oneDie (s : State) (p : Nat) : Bool := decide ((partOf s p).dies.length ≤ 1) && decide (jobOf s p = 0)

/-- Does a cancel of the session go by an abort wave (R269)? -/
def byWave (s : State) (sess : Nat) : Bool :=
  !(oneDie s (sessOf s sess).part) || (sessOf s sess).mirrored

/-- The sessions named by abort bits: those marked by cores or by earlier runs of the lap, those cut out by
waves or ended in the lap, and those whose CANCEL takes effect here. -/
def namedSessions (s : State) (p : Nat) : List Nat :=
  let pt := partOf s p
  let marked := (partCores s p).flatMap (fun c => (coreOf s c).aborts)
  let cancelled := (pt.lanes.map (fun e => e.2.session)).filter (fun i =>
    ((sessOf s i).cancel.isSome || (sessOf s i).hostLost) && !(byWave s i))
  (marked ++ pt.aborts ++ pt.cutSessions ++ cancelled).foldl (fun acc i => insertNat i acc) []

/-! ## The pacer's phases (R343, R346) -/

/-- Throttle factor of a level in sixteenths (R361); in a block that holds class-0 lanes, levels 1 and 2
cut no tokens (R346). -/
def throttle16 (class0 : Bool) : Nat → Nat
  | 0 => 16
  | 1 => if class0 then 16 else 12
  | 2 => if class0 then 16 else 8
  | 3 => 4
  | _ => 2

/-- The program's vector of a cluster in a phase (R343). -/
def programVector (pt : Part) (cl phase : Nat) : BitVec 64 :=
  match pt.program with
  | none => 0
  | some g =>
    match g.tokens.find? (fun t => t.odd == oddTurn pt && t.phase == phase && pt.oy + t.dy == clusterY cl && pt.ox + t.dx == clusterX cl) with
    | some t => t.vec
    | none => 0

/-- The four fields of a vector: mx, ar, vu, me. -/
def vectorFields (v : BitVec 64) : List Nat :=
  let n := v.toNat
  [bitsOf n 9 0, bitsOf n 19 10, bitsOf n 29 20, bitsOf n 39 30]

/-- One refill of a field of `value` tokens, in pJ (R344). -/
def refillPj (value : Nat) : Nat := value * 15625

/-- The pacer applies the vectors of a partition's phase, scaled by the throttle levels in effect and by the
governor's halving (R346, R347). -/
def applyVectors (s : State) (p : Nat) : State :=
  let pt := partOf s p
  let half := decide (odGet s K.pwrGovernorHalved ≠ 0)
  let class0 := hasClass0 s p
  let s := pt.blocks.foldl (fun s b => updBlk s b (fun x => { x with appliedHalf := half })) s
  pt.clusters.foldl (fun s cl =>
    let f := throttle16 class0 (blkOf s (blockOf cl)).applied
    updCluster s cl (fun c => { c with
      tokens := (vectorFields (programVector pt cl pt.phase)).map (fun n => n * f / (if half then 32 else 16)) })) s

/-- Credit above four refills of a cluster's vector is cleared (R344). -/
def clampCredit (c : Cluster) : Cluster :=
  { c with credit := c.tokens.zipIdx.map (fun e => Nat.min (getAt 0 c.credit e.2) (4 * refillPj e.1)) }

/-- Every cluster moves to a phase's vector; a block's new level takes effect (R362), and the headroom of dies where a
block wakes is worked out again (R349). -/
def phaseChange (s : State) (p phase : Nat) : State :=
  let pt := partOf s p
  let s := pt.blocks.foldl (fun s b => updBlk s b (fun x => { x with applied := x.level })) s
  let s := applyVectors (updPart s p (fun x => { x with phase })) p
  let s := pt.clusters.foldl (fun s cl => updCluster s cl clampCredit) s
  pt.dies.foldl noteHeadroom s

/-- The governor's halving has come or gone: the vectors of the partitions whose laps run change at once (R347). -/
def reapplyAll (s : State) : State :=
  s.parts.foldl (fun s e => if (partOf s e.1).runs && (partOf s e.1).inLap then applyVectors s e.1 else s) s

/-! ## Segments (R44, R45, R73) -/

/-- Invert held_half in the paired descriptors named by a swap mask (R73). -/
def swapHalves (mask : BitVec 64) (descs : KV W64) : KV W64 :=
  descs.map (fun e => (e.1, if mask.getLsbD e.1 && e.2.getLsbD 47 then e.2 ^^^ (1#64 <<< 53) else e.2))

/-- A core moves on from a hurdle that has cleared: one that waits is released, one that arrived early will
pass its wait. `begins` says that a replay segment begins after it, at the command after the arrival (R45, R151);
what the core has met since then belongs to the new segment. -/
def releaseCore (begins : Bool) (swap : Bool) (h : Nat) (bits : List Nat) (c : Core) : Core :=
  let mask := match c.arrival with
    | some a => if swap then a.swapMask else 0
    | none => 0
  let c := { c with
    arrived := none, arrival := none, widenIn := bits, widenSent := [], sentReplay := false
    descs := if swap then swapHalves mask c.descs else c.descs
    hold := if c.hold = .hurdle h then .none else c.hold
    clearedSplit := if c.hold = .hurdle h then none else some h }
  if begins then
    { c with
      segPos := c.arrivedAt, rngSaved := c.rngArrived, widenSaved := bits, segSplit := c.clearedSplit
      conflicts := c.conflicts.filter (fun i => decide (c.arrivedAt ≤ i)), oldConflicts := [] }
  else c

/-- A core returns to the first command of its segment (R45): what waits to issue is fetched again. -/
def restartCore (c : Core) : Core :=
  { c with
    pos := c.segPos, skip := 0, hold := .none, waiting := [], arrived := none, arrival := none
    clearedSplit := c.segSplit, replayReq := false, sentReplay := false, checker := false, widenOut := []
    widenSent := [], widenIn := c.widenSaved, rng := c.rngSaved, oldConflicts := c.conflicts, conflicts := [] }

/-! ## Lap inputs (R28, R38 order 1, R44, R91) -/

/-- A paired area seen so that a write goes to the half named, and a read to the other (R73). -/
def halfDesc (d : W64) (half : Bool) : W64 := if dHeld d == half then swapHeld d else d

/-- The half of the lap inputs that is held in this lap: the halves swap at each commit or abort baton (R44). -/
def Part.heldHalf (pt : Part) : Bool := decide (pt.turns % 2 = 1)

/-- Number of a core of a shape placed at the partition's origin. -/
def Part.coreAt (pt : Part) (dx dy core : Nat) : Nat := ((pt.oy + dy) * 24 + pt.ox + dx) * 16 + core

/-- The 16 bytes of a lane entry (R180). -/
def laneBytes (l : Lane) : List Byte :=
  if l.kind = .idle then List.replicate 16 0
  else natLe l.session 2 ++ [0, 0] ++ natLe l.p0 4 ++ natLe l.block 4 ++ [0, 0, 0, 0]

/-- The set ID of a lane in the lane adapter table (R217). -/
def adapterBytes (s : State) (l : Lane) : List Byte :=
  natLe (if l.kind = .idle then 0xFFFF else ((sessOf s l.session).adapter.getD 0xFFFF)) 2

/-- The lanes with work, in order. -/
def workLanes (pt : Part) : List Lane := (pt.lanes.map (·.2)).filter (fun l => decide (l.kind ≠ .idle))

/-- The BF16 codes of a residual row kept for a site; one that is not kept is zeros. -/
def residualCodes (x : Session) (site elements : Nat) : List Nat :=
  (List.range elements).map (fun i => fieldLe (kvGet [] x.residuals site) (2 * i) 2)

/-- Rows of codes as the bytes of an area (R72). -/
def rowsBytes (d : W64) (cols : Nat) (rows : List (List Nat)) : List Byte :=
  let w := (dFmt d).bits
  natLe (rows.zipIdx.foldl (fun (n : Nat) (e : List Nat × Nat) =>
    putBits n (rowBit d cols e.2) (cols * w) (e.1.foldr (fun c acc => acc * 2 ^ w + c % 2 ^ w) 0)) 0)
    (extent d rows.length cols)

/-- What the starter writes into an area: for a residual site one row for each position of the lap in the order
of the lanes, zeros for a prefill block (R159). -/
def inputBytes (s : State) (pt : Part) (lanes : Nat) (a : InputArea) : List Byte :=
  match a.kind with
  | .laneTable => (List.range lanes).flatMap (fun i => laneBytes (kvGet noLane pt.lanes i))
  | .adapters => (List.range lanes).flatMap (fun i => adapterBytes s (kvGet noLane pt.lanes i))
  | .tokens => (workLanes pt).flatMap (fun l => (sessOf s l.session).block.flatMap (fun t => natLe t 4))
  | .residual site n => rowsBytes a.desc n ((workLanes pt).flatMap (fun l =>
      List.replicate l.block (if l.kind = .prefill then List.replicate n 0
        else residualCodes (sessOf s l.session) site n)))

/-- The starter's copy of every lap input of the lap. -/
def lapInputs (s : State) (p : Nat) : List InputCopy :=
  let pt := partOf s p
  match pt.program with
  | none => []
  | some g => g.inputs.map (fun a => {
      core := pt.coreAt a.dx a.dy a.core, desc := halfDesc a.desc pt.heldHalf
      bytes := inputBytes s pt (odGet s (K.strLanes p)) a })

/-- Write the held half of the lap inputs from the starter's copy. -/
def writeInputs (s : State) (p : Nat) : State :=
  (partOf s p).copies.foldl (fun s c => writeArea s c.core c.desc c.bytes) s

/-- The segment of every core runs again, from held inputs that the starter rewrites (R45, R91). -/
def restartSegment (s : State) (p : Nat) : State :=
  let s := (partCores s p).foldl (fun s c => updCore s c restartCore) (writeInputs s p)
  let h := (partOf s p).segHurdle
  phaseChange (updPart s p (fun x => { x with hurdle := h, arrived := [] })) p (h - 1)

/-- Count a replay; one beyond replay_limit faults the partition instead (R48). DESIGN CHOICE (log entry 169): the
rules do not say which core, bank and command the record of a replay names, nor which cluster REPLAY_LIMIT names;
the model takes core 0 of the origin cluster, bank 0xFFFF and index 0, and the origin cluster. -/
def countReplay (s : State) (p : Nat) (go : State → State) : State :=
  let pt := partOf s p
  if inForce s p (K.partReplayLimit p) ≤ pt.replays then raiseFault s p 0x0003 (pt.oy * 24 + pt.ox)
  else
    let s := bump (setPart s p { pt with replays := pt.replays + 1 }) (K.statReplays p)
    go (recordCore s p ((pt.oy * 24 + pt.ox) * 16) 0xFFFF 0)

/-! ## HURDLE_CLEAR -/

/-- What a hurdle's clear waits for beside the arrivals: at hurdle 0, the end of a flip gap (R227) and the lap
inputs (R38 order 1); in a job, the other members, the rack mark and the lock to the rack reference (R296,
R302, R303). A member whose baton root lies in an island receives no marks (R374). -/
def mayClear (s : State) (p : Nat) : Bool :=
  let pt := partOf s p
  let inputs := match pt.flip with
    | some f => !f.gap
    | none => true
  let inputs := inputs && pt.lanes.all (fun e => decide (e.2.kind = .idle) || (sessOf s e.2.session).blockRead)
  let job :=
    if !(jobHurdle s p pt.hurdle) then true
    else if pt.hurdle = 0 then
      decide (odGet s K.meshMeshState = 2) && !(inIsland s (pt.oy * 24 + pt.ox)) &&
        (match pt.jobMark with
          | some m => decide (m ≤ odGet s K.meshMarkCount)
          | none => false)
    else if jobRoot s p then decide (jobMembers s p ≤ 1 + (pt.jobArrived.filter (fun x => x / 4096 == pt.hurdle)).length)
    else pt.jobClear
  pt.verdict.isNone && allArrived s p && (pt.hurdle != 0 || inputs) && job

/-- The cause marked by the last to arrive at the hurdle (R55): the last core's, or a remote module where a member
of the job arrived later. A member that is not the root learns of the others by the clear alone. -/
def lateCause (s : State) (p : Nat) : StallCause :=
  let pt := partOf s p
  if jobHurdle s p pt.hurdle && (pt.remoteLast || !(jobRoot s p)) then .remote else (coreOf s pt.lastLate).stall

/-- The wait is charged to its cause, and the last arriver shown (R55, R63). What a clear takes beyond its bound
counts as network (R33). -/
def chargeWait (s : State) (p : Nat) (t : ClearTimes) : State :=
  let s := match lateCause s p with
    | .pacer => bump s (K.statStallPacer p) t.waitNs
    | .memory => bump s (K.statStallMemory p) t.waitNs
    | .network => bump s (K.statStallNetwork p) t.waitNs
    | .remote => bump s (K.statStallRemote p) t.waitNs
    | .none => s
  let s := if t.beyondNs = 0 then s else bump s (K.statStallNetwork p) t.beyondNs
  let s := odPut s (K.statLastLateCluster p) ((partOf s p).lastLate / 16)
  if jobHurdle s p (partOf s p).hurdle then odMax s (K.statJobHurdleMax p) t.jobNs else s

/-- The OR of the widen bits that arrived (R166). -/
def widenBits (s : State) (p : Nat) : List Nat :=
  ((partCores s p).flatMap (fun c => (coreOf s c).widenSent)).foldl (fun acc b => insertNat b acc) []

/-- What the hurdle that clears is, as its HURDLE command says. -/
def hurdleKind (s : State) (p : Nat) : Bool × Bool :=
  match partCores s p with
  | c :: _ => match (coreOf s c).arrival with
    | some a => (a.checkpoint, a.verdict)
    | none => (false, false)
  | [] => (false, false)

/-- Every core is released from the hurdle. -/
def releaseAll (s : State) (p h : Nat) (begins swap : Bool) : State :=
  let bits := widenBits s p
  (partCores s p).foldl (fun s c => updCore s c (releaseCore begins swap h bits)) s

/-- The part's record of job messages for the hurdle that has cleared is done with. -/
def jobDone (h : Nat) (x : Part) : Part :=
  { x with
    jobArrived := x.jobArrived.filter (fun a => a / 4096 != h), jobReplays := x.jobReplays.filter (· ≠ h)
    jobClear := false, jobReplay := false, jobRepeat := false, jobMark := none }

/-- A checkpoint repeats or advances (R45, R47). -/
def clearCheckpoint (s : State) (p h : Nat) (t : ClearTimes) : State :=
  let pt := partOf s p
  let again := if jobHurdle s p h ∧ !(jobRoot s p) then pt.jobRepeat else anyReplay s p || pt.jobReplays.contains h
  let s := if pt.repeating then bump s (K.statReplayTime p) t.segmentNs else s
  let s := if jobHurdle s p h ∧ jobRoot s p then sendJob s p (.clear h again 0 []) else s
  let s := updPart s p (jobDone h)
  if again then
    countReplay s p (fun s => restartSegment (updPart s p (fun x => { x with repeating := true })) p)
  else
    let s := releaseAll s p h true true
    phaseChange (updPart s p (fun x =>
      { x with hurdle := h + 1, arrived := [], segHurdle := h + 1, repeating := false })) p h

/-- The verdict is formed (R39); the cores wait for the baton. -/
def formVerdict (s : State) (p h : Nat) : State :=
  let pt := partOf s p
  let named := namedSessions s p
  let remote := jobHurdle s p h && !(jobRoot s p)
  let again := if remote then pt.jobReplay else anyReplay s p || pt.sampleReplay || pt.jobReplays.contains h
  let v : Verdict := if again then .replay else if named = [] then .commit else .abort
  let s := if jobHurdle s p h ∧ jobRoot s p then sendJob s p (.verdict again named) else s
  let s := updPart s p (fun x => { jobDone h x with aborts := named, arrived := [], verdict := some v })
  if again then countReplay s p (fun s => s) else s

/-- The lap starts: the lap inputs stand in their held halves (R38 order 1), the arrays freeze their masks (R123),
and the first segment begins. -/
def clearStart (s : State) (p : Nat) : State :=
  let s := updPart s p (fun x => { x with copies := lapInputs s p })
  let s := arraysHurdleZero (writeInputs s p) p
  let s := releaseAll s p 0 true false
  let s := (partCores s p).foldl (fun s c => updCore s c (fun x => { x with parityWords := [] })) s
  phaseChange (updPart s p (fun x => { jobDone 0 x with
    hurdle := 1, arrived := [], segHurdle := 1, repeating := false, inLap := true })) p 0

/-- Let every core of a partition go on. -/
def resumeAll (s : State) (p : Nat) : State := (partCores s p).foldl resume s

/-- HURDLE_CLEAR. -/
def effHurdleClear (s : State) (p : Nat) (t : ClearTimes) : State :=
  let pt := partOf s p
  if !pt.runs ∨ pt.fault ≠ none ∨ !(mayClear s p) then s
  else
    let s := chargeWait s p t
    let kind := hurdleKind s p
    if kind.2 then formVerdict s p pt.hurdle
    else
      let s := if pt.hurdle = 0 then clearStart s p
        else if kind.1 then clearCheckpoint s p pt.hurdle t
        else
          let s := if jobHurdle s p pt.hurdle ∧ jobRoot s p then sendJob s p (.clear pt.hurdle false 0 []) else s
          let s := releaseAll s p pt.hurdle false false
          phaseChange (updPart s p (fun x => { jobDone pt.hurdle x with hurdle := pt.hurdle + 1, arrived := [] })) p pt.hurdle
      resumeAll s p

/-! ## Job hurdles as they are reached -/

/-- The lane table as the root sends it, with the lap inputs of each lane (R297). -/
def jobLanes (s : State) (pt : Part) : List JobLane :=
  pt.lanes.map (fun e => {
    lane := e.1, session := e.2.session, p0 := e.2.p0, block := e.2.block, prefill := decide (e.2.kind = .prefill)
    tokens := (sessOf s e.2.session).block, adapter := (sessOf s e.2.session).adapter })

/-- The root has every arrival for the start of a lap: it chooses the mark at which hurdle 0 clears, the first
one far enough ahead (R302). -/
def chooseMark (s : State) (p : Nat) : State :=
  let pt := partOf s p
  let n := 1 + (pt.jobArrived.filter (fun x => x / 4096 == 0)).length
  if pt.hurdle ≠ 0 ∨ pt.jobMark ≠ none ∨ !(allArrived s p) ∨ n < jobMembers s p then s
  else
    let x := drawFree s
    let m := odGet s K.meshMarkCount + (if Config.markTooEarly x.1 then 2 else 1)
    sendJob (updPart x.2 p (fun y => { y with jobMark := some m })) p (.clear 0 false m (jobLanes x.2 pt))

/-- The last core of a member has arrived at a job hurdle: the root is told (R296), or makes ready itself. -/
def jobArrival (s : State) (p : Nat) : State :=
  let h := (partOf s p).hurdle
  if !(jobHurdle s p h) ∨ !(allArrived s p) then s
  else if jobRoot s p then chooseMark s p
  else sendJob s p (.arrival h (anyReplay s p || (partOf s p).sampleReplay)
    ((namedSessions s p).map (fun i => (i, ((sessOf s i).abortStatus).getD stCancelled))))

/-- A command that may have been the last arrival of its partition. -/
def afterArrival (s : State) (ci : Nat) (before : Nat) : State :=
  match partAt s (ci / 16) with
  | some p => if (partOf s p).arrived.length ≠ before then jobArrival s p else s
  | none => s

/-! ## HURDLE_TIMEOUT (R34) -/

/-- Clusters of a partition with a core that has not arrived. -/
def missingClusters (s : State) (p : Nat) : List Nat :=
  let pt := partOf s p
  pt.clusters.filter (fun cl => (List.range (coresUsed s pt cl)).any (fun k => !(pt.arrived.contains (cl * 16 + k))))

/-- A map of clusters, one bit each by y * 24 + x. -/
def clusterMap (l : List Nat) : List Byte :=
  (List.range 108).map (fun i => BitVec.ofNat 8
    (((List.range 8).map (fun b => if l.contains (8 * i + b) then 2 ^ b else 0)).foldl (· + ·) 0))

/-- HURDLE_TIMEOUT. DESIGN CHOICE (log entry 170): where every local cluster has arrived at a job hurdle, so that
only another member is missing, the lowest missing cluster is recorded as 0xFFFF and fault_cluster is the origin
cluster; R34 names no cluster for it. -/
def effHurdleTimeout (s : State) (p : Nat) : State :=
  let pt := partOf s p
  let miss := missingClusters s p
  if !pt.runs ∨ pt.fault ≠ none ∨ pt.arrived = [] ∨ pt.timerHolds ≠ 0 ∨ pt.verdict ≠ none then s
  else
    let low := miss.headD 0xFFFF
    let s := domSet s (K.statMissingMap p) (clusterMap miss)
    let s := recordEvent s {
      code := 0x4001, source := mpSource s, location := pt.oy * 24 + pt.ox, partition := p, lap := pt.lap
      payload := natLe miss.length 2 ++ natLe low 2 }
    raiseFault s p 0x0002 (if miss = [] then pt.oy * 24 + pt.ox else low)

end Sys2Proof.Machine
end

