-- ==== Sys2Proof/Machine/CoreCmds.lean ====
section
/-! DEFINITION. The commands that reach a core: those of a lap program, in the order of the opcode table, and
the events of its engines, DMA transfers, banks and cache. A command of a lap program joins the commands that
wait in its core's sequencer, and the sequencer issues what it can (R25, R66, R67). -/

namespace Sys2Proof.Machine

/-! ## Names of units -/

/-- Does the module present this core (R9)? -/
def coreExists (s : State) (at_ : CoreRef) : Bool :=
  decide (at_.cluster < clusterCount) && decide (at_.core < (clusterOf s at_.cluster).presented)

def coreIndex (at_ : CoreRef) : Nat := at_.cluster * 16 + at_.core

def atCore (s : State) (at_ : CoreRef) (next : State) : Result :=
  atUnit (coreExists s at_) "core" (coreIndex at_) next

/-- After a step: if the last arrival at a hurdle has come, its job is told (R296). -/
def noteArrivals (old s : State) (p : Nat) : State :=
  let a := partOf old p
  let b := partOf s p
  if (a.hurdle = b.hurdle ∧ a.arrived.length = b.arrived.length ∧ a.lap = b.lap) ∨ b.arrived = [] then s
  else jobArrival s p

/-- A core goes on after an event. -/
def goOn (old s : State) (ci : Nat) : State :=
  let s := resume s ci
  match partAt s (ci / 16) with
  | some p => noteArrivals old s p
  | none => s

/-- Every core of every partition that runs goes on. -/
def goOnAll (old s : State) : State :=
  old.parts.foldl (fun s e => if (partOf s e.1).runs then noteArrivals old (resumeAll s e.1) e.1 else s) s

/-- A command of a lap program. -/
def runCore (s : State) (ci : Nat) (w : Waiting) : State := goOn s (coreCmd s ci w) ci

def coreStep (s : State) (at_ : CoreRef) (env : CoreEnv) (cmd : CoreCmd) : Result :=
  atCore s at_ (runCore s (coreIndex at_) { cmd, env, bad := [] })

def vecStep (s : State) (at_ : CoreRef) (env : CoreEnv) (fn : VecFn) (a : VecArgs) : Result :=
  coreStep s at_ env (.vec fn a)

/-! ## Sequencer and control -/

/-- NOP (R76). -/
def execNop (at_ : CoreRef) (env : CoreEnv) (s : State) : Result := coreStep s at_ env .nop
/-- DESC (R71). -/
def execDesc (at_ : CoreRef) (env : CoreEnv) (a : DescArgs) (s : State) : Result := coreStep s at_ env (.desc a)
/-- HURDLE, form 0 (R75, R30). -/
def execHurdleArriveWait (at_ : CoreRef) (env : CoreEnv) (a : HurdleArgs) (s : State) : Result :=
  coreStep s at_ env (.hurdle 0 a)
/-- HURDLE, form 1: arrive (R75, R30). -/
def execHurdleArrive (at_ : CoreRef) (env : CoreEnv) (a : HurdleArgs) (s : State) : Result :=
  coreStep s at_ env (.hurdle 1 a)
/-- HURDLE, form 2: wait (R75, R30). -/
def execHurdleWait (at_ : CoreRef) (env : CoreEnv) (a : HurdleArgs) (s : State) : Result :=
  coreStep s at_ env (.hurdle 2 a)
/-- FENCE (R76). -/
def execFence (at_ : CoreRef) (env : CoreEnv) (engines : BitVec 4) (s : State) : Result :=
  coreStep s at_ env (.fence engines)
/-- BANK_POWER with on = 0 (R92). -/
def execBankPowerOff (at_ : CoreRef) (env : CoreEnv) (mask : BitVec 32) (s : State) : Result :=
  coreStep s at_ env (.bankPower false mask)
/-- BANK_POWER with on = 1 (R92). -/
def execBankPowerOn (at_ : CoreRef) (env : CoreEnv) (mask : BitVec 32) (s : State) : Result :=
  coreStep s at_ env (.bankPower true mask)

/-! ## Matrix engine, array group and attention -/

/-- MMA (R77, R78). -/
def execMma (at_ : CoreRef) (env : CoreEnv) (a : MmaArgs) (s : State) : Result := coreStep s at_ env (.mma a)
/-- ARR_MVM (R118, R124). -/
def execArrMvm (at_ : CoreRef) (env : CoreEnv) (a : ArrMvmArgs) (s : State) : Result := coreStep s at_ env (.arrMvm a)
/-- ARR_WRITE (R120 to R122). -/
def execArrWrite (at_ : CoreRef) (env : CoreEnv) (a : ArrWriteArgs) (s : State) : Result :=
  coreStep s at_ env (.arrWrite a)

/-- The frames whose pages meet an uncorrectable stack error go with the command (R206). -/
def attnStep (s : State) (at_ : CoreRef) (env : CoreEnv) (op : BitVec 2) (a : AttnArgs) (bad : List (Nat × Nat)) : Result :=
  atCore s at_ (runCore s (coreIndex at_) { cmd := .attn op a, env, bad })

/-- ATTN, full (R179, R183). -/
def execAttnFull (at_ : CoreRef) (env : CoreEnv) (a : AttnArgs) (bad : List (Nat × Nat)) (s : State) : Result :=
  attnStep s at_ env 0 a bad
/-- ATTN, split part (R184). -/
def execAttnPartial (at_ : CoreRef) (env : CoreEnv) (a : AttnArgs) (bad : List (Nat × Nat)) (s : State) : Result :=
  attnStep s at_ env 1 a bad
/-- ATTN, merge (R184). -/
def execAttnMerge (at_ : CoreRef) (env : CoreEnv) (a : AttnArgs) (s : State) : Result := attnStep s at_ env 2 a []

/-! ## Vector unit (R82 to R86) -/

/-- VEC COPY (R83). -/
def execCopy (at_ : CoreRef) (env : CoreEnv) (a : VecArgs) (s : State) : Result := vecStep s at_ env .copy a
/-- VEC ADD (R83). -/
def execAdd (at_ : CoreRef) (env : CoreEnv) (a : VecArgs) (s : State) : Result := vecStep s at_ env .add a
/-- VEC SUB (R83). -/
def execSub (at_ : CoreRef) (env : CoreEnv) (a : VecArgs) (s : State) : Result := vecStep s at_ env .sub a
/-- VEC MUL (R83). -/
def execMul (at_ : CoreRef) (env : CoreEnv) (a : VecArgs) (s : State) : Result := vecStep s at_ env .mul a
/-- VEC FMA (R83). -/
def execFma (at_ : CoreRef) (env : CoreEnv) (a : VecArgs) (s : State) : Result := vecStep s at_ env .fma a
/-- VEC MAX (R83). -/
def execMax (at_ : CoreRef) (env : CoreEnv) (a : VecArgs) (s : State) : Result := vecStep s at_ env .max a
/-- VEC MIN (R83). -/
def execMin (at_ : CoreRef) (env : CoreEnv) (a : VecArgs) (s : State) : Result := vecStep s at_ env .min a
/-- VEC SCALE (R83). -/
def execScale (at_ : CoreRef) (env : CoreEnv) (a : VecArgs) (s : State) : Result := vecStep s at_ env .scale a
/-- VEC EXP (R83). -/
def execExp (at_ : CoreRef) (env : CoreEnv) (a : VecArgs) (s : State) : Result := vecStep s at_ env .exp a
/-- VEC RECIP (R83). -/
def execRecip (at_ : CoreRef) (env : CoreEnv) (a : VecArgs) (s : State) : Result := vecStep s at_ env .recip a
/-- VEC RSQRT (R83). -/
def execRsqrt (at_ : CoreRef) (env : CoreEnv) (a : VecArgs) (s : State) : Result := vecStep s at_ env .rsqrt a
/-- VEC SILU (R83). -/
def execSilu (at_ : CoreRef) (env : CoreEnv) (a : VecArgs) (s : State) : Result := vecStep s at_ env .silu a
/-- VEC GELU (R83). -/
def execGelu (at_ : CoreRef) (env : CoreEnv) (a : VecArgs) (s : State) : Result := vecStep s at_ env .gelu a
/-- VEC SIGMOID (R83). -/
def execSigmoid (at_ : CoreRef) (env : CoreEnv) (a : VecArgs) (s : State) : Result := vecStep s at_ env .sigmoid a
/-- VEC TANH (R83). -/
def execTanh (at_ : CoreRef) (env : CoreEnv) (a : VecArgs) (s : State) : Result := vecStep s at_ env .tanh a
/-- VEC SUM (R83). -/
def execSum (at_ : CoreRef) (env : CoreEnv) (a : VecArgs) (s : State) : Result := vecStep s at_ env .sum a
/-- VEC MAXR (R83). -/
def execMaxr (at_ : CoreRef) (env : CoreEnv) (a : VecArgs) (s : State) : Result := vecStep s at_ env .maxr a
/-- VEC SUMSQ (R83). -/
def execSumsq (at_ : CoreRef) (env : CoreEnv) (a : VecArgs) (s : State) : Result := vecStep s at_ env .sumsq a
/-- VEC RMSNORM (R83). -/
def execRmsnorm (at_ : CoreRef) (env : CoreEnv) (a : VecArgs) (s : State) : Result := vecStep s at_ env .rmsnorm a
/-- VEC LAYERNORM (R83). -/
def execLayernorm (at_ : CoreRef) (env : CoreEnv) (a : VecArgs) (s : State) : Result := vecStep s at_ env .layernorm a
/-- VEC SOFTMAX (R83). -/
def execSoftmax (at_ : CoreRef) (env : CoreEnv) (a : VecArgs) (s : State) : Result := vecStep s at_ env .softmax a
/-- VEC ROPE (R83). -/
def execRope (at_ : CoreRef) (env : CoreEnv) (a : VecArgs) (s : State) : Result := vecStep s at_ env .rope a
/-- VEC QUANT (R83). -/
def execQuant (at_ : CoreRef) (env : CoreEnv) (a : VecArgs) (s : State) : Result := vecStep s at_ env .quant a
/-- VEC DEQUANT (R83). -/
def execDequant (at_ : CoreRef) (env : CoreEnv) (a : VecArgs) (s : State) : Result := vecStep s at_ env .dequant a
/-- VEC TOPK (R83). -/
def execTopk (at_ : CoreRef) (env : CoreEnv) (a : VecArgs) (s : State) : Result := vecStep s at_ env .topk a
/-- VEC OUTLIER (R85). -/
def execOutlier (at_ : CoreRef) (env : CoreEnv) (a : VecArgs) (s : State) : Result := vecStep s at_ env .outlier a
/-- VEC sampled CHECK (R86, R165). -/
def execCheck (at_ : CoreRef) (env : CoreEnv) (a : VecArgs) (s : State) : Result := vecStep s at_ env .check a
/-- Guard CHECK: a CHECK whose entry has scope 1 runs or skips by the widen bit of the last clear (R166). -/
def execGuardCheck (at_ : CoreRef) (env : CoreEnv) (a : VecArgs) (s : State) : Result := vecStep s at_ env .check a

/-! ## DMA engine and cache -/

/-- DMA_COPY, form 0 (R99, R100). -/
def execDmaCopyStackToScratch (at_ : CoreRef) (env : CoreEnv) (a : DmaStackArgs) (s : State) : Result :=
  coreStep s at_ env (.dmaLoad a)
/-- DMA_COPY, form 1 (R99, R100). -/
def execDmaCopyScratchToStack (at_ : CoreRef) (env : CoreEnv) (a : DmaStackArgs) (s : State) : Result :=
  coreStep s at_ env (.dmaStore a)
/-- DMA_COPY, form 2 (R99, R100). -/
def execDmaCopyScratchToCore (at_ : CoreRef) (env : CoreEnv) (a : DmaCoreArgs) (s : State) : Result :=
  coreStep s at_ env (.dmaCore a)
/-- DMA_COPY, form 3 (R99, R100). -/
def execDmaCopyEdgeToScratch (at_ : CoreRef) (env : CoreEnv) (a : DmaEdgeArgs) (s : State) : Result :=
  coreStep s at_ env (.dmaEdgeIn a)
/-- DMA_COPY, form 4 (R99, R100). -/
def execDmaCopyScratchToEdge (at_ : CoreRef) (env : CoreEnv) (a : DmaEdgeArgs) (s : State) : Result :=
  coreStep s at_ env (.dmaEdgeOut a)
/-- DMA_WAIT (R101). -/
def execDmaWait (at_ : CoreRef) (env : CoreEnv) (counter : BitVec 4) (threshold : BitVec 12) (s : State) : Result :=
  coreStep s at_ env (.dmaWait counter threshold)
/-- CGATHER (R96). -/
def execCgather (at_ : CoreRef) (env : CoreEnv) (a : GatherArgs) (s : State) : Result := coreStep s at_ env (.gather a)
/-- CINVAL (R97). -/
def execCinval (at_ : CoreRef) (env : CoreEnv) (s : State) : Result := coreStep s at_ env .cinval

/-! ## Events of a core -/

/-- An event of a core, after which its sequencer goes on. -/
def coreEvent (s : State) (at_ : CoreRef) (f : Nat → State) : Result :=
  atCore s at_ (goOn s (f (coreIndex at_)) (coreIndex at_))

/-- ENGINE_COMMAND_COMPLETE (R66). -/
def execEngineCommandComplete (at_ : CoreRef) (e : Engine) (progParity : Bool) (s : State) : Result :=
  coreEvent s at_ (fun ci => effEngineDone s ci e progParity)

/-- STREAMED_COMMAND_ARRIVAL (R65). -/
def execStreamedCommandArrival (at_ : CoreRef) (progParity : Bool) (s : State) : Result :=
  coreEvent s at_ (fun ci => effStreamed s ci progParity)

/-- A bank, a block or a partition that was waiting for the last write of a transfer is looked at by its own
events; the cores of other partitions may go on when a piece was lost or quarantined. -/
def execDmaTransferComplete (at_ : CoreRef) (index : Nat) (fin : DmaEnd) (data : List Byte) (s : State) : Result :=
  let t := goOn s (effXferDone s (coreIndex at_) index fin data) (coreIndex at_)
  atCore s at_ (goOnAll t t)

/-- BANK_POWER_UP_COMPLETE (R92). -/
def execBankPowerUpComplete (at_ : CoreRef) (bank : Nat) (s : State) : Result :=
  if bank < 32 then coreEvent s at_ (fun ci => effBankUp s ci bank) else .fault (.noSuchUnit "bank" bank)

/-- BANK_SWITCH_OFF (R92, R105). -/
def execBankSwitchOff (at_ : CoreRef) (bank : Nat) (s : State) : Result :=
  if bank < 32 then coreEvent s at_ (fun ci => effBankSwitchOff s ci bank) else .fault (.noSuchUnit "bank" bank)

/-- CACHE_FILL (R95). -/
def execCacheFill (at_ : CoreRef) (index : Nat) (parity : Bool) (s : State) : Result :=
  coreEvent s at_ (fun ci => effCacheFill s ci index parity)

end Sys2Proof.Machine
end

