-- ==== Sys2Proof/Machine/PairOps.lean ====
section
/-! DEFINITION. What mirroring asks of every queue and home die (R309, R314, R317, R318, R320, R321): which
rings are mirrored and owned, frames, shadow messages, token records and the loss policy. -/

namespace Sys2Proof.Machine

/-! ## State of the pair -/

def pairState (s : State) : Nat := odGet s K.pairPairState

/-- PAIRED, DEGRADED or DRAINING: entries, records and queue steps are mirrored. -/
def mirroring (s : State) : Bool := [2, 3, 4].contains (pairState s)

/-- One bit of a DOMAIN of bits. -/
def domBit (s : State) (k i : Nat) : Bool := (fieldLe (domGet s k) (i / 8) 1).testBit (i % 8)

/-- A ring that host software names as mirrored, while the pair's settings have effect (R309, R318). -/
def mirroredRing (s : State) (r : Nat) : Bool := decide (pairState s ≠ 0) && domBit s K.pairMirroredRings r

/-- Does this module own a ring? -/
def ownsRing (s : State) (r : Nat) : Bool := !(mirroredRing s r) || s.pair.owned.contains r

/-- The submission rings whose completions a completion ring carries. -/
def sourcesOf (s : State) (cq : Nat) : List Nat := (s.subRings.filter (fun e => e.2.cq == cq)).map (·.1)

/-- Thaha ports in an UP state (R308). -/
def thahaUp (s : State) : Bool :=
  [24, 25, 26, 27].any (fun i =>
    [PortState.up8, PortState.up6, PortState.up4].contains (kvGet {} s.fabric.ports i).state)

/-- Change of the pair's state, recorded with the sessions concerned (R432). -/
def setPairState (s : State) (n sessions : Nat) : State :=
  let old := pairState s
  recordEvent (odSet s K.pairPairState n) {
    code := 0x9000, source := .pairBus
    payload := natLe old 1 ++ natLe n 1 ++ natLe sessions 2 }

/-! ## Frames (R314, R315) -/

/-- The 64 bits of a frame. -/
def frameBits (code payload : Nat) : W64 :=
  let low := code % 16 + payload % 2 ^ 48 * 256
  BitVec.ofNat 64 (low + (crc8 (natLe low 7)).toNat * 2 ^ 56)

def sendFrame (s : State) (code payload : Nat) : State := emit s (.pairFrame (frameBits code payload))

/-! ## Host writes (R317) -/

/-- A write to host memory; the fence latch drops those of mirrored rings and sessions. -/
def hostOut (s : State) (mirrored : Bool) (port addr : Nat) (data : List Byte) : State :=
  if mirrored && s.pair.fence then { s with pair := { s.pair with dropped := s.pair.dropped + 1 } }
  else emit s (.hostWrite port addr data)

/-! ## Token records (R241, R247) -/

/-- Phase of the n-th entry of a ring: 1 on the first pass (R241). -/
def phaseOf (n size : Nat) : Bool := n / size % 2 == 0

/-- The 16 bytes of a session's n-th record. -/
def tokenBytes (x : Session) (n : Nat) (r : TokRec) : List Byte :=
  let flags := (if phaseOf n (2 ^ x.tokenLog2) then 1 else 0) + (if r.last then 2 else 0) +
    (if r.stop then 4 else 0) + (if r.draft then 8 else 0)
  natLe r.token 4 ++ natLe r.position 4 ++ natLe r.logprob.toNat 4 ++ natLe r.tag 2 ++ natLe flags 1 ++ [0]

/-! ## Shadow messages (R321) -/

/-- Send a queue step to the twin; it takes effect when acknowledged. -/
def sendShadow (s : State) (b : ShadowBody) : State :=
  let q := s.pair
  let n := q.shadowSeq
  emit { s with pair := { q with shadowSeq := (n + 1) % 2 ^ 32, unacked := q.unacked ++ [(n, b)] } } (.shadowMessage n b)

/-- The verdict message of one session: its new length and the records of the lap (R320). -/
def mirrorOf (s : State) (sess lap : Nat) : MirrorSession :=
  let x := sessOf s sess
  { session := sess, len := x.len
    ended := decide (x.state = .free) || decide (x.state = .ending)
    forks := x.children
    records := (x.records.zipIdx.filter (fun e => e.1.lap == lap)).map (fun e =>
      ((x.tokW + e.2) % 2 ^ x.tokenLog2, tokenBytes x (x.tokW + e.2) e.1)) }

/-- Mirrored sessions of a partition that this module owns. -/
def mirroredOf (s : State) (p : Nat) : List Nat := (openOf s p).filter (fun i => (sessOf s i).mirrored)

/-! ## Loss (R318, R320) -/

/-- Records that the twin has not acknowledged are never written; the GENERATE has not released them. -/
def dropUnacked (s : State) (sess : Nat) : State :=
  let x := sessOf s sess
  let n := (x.records.filter (fun r => r.mirror)).length
  setSess s sess (updGen { x with records := x.records.filter (fun r => !r.mirror) }
    (fun g => { g with released := g.released - n }))

/-- A session goes on unmirrored: its records wait for nothing. -/
def unmirror (s : State) (sess : Nat) : State :=
  updSess s sess (fun x => { x with mirrored := false, records := x.records.map (fun r => { r with mirror := false }) })

/-- mirror_loss_policy is applied to some sessions. -/
def applyLoss (s : State) (l : List Nat) : State :=
  if l = [] then s
  else
    let policy := odGet s K.pairMirrorLossPolicy
    let s := l.foldl (fun s i => if policy = 0 then endSession (dropUnacked s i) i stMirrorLost else unmirror s i) s
    recordEvent (bump s K.pairMirrorLost l.length) {
      code := 0x9000, source := .pairBus
      payload := natLe (pairState s) 1 ++ natLe (pairState s) 1 ++ natLe l.length 2 }

/-- Mirroring through a broken map entry ends (R311): the policy is applied to the sessions, while their records of
earlier laps still wait for the twin. -/
def loseMap (s : State) (l : List Nat) : State :=
  if l = [] then s
  else
    let policy := odGet s K.pairMirrorLossPolicy
    let s := l.foldl (fun s i => if policy = 0 then endSession s i stMirrorLost
      else updSess s i (fun x => { x with mirrored := false })) s
    recordEvent (bump s K.pairMirrorLost l.length) {
      code := 0x9000, source := .pairBus
      payload := natLe (pairState s) 1 ++ natLe (pairState s) 1 ++ natLe l.length 2 }

/-! ## What both modules must agree on (R309, R330) -/

/-- All submission rings that the settings name as mirrored. -/
def mirroredRings (s : State) : List Nat :=
  (domGet s K.pairMirroredRings).zipIdx.flatMap (fun e =>
    if e.1 = 0 then [] else ((List.range 8).filter (fun b => e.1.toNat.testBit b)).map (fun b => 8 * e.2 + b))

/-- A mirrored ring and its completion ring as this module has them. -/
def ringPair (s : State) (r : Nat) : RingPair :=
  let q := subOf s r
  { ring := r, context := q.ctx, completion := q.cq, completionContext := (compOf s q.cq).ctx, port := ringFn s r / 64 }

/-- Rings, sides, contexts, session ranges and heartbeat settings are those of the twin: the check of attach_result
4. -/
def configMatches (s : State) (t : TwinInfo) : Bool :=
  domGet s K.pairMirroredRings == t.rings && domGet s K.pairRingSide == t.sides &&
    odGet s K.pairHeartbeatInterval == t.interval && odGet s K.pairHeartbeatTimeout == t.timeout &&
    (mirroredRings s).all (fun r =>
      let fn := ringFn s r
      (t.contexts.find? (fun c => c.ring == r)) == some (ringPair s r) &&
        sessRange s fn == (fieldLe t.ranges (4 * fn) 2, fieldLe t.ranges (4 * fn + 2) 2))

/-- Measurements of the sets in a partition's slots. -/
def slotMeasurements (s : State) (p : Nat) : List (List Byte) :=
  (List.range 16).map (fun i => (wsetOf s (slotOf s p i)).measurement)

/-- The twin's partition that a map entry names. -/
def twinPart (t : TwinInfo) (q : Nat) : Option TwinPart := t.parts.find? (fun x => x.partition == q)

/-- Do a local partition and the one its entry names match, each naming the other? -/
def partMatches (s : State) (t : TwinInfo) (p : Nat) : Bool :=
  match twinPart t (domField s K.pairPartitionMap p 1) with
  | none => false
  | some x => x.map == p && x.program == (((partOf s p).program.map (·.measurement)).getD []) && x.slots == slotMeasurements s p

/-- Every entry that either module gives matches: the check of attach_result 5. -/
def mapsMatch (s : State) (t : TwinInfo) : Bool :=
  (List.range 48).all (fun p => domField s K.pairPartitionMap p 1 == 0xFF || partMatches s t p) &&
    t.parts.all (fun x => x.map == 0xFF || domField s K.pairPartitionMap x.map 1 == x.partition)

/-- A local partition has been loaded or its slots have changed: its entry is valid while both sides match (R309,
R311). -/
def recheckMap (s : State) (p : Nat) : State :=
  if pairState s = 0 then s
  else
    let rest := s.pair.valid.filter (· ≠ p)
    let good := domField s K.pairPartitionMap p 1 != 0xFF && partMatches s s.pair.twin p
    { s with pair := { s.pair with valid := if good then insertNat p rest else rest } }

/-- A flip carried by FLIP frames leaves the twin's slots as this module's (R311). -/
def twinFlipped (s : State) (p : Nat) : State :=
  let q := domField s K.pairPartitionMap p 1
  { s with pair := { s.pair with twin := { s.pair.twin with
    parts := s.pair.twin.parts.map (fun x => if x.partition = q then { x with slots := slotMeasurements s p } else x) } } }

/-- Is the map entry of a local partition valid (R309, R311)? -/
def mapValid (s : State) (p : Nat) : Bool :=
  s.pair.valid.contains p && decide (domField s K.pairPartitionMap p 1 ≠ 0xFF)

end Sys2Proof.Machine
end

