-- ==== Sys2Proof/Machine/Rings.lean ====
section
/-! DEFINITION. Rings (R238 to R241, R456 to R459): contexts, enabling and disabling, doorbells, the fetch of
entries, the posting of completions with their interrupts, and the writing of token records. -/

namespace Sys2Proof.Machine

/-! ## Functions and their ranges (R456) -/

/-- A completion ring's entry in a function's ranges: base and count. -/
def compRange (s : State) (fn : Nat) : Nat × Nat :=
  (domField s K.pcieRingRanges (8 * fn + 4) 2, domField s K.pcieRingRanges (8 * fn + 6) 2)

/-- The function whose range holds a completion ring. -/
def fnOfComp (s : State) (r : Nat) : Option Nat := (List.range functionCount).find? (fun f => inRange (compRange s f) r)

/-- A ring error of a function (R238, R458, R276). -/
def ringError (s : State) (fn : Nat) : State :=
  bump (updFn s fn (fun x => { x with ringErrors := x.ringErrors + 1 })) K.sessRingErrors

/-- May a function use a class (R272)? -/
def classPermitted (s : State) (fn c : Nat) : Bool := domBit s (K.clsFunctions c) fn

def moduleReady (s : State) : Bool := odGet s K.devBringUpState == 8

/-- A record under 0x5300 (R432). -/
def recordRing (s : State) (ring cause kind value pos : Nat) : State :=
  recordEvent s {
    code := 0x5300, source := mpSource s
    payload := natLe ring 2 ++ natLe cause 1 ++ natLe kind 1 ++ natLe value 2 ++ natLe pos 2 }

/-! ## Contexts (R238, R459) -/

/-- Do bytes [off, off + n) of a context touch a field? -/
def touches (off n field len : Nat) : Bool := decide (off < field + len) && decide (field < off + n)

/-- Are the fields of a submission context within range? `t` says which fields are judged. -/
def subCtxOk (s : State) (fn : Nat) (c : List Byte) (t : Nat → Nat → Bool) : Bool :=
  (!(t 0 8) || fieldLe c 0 8 % 4096 == 0) &&
    (!(t 8 1) || (decide (4 ≤ fieldLe c 8 1) && decide (fieldLe c 8 1 ≤ 16))) &&
    (!(t 9 1) || (decide (fieldLe c 9 1 ≤ 1) && (fieldLe c 9 1 == 0 || classPermitted s fn 0))) &&
    (!(t 10 2) || inRange (compRange s fn) (fieldLe c 10 2))

/-- MSI-X vectors of a function (R454). -/
def vectorsOf (fn : Nat) : Nat := if fn % 64 = 0 then 2048 else 64

def compCtxOk (fn : Nat) (c : List Byte) (t : Nat → Nat → Bool) : Bool :=
  (!(t 0 8) || fieldLe c 0 8 % 4096 == 0) &&
    (!(t 8 1) || (decide (4 ≤ fieldLe c 8 1) && decide (fieldLe c 8 1 ≤ 16))) &&
    (!(t 10 2) || decide (fieldLe c 10 2 ≤ 1000)) &&
    (!(t 12 2) || decide (fieldLe c 12 2 < vectorsOf fn))

/-- The bytes that host software may write, of a context: the position copy and the enable bit apart. -/
def spliceCtx (old : List Byte) (off : Nat) (new : List Byte) (keep : List Nat) : List Byte :=
  let x := spliceBytes old off new
  (x.zipIdx.map (fun e => if keep.contains e.2 then getAt 0 old e.2 else e.1)).take 32

/-- A write of context bytes of one ring, enable apart. -/
def writeSubCtx (s : State) (fn ring off : Nat) (bytes : List Byte) : State :=
  let q := subOf s ring
  if !(inRange (subRange s fn) ring) ∨ q.enable then ringError s fn
  else
    let c := spliceCtx q.ctx off bytes [12, 16, 17]
    if subCtxOk s fn c (touches off bytes.length) then setSub s ring { q with ctx := c } else ringError s fn

def writeCompCtx (s : State) (fn ring off : Nat) (bytes : List Byte) : State :=
  let q := compOf s ring
  if !(inRange (compRange s fn) ring) ∨ q.enable then ringError s fn
  else
    let c := spliceCtx q.ctx off bytes [14, 16, 17]
    if compCtxOk fn c (touches off bytes.length) then setComp s ring { q with ctx := c } else ringError s fn

/-- RING_CONTEXT_WRITE: a write at an offset of BAR0's context areas (R457). One that does not lie wholly in
one context is ignored as a whole. -/
def effContextWrite (s : State) (fn off : Nat) (bytes : List Byte) : State :=
  if bytes = [] ∨ off / 32 ≠ (off + bytes.length - 1) / 32 then ringError s fn
  else if 0x100000 ≤ off ∧ off < 0x200000 then writeSubCtx s fn ((off - 0x100000) / 32) (off % 32) bytes
  else if 0x200000 ≤ off ∧ off < 0x300000 then writeCompCtx s fn ((off - 0x200000) / 32) (off % 32) bytes
  else ringError s fn

/-- RING_ENABLE (R459): a valid context takes effect; a changed base or size returns the ring to slot 0. -/
def enableSub (s : State) (fn ring : Nat) : State :=
  let q := subOf s ring
  if !(inRange (subRange s fn) ring) ∨ !(moduleReady s) ∨ !(subCtxOk s fn q.ctx (fun _ _ => true)) then ringError s fn
  else if q.enable then s
  else
    let base := fieldLe q.ctx 0 8
    let log2 := fieldLe q.ctx 8 1
    let moved := base ≠ q.base ∨ log2 ≠ q.sizeLog2
    setSub s ring { q with
      base, sizeLog2 := log2, cq := fieldLe q.ctx 10 2, priority := fieldLe q.ctx 9 1, enable := true
      fetch := if moved then 0 else q.fetch, tail := if moved then 0 else q.tail }

def enableComp (s : State) (fn ring : Nat) : State :=
  let q := compOf s ring
  if !(inRange (compRange s fn) ring) ∨ !(moduleReady s) ∨ !(compCtxOk fn q.ctx (fun _ _ => true)) then ringError s fn
  else if q.enable then s
  else
    let base := fieldLe q.ctx 0 8
    let log2 := fieldLe q.ctx 8 1
    let moved := base ≠ q.base ∨ log2 ≠ q.sizeLog2
    setComp s ring { q with
      base, sizeLog2 := log2, vector := fieldLe q.ctx 12 2, coalesceCount := fieldLe q.ctx 9 1
      coalesceTime := fieldLe q.ctx 10 2, enable := true
      written := if moved then 0 else q.written, head := if moved then 0 else q.head }

def effRingEnable (s : State) (fn : Nat) (k : RingKind) (ring : Nat) : State :=
  match k with
  | .submission => enableSub s fn ring
  | .completion => enableComp s fn ring

/-- Is a completion ring still in use: by an enabled submission ring, or a command not yet posted? -/
def compInUse (s : State) (ring : Nat) : Bool :=
  s.subRings.any (fun e => e.2.cq == ring && (e.2.enable || decide (0 < e.2.outstanding))) ||
    !(compOf s ring).ready.isEmpty

/-- RING_DISABLE (R459). -/
def effRingDisable (s : State) (fn : Nat) (k : RingKind) (ring : Nat) : State :=
  match k with
  | .submission =>
    if !(inRange (subRange s fn) ring) then ringError s fn
    else updSub s ring (fun q => { q with enable := false })
  | .completion =>
    if !(inRange (compRange s fn) ring) ∨ compInUse s ring then ringError s fn
    else updComp s ring (fun q => { q with enable := false })

/-! ## Doorbells (R239, R457) -/

/-- Is a doorbell's value one that R239 takes: aligned, upper bits 0, below the ring size? -/
def doorbellOk (d : Doorbell) (size : Nat) : Bool := d.aligned && decide (d.value.toNat < 65536) && decide (d.value.toNat < size)

/-- Distance round a ring. -/
def ringDist (size a b : Nat) : Nat := (b + size - a % size) % size

/-- SUBMISSION_DOORBELL: the tail may not pass entries that have not been fetched. -/
def effSubDoorbell (s : State) (fn ring : Nat) (d : Doorbell) : State :=
  let q := subOf s ring
  let size := 2 ^ q.sizeLog2
  if !(inRange (subRange s fn) ring) ∨ !(doorbellOk d size) then ringError s fn
  else
    let v := d.value.toNat
    if ringDist size q.fetch v < ringDist size q.fetch q.tail then
      let s := recordRing (ringError s fn) ring 0 0 v q.fetch
      setSub s ring { q with enable := false }
    else setSub s ring { q with tail := v }

/-- COMPLETION_DOORBELL: the head may not pass entries that have not been written. -/
def effCompDoorbell (s : State) (fn ring : Nat) (d : Doorbell) : State :=
  let q := compOf s ring
  let size := 2 ^ q.sizeLog2
  if !(inRange (compRange s fn) ring) ∨ !(doorbellOk d size) then ringError s fn
  else
    let v := d.value.toNat
    if ringDist size q.head v > ringDist size q.head (q.written % size) then
      recordRing (ringError s fn) ring 2 1 v (q.written % size)
    else setComp s ring { q with head := v }

/-- TOKEN_RING_DOORBELL. -/
def effTokenDoorbell (s : State) (fn sess : Nat) (d : Doorbell) : State :=
  let x := sessOf s sess
  let size := 2 ^ x.tokenLog2
  if !(inRange (sessRange s fn) sess) ∨ !(doorbellOk d size) then ringError s fn
  else
    let v := d.value.toNat
    if ringDist size x.tokHead v > ringDist size x.tokHead (x.tokW % size) then
      recordRing (ringError s fn) sess 2 2 v (x.tokW % size)
    else if x.state = .free then s else setSess s sess { x with tokHead := v }

/-- BITMAP_DOORBELL: the slot written is read again, and every slot after it not yet used. -/
def effBitmapDoorbell (s : State) (fn sess : Nat) (d : Doorbell) : State :=
  let x := sessOf s sess
  let size := 2 ^ x.bitmapLog2
  if !(inRange (sessRange s fn) sess) ∨ x.state = .free ∨ x.bitmapBase = none ∨ !(doorbellOk d size) then ringError s fn
  else if x.shadow then s
  else
    let from_ := d.value.toNat
    ((List.range size).filter (fun i =>
      let slot := (from_ + i) % size
      slot == from_ || (match kvGet [] x.bitmaps slot with
        | [] => true
        | b => decide (x.len < fieldLe b 0 4)))).foldl (fun s i => askSlot s sess ((from_ + i) % size)) s

/-- BITMAP_SLOT_READ (R266): the home die keeps the slot; a failed read ends the running GENERATE at once. -/
def effSlotRead (s : State) (sess slot : Nat) (data : Option (List Byte)) : State :=
  let x := sessOf s sess
  if x.state = .free ∨ x.state = .ending ∨ x.bitmapBase = none ∨ x.shadow then s
  else match data with
    | some b => setSess s sess { x with bitmaps := kvSet [] x.bitmaps (slot % 2 ^ x.bitmapLog2) b }
    | none =>
      let s := bump s K.pcieHostReadErrors
      match x.running with
      | some g =>
        if g.genFlags.testBit 0 then
          -- a lane that decodes for it makes no further progress in the lap
          let s := match laneWith s x.part sess with
            | some (i, l) => if l.kind = .prefill ∧ !l.samples then s else updLane s x.part i (fun l => { l with kind := .idle })
            | none => s
          finishCmd s sess g stHostAccess 5
        else s
      | none => s

/-! ## Fetching (R240) -/

/-- Has a completion ring no room for an entry (R241)? -/
def compFull (q : CompRing) : Bool :=
  decide (ringDist (2 ^ q.sizeLog2) q.head (q.written % 2 ^ q.sizeLog2) ≥ 2 ^ q.sizeLog2 - 1)

/-- Completions formed and not posted for lack of room stop fetching at 64. -/
def cqBlocked (s : State) (cq : Nat) : Bool := decide (64 ≤ (compOf s cq).ready.length) && compFull (compOf s cq)

def fetchable (s : State) (r : Nat) (q : SubRing) : Bool :=
  q.enable && q.tail != q.fetch && ownsRing s r && !(mirroredRing s r && pairState s == 4) && !(cqBlocked s q.cq)

/-- The ring to fetch from next: priority 1 before 0, round-robin within a priority. -/
def nextRing (s : State) : Option Nat :=
  let of_ (pr served : Nat) : Option Nat :=
    let l := (s.subRings.filter (fun e => e.2.priority == pr && fetchable s e.1 e.2)).map (·.1)
    match l.find? (fun r => decide (served < r)) with
    | some r => some r
    | none => l.head?
  match of_ 1 s.served1 with
  | some r => some r
  | none => of_ 0 s.served0

/-- An opcode of R243. -/
def knownOpcode (op : Nat) : Bool := [1, 2, 3, 4, 5, 6, 0x10, 0x11, 0x20, 0x21, 0x30].contains op

/-- Place of the next entry in the order of fetching: above that of every fetched command not completed. -/
def nextFetch (s : State) : Nat :=
  s.sessions.foldl (fun n e => e.2.cmds.foldl (fun n c => Nat.max n (c.order + 1)) n)
    (s.subRings.foldl (fun n r => r.2.fetchOrder.foldl (fun n k => Nat.max n (k + 1)) n) 0)

/-- A fetched entry joins its ring's commands; a reserved opcode completes at once. -/
def takeEntry (s : State) (ring : Nat) (e : List Byte) : State :=
  if knownOpcode (fieldLe e 0 1) then 
    updSub s ring (fun q => { q with dispatch := q.dispatch ++ [e], fetchOrder := q.fetchOrder ++ [nextFetch s] })
  else complete s ring { tag := fieldLe e 2 2, opcode := fieldLe e 0 1, status := stInvalidOpcode }

/-- SUBMISSION_ENTRY_FETCH. -/
def effFetch (s : State) (ring : Nat) (entry : Option (List Byte)) : State :=
  if nextRing s ≠ some ring then s
  else
    let q := subOf s ring
    let s := if q.priority = 1 then { s with served1 := ring } else { s with served0 := ring }
    match entry with
    | none =>
      let s := bump s K.pcieHostReadErrors
      let s := match fnOfSub s ring with
        | some f => ringError s f
        | none => s
      setSub (recordRing s ring 1 0 q.tail q.fetch) ring { q with enable := false }
    | some e =>
      let e := padTo 64 e
      let s := setSub s ring { q with fetch := (q.fetch + 1) % 2 ^ q.sizeLog2, outstanding := q.outstanding + 1 }
      if mirroredRing s ring ∧ mirroring s then sendShadow s (.entry ring e) else takeEntry s ring e

/-! ## Posting completions (R241, R245) -/

/-- Outbound writes of a port are held while its Data Link Layer is down or it retrains (R464, R466). -/
def portHeld (s : State) (port : Nat) : Bool := (portOf s port).linkDown || (portOf s port).state == 3

/-- The 32 bytes of a completion as the n-th entry of its ring. -/
def complBytes (c : Compl) (phase : Bool) : List Byte :=
  natLe c.tag 2 ++ natLe c.opcode 1 ++ natLe c.status 1 ++ natLe c.sq 2 ++ natLe c.sqHead 2 ++
    natLe c.session 2 ++ natLe (c.flags + if phase then 1 else 0) 1 ++ [0, 0, 0, 0, 0] ++ padTo 16 c.result

/-- Have the records that must precede a completion been written (promise C)? -/
def recordsOut (s : State) (c : Compl) : Bool :=
  match c.recordSession with
  | some i => decide (c.records ≤ (sessOf s i).tokW)
  | none => true

/-- Do the session's other completions let this one be posted? The last waits for every one formed before it, and
those of the session's end are posted in their order (R251, promise D of R12). -/
def inOrder (s : State) (ring : Nat) (c : Compl) : Bool :=
  !(s.compRings.any (fun r => r.1 != ring && r.2.ready.any (fun d =>
    d.session == c.session && decide (d.place < c.place) && (c.flags.testBit 1 || (c.ending && d.ending)))))

/-- Send the ring's interrupt. -/
def interrupt (s : State) (ring : Nat) : State :=
  let q := compOf s ring
  let s := setComp s ring { q with uncoalesced := 0 }
  match fnOfComp s ring with
  | some f => emit s (.msix f q.vector)
  | none => s

/-- A completion has been written: its interrupt is sent or coalesced, and an ending session is cleared. -/
def afterPost (s : State) (ring : Nat) (c : Compl) : State :=
  let q := compOf s ring
  let s := if q.coalesceCount = 0 ∨ q.coalesceCount ≤ q.uncoalesced then interrupt s ring else s
  match c.recordSession with
  | some i => clearSession s i
  | none => s

/-- COMPLETION_POST: the oldest completion of a ring is written, if there is room and its records are out. -/
def effPost (s : State) (ring : Nat) : State :=
  let q := compOf s ring
  let size := 2 ^ q.sizeLog2
  match q.ready with
  | [] => s
  | c :: rest =>
    let port := (fnOfComp s ring).getD 0 / 64
    let idx := q.written % size
    let mirror := mirroredRing s c.sq
    if compFull q ∨ !(recordsOut s c) ∨ !(inOrder s ring c) ∨ portHeld s port then s
    else if mirror ∧ mirroring s ∧ c.shadowed < 2 then
      if c.shadowed = 1 then s
      else
        let s := setComp s ring { q with ready := { c with shadowed := 1 } :: rest }
        sendShadow s (.completion ring idx (phaseOf q.written size) (complBytes c (phaseOf q.written size)))
    else
      let s := hostOut s mirror port (q.base + 32 * idx) (complBytes c (phaseOf q.written size))
      let s := setComp s ring { q with ready := rest, written := q.written + 1, uncoalesced := q.uncoalesced + 1 }
      afterPost s ring c

/-- COALESCE_TIMEOUT (R238). -/
def effCoalesce (s : State) (ring : Nat) : State :=
  if (compOf s ring).uncoalesced = 0 then s else interrupt s ring

/-! ## Token records (R38 order 10, R258) -/

/-- The bound of R258 in ns at a cadence given in thousandths of nominal; a mirrored session's bound is longer
by the acknowledgement bound of R322. -/
def class0Bound (s : State) (p : Nat) (cadence : Nat) (mirrored : Bool) : Nat :=
  let t := odGet s (K.partNominalLapTime p)
  let t := if cadence = 0 then t else t * 1000 / cadence
  t * 5 / 4 + 40000 + (if mirrored then 4000 else 0)

/-- An interval between two records of a class-0 session is judged. -/
def judgeInterval (s : State) (sess ns replays cadence : Nat) : State :=
  let x := sessOf s sess
  let p := x.part
  let s := odMax s (K.strClass0MaxInterval p) ns
  if ns ≤ class0Bound s p cadence x.mirrored then s
  else
    let excused := x.excused || decide (1 < replays) || odGet s K.pwrGovernorHalved != 0 || s.pair.failover
    let s := bump s (if excused then K.strClass0Excused p else K.strClass0Overruns p)
    recordEvent s {
      code := 0x5100, source := mpSource s, partition := p, lap := (partOf s p).lap
      payload := natLe sess 2 ++ natLe (if excused then 1 else 0) 1 ++ [0] ++ natLe ns 4 }

/-- TOKEN_RECORD_RELEASE: the home die writes the oldest record of a session, in one write. -/
def effRelease (s : State) (sess ns replays cadence : Nat) : State :=
  let x := sessOf s sess
  match x.records with
  | [] => s
  | r :: rest =>
    if r.mirror ∨ portHeld s x.port then s
    else
      let s := if x.cls = 0 ∧ x.timing then judgeInterval s sess ns replays cadence else s
      let mir := mirroredRing s x.openRing && x.mirrored
      let s := hostOut s mir x.port (x.tokenBase + 16 * (x.tokW % 2 ^ x.tokenLog2)) (tokenBytes x x.tokW r)
      setSess s sess { x with records := rest, tokW := x.tokW + 1, timing := !r.last, excused := false }

end Sys2Proof.Machine
end

