-- ==== Sys2Proof/Machine/Batons.lean ====
section
/-! DEFINITION. The baton (R37 to R43, R50 to R54, R199 to R201, R227, R254 to R256, R267 to R270): what the
verdict does to each lane, what happens at the boundary, and the start of the next lap. -/

namespace Sys2Proof.Machine

/-! ## Tokens of a lap (R267) -/

/-- The sampled tokens that are released, each with whether its draft was accepted, and how the GENERATE ends:
status and reason. -/
def acceptRun (maxTokens kvMax : Nat) : List Sampled → List Nat → Nat → Nat → List (Sampled × Bool) × Option (Nat × Nat)
  | [], _, _, _ => ([], none)
  | t :: r, drafts, pos, released =>
    if pos ≥ kvMax then ([], some (stContextFull, 2))
    else if released + 1 ≥ maxTokens then ([(t, false)], some (stSuccess, 0))
    else if t.stop then ([(t, false)], some (stSuccess, 1))
    else if pos + 1 ≥ kvMax then ([(t, false)], some (stContextFull, 2))
    else match drafts with
      | [] => ([(t, false)], none)
      | d :: ds =>
        if d = t.token then
          let x := acceptRun maxTokens kvMax r ds (pos + 1) (released + 1)
          ((t, true) :: x.1, x.2)
        else ([(t, false)], none)

/-- A slot with hold set is remembered when its position is kept (R266). -/
def rememberSlot (x : Session) (i pos : Nat) : Session :=
  let b := getAt [] x.lapMaps i
  if b ≠ [] ∧ fieldLe b 0 4 = pos ∧ (fieldLe b 4 1) % 4 = 3 then { x with remembered := some b } else x

/-- Release the tokens of a lane from position `q0` on. -/
def releaseRun (s : State) (p sess q0 : Nat) (g : SessCmd) (run : List (Sampled × Bool) × Option (Nat × Nat)) : State :=
  let n := run.1.length
  let lap := (partOf s p).lap
  let mirror := (sessOf s sess).mirrored && mirroring s
  let recs : List TokRec := run.1.zipIdx.map (fun e => {
    token := e.1.1.token, position := q0 + e.2, logprob := if g.genFlags.testBit 1 then e.1.1.logprob else 0
    tag := g.tag, last := run.2.isSome && e.2 + 1 == n, stop := e.1.1.stop, draft := e.1.2, lap, mirror })
  let g' : SessCmd := { g with released := g.released + n, lastPos := if n = 0 then g.lastPos else q0 + n - 1 }
  let s := updSess s sess (fun x =>
    let x := if usesBitmaps x then (List.range n).foldl (fun x i => rememberSlot x i (q0 + i)) x else x
    { updGen x (fun _ => g') with
      records := x.records ++ recs, sampled := []
      pending := (run.1.getLast?).map (fun e => e.1.token) })
  match run.2 with
  | some (st, reason) => finishCmd s sess g' st reason
  | none => s

/-! ## What a commit does to one lane -/

/-- The lap's rows before those of a lane, in the order of the lanes. -/
def rowsBefore (pt : Part) (sess : Nat) : Nat :=
  (((workLanes pt).takeWhile (fun l => l.session != sess)).map Lane.block).foldl (· + ·) 0

/-- The residual rows written in the lap for a lane's last kept position become the session's (R159): `kept`
positions of the lane are kept. They are read from the working half. -/
def keepResiduals (s : State) (p : Nat) (l : Lane) (kept : Nat) : State :=
  let pt := partOf s p
  match pt.program with
  | none => s
  | some g => g.inputs.foldl (fun s a => match a.kind with
    | .residual site n =>
      let d := halfDesc a.desc pt.heldHalf
      let row := rowsBefore pt l.session + kept - 1
      let codes := rowCodes d (areaNat s (pt.coreAt a.dx a.dy a.core) d (extent d (row + 1) n)) n row
      updSess s l.session (fun x => { x with
        residuals := kvSet [] x.residuals site (codes.flatMap (fun c => natLe c 2)) })
    | _ => s) s

/-- A prefill block is committed (R200, R253, R254). -/
def commitPrefill (s : State) (p : Nat) (l : Lane) : State :=
  let sess := l.session
  let x := sessOf s sess
  let first := (if x.pending.isSome then 1 else 0) + (if x.useHeld then 1 else 0)
  let fresh := l.block + (if x.holdAfter then 1 else 0) - first
  let newLen := l.p0 + l.block
  let s := updSess s sess (fun x => { x with
    len := newLen, history := x.history ++ x.block, pending := none
    held := if x.holdAfter then x.holdNext else if x.useHeld then none else x.held
    useHeld := false, holdAfter := false, holdNext := none, block := [], blockRead := false
    cmds := consume fresh x.cmds })
  let s := finishPrompts (settlePages s p sess newLen) sess
  let s := match (sessOf s sess).cutStatus with
    | some st => endPrompt (updSess s sess (fun x => { x with cutStatus := none })) sess st
    | none => s
  if !l.samples then s
  else
    let x := sessOf s sess
    match x.running with
    | none => s
    | some g => releaseRun s p sess newLen g (acceptRun g.maxTokens (kvMax s p) x.sampled [] newLen g.released)

/-- A decode or verify lane is committed (R200, R267). -/
def commitDecode (s : State) (p : Nat) (l : Lane) : State :=
  let sess := l.session
  let x := sessOf s sess
  match x.running with
  | none => s
  | some g =>
    let run := acceptRun g.maxTokens (kvMax s p) x.sampled x.drafts (l.p0 + 1) g.released
    let kept := run.1.length
    let s := if kept = 0 then s else keepResiduals s p l kept
    let s := updSess s sess (fun x => { x with
      len := l.p0 + kept, history := x.history ++ x.pending.toList ++ x.drafts.take (kept - 1)
      drafts := [], block := [], blockRead := false })
    releaseRun (settlePages s p sess (l.p0 + kept)) p sess (l.p0 + 1) g run

/-- Commit one lane. A lane that samples and has no sample makes no progress; a session cut out by an abort wave
commits nothing (R41). -/
def commitLane (s : State) (p : Nat) (l : Lane) : State :=
  let x := sessOf s l.session
  if (partOf s p).cutSessions.contains l.session then s
  else if l.kind = .idle ∨ x.state ≠ .active ∨ x.part ≠ p ∨ (l.samples = true ∧ x.sampled = []) then s
  else if l.kind = .prefill then commitPrefill s p l
  else commitDecode s p l

/-- A named session ends: for its own cause, or by its CANCEL (R268). One whose wave is out ends with the
wave's acknowledgement (R269). A member of a job that is not the root has only the session's pages here, which are
freed with it. -/
def endNamed (s : State) (sess : Nat) : State :=
  let x := sessOf s sess
  if x.state = .free then
    (if x.root = [] then s else setSess (freeSessionPages s x.part sess) sess {})
  else if x.hostLost then (if byWave s sess then s else dropSession s sess)
  else match x.abortStatus with
  | some st => endSession s sess st
  | none => if x.cancel.isSome ∧ !(byWave s sess) then endSession s sess stCancelled true else s

/-! ## The boundary -/

/-- Sessions at or above a lowered kv_max_positions (R178). -/
def contextLimit (s : State) (p : Nat) : State :=
  let top := kvMax s p
  (openOf s p).foldl (fun s i =>
    let x := sessOf s i
    let held := x.len + (if x.pending.isSome then 1 else 0) + (if x.held.isSome then 1 else 0)
    let s := ((x.cmds.filter (fun c => c.isPrompt)).foldl (fun (acc : Nat × State) c =>
      if acc.1 + c.left > top ∧ 0 < c.left then (acc.1, finishCmd acc.2 i c stContextFull 0)
      else (acc.1 + c.left, acc.2)) (held, s)).2
    let x := sessOf s i
    if x.len + (if x.pending.isSome then 1 else 0) < top then s
    else match x.running with
      | some g => if x.genFirst then finishCmd s i g stContextFull 2 else s
      | none => s) s

/-- A pending flip swaps the slot's set (R227 orders 3 and 4, R229). -/
def swapFlip (s : State) (p : Nat) : State :=
  let pt := partOf s p
  match pt.flip with
  | none => s
  | some f =>
    if !f.prepared ∨ !f.go ∨ f.gap ∨ pt.lap < f.goLap then s
    else
      let old := slotOf s p f.slot
      let s := setSlot s p f.slot f.set
      let s := updPart s p (fun x => { x with flip := some { f with gap := true, old, lap := pt.lap } })
      let s := (partCores s p).foldl invalidateCache s
      let s := (openOf s p).foldl (fun s i => updSess s i (fun x => { x with residuals := [] })) s
      let s := bump (bump s K.numResidualResets) (K.statFlips p)
      let s := if f.carried then twinFlipped s p else recheckMap s p
      if f.policy = 1 then (openOf s p).foldl (fun s i => endSession s i stWeightChanged) s else s

/-- A FORK takes effect (R255, R198): its completion carries the child's home die. DESIGN CHOICE (log entry 172):
where no frame is free for the child's table pages, which R198 does not settle, the FORK completes with KV_NO_PAGES
and the child's context is dropped. -/
def takeFork (s : State) (p parent : Nat) (c : SessCmd) : State :=
  let child := fieldLe c.bytes 8 2
  let x := sessOf s parent
  let refuse (s : State) (st : Nat) : State :=
    settleState (dropCmd (doneCmd (setSess (freeSessionPages s p child) child {}) parent c st 0 0) parent c) parent
  if !(forkFits s parent x.len) then refuse s stForkLimit
  else
    match forkPages s p parent child with
    | (false, s) => refuse s stKvNoPages
    | (true, s) =>
      let s := updSess s child (fun y => { y with
        len := x.len, pending := x.pending, history := x.history, held := x.held, residuals := x.residuals
        seed := x.seed, parent := none, forked := true })
      let s := updSess s parent (fun x => { x with forked := true, children := x.children ++ [child] })
      let s := complete s c.ring {
        tag := c.tag, opcode := 4, status := stSuccess, session := parent
        result := natLe (sessOf s child).homeDie 1, recordSession := some parent, records := x.recordCount }
      settleState (settleState (dropCmd s parent c) parent) child

def takeForks (s : State) (p : Nat) : State :=
  (openOf s p).foldl (fun s i =>
    ((sessOf s i).cmds.filter (fun c => c.opcode == 4)).foldl (fun s c => takeFork s p i c) s) s

/-- A CLOSE takes effect once it is the session's only command, with none fetched before it still to be dispatched
(R256). -/
def takeClose (s : State) (sess : Nat) : State :=
  let x := sessOf s sess
  match x.cmds with
  | [c] =>
    if c.opcode = 6 ∧ x.cancel = none ∧ (undispatched s sess).all (fun d => decide (c.order < d.order)) then
      let s := complete s c.ring {
        tag := c.tag, opcode := 6, status := stSuccess, session := sess, flags := 2, result := natLe x.len 4
        recordSession := some sess, records := x.recordCount, ending := true }
      updSess (retireSession s sess) sess (fun y => { y with closed := true })
    else s
  | _ => s

/-- Paging takes effect at a boundary at which the session holds no lane (R203): one that held a lane of the lap
that ends waits for the next boundary, since the starter withholds it. -/
def takePaging (s : State) (sess : Nat) : State :=
  let x := sessOf s sess
  match x.cmds.find? (fun c => c.opcode == 0x10 || c.opcode == 0x11) with
  | none => s
  | some c =>
    if c.running ∨ holdsLane s sess then s
    else if c.opcode = 0x10 ∧ (x.state = .idle ∨ x.state = .active) then startEvict s sess c
    else if c.opcode = 0x11 ∧ x.state = .evicted then startRestore s sess c
    else finishCmd s sess c stSessionState 0

/-- Cancels of sessions that held no lane in the lap, closes and paging, at a commit or abort baton. A cancel that
came after the verdict of a lap in which its session held a lane takes effect in the next lap (R268). -/
def boundaryCommands (s : State) (p : Nat) : State :=
  let s := takeForks s p
  let s := (openOf s p).foldl (fun s i =>
    if byWave s i ∨ (workLanes (partOf s p)).any (fun l => l.session == i) then s
    else if (sessOf s i).hostLost then dropSession s i
    else if (sessOf s i).cancel.isSome then endSession s i stCancelled true else s) s
  let s := (openOf s p).foldl takeClose s
  (openOf s p).foldl takePaging s

/-- Mean of a list. DESIGN CHOICE (log entry 171): R63 gives mean_lap_time in whole ns and no rounding; the model
takes the floor. -/
def meanOf (l : List Nat) : Nat := if l = [] then 0 else l.foldl (· + ·) 0 / l.length

/-- Statistics of a commit or abort lap (R63). -/
def lapStats (s : State) (p : Nat) (aborted : Bool) : State :=
  let pt := partOf s p
  let times := (pt.lapTime :: pt.lapTimes).take 1024
  let s := bump s (if aborted then K.statLapsAborted p else K.statLapsCommitted p)
  let s := odPut s (K.statLastLapTime p) pt.lapTime
  let s := odMax s (K.statMaxLapTime p) pt.lapTime
  let s := odPut s (K.statMeanLapTime p) (meanOf times)
  updPart s p (fun x => { x with lapTimes := times, lapTime := 0 })

/-- A core before its next lap: the verdict hurdle advances, so the halves of the buffers that its swap mask names
have swapped (R44, R73). -/
def newLapCore (c : Core) : Core :=
  let mask := match c.arrival with
    | some a => a.swapMask
    | none => 0
  { c with
    pos := 0, segPos := 0, skip := 0, hold := .none, arrived := none, arrival := none, clearedSplit := none
    segSplit := none, descs := swapHalves mask c.descs
    replayReq := false, sentReplay := false, aborts := [], parityWords := [], conflicts := [], oldConflicts := []
    widenOut := [], widenSent := [], widenIn := [], widenSaved := [] }

/-- Do the module's own conditions of the class-0 bound hold in a partition (R258)? -/
def class0Healthy (s : State) (p : Nat) : Bool :=
  (partOf s p).blocks.all (fun b => decide ((blkOf s b).level < 3)) &&
    odGet s K.pwrGovernorHalved == 0 && !s.pair.failover &&
    decide (((openOf s p).filter (fun i => (sessOf s i).cls == 0 && ready s p i)).length ≤ inForce s p (K.strClass0Lanes p))

/-- Intervals under way of class-0 sessions are excused where a condition does not hold (R258). -/
def excuseClass0 (s : State) (p : Nat) : State :=
  let ok := class0Healthy s p
  (openOf s p).foldl (fun s i => updSess s i (fun x =>
    if x.cls = 0 ∧ x.timing ∧ (!ok ∨ !(ready s p i)) then { x with excused := true } else x)) s

/-- A condition of the module's health breaks within a lap: the intervals under way of every class-0 session of a
partition are excused (R258). -/
def excuseIntervals (s : State) (p : Nat) : State :=
  (openOf s p).foldl (fun s i => updSess s i (fun x =>
    if x.cls = 0 ∧ x.timing then { x with excused := true } else x)) s

/-- The same for every partition. -/
def excuseAll (s : State) : State := s.parts.foldl (fun s e => excuseIntervals s e.1) s

/-- The next lap begins: its lane table, and every core at its first command (R38 order 1). -/
def nextLap (s : State) (p : Nat) : State :=
  let s := updPart s p (fun x => { x with
    lanes := x.lanes.filter (fun e => !(x.cutSessions.contains e.2.session)) })
  let s := updPart s p (fun x => { x with
    workLap := x.lap, rerun := false, replays := 0, repeating := false, turns := x.turns + 1, verdict := none
    aborts := [], cutSessions := [], sampleReplay := false, inLap := false, hurdle := 0, arrived := []
    jobArrived := [], jobClear := false, jobReplay := false, jobReplays := [], jobRepeat := false, jobMark := none })
  let s := (openOf s p).foldl (fun s i => updSess s i (fun x => { x with drafts := x.nextDrafts, nextDrafts := [] })) s
  let s := buildLanes s p
  let s := excuseClass0 s p
  let s := (openOf s p).foldl (fun s i => updSess s i (fun x => { x with forked := false, children := [] })) s
  (partCores s p).foldl (fun s c => updCore s c newLapCore) s

/-- The verdict of each mirrored session goes to the twin (R320). -/
def mirrorBaton (s : State) (p lap : Nat) (v : Verdict) (before : List Nat) : State :=
  if before = [] ∨ !(mirroring s) then s
  else
    emit s (.mirrorVerdict p lap v (before.map (fun i =>
      let m := mirrorOf s i lap
      { m with ended := m.ended || !(sessOf s i).mirrored })))

/-- A baton that carries replay: the final segment runs again from its held inputs (R42). -/
def batonReplay (s : State) (p ns : Nat) : State :=
  let pt := partOf s p
  let s := expireFenced s p
  let s := mirrorBaton s p pt.lap .replay (mirroredOf s p)
  let s := if pt.rerun then bump s (K.statReplayTime p) ns else s
  let s := pt.lanes.foldl (fun s e => updSess s e.2.session (fun x =>
    if x.state = .free then x else { x with sampled := [], nextDrafts := [] })) s
  let s := updPart s p (fun x => { x with
    lap := x.lap + 1, rerun := true, verdict := none, sampleReplay := false, repeating := false
    lapTime := x.lapTime + ns })
  let s := (partCores s p).foldl (fun s c => updCore s c (fun x => { x with parityWords := [] })) s
  resumeAll (restartSegment s p) p

/-- A baton that carries commit or abort (R40). -/
def batonCommit (s : State) (p ns : Nat) (v : Verdict) : State :=
  let pt := partOf s p
  let fenced := fencedSessions s p
  let named := pt.aborts ++ fenced
  let s := fenced.foldl (fun s i => updSess s i (fun x =>
    { x with abortStatus := some (x.abortStatus.getD stPartitionFaulted) })) s
  let mirrored := mirroredOf s p
  let s := if pt.rerun then bump s (K.statReplayTime p) ns else s
  let s := updPart s p (fun x => { x with lapTime := x.lapTime + ns })
  let s := pt.lanes.foldl (fun s e => if named.contains e.2.session then s else commitLane s p e.2) s
  let s := named.foldl endNamed s
  let s := endLeases (expireFenced s p) p
  let s := switchEpoch s p
  let s := contextLimit s p
  let s := swapFlip s p
  let s := boundaryCommands s p
  let s := if mirrored ≠ [] ∧ !(mapValid s p) then loseMap s (mirroredOf s p) else s
  let s := mirrorBaton s p pt.lap v mirrored
  let s := lapStats s p (decide (v = .abort))
  let s := updPart s p (fun x => { x with lap := x.lap + 1 })
  resumeAll (nextLap s p) p

/-- BATON. -/
def effBaton (s : State) (p ns : Nat) : State :=
  let pt := partOf s p
  if !pt.runs ∨ pt.fault ≠ none then s
  else match pt.verdict with
    | none => s
    | some .replay => batonReplay s p ns
    | some v => batonCommit s p ns v

end Sys2Proof.Machine
end

