-- ==== Sys2Proof/Machine/Sampling.lean ====
section
/-! DEFINITION. Sampling (R264 to R267): the steps of one sampled position, in the order of R264. The shard
cores' steps are FP32 operations rounded to nearest; the home die's steps are carried out exactly and its
log-probability is rounded once (DESIGN CHOICE, log entry 40: the manual states no precision for them). -/

namespace Sys2Proof.Machine

/-- What a position is sampled under: the GENERATE's fields, its seed, and the position. -/
structure SampleEnv where
  bitmap : Option (List Byte)
  bias : List (Nat × W16)
  window : List Nat
  penalty : FV
  temperature : FV
  topK : Nat
  topP : FV
  minP : FV
  seed : W64
  position : Nat
  stops : List Nat

def negInf : FV := .inf true

/-- A NaN becomes -Inf and is counted. -/
def noNaN (x : FV × Nat) : FV × Nat := if x.1.isNaN then (negInf, x.2 + 1) else x

/-- Does the bitmap allow a token? Bit i of the bitmap, from byte 64 of the slot, gives token i (R266). -/
def allows (b : Option (List Byte)) (t : Nat) : Bool :=
  match b with
  | none => true
  | some l => (fieldLe l (64 + t / 8) 1).testBit (t % 8)

/-- Steps 2 to 5 for one token: the logit and how often a NaN was met. -/
def shardLogit (e : SampleEnv) (t : Nat) (z : W32) : FV × Nat :=
  let x := noNaN (decF32 z, 0)
  let x := if allows e.bitmap t then x else (negInf, x.2)
  let x := match e.bias.reverse.find? (fun y => y.1 == t) with
    | some y => if x.1 = negInf then (if (decBF16 y.2).isNaN then (negInf, x.2 + 1) else x)
      else noNaN (rF32 (FV.add x.1 (decBF16 y.2)), x.2)
    | none => x
  let x := if e.window.contains t then
      noNaN (rF32 (if FV.lt FV.zero x.1 then FV.div x.1 e.penalty else FV.mul x.1 e.penalty), x.2)
    else x
  if FV.lt FV.zero e.temperature then noNaN (rF32 (FV.div x.1 e.temperature), x.2) else x

/-- Steps 6 and 7: the `k` largest, ties to the lower token ID. -/
def topCandidates (k : Nat) (zs : List FV) : List (Nat × FV) :=
  let l : List (Nat × FV) := zs.zipIdx.map (fun e => (e.2, e.1))
  (sortBy (fun (a b : Nat × FV) => FV.lt b.2 a.2 || (!(FV.lt a.2 b.2) && decide (a.1 ≤ b.1))) l).take k

/-- The shortest prefix of a descending list whose sum reaches a bound, one element at least. -/
def nucleus (bound : Int) : Int → List (Nat × Int) → List (Nat × Int)
  | _, [] => []
  | acc, c :: r => if bound ≤ acc + c.2 then [c] else c :: nucleus bound (acc + c.2) r

/-- The first candidate whose cumulative probability exceeds u / 2^24 of the sum; the last one else. -/
def drawFrom (total : Int) (u : Nat) : Int → List (Nat × Int) → Nat
  | _, [] => 0
  | _, [c] => c.1
  | acc, c :: r => if total * u < (acc + c.2) * 16777216 then c.1 else drawFrom total u (acc + c.2) r

/-- Steps 9 to 11 over finite candidates: the token, and its log-probability. -/
def homeSample (e : SampleEnv) (cands : List (Nat × FV)) : Nat × W32 :=
  let top := (cands.headD (0, FV.zero)).2
  let d : List (Nat × Int) := cands.map (fun c => (c.1, match c.2 with
    | .fin _ _ _ => fxOf (FV.sub c.2 top)
    | _ => -(1000 * fxOne)))
  let ex : List (Nat × Int) := d.map (fun c => (c.1, fxExp c.2))
  let sum := ex.foldl (fun (a : Int) c => a + c.2) 0
  let p : List (Nat × Int) := ex.map (fun c => (c.1, fxDiv c.2 sum))
  let p1 := (p.headD (0, 0)).2
  let p := p.filter (fun c => decide (fxMul (fxOf e.minP) p1 ≤ c.2))
  let p := nucleus (fxOf e.topP) 0 p
  let total := p.foldl (fun (a : Int) c => a + c.2) 0
  let t := drawFrom total (sampleDraw e.seed e.position) 0 p
  let lp := match d.find? (fun c => c.1 == t) with
    | some c => c.2 - fxLn sum
    | none => 0
  (t, encF32 (fxVal lp))

/-- What one position yields. -/
structure SampleOut where
  sample : Sampled
  nans : Nat
  noAllowed : Bool

/-- One sampled position (R264). Candidates of +Inf without greedy sampling have no probability that the
manual states: the token is then a free one of the candidates, and its log-probability is free. -/
def sampleOne (e : SampleEnv) (n : Nat) (logits : List W32) : SampleOut :=
  let r := logits.zipIdx.map (fun x => shardLogit e x.2 x.1)
  let nans := (r.map (·.2)).foldl (· + ·) 0
  let greedy := !(FV.lt FV.zero e.temperature)
  let k := if greedy then 1 else if e.topK = 0 then 1024 else e.topK
  let cands := topCandidates k (r.map (·.1))
  let done (t : Nat) (lp : W32) (none_ : Bool) : SampleOut :=
    { sample := { token := t, logprob := lp, stop := e.stops.contains t }, nans, noAllowed := none_ }
  if cands.all (fun c => decide (c.2 = negInf)) then
    match (List.range logits.length).find? (allows e.bitmap) with
    | some t => done t 0xFF800000#32 false
    | none => done 0 0xFF800000#32 e.bitmap.isSome
  else if greedy then done (cands.headD (0, FV.zero)).1 0 false
  else if cands.any (fun c => decide (c.2 = .inf false)) then
    done (getAt (0, FV.zero) cands (Config.freeToken n % cands.length)).1 (Config.freeF32 n) false
  else
    let x := homeSample e cands
    done x.1 x.2 false

/-! ## SAMPLING -/

/-- Tokens at the positions below the i-th sampled position of a lane. -/
def tokensBelow (x : Session) (k i : Nat) : List Nat := x.history ++ x.block.take (x.block.length - k + i)

/-- The distinct tokens among the last positions of a window. -/
def windowOf (n : Nat) (l : List Nat) : List Nat := l.drop (l.length - n)

/-- The stop list of a GENERATE; 0xFFFFFFFF is unused. -/
def stopList (g : SessCmd) : List Nat :=
  ((List.range 4).map (fun i => fieldLe g.bytes (44 + 4 * i) 4)).filter (· ≠ 0xFFFFFFFF)

/-- The i-th sampled position of a lane: first sampled position `q0`, `k` drafts verified. -/
def sampleEnv (x : Session) (g : SessCmd) (q0 k i : Nat) : SampleEnv :=
  { bitmap := if g.genFlags.testBit 0 then some (getAt [] x.lapMaps i) else none
    bias := if fieldLe g.bytes 40 2 = 0 then [] else g.bias
    window := windowOf g.repWindow (tokensBelow x k i)
    penalty := decF32 g.repPenalty
    temperature := decF32 g.temperature
    topK := g.topK
    topP := decF32 g.topP
    minP := decF32 g.minP
    seed := g.seed
    position := q0 + i
    stops := stopList g }

/-- SAMPLING: the sampling units and the home die sample the positions of a session's lane; the tokens are held
until the baton. A sampling unit's parity error requests replay (R267). -/
def effSampling (s : State) (sess : Nat) (samples : List SampleIn) (drafts : List Nat) (parity : Bool) : State :=
  let x := sessOf s sess
  let p := x.part
  match laneWith s p sess, x.running with
  | some (_, l), some g =>
    let k := if l.kind = .prefill then 0 else x.drafts.length
    if !l.samples ∨ !(partOf s p).inLap ∨ x.state ≠ .active ∨ x.shadow ∨ (partOf s p).cutSessions.contains sess ∨
        samples.length ≠ k + 1 then s
    else
      let q0 := l.p0 + (if l.kind = .prefill then l.block else 1)
      let outs := samples.zipIdx.map (fun e => sampleOne (sampleEnv x g q0 k e.2) (s.free + e.2) e.1.logits)
      let s := { s with free := s.free + samples.length }
      let s := outs.foldl (fun s (o : SampleOut) =>
        let s := if o.nans = 0 then s else bump s K.numNonfiniteConversions o.nans
        if o.noAllowed then bump s K.sessNoAllowedToken else s) s
      let s := if parity then updPart s p (fun y => { y with sampleReplay := true }) else s
      updSess s sess (fun x => { x with
        sampled := outs.map (·.sample), nextDrafts := drafts.take (odGet s (K.strMaxDraft p)) })
  | _, _ => s

end Sys2Proof.Machine
end

