-- ==== Sys2Proof/Machine/SessionCmds.lean ====
section
/-! DEFINITION. The commands of a submission ring (R242 to R256, R203, R219, R226), each taken from the front of
its ring's fetched entries, the abort wave (R269) and the commands of the host reads. -/

namespace Sys2Proof.Machine

/-! ## Entries -/

/-- Are bytes [lo, hi) of an entry 0? -/
def zeros (e : List Byte) (lo hi : Nat) : Bool := (slice e lo (hi - lo)).all (fun b => b == 0)

/-- The session field of a completion (R245). -/
def eSessionField (e : List Byte) : Nat := if eOp e ≤ 0x11 then eSess e else 0xFFFF

/-- A command completes when it is dispatched, without effect. -/
def refuseEntry (s : State) (ring : Nat) (e : List Byte) (status : Nat) (result : List Byte := []) : State :=
  complete s ring { tag := eTag e, opcode := eOp e, status, session := eSessionField e, result }

/-- The entry at the front of a ring, if it has this opcode; it leaves the ring's fetched entries. -/
def takeHead (s : State) (ring op : Nat) (go : State → List Byte → State) : State :=
  match (subOf s ring).dispatch with
  | [] => s
  | e :: rest =>
    if eOp e = op then
      go (updSub s ring (fun q => { q with
        dispatch := rest, fetchOrder := q.fetchOrder.tail, lastOrder := q.fetchOrder.headD 0 })) e
    else s

/-! ## Field checks (R242, R244) -/

/-- Bytes 1 and 7, and byte 6 where the command has no partition. -/
def headOk (e : List Byte) (part : Bool) : Bool :=
  fieldLe e 1 1 == 0 && fieldLe e 7 1 == 0 && (if part then decide (ePart e < 48) else ePart e == 0)

def tokenRingOk (e : List Byte) (at_ log : Nat) : Bool :=
  fieldLe e at_ 8 % 4096 == 0 && decide (6 ≤ fieldLe e log 1) && decide (fieldLe e log 1 ≤ 16)

def openOk (e : List Byte) : Bool :=
  headOk e true && decide (eSess e < 4096) && tokenRingOk e 8 16 && decide (fieldLe e 17 1 ≤ 7) &&
    (fieldLe e 18 2 == 0xFFFF || decide (fieldLe e 18 2 < 4096)) && decide (fieldLe e 20 1 < 4) && zeros e 21 24 &&
    (!((fieldLe e 20 1).testBit 1) || (fieldLe e 24 8 % 4096 == 0 && decide (fieldLe e 32 1 ≤ 8))) && zeros e 33 64

def promptOk (e : List Byte) : Bool :=
  headOk e false && decide (eSess e < 4096) && fieldLe e 8 8 % 4 == 0 && decide (1 ≤ fieldLe e 16 4) &&
    decide (fieldLe e 16 4 ≤ 1048576) && zeros e 20 64

/-- A BF16 field of an entry. -/
def eBF (e : List Byte) (off : Nat) : FV := decBF16 (BitVec.ofNat 16 (fieldLe e off 2))

def fvInt (n : Nat) : FV := FV.ofInt n

/-- The sampling fields 12 to 23 of a GENERATE. -/
def samplingOk (e : List Byte) : Bool :=
  decide (fieldLe e 12 2 ≤ 1024) &&
    FV.le FV.zero (eBF e 14) && FV.le (eBF e 14) (fvInt 100) &&
    FV.lt FV.zero (eBF e 16) && FV.le (eBF e 16) (fvInt 1) &&
    FV.le FV.zero (eBF e 18) && FV.lt (eBF e 18) (fvInt 1) &&
    FV.le (fvInt 1) (eBF e 20) && FV.le (eBF e 20) (fvInt 10) &&
    decide (fieldLe e 22 2 ≤ 1024)

/-- `maxDraft` is that of the session's partition. -/
def generateOk (e : List Byte) (maxDraft : Nat) : Bool :=
  headOk e false && decide (eSess e < 4096) && decide (1 ≤ fieldLe e 8 4) && decide (fieldLe e 8 4 ≤ 1048576) &&
    decide (fieldLe e 43 1 < 8) && ((fieldLe e 43 1).testBit 2 || samplingOk e) &&
    fieldLe e 32 8 % 8 == 0 && decide (fieldLe e 40 2 ≤ 1024) && decide (fieldLe e 42 1 ≤ maxDraft) && zeros e 60 64

def forkOk (e : List Byte) : Bool :=
  headOk e false && decide (eSess e < 4096) && decide (fieldLe e 8 2 < 4096) &&
    (decide (fieldLe e 10 1 ≤ 7) || fieldLe e 10 1 == 0xFF) && zeros e 11 16 && tokenRingOk e 16 24 && zeros e 25 64

def plainOk (e : List Byte) : Bool := headOk e false && decide (eSess e < 4096) && zeros e 8 64

def stageOk (e : List Byte) : Bool :=
  headOk e false && eSess e == 0 && decide (fieldLe e 8 2 < 4096) && decide (fieldLe e 10 1 < 4) && zeros e 11 16 &&
    fieldLe e 16 8 % 65536 == 0 && zeros e 32 64

def flipOk (e : List Byte) : Bool :=
  headOk e true && eSess e == 0 && decide (fieldLe e 8 1 ≤ 15) && decide (fieldLe e 9 1 ≤ 1) &&
    decide (fieldLe e 10 2 < 4096) && zeros e 12 64

/-! ## The session a command names -/

/-- The checks of a command that names an open session; the status of the first that fails. A session whose
CANCEL has been fetched is ENDING (R250); one whose CLOSE has taken effect answers with SESSION_STATE until it is
FREE, but to a CANCEL (R256, R270). A session held for the twin is FENCED. -/
def namesSession (s : State) (ring sess : Nat) (cancel : Bool := false) : Option Nat :=
  let x := sessOf s sess
  let fn := ringFn s ring
  if !(inRange (sessRange s fn) sess) then some stSessionAccess
  else if x.state = .ending ∧ x.closed ∧ x.fn = fn ∧ !cancel then some stSessionState
  else if x.state = .free ∨ x.state = .ending ∨ x.cancel.isSome then some stNoSession
  else if x.fn ≠ fn then some stSessionAccess
  else if x.shadow then some stFenced
  else none

/-- Has a CLOSE been fetched (R256)? -/
def closing (x : Session) : Bool := x.cmds.any (fun c => c.opcode == 6)

/-- Is the session's content, in whole or part, in host memory? -/
def paged (x : Session) : Bool :=
  decide (x.state = .evicting) || decide (x.state = .evicted) || decide (x.state = .restoring)

/-- Does a paging command wait that has not begun? -/
def willEvict (x : Session) : Bool := x.cmds.any (fun c => c.opcode == 0x10)

/-- A command of a session, once its own fields are good. -/
def onSession (s : State) (ring : Nat) (e : List Byte) (ok : Bool) (go : Session → State) (cancel : Bool := false) :
    State :=
  if !ok then refuseEntry s ring e stInvalidField
  else match namesSession s ring (eSess e) cancel with
    | some st => refuseEntry s ring e st
    | none => go (sessOf s (eSess e))

/-- Commands that a CLOSE or the host-resident states refuse (R250, R256). -/
def onActive (s : State) (ring : Nat) (e : List Byte) (ok : Bool) (go : Session → State) : State :=
  onSession s ring e ok (fun x =>
    if closing x then refuseEntry s ring e stSessionState
    else if paged x then refuseEntry s ring e stSessionEvicted
    else go x)

/-- Queue a command of a session, at its place in the order of fetching. -/
def pushCmd (s : State) (sess : Nat) (c : SessCmd) : State :=
  updSess s sess (fun x => { x with cmds := x.cmds ++ [{ c with order := (subOf s c.ring).lastOrder }] })

/-- Positions a session holds or has pending, its pending token included; a child whose FORK has not taken
effect has its parent's. -/
def positionsOf (s : State) (sess : Nat) : Nat :=
  let x := sessOf s sess
  let y := match x.parent with
    | some q => sessOf s q
    | none => x
  y.len + (if y.pending.isSome then 1 else 0) + (if x.parent.isSome ∧ y.held.isSome then 1 else 0) + x.pendingPositions

/-! ## SESSION_OPEN and FORK -/

/-- May a mirrored session be opened (R310)? -/
def mirrorCheck (s : State) (ring p : Nat) : Option Nat :=
  if pairState s ≠ 2 then some stMirrorLost
  else if !(mirroredRing s ring) ∨ !(mapValid s p) then some stInvalidField
  else none

/-- The checks of R252 from step 2 on. -/
def openChecks (s : State) (fn id p cls adapter : Nat) : Option Nat :=
  let w := wsetOf s adapter
  let shape := ((partOf s p).program.bind (fun g => g.adapterShape))
  if !(inRange (sessRange s fn) id) then some stSessionAccess
  else if (sessOf s id).state ≠ .free then some stSessionBusy
  else if (partOf s p).state ≠ .running then some stPartitionState
  else if !(classPermitted s fn cls) then some stClassDenied
  else if odGet s (K.clsMaxSessions cls) ≤ openOfClass s cls then some stSessionLimit
  else if adapter = 0xFFFF then none
  else if w.state ≠ .loaded then some stWeightUnavailable
  else if w.owner ≠ fn then some stWeightAccess
  else if shape ≠ some w.shapeId then some stWeightShape
  else none

/-- SESSION_OPEN. -/
def effOpen (s : State) (ring : Nat) : State :=
  takeHead s ring 1 (fun s e =>
    let fn := ringFn s ring
    let p := ePart e
    let flags := fieldLe e 20 1
    let cls := fieldLe e 17 1
    let adapter := fieldLe e 18 2
    let first := if !(openOk e) then some stInvalidField
      else if flags.testBit 0 then mirrorCheck s ring p else none
    match first with
    | some st => refuseEntry s ring e st
    | none =>
      match openChecks s fn (eSess e) p cls adapter with
      | some st => refuseEntry s ring e st
      | none =>
        let home := homeDieFor s p
        let x : Session := {
          state := .idle, cls, part := p, homeDie := home, fn, openRing := ring, mirrored := flags.testBit 0
          tokenBase := fieldLe e 8 8, tokenLog2 := fieldLe e 16 1
          bitmapBase := if flags.testBit 1 then some (fieldLe e 24 8) else none
          bitmapLog2 := if flags.testBit 1 then fieldLe e 32 1 else 0
          adapter := if adapter = 0xFFFF then none else some adapter
          port := fn / 64, openTag := eTag e }
        complete (setSess s (eSess e) x) ring {
          tag := eTag e, opcode := 1, status := stSuccess, session := eSess e, result := natLe home 1 })

/-- FORK: the child's context is made at once, and the fork takes effect at the parent's next baton (R255). -/
def effFork (s : State) (ring : Nat) : State :=
  takeHead s ring 4 (fun s e =>
    onActive s ring e (forkOk e) (fun x =>
      let fn := ringFn s ring
      let child := fieldLe e 8 2
      let cls := if fieldLe e 10 1 = 0xFF then x.cls else fieldLe e 10 1
      match (if x.mirrored then mirrorCheck s ring x.part else none) with
      | some st => refuseEntry s ring e st
      | none =>
        match openChecks s fn child x.part cls 0xFFFF with
        | some st => refuseEntry s ring e st
        | none =>
          let y : Session := {
            state := .idle, cls, part := x.part, homeDie := homeDieFor s x.part, fn, openRing := ring
            mirrored := x.mirrored, tokenBase := fieldLe e 16 8, tokenLog2 := fieldLe e 24 1, adapter := x.adapter
            port := fn / 64, parent := some (eSess e), openTag := eTag e, seed := x.seed }
          pushCmd (setSess s child y) (eSess e) { ring, tag := eTag e, opcode := 4, bytes := e }))

/-! ## PROMPT_APPEND and GENERATE -/

/-- Work has been fetched for a session: it becomes ACTIVE, and the wait of one that has not yet held a lane begins
(R250, R259). -/
def addWork (s : State) (sess : Nat) (c : SessCmd) : State :=
  let was := (sessOf s sess).state
  let s := settleState (pushCmd s sess c) sess
  if was = .idle ∧ !(sessOf s sess).hadLane then stampWait s (sessOf s sess).part sess else s

/-- PROMPT_APPEND. One resumed after a takeover goes on behind the positions already consumed (R323). -/
def effPrompt (s : State) (ring : Nat) : State :=
  takeHead s ring 2 (fun s e =>
    onActive s ring e (promptOk e) (fun x =>
      let used := Nat.min x.shadowUsed (fieldLe e 16 4)
      if kvMax s x.part < positionsOf s (eSess e) + fieldLe e 16 4 - used then refuseEntry s ring e stContextFull
      else
        let s := updSess s (eSess e) (fun x => { x with shadowUsed := x.shadowUsed - used })
        finishPrompts (addWork s (eSess e) { ring, tag := eTag e, opcode := 2, bytes := e, consumed := used }) (eSess e)))

/-- A GENERATE as a session holds it: its sampling fields and its seed. -/
def genCmd (s : State) (ring : Nat) (e : List Byte) (random : W64) : SessCmd :=
  let own := !((fieldLe e 43 1).testBit 2)
  let word (off : Nat) : W32 := BitVec.ofNat 32 (fieldLe e off 2 * 65536)
  let obj (k : Nat) : W32 := BitVec.ofNat 32 (odGet s k)
  let seed := BitVec.ofNat 64 (fieldLe e 24 8)
  { ring, tag := eTag e, opcode := 3, bytes := e
    temperature := if own then word 14 else obj K.sampTemperature
    topK := if own then fieldLe e 12 2 else odGet s K.sampTopK
    topP := if own then word 16 else obj K.sampTopP
    minP := if own then word 18 else obj K.sampMinP
    repPenalty := if own then word 20 else obj K.sampRepPenalty
    repWindow := if own then fieldLe e 22 2 else odGet s K.sampRepWindow
    seed := if seed = 0 then random else seed
    released := (sessOf s (eSess e)).shadowMade
    lastPos := if (sessOf s (eSess e)).shadowMade = 0 then 0 else (sessOf s (eSess e)).len }

/-- GENERATE: its bias list and its bitmap slots begin to be read. -/
def effGenerate (s : State) (ring : Nat) (random : W64) : State :=
  takeHead s ring 3 (fun s e =>
    let maxDraft := if (sessOf s (eSess e)).state = .free then 7 else odGet s (K.strMaxDraft (sessOf s (eSess e)).part)
    onActive s ring e (generateOk e maxDraft) (fun x =>
      let bitmaps := (fieldLe e 43 1).testBit 0
      if bitmaps ∧ x.bitmapBase = none then refuseEntry s ring e stInvalidField
      else if x.parent = none ∧ x.len = 0 ∧ x.pendingPositions = 0 then refuseEntry s ring e stSessionState
      else if kvMax s x.part ≤ x.len + (if x.pending.isSome then 1 else 0) then
        refuseEntry s ring e stContextFull (natLe 0 4 ++ [2])
      else
        let s := addWork s (eSess e) (genCmd s ring e random)
        let s := updSess s (eSess e) (fun x => { x with shadowMade := 0 })
        let n := fieldLe e 40 2
        let s := if n = 0 then s else emit s (.hostRead x.port (fieldLe e 32 8) (8 * n))
        if bitmaps then askBitmaps s (eSess e) else s))

/-! ## CANCEL, CLOSE and paging -/

/-- CANCEL is fetched: the session is ENDING from here on; it is cut out by R268 or R269. -/
def effCancel (s : State) (ring : Nat) : State :=
  takeHead s ring 5 (fun s e =>
    onSession s ring e (plainOk e) (fun _ =>
      let s := stopPaging s (eSess e)
      updSess s (eSess e) (fun x => { x with
        cancel := some (ring, eTag e)
        slots := if x.state = .evicted then [] else x.slots
        image := if x.state = .evicted then [] else x.image })) true)

/-- CLOSE waits in the session's commands until it is the only one (R256). -/
def effClose (s : State) (ring : Nat) : State :=
  takeHead s ring 6 (fun s e =>
    onSession s ring e (plainOk e) (fun x =>
      if closing x then refuseEntry s ring e stSessionState
      else pushCmd (stopPaging s (eSess e)) (eSess e) { ring, tag := eTag e, opcode := 6, bytes := e }))

/-- KV_EVICT waits for a boundary at which the session holds no lane (R203, R310). -/
def effKvEvict (s : State) (ring : Nat) : State :=
  takeHead s ring 0x10 (fun s e =>
    onSession s ring e (plainOk e) (fun x =>
      if closing x ∨ x.mirrored ∨ ((paged x ∨ willEvict x) ∧ !(x.cmds.any (fun c => c.opcode == 0x11))) then
        refuseEntry s ring e stSessionState
      else pushCmd s (eSess e) { ring, tag := eTag e, opcode := 0x10, bytes := e }))

/-- KV_RESTORE: of a session that is evicted, or will be by a command fetched before. -/
def effKvRestore (s : State) (ring : Nat) : State :=
  takeHead s ring 0x11 (fun s e =>
    onSession s ring e (plainOk e) (fun x =>
      if closing x ∨ !(paged x ∨ willEvict x) ∨ x.cmds.any (fun c => c.opcode == 0x11) then
        refuseEntry s ring e stSessionState
      else pushCmd s (eSess e) { ring, tag := eTag e, opcode := 0x11, bytes := e }))

/-- BARRIER completes when every command fetched earlier from its ring has completed. -/
def effBarrier (s : State) (ring : Nat) : State :=
  let q := subOf s ring
  let shadowed := (s.pair.unacked.filter (fun m => match m.2 with
    | .entry r _ => r == ring
    | .completion _ _ _ _ => false)).length
  if q.dispatch.length + shadowed < q.outstanding then s
  else takeHead s ring 0x30 (fun s e =>
    if plainOk e && eSess e == 0 then refuseEntry s ring e stSuccess else refuseEntry s ring e stInvalidField)

/-! ## Weight commands -/

/-- WEIGHT_STAGE (R219 to R221): the header's read begins. -/
def effWeightStage (s : State) (ring : Nat) : State :=
  takeHead s ring 0x20 (fun s e =>
    let set := fieldLe e 8 2
    let fn := ringFn s ring
    if !(stageOk e) then refuseEntry s ring e stInvalidField (natLe set 2)
    else if (wsetOf s set).state ≠ .empty then refuseEntry s ring e stWeightBusy (natLe set 2)
    else
      let w : WSet := {
        state := .verifying, owner := fn, port := fn / 64, addr := fieldLe e 16 8, length := fieldLe e 24 8
        stage := some (ring, eTag e), retained := (fieldLe e 10 1).testBit 0, relaySource := (fieldLe e 10 1).testBit 1 }
      emit (setWset s set w) (.hostRead w.port w.addr 256))

/-- The gap of a flip at nominal cadence, in ns (R228); Kwaic states it for flip_verify 0. -/
def flipGapNs (s : State) (p : Nat) : Nat :=
  let g := odGet s (K.partFlipGap p)
  if odGet s K.wtFlipVerify = 0 then g else (g - 1000) / 4100 * 8190 + 1000

/-- The conditions of R226, in order. -/
def flipChecks (s : State) (p slot set : Nat) : Option Nat :=
  let pt := partOf s p
  let w := wsetOf s set
  let declared := pt.program.bind (fun g => (g.slotShapes.find? (fun x => x.1 == slot)).map (·.2))
  if pt.state ≠ .running then some stPartitionState
  else if w.state ≠ .loaded then some stWeightUnavailable
  else if declared ≠ some w.shapeId then some stWeightShape
  else if pt.flip.isSome then some stWeightBusy
  else if hasClass0 s p ∧ (38800 < flipGapNs s p ∨ w.misplaced ≠ []) then some stFlipGap
  else none

/-- A flip is pending: flip_pending shows the set (R227 order 1). -/
def beginFlip (s : State) (p : Nat) (f : Flip) : State :=
  odSet (updPart s p (fun x => { x with flip := some f })) (K.partFlipPending p) f.set

/-- WEIGHT_FLIP (R226, R230): of a job it is carried over the fabric, and of a partition that mirrors sessions
to the twin. -/
def effWeightFlip (s : State) (ring : Nat) : State :=
  takeHead s ring 0x21 (fun s e =>
    let p := ePart e
    let slot := fieldLe e 8 1
    let set := fieldLe e 10 2
    if !(flipOk e) then refuseEntry s ring e stInvalidField
    else match flipChecks s p slot set with
      | some st => refuseEntry s ring e st
      | none =>
        let job := jobOf s p ≠ 0
        let twin := mirroredOf s p ≠ [] ∧ mirroring s
        let s := beginFlip s p {
          slot, policy := fieldLe e 9 1, set, origin := some (ring, eTag e)
          go := !(decide job) && !(decide twin), toTwin := decide twin, carried := decide twin }
        let s := updPart s p (fun x => { x with jobFlipReady := [] })
        let s := if job then sendJob s p (.flip slot set (fieldLe e 9 1) 0) else s
        if twin then sendFrame s 7 (p + set * 2 ^ 6) else s)

/-! ## Abort waves (R269) -/

/-- The wave passes every cluster of the session's partition: its accesses are cut, and its frames go. -/
def waveHere (s : State) (sess : Nat) : State :=
  let x := sessOf s sess
  let s := freeSessionPages s x.part sess
  updPart (updSess s sess (fun y => { y with waveSent := true, root := [] })) x.part (fun y =>
    { y with cutSessions := insertNat sess y.cutSessions })

/-- ABORT_WAVE: the home die sends the wave for a CANCEL that goes by it. -/
def effAbortWave (s : State) (sess : Nat) : State :=
  let x := sessOf s sess
  if (x.cancel = none ∧ !x.hostLost) ∨ x.waveSent ∨ x.state = .free ∨ (x.state = .ending ∧ !x.hostLost) ∨ !(byWave s sess) then s
  else
    let s := waveHere s sess
    let s := if jobOf s x.part ≠ 0 then sendJob s x.part (.wave sess) else s
    if x.mirrored ∧ mirroring s then
      sendFrame (updSess s sess (fun y => { y with twinAbort := true })) 4 sess
    else s

/-- ABORT_WAVE_ACKNOWLEDGED: every cluster and module has acknowledged; the CANCEL completes. -/
def effAbortAcked (s : State) (sess : Nat) : State :=
  let x := sessOf s sess
  if !x.waveSent ∨ x.twinAbort then s
  else if x.hostLost then dropSession s sess
  else if x.cancel = none then s
  else endSession s sess stCancelled true

end Sys2Proof.Machine
end

