-- ==== Sys2Proof/Machine/Flips.lean ====
section
/-! DEFINITION. The rest of a weight flip (R227 to R230, R328): its prepare, the agreement of the modules
concerned, the gap in which the arrays are rewritten, and its completion. -/

namespace Sys2Proof.Machine

/-- A flip ends: its completion, its record, and the fall of a bind count (R227 order 7). -/
def endFlip (s : State) (p status : Nat) : State :=
  match (partOf s p).flip with
  | none => s
  | some f =>
    let s := updPart s p (fun x => { x with flip := none, jobFlipReady := [] })
    let s := odSet s (K.partFlipPending p) (objDefault (K.partFlipPending p))
    let s := match f.origin with
      | some (ring, tag) =>
        let lap := if status = stSuccess then natLe f.lap 6 else []
        complete (recordSet s f.set status 0) ring { tag, opcode := 0x21, status, result := lap }
      | none => s
    dropUnowned s

/-- Every member of a job is ready: the module that issued the flip tells them the lap from whose commit or abort baton
on they swap, the one after its own (R230). -/
def jobFlipGo (s : State) (p : Nat) : State :=
  match (partOf s p).flip with
  | none => s
  | some f =>
    if f.origin.isNone ∨ f.go ∨ !f.prepared ∨ f.toTwin ∨
        (jobOf s p ≠ 0 ∧ (partOf s p).jobFlipReady.length + 1 < jobMembers s p) then s
    else
      let lap := if jobOf s p = 0 then 0 else (partOf s p).lap + 1
      let s := updPart s p (fun x => { x with flip := some { f with go := true, goLap := lap } })
      if jobOf s p ≠ 0 then sendJob s p (.flip f.slot f.set f.policy lap) else s

/-- FLIP_PREPARE_COMPLETE: every cluster has acknowledged (R227 order 2). -/
def effFlipPrepared (s : State) (p : Nat) : State :=
  match (partOf s p).flip with
  | none => s
  | some f =>
    if f.prepared then s
    else
      let s := updPart s p (fun x => { x with flip := some { f with prepared := true } })
      if f.fromTwin then sendFrame s 7 (domField s K.pairPartitionMap p 1 + f.set * 2 ^ 6 + 2 ^ 18)
      else if f.origin.isNone then sendJob s p (.flip f.slot f.set f.policy 0)
      else jobFlipGo s p

/-- A flip of a job as it reaches a member: it prepares under the policy given, or answers that the set is not LOADED; told
to go, it swaps from the lap named on (R229, R230). -/
def jobFlipArrives (s : State) (p member slot set policy lap : Nat) : State :=
  match (partOf s p).flip with
  | none =>
    if set = 0xFFFF then s
    else match flipChecks s p slot set with
      | some _ => sendJob s p (.flip slot 0xFFFF policy 0)
      | none => beginFlip s p { slot, policy, set, go := false }
  | some f =>
    if f.gap then s
    else if set = 0xFFFF then
      let mine := f.origin.isSome
      let s := endFlip s p stWeightUnavailable
      if mine then sendJob s p (.flip slot 0xFFFF policy 0) else s
    else if f.origin.isSome then
      jobFlipGo (updPart s p (fun x => { x with jobFlipReady := insertNat member x.jobFlipReady })) p
    else updPart s p (fun x => { x with flip := some { f with go := true, goLap := lap } })

/-- The lowest slot of a partition whose declared shape is that of a set; the FLIP frame names no slot. -/
def slotForSet (s : State) (p set : Nat) : Option Nat :=
  match (partOf s p).program with
  | none => none
  | some g => (g.slotShapes.find? (fun x => x.2 == (wsetOf s set).shapeId)).map (·.1)

/-- The local partition that mirrors a partition of the twin (R309). -/
def mirrorPart (s : State) (p : Nat) : Option Nat :=
  (List.range 48).find? (fun q => domField s K.pairPartitionMap q 1 == p)

/-- A FLIP frame (R315, R328); it names the owner's partition. Bit 18: 0 prepare, 1 ready; bit 19: refused. The frame
carries no sessions policy: sessions that the owner's policy ends reach the twin as ended in the mirrored verdict. -/
def flipFrameIn (s : State) (p set : Nat) (ready refused : Bool) : State :=
  if !ready ∧ !refused then
    let no := sendFrame s 7 (p + set * 2 ^ 6 + 2 ^ 19)
    match mirrorPart s p with
    | none => no
    | some q =>
      match slotForSet s q set with
      | none => no
      | some slot =>
        match flipChecks s q slot set with
        | some _ => no
        | none => beginFlip s q { slot, policy := 0, set, fromTwin := true, carried := true }
  else
    match (partOf s p).flip with
    | none => s
    | some f =>
      if !f.toTwin ∨ f.set ≠ set then s
      else if refused then
        let s := endFlip s p stWeightUnavailable
        if jobOf s p ≠ 0 then sendJob s p (.flip f.slot 0xFFFF f.policy 0) else s
      else jobFlipGo (updPart s p (fun x => { x with flip := some { f with toTwin := false } })) p

/-- Does a source lie in a slot of the partition's slot map? -/
def inSlot (slot : Nat) : StackPlace → Bool
  | .set h _ => h.toNat == slot
  | .phys _ _ => false

/-- The source from which the flip gap writes an array (R227 order 5): a persistent array's repair source, or for an
array of a reload region what it holds at the start of the next lap's turn. -/
def gapSource (s : State) (p a : Nat) : Option StackPlace :=
  let pt := partOf s p
  if (arrOf s a).persist then (arrOf s a).repair
  else
    ((pt.program.map (·.arrays)).getD []).findSome? (fun x =>
      if imageArray pt x = a ∧ !x.persist then
        some (if oddTurn pt then x.odd.getD x.repair else x.repair)
      else none)

/-- The arrays that the gap writes from a slot's new set, with their sources. -/
def gapArrays (s : State) (p slot : Nat) : List (Nat × StackPlace) :=
  (partCores s p).flatMap (fun ci => (List.range 32).filterMap (fun i =>
    match gapSource s p (ci * 32 + i) with
    | some x => if inSlot slot x && decide ((arrOf s (ci * 32 + i)).state ≠ .retired) then some (ci * 32 + i, x) else none
    | none => none))

/-- The gap goes on while a piece that it reads is held (R232). -/
def gapHeld (s : State) (p slot : Nat) : Bool :=
  (gapArrays s p slot).any (fun e => readPlace s p e.2 (repairGranules (arrOf s e.1).wfmt) == .held)

/-- Write one array in the gap; it keeps its trims and spare bindings. A lost piece faults the partition and takes the
array to RETIRED (R233); with flip_verify, cells that still mismatch bind spares (R122, R227). -/
def gapWrite (s : State) (p : Nat) (cells : List (Nat × Nat × Nat)) (e : Nat × StackPlace) : State :=
  match readPlace s p e.2 (repairGranules (arrOf s e.1).wfmt) with
  | .bytes l =>
    let s := updArr s e.1 (fun x => fillArray x l)
    if odGet s K.wtFlipVerify = 0 then s
    else bindSpares s e.1 ((cells.filter (fun c => c.1 == e.1)).map (·.2))
  | .lost => raiseFault (retireForGood (arrayLeaves s e.1) e.1) p 0x000C (e.1 / 512)
  | .held => s

/-- FLIP_GAP_COMPLETE: the arrays hold the new set's weights, the cores arrive at hurdle 0 under the new set, and the old
set's bind count falls. A fault in the gap leaves the flip to the partition's end (R230). -/
def effFlipGap (s : State) (p gapNs : Nat) (cells : List (Nat × Nat × Nat)) : State :=
  match (partOf s p).flip with
  | none => s
  | some f =>
    if !f.gap ∨ gapHeld s p f.slot then s
    else
      let s := (gapArrays s p f.slot).foldl (fun s e => gapWrite s p cells e) s
      let s := bump s (K.statFlipGapTime p) gapNs
      if (partOf s p).fault.isSome then s else endFlip s p stSuccess

end Sys2Proof.Machine
end

