-- ==== Sys2Proof/Machine/Faults.lean ====
section
/-! DEFINITION. Partition faults (R37, R400 to R404), partition reset and the wipe that ends both (R391), the
loss of a block (R340), failed cores (R61, R386), and the faults of the other members of a job (R300). -/

namespace Sys2Proof.Machine

/-! ## Ending a partition's work -/

/-- A core stops: nothing waits, and reads not yet served are dropped. Writes in flight drain (R105). -/
def stopCore (c : Core) : Core :=
  { c with
    hold := .none, waiting := [], skip := 0, arrived := none, arrival := none, clearedSplit := none, segSplit := none
    transfers := c.transfers.filter (fun t => t.ready), fetching := [] }

/-- Every core of a partition stops, and the lap has no verdict. -/
def stopPartition (s : State) (p : Nat) : State :=
  let s := (partCores s p).foldl (fun s c => updCore s c stopCore) s
  updPart s p (fun x => { x with verdict := none, inLap := false, arrived := [], lanes := [], aborts := [] })

/-- The match of a partition's entry in the partition map is broken (R309). -/
def breakMap (s : State) (p : Nat) : State := { s with pair := { s.pair with valid := s.pair.valid.filter (· ≠ p) } }

/-- Shadows held in a partition for the twin are dropped (R328). -/
def dropShadows (s : State) (p : Nat) : State :=
  (s.sessions.filter (fun e => e.2.shadow && e.2.part == p)).foldl (fun s e => setSess s e.1 {})
    ((s.sessions.filter (fun e => e.2.shadow && e.2.part == p)).foldl (fun s e => freeSessionPages s p e.1) s)

/-- Status with which a fault code ends sessions (R400). -/
def faultStatus (code : Nat) : Nat := if code % 0x8000 = 0x0011 then stBlockLost else stPartitionFaulted

/-- Records of a session that still wait for the twin. -/
def hasUnacked (x : Session) : Bool := x.records.any (fun r => r.mirror)

/-- The sessions of a partition end, in ascending order; one with records that wait for the twin ends when
they are acknowledged or time out (R402 orders 3 and 4). -/
def endSessions (s : State) (p status : Nat) : State :=
  (openOf s p).foldl (fun s i =>
    let x := sessOf s i
    if x.hostLost then dropSession s i
    else if hasUnacked x ∧ x.state ≠ .ending then updSess s i (fun y => { y with abortStatus := some status })
    else endSession s i status) s

/-- The ends of mirrored sessions travel to the twin in the verdict stream (R402 order 5). -/
def mirrorEnds (s : State) (p : Nat) (l : List Nat) : State :=
  if l = [] ∨ !(mirroring s) then s
  else emit s (.mirrorVerdict p (partOf s p).lap .abort
    (l.map (fun i => { session := i, len := (sessOf s i).len, ended := true, forks := [], records := [] })))

/-- Every unit of a partition is fenced, and its leases expire at once (R402 order 2, R407, R408). -/
def fenceUnits (s : State) (p : Nat) : State :=
  expireFenced ((partOf s p).clusters.foldl (fun s cl => updCluster s cl (fun c => { c with fenced := true })) s) p

/-- What a partition's end does whatever its cause: its work stops, its flip and its part of every commit are
given up, and its sessions end. -/
def endPartition (s : State) (p status flipStatus : Nat) : State :=
  let mirrored := mirroredOf s p
  let s := stopPartition s p
  let s := endFlip s p flipStatus
  let s := leaveCommits s p
  let s := endSessions s p status
  let s := mirrorEnds s p mirrored
  breakMap (dropShadows s p) p

/-! ## PARTITION_FAULT (R402) -/

/-- A failed core of a running partition: the partition faults, and the yield map takes the core (R61, R384,
R386). The physical core is that of the core's present number. -/
def coreFailed (s : State) (ci : Nat) : State :=
  let cl := ci / 16
  let s := match partAt s cl with
    | some p => raiseFault s p 0x0014 cl
    | none => s
  let s := recountYield (rebind (addYield s 1 cl (physCore s ci) 0 0 6) cl)
  if (clusterOf s cl).presented = 0 then replaceRequest s 6 2 else s

/-- The first fault of a partition reaches the management processor. -/
def handleFault (s : State) (p : Nat) : State :=
  let pt := partOf s p
  match pt.fault with
  | none => s
  | some (code, cluster) =>
    if pt.state = .faulted then s
    else
      let s := odSet s (K.partLastFault p) code
      let s := odSet s (K.partFaultLap p) pt.lap
      let s := odSet s (K.partFaultCluster p) cluster
      let s := recordEvent s {
        code := 0x4000, source := mpSource s, location := cluster, partition := p, lap := pt.lap
        payload := natLe code 2 ++ natLe cluster 2 ++ natLe pt.hurdle 2 }
      let s := startFlush s
      let s := if jobOf s p ≠ 0 ∧ code < 0x8000 then emit s (.jobFault (jobOf s p) code) else s
      let s := updPart s p (fun x => { x with state := .faulted })
      endPartition (fenceUnits s p) p (faultStatus code) stPartitionFaulted

/-- PARTITION_FAULT: with a core whose handshake has gone unanswered for 10 us, that core's failure. -/
def effPartitionFault (s : State) (p : Nat) (failed : Option CoreRef) : State :=
  let s := match failed with
    | some c => if (partOf s p).runs && (partOf s p).holds c.cluster then coreFailed s (c.cluster * 16 + c.core) else s
    | none => s
  handleFault s p

/-! ## Partition reset (R391) -/

/-- A partition reset in a state that R391 accepts. -/
def resetPartition (s : State) (p : Nat) : State :=
  let pt := partOf s p
  match pt.state with
  | .empty | .resetting | .faulted => s
  | .loading =>
    let s := odSet s (K.partLoadResult p) pt.oldResult
    let s := recordEvent s {
      code := 0x4002, source := mpSource s, partition := p, payload := [0xFF, 0] ++ natLe 0xFFFF 2 }
    updPart s p (fun x => { x with state := .resetting, wiping := true, heldLoad := none })
  | .running | .draining =>
    let s := updPart s p (fun x => { x with state := .resetting, fault := none })
    let s := if jobOf s p ≠ 0 then emit s (.jobFault (jobOf s p) 0) else s
    endPartition s p stCancelled stCancelled

/-! ## PARTITION_WIPE_COMPLETE (orders 2 to 5 of R391) -/

/-- Writes in flight into the partition's banks and stacks. -/
def partIncoming (s : State) (p : Nat) : Nat :=
  let pt := partOf s p
  incoming s true (fun a => pt.holds (a / 2 ^ 25)) + incoming s false (fun a => pt.blocks.contains (a / 2 ^ 37))

/-- Is the partition at the point where its wipe runs? -/
def wipeDue (s : State) (p : Nat) : Bool :=
  let pt := partOf s p
  (decide (pt.state = .faulted) || decide (pt.state = .resetting) || decide (pt.state = .draining) ||
    (decide (pt.state = .loading) && pt.wiping)) &&
    (openOf s p).all (fun i => decide ((sessOf s i).state = .ending))

/-- An array after a wipe: zeros; RETIRED stays, and trims and spare bindings are kept (R136). -/
def wipedArray (x : Arr) : Arr :=
  { state := if x.state = .retired then .retired else .ready
    phys := x.phys, rowsBound := x.rowsBound, colsBound := x.colsBound, calTemp := x.calTemp, stale := x.stale, trims := x.trims }

/-- A frame outside the weight region after a wipe. -/
def wipedFrame (f : Frame) : Frame := if f.use = .withdrawn then f else { f with use := .free, sharers := 0 }

/-- The stacks of some blocks outside their weight regions are zeros, and their frames free. -/
def wipeStacks (s : State) (bs : List Nat) : State :=
  let s := bs.foldl (fun s b =>
    let lo := b * 2 ^ 37 + regionOf s b * 65536
    let n := (framesPerStack - regionOf s b) * 65536
    { s with
      stack := memZero s.stack lo n
      stackPoison := s.stackPoison.filter (fun a => decide (a < lo ∨ lo + n ≤ a)) }) s
  (s.frames.filter (fun e => bs.contains (e.1 / 2 ^ 21) && decide (regionOf s (e.1 / 2 ^ 21) ≤ e.1 % 2 ^ 21))).foldl
    (fun s e => updFrame s e.1 wipedFrame) s

/-- The cores of some clusters are wiped: banks, arrays, caches and sequencers. -/
def wipeClusters (s : State) (cls : List Nat) : State :=
  let mine (cl : Nat) : Bool := cls.contains cl
  let s := cls.foldl (fun s cl => { s with scratch := memZero s.scratch (cl * 2 ^ 25) (2 ^ 25) }) s
  let s := { s with
    cores := s.cores.filter (fun e => !(mine (e.1 / 16)))
    chains := s.chains.filter (fun e => !(mine (e.1 / 128))) }
  let s := (s.arrays.filter (fun e => mine (e.1 / 512))).foldl (fun s e => updArr s e.1 wipedArray) s
  cls.foldl (fun s cl => updCluster s cl (fun c => { govTemp := c.govTemp, idleCal := c.idleCal, presented := c.presented })) s

/-- PARTITION_WIPE_COMPLETE: drained, everything of the partition is zeros; its slot-map bindings go and it
becomes EMPTY. -/
def effWipe (s : State) (p : Nat) : State :=
  let pt := partOf s p
  if !(wipeDue s p) ∨ partIncoming s p ≠ 0 then s
  else
    let s := if pt.state = .draining then breakMap (dropShadows (leaveCommits (endFlip s p stPartitionState) p) p) p else s
    let s := wipeClusters s pt.clusters
    let s := wipeStacks s pt.blocks
    let s := takeStored (setPart s p {}) p pt.blocks
    pt.dies.foldl nextRetrain (dropUnowned s)

/-! ## The loss of a block (R340 orders 3 to 6) -/

/-- A load is given up because a block is not available (R492). -/
def giveUpLoad (s : State) (p : Nat) : State :=
  let s := updPart (odSet s (K.partLoadResult p) 3) p (fun x => { x with wiping := true, heldLoad := none })
  recordEvent s { code := 0x4002, source := mpSource s, partition := p, payload := [3, 0] ++ natLe 0xFFFF 2 }

/-- Records of a session that its home die has not wholly written when it is lost are never written (R404). -/
def dropUnwritten (s : State) (sess : Nat) : State :=
  updSess s sess (fun x => updGen { x with records := [] } (fun g => { g with released := g.released - x.records.length }))

/-- A block is lost: its units are fenced, and the sessions whose home die it lies in write no more records (R404,
R408; DEDUCED: any block of the home die holds the home, log 184). -/
def fenceBlock (s : State) (p b : Nat) : State :=
  let s := (blockClusters b).foldl (fun s cl => updCluster s cl (fun c => { c with fenced := true })) s
  ((openOf s p).filter (fun i => (sessOf s i).homeDie == dieOfBlock b)).foldl dropUnwritten s

/-- A partition that holds a block loses it: a running one faults; one that is loading gives up its load
(R492). -/
def blockGoneFor (s : State) (b code : Nat) : State :=
  match partOfBlock s b with
  | none => s
  | some p =>
    if (partOf s p).state = .loading then giveUpLoad s p else raiseFault s p code ((blockClusters b).headD 0)

/-- Orders 3 to 6 of R340; `code` is the event recorded and `payload` what it carries. -/
def loseBlock (s : State) (b code : Nat) (payload : List Byte) : State :=
  let s := match partOfBlock s b with
    | some p => fenceBlock s p b
    | none => s
  let s := blockGoneFor s b 0x0011
  let s := blockPiecesLost s b
  let s := recordEvent s { code, source := .regulator, location := b, payload }
  startFlush (recountYield (replaceRequest s 6 2))

/-- A stack is lost (R393, R380): a kept STACK entry, and the loss of its block. -/
def loseStack (s : State) (b : Nat) : State :=
  let s := updBlk s b (fun x => { x with stack := .lost, retrainDue := false })
  loseBlock (addYield s 0x0B b 0 0 0 0) b 0x2100 [4, 0, 0, 0]

/-! ## Faults of the other members of a job (R300) -/

/-- Partitions of this module that belong to a job. -/
def partsOfJob (s : State) (job : Nat) : List Nat :=
  (s.parts.filter (fun e => e.2.runs && jobOf s e.1 == job && job != 0)).map (·.1)

/-- JOB_FAULT_MESSAGE: each member takes the same fault, with bit 15 set (R400). A message of no job here is a
foreign frame (R293). -/
def effJobFault (s : State) (job code : Nat) : State :=
  match partsOfJob s job with
  | [] => bump s K.fabForeignFrames
  | l => l.foldl (fun s p => raiseFault s p (0x8000 + code % 0x8000) ((partOf s p).oy * 24 + (partOf s p).ox)) s

end Sys2Proof.Machine
end

