-- ==== Sys2Proof/Machine/Inputs.lean ====
section
/-! DEFINITION. What the conditioning of an outside input leaves behind (R418, R420): the latch of a stuck input
and the mark of a chattering one, as bits of input_status. -/

namespace Sys2Proof.Machine

/-- Is a bit of input_status set? -/
def inputBit (s : State) (bit : Nat) : Bool := (odGet s K.hlthInputStatus).testBit bit

/-- The bit of input_status that shows an input chattering (R424); FN has none, and PERSTn_N has its port's. -/
def chatterBit : Input → Option Nat
  | .rackReference => some 8
  | .pr0 => some 9
  | .pr1 => some 10
  | .mrst => some 11
  | .ilkCool => some 12
  | .ilkStop => some 13
  | .fn0 | .fn1 | .perst0 | .perst1 => none

/-- Is an input marked chattering? -/
def chattering (s : State) (i : Input) : Bool :=
  match chatterBit i with
  | some b => inputBit s b
  | none => false

/-- A stuck or chattering input is recorded and raises bit 12 of the replace request (R418). -/
def reportInput (s : State) (bit us : Nat) : State :=
  recordEvent (replaceRequest s 12 1) {
    code := 0xA100, source := .edgeInput, payload := natLe bit 1 ++ natLe us 4 }

/-- Latch a stuck input, once per episode. -/
def latchStuck (s : State) (bit us : Nat) : State :=
  if inputBit s bit then s else reportInput (odBit s K.hlthInputStatus bit true) bit us

/-- Mark an input chattering; each mark is counted (R420). -/
def markChatter (s : State) (i : Input) : State :=
  match chatterBit i with
  | none => s
  | some bit =>
    if inputBit s bit then s
    else reportInput (bump (odBit s K.hlthInputStatus bit true) K.hlthChatterEvents) bit 0

end Sys2Proof.Machine
end

