-- ==== Sys2Proof/Machine/Pair.lean ====
section
/-! DEFINITION. Twin pairing (R308 to R329): the pair's states, attach, drain and detach, the loss of the twin
and the takeover, and what this module does as the shadow of the twin. -/

namespace Sys2Proof.Machine

/-! ## Sides, paths and ownership -/

/-- The line or state bit of this side. -/
def side (s : State) : Nat := odGet s K.pairSide

def setOwned (s : State) (l : List Nat) : State := { s with pair := { s.pair with owned := l } }

/-- Mirrored sessions that this module owns. -/
def ownedMirrored (s : State) : List Nat :=
  (s.sessions.filter (fun e => e.2.mirrored && !e.2.shadow && decide (e.2.state ≠ .free) && decide (e.2.state ≠ .ending))).map (·.1)

/-- Module ID of the twin, as exchanged at training (R290, R308). -/
def twinId (s : State) : Nat :=
  match [24, 25, 26, 27].find? (fun i => [PortState.up8, .up6, .up4].contains (kvGet {} s.fabric.ports i).state) with
  | some i => (kvGet {} s.fabric.ports i).neighbourId
  | none => 0

/-- A path has come up or gone down (R318). With the Thaha ports down nothing can be mirrored. -/
def pathsChanged (s : State) : State :=
  let both := s.pair.busUp && thahaUp s
  let st := pairState s
  let s := if st = 2 ∧ !both then setPairState s 3 0 else if st = 3 ∧ both then setPairState s 2 0 else s
  if pairState s = 3 ∧ !(thahaUp s) then applyLoss s (ownedMirrored s) else s

/-! ## Queue steps acknowledged (R321) -/

/-- A queue step takes effect: the command is dispatched, or the completion may be posted. -/
def stepTaken (s : State) (b : ShadowBody) : State :=
  match b with
  | .entry ring bytes => takeEntry s ring bytes
  | .completion ring _ _ _ => updComp s ring (fun q => { q with
      ready := updFirst (fun c => c.shadowed == 1) (fun c => { c with shadowed := 2 }) q.ready })

/-- Steps that wait for the twin take effect without it. -/
def flushSteps (s : State) : State :=
  let l := s.pair.unacked
  l.foldl (fun s m => stepTaken s m.2) { s with pair := { s.pair with unacked := [] } }

/-- SHADOW_ACK. -/
def effShadowAck (s : State) (seq : Nat) : State :=
  match s.pair.unacked.find? (fun m => m.1 == seq) with
  | none => s
  | some m => stepTaken { s with pair := { s.pair with unacked := s.pair.unacked.filter (fun x => x.1 != seq) } } m.2

/-! ## Sessions here as shadows for the twin -/

/-- A shadow's tentative pages settle at its length, whatever lap drew them. -/
def settleShadow (s : State) (sess newLen : Nat) : State :=
  settlePagesOf s (sessOf s sess).part sess newLen (fun _ => true)

/-- The shadow contexts. -/
def shadows (s : State) : List Nat := (s.sessions.filter (fun e => e.2.shadow)).map (·.1)

/-- A shadow is dropped: its context and its mirror pages go. -/
def dropShadow (s : State) (sess : Nat) : State :=
  if (sessOf s sess).shadow then setSess (freeSessionPages s (sessOf s sess).part sess) sess {} else s

/-- The cluster that writes a stream of the mirror partition, as its lap program states it. -/
def streamCluster (s : State) (p stream : Nat) : Nat :=
  let pt := partOf s p
  let origin := pt.oy * 24 + pt.ox
  match pt.program with
  | none => origin
  | some g => match g.streamWriters.find? (fun e => e.1 == stream) with
    | some e => (pt.oy + e.2 / 24) * 24 + pt.ox + e.2 % 24
    | none => origin

/-- Write mirrored bytes, granule by granule, as tentative entries of the shadow. -/
def writeShadow (p cl sess : Nat) : Nat → Nat → List Byte → State → State
  | 0, _, _, s => s
  | n + 1, va, data, s =>
    if data = [] then s
    else match translate s p cl sess va true false with
      | (.phys a _, s) => writeShadow p cl sess n (va + 64) (data.drop 64) { s with stack := memWriteN s.stack a (data.take 64) }
      | (_, s) => updSess s sess (fun x => { x with mirrorFailed := true })

/-- MIRROR_ENTRY (R320): the twin draws pages from its mirror partition. -/
def effMirrorEntry (s : State) (sess va : Nat) (data : List Byte) : State :=
  let x := sessOf s sess
  if !x.shadow then s
  else writeShadow x.part (streamCluster s x.part (bitsOf va 47 29)) sess (data.length / 64 + 1) va data s

/-- Positions of prompts in an increase of length that released `recs` tokens. -/
def promptShare (hadPending : Bool) (grown recs : Nat) : Nat :=
  if !hadPending then grown else if recs = grown then 0 else grown - 1

/-- Tokens of the positions from `from_` to `upTo`, as far as the records told them. -/
def learnHistory (s : State) (x : Session) (upTo : Nat) (recs : List (Nat × Nat)) : List Nat × State :=
  ((List.range (upTo - x.history.length)).foldl (fun (acc : List Nat × State) i =>
    let pos := x.history.length + i
    match recs.find? (fun r => r.1 == pos) with
    | some r => (acc.1 ++ [r.2], acc.2)
    | none =>
      if pos = x.len ∧ x.pending.isSome then (acc.1 ++ x.pending.toList, acc.2)
      else
        let d := drawFree acc.2
        (acc.1 ++ [Config.freeToken d.1], d.2)) (x.history, s))

/-- A shadow context, made when the shadowed completion of the SESSION_OPEN or FORK arrives. -/
def makeShadow (s : State) (ring : Nat) (e : List Byte) : State :=
  if eOp e = 1 then
    match mirrorPart s (ePart e) with
    | none => s
    | some q =>
      if (sessOf s (eSess e)).state ≠ .free ∨ !((fieldLe e 20 1).testBit 0) then s
      else
        let adapter := fieldLe e 18 2
        setSess s (eSess e) {
          state := .idle, cls := fieldLe e 17 1, part := q, homeDie := homeDieFor s q, fn := ringFn s ring
          openRing := ring, tokenBase := fieldLe e 8 8, tokenLog2 := fieldLe e 16 1
          bitmapBase := if (fieldLe e 20 1).testBit 1 then some (fieldLe e 24 8) else none
          bitmapLog2 := if (fieldLe e 20 1).testBit 1 then fieldLe e 32 1 else 0
          adapter := if adapter = 0xFFFF then none else some adapter
          port := ringFn s ring / 64, shadow := true, openTag := eTag e }
  else
    let x := sessOf s (eSess e)
    let child := fieldLe e 8 2
    if !x.shadow ∨ (sessOf s child).state ≠ .free then s
    else
      let cls := if fieldLe e 10 1 = 0xFF then x.cls else fieldLe e 10 1
      let s := setSess s child { x with
        cls, tokenBase := fieldLe e 16 8, tokenLog2 := fieldLe e 24 1, tokW := 0, tokHead := 0, bitmapBase := none
        openRing := ring, openTag := eTag e, homeDie := homeDieFor s x.part, root := [], shadowUsed := 0, shadowMade := 0 }
      (forkPages s x.part (eSess e) child).2

/-- A FORK takes effect at a baton of the owner: the child's shadow is made from the shadowed entry (R320). -/
def shadowFork (s : State) (parent child : Nat) : State :=
  match s.pair.entries.find? (fun e => eOp e.2 == 4 && eSess e.2 == parent && fieldLe e.2 8 2 == child) with
  | some e => makeShadow s e.1 e.2
  | none => s

/-- The verdict of one session reaches its shadow at a commit or abort (R320). -/
def applyMirror (s : State) (m : MirrorSession) : State :=
  let x := sessOf s m.session
  if !x.shadow then s
  else if m.ended then dropShadow s m.session
  else
    let s := settleShadow s m.session m.len
    let n := m.records.length
    let toks := m.records.map (fun r => (fieldLe r.2 4 4, fieldLe r.2 0 4))
    let h := learnHistory s x m.len toks
    let s := updSess h.2 m.session (fun y => { y with
      len := m.len, history := h.1, tokW := y.tokW + n
      pending := match toks.getLast? with
        | some t => some t.2
        | none => if m.len = x.len then y.pending else none
      shadowUsed := y.shadowUsed + promptShare x.pending.isSome (m.len - x.len) n
      shadowMade := y.shadowMade + n })
    let s := m.forks.foldl (fun s c => shadowFork s m.session c) s
    if n = 0 then s
    else { s with pair := { s.pair with
      lastRecords := s.pair.lastRecords.filter (fun e => e.1 != m.session) ++ [(m.session, m.records)] } }

/-- MIRROR_VERDICT: acknowledged once every mirrored session of the lap has been applied. -/
def effMirrorVerdict (s : State) (p lap : Nat) (v : Verdict) (l : List MirrorSession) : State :=
  if v = .replay then s
  else
    let good := l.all (fun m => m.ended || ((sessOf s m.session).shadow && !(sessOf s m.session).mirrorFailed))
    let s := l.foldl applyMirror s
    if good then sendFrame s 2 (p + lap % 2 ^ 42 * 2 ^ 6) else s

/-- The entry of a completion: the oldest of its ring with the tag. -/
def entryOf (s : State) (sq tag : Nat) : Option (Nat × List Byte) :=
  s.pair.entries.find? (fun e => e.1 == sq && eTag e.2 == tag)

def firstOnly {α : Type} (p : α → Bool) : List α → List α
  | [] => []
  | x :: r => if p x then r else x :: firstOnly p r

/-- A shadowed completion: its command is done with. -/
def shadowDone (s : State) (c : List Byte) : State :=
  let sq := fieldLe c 4 2
  let tag := fieldLe c 0 2
  match entryOf s sq tag with
  | none => s
  | some e =>
    let s := { s with pair := { s.pair with entries := firstOnly (fun y => y.1 == sq && eTag y.2 == tag) s.pair.entries } }
    let s := if (eOp e.2 = 1 ∨ eOp e.2 = 4) ∧ fieldLe c 3 1 = 0 then makeShadow s sq e.2 else s
    updSess s (eSess e.2) (fun x =>
      if !x.shadow then x
      else if eOp e.2 = 2 then { x with shadowUsed := x.shadowUsed - fieldLe c 16 4 }
      else if eOp e.2 = 3 then { x with shadowMade := x.shadowMade - fieldLe c 16 4 }
      else x)

/-- SHADOW_MESSAGE (R321): the twin keeps the step in its shadow of the ring, and acknowledges it. -/
def effShadowMessage (s : State) (seq : Nat) (b : ShadowBody) : State :=
  let s := match b with
    | .entry ring bytes =>
      let s := updSub s ring (fun q => { q with fetch := (q.fetch + 1) % 2 ^ q.sizeLog2 })
      { s with pair := { s.pair with entries := s.pair.entries ++ [(ring, padTo 64 bytes)] } }
    | .completion ring slot phase bytes =>
      let s := updComp s ring (fun q => { q with written := q.written + 1 })
      let s := { s with pair := { s.pair with
        lastComps := s.pair.lastComps.filter (fun e => e.1 != ring) ++ [(ring, slot, phase, bytes)] } }
      shadowDone s bytes
  sendFrame s 3 seq

/-! ## Acknowledgements at the owner (R320) -/

/-- Sessions of a faulted partition end once nothing of theirs waits for the twin (R402). -/
def endAcked (s : State) (p : Nat) : State :=
  if (partOf s p).runs then s
  else (openOf s p).foldl (fun s i =>
    let x := sessOf s i
    match x.abortStatus with
    | some st => if hasUnacked x then s else endSession s i st
    | none => s) s

/-- MIRROR_ACK: the records of the lap may be written. -/
def effMirrorAck (s : State) (p lapLow ns : Nat) : State :=
  let s := odMax s K.pairMirrorAckMax ns
  let s := (openOf s p).foldl (fun s i => updSess s i (fun x => { x with
    records := x.records.map (fun r => if r.lap % 2 ^ 42 = lapLow then { r with mirror := false } else r) })) s
  endAcked s p

/-- Records of a session that is mirrored no more (R311): the policy drops them, or lets them be written. -/
def loseRecords (s : State) (sess : Nat) : State :=
  if odGet s K.pairMirrorLossPolicy = 0 then dropUnacked s sess else unmirror s sess

/-- MIRROR_ACK_TIMEOUT: mirror_loss_policy is applied to the sessions whose records of the lap still wait. -/
def effMirrorAckTimeout (s : State) (p lap : Nat) : State :=
  let late := (openOf s p).filter (fun i => (sessOf s i).records.any (fun r => r.mirror && r.lap == lap))
  if (partOf s p).runs then
    let s := (late.filter (fun i => !(sessOf s i).mirrored)).foldl loseRecords s
    applyLoss s (late.filter (fun i => (sessOf s i).mirrored))
  else endAcked (late.foldl dropUnacked s) p

/-! ## Takeover (R323) -/

/-- Sessions resumed from shadows go on here, unmirrored, in the mirror partition. -/
def resumeShadow (s : State) (sess : Nat) : State :=
  let s := settleShadow s sess (sessOf s sess).len
  settleState (updSess s sess (fun x => { x with
    shadow := false, mirrored := false, residuals := [], state := .idle, mirrorFailed := false })) sess

/-- The commands of a ring that were fetched and not completed are dispatched here, in fetch order. -/
def dispatchShadowed (s : State) (rings : List Nat) : State :=
  let mine := s.pair.entries.filter (fun e => rings.contains e.1)
  let s := { s with pair := { s.pair with entries := s.pair.entries.filter (fun e => !(rings.contains e.1)) } }
  mine.foldl (fun s e => takeEntry (updSub s e.1 (fun q => { q with outstanding := q.outstanding + 1 })) e.1 e.2) s

/-- The last completion of each ring and the last records of each session are written again, byte for byte. -/
def rewriteLast (s : State) : State :=
  let s := s.pair.lastComps.foldl (fun s c =>
    emit s (.hostWrite ((fnOfComp s c.1).getD 0 / 64) ((compOf s c.1).base + 32 * c.2.1) c.2.2.2)) s
  s.pair.lastRecords.foldl (fun s e =>
    let x := sessOf s e.1
    if !x.shadow then s
    else e.2.foldl (fun s r => emit s (.hostWrite x.port (x.tokenBase + 16 * r.1) r.2)) s) s

/-- This module takes rings over from the twin: orders 2, 4 and 5 of R323. -/
def takeRings (s : State) (rings : List Nat) : State :=
  let s := setOwned s (rings.foldl (fun acc r => insertNat r acc) s.pair.owned)
  let s := dispatchShadowed s rings
  ((shadows s).filter (fun i => rings.contains (sessOf s i).openRing)).foldl resumeShadow s

/-- This module wins: it fences the twin and takes its rings and sessions over. -/
def takeover (s : State) (us : Nat) : State :=
  let s := emit (excuseAll s) .driveFence
  let s := setPairState s 5 (shadows s).length
  let s := replaceRequest (bump s K.pairTakeovers) 11 2
  let s := rewriteLast s
  let s := takeRings s (mirroredRings s)
  let s := (ownedMirrored s).foldl unmirror s
  let s := flushSteps s
  let s := odPut s K.pairLastTakeoverTime us
  { s with pair := { s.pair with failover := false, waiting := false, drainWait := [], handing := [], lastComps := [], lastRecords := [] } }

/-- The twin is lost and nothing is taken over (R319). -/
def isolate (s : State) : State :=
  let l := ownedMirrored s
  let s := replaceRequest (setPairState s 6 l.length) 11 2
  let s := flushSteps (applyLoss s l)
  { s with pair := { s.pair with failover := false, waiting := false, drainWait := [], handing := [] } }

/-- HEARTBEAT_TIMEOUT: the twin is declared lost. -/
def effHeartbeatTimeout (s : State) (us : Nat) : State :=
  match pairState s with
  | 1 => setPairState (odSet s K.pairAttachResult 1) 0 0
  | 2 | 3 | 4 =>
    if odGet s K.pairTakeoverEnable = 0 ∨ s.pair.prHigh then isolate s
    else if side s = 0 then takeover s us
    else excuseAll { s with pair := { s.pair with waiting := true, failover := true } }
  | _ => s

/-- TAKEOVER_WAIT_EXPIRY: side 1 fences and takes over, unless its own latch is set. -/
def effTakeoverWait (s : State) (us : Nat) : State :=
  if !s.pair.waiting then s
  else if s.pair.fence then { s with pair := { s.pair with waiting := false, failover := false } }
  else takeover s us

/-- The fence latch is set (R317, R318): owned mirrored sessions end without further host writes, and the twin
owns every mirrored ring. -/
def setFence (s : State) : State :=
  if s.pair.fence then s
  else
    let s := { s with pair := { s.pair with fence := true, waiting := false, failover := false, drainWait := [], handing := [] } }
    if pairState s = 0 then s
    else
      let s := excuseAll s
      let l := ownedMirrored s
      let s := setPairState s 7 l.length
      let s := l.foldl dropSession s
      setOwned { s with pair := { s.pair with unacked := [] } } []

/-! ## FN and PR (R316, R418) -/

/-- FN_INPUT: 0 is FN0, 1 is FN1. A side drives its own line. -/
def effFnInput (s : State) (input widthNs : Nat) : State :=
  if pairState s ≠ 0 ∧ input = side s then s
  else if widthNs < 50 then bump s K.pairShortPulses
  else if 10000 < widthNs then s
  else setFence s

/-- FN_STUCK. -/
def effFnStuck (s : State) (input : Nat) : State :=
  if (odGet s K.pairStuckInputs).testBit input then s
  else replaceRequest (latchStuck (odBit s K.pairStuckInputs input true) (1 + input) 10) 11 2

/-- PR_CHANGE: a level steady for 1 ms counts; a chattering line is taken as high. -/
def effPrChange (s : State) (input : Nat) (level steady overLimit : Bool) : State :=
  let i : Input := if input = 0 then .pr0 else .pr1
  let mine := input == side s
  if overLimit then
    let s := markChatter s i
    if mine then { s with pair := { s.pair with prHigh := true, prLevel := level } } else s
  else if chattering s i then
    if mine ∧ steady then { s with pair := { s.pair with prLevel := level } } else s
  else if !steady then bump s K.pairShortPulses
  else if mine then { s with pair := { s.pair with prHigh := level } }
  else s

/-! ## Attach (R318, R325) -/

/-- The check of this side's cable and ports: attach_result, 0 if good. -/
def attachPorts (s : State) : Nat := if s.pair.prHigh then 2 else if !(thahaUp s) then 3 else 0

def attachFails (s : State) (result : Nat) : State :=
  let s := odSet s K.pairAttachResult result
  if pairState s = 1 then setPairState s 0 0 else s

/-- The pair's settings take effect: sides, ownership by ring side, and the valid entries of the map. -/
def becomePaired (s : State) : State :=
  let twin := twinId s
  let s := odSet s K.pairTwinModuleId twin
  let s := odSet s K.pairSide (if odGet s K.fabModuleId < twin then 0 else 1)
  let s := setPairState (odSet s K.pairAttachResult 0) 2 0
  let mine := (mirroredRings s).filter (fun r => domBit s K.pairRingSide r == decide (side s = 1))
  let s := setOwned s mine
  pathsChanged { s with pair := { s.pair with
    valid := (List.range 48).filter (fun p =>
      decide (domField s K.pairPartitionMap p 1 ≠ 0xFF) && partMatches s s.pair.twin p) } }

/-- The checks of R309 against what the twin tells of itself: attach_result, 0 if good. -/
def attachCheck (s : State) (t : TwinInfo) : Nat :=
  if attachPorts s ≠ 0 then attachPorts s
  else if !(configMatches s t) then 4
  else if !(mapsMatch s t) then 5
  else 0

/-- ATTACHING begins, and the next step is sent. -/
def beginAttach (s : State) (t : TwinInfo) (step : Nat) : State :=
  sendFrame (setPairState { s with pair := { s.pair with twin := t } } 1 0) 8 step

/-- The write of 1 to attach. -/
def startAttach (s : State) (t : TwinInfo) : State :=
  if attachCheck s t ≠ 0 then attachFails s (attachCheck s t) else beginAttach s t 1

/-- ATTACH_FRAME: step 1 asks, step 2 answers with a result, step 3 confirms. -/
def effAttachFrame (s : State) (step result : Nat) (t : TwinInfo) : State :=
  if step = 1 ∧ pairState s = 0 ∧ !s.pair.fence then
    let r := attachCheck s t
    if r = 0 then beginAttach s t 2
    else sendFrame (odSet s K.pairAttachResult r) 8 (2 + r * 16)
  else if step = 1 then sendFrame s 8 (2 + 6 * 16)
  else if pairState s ≠ 1 then s
  else if result ≠ 0 then attachFails s result
  else if step = 2 then sendFrame (becomePaired s) 8 3
  else if step = 3 then becomePaired s
  else s

/-! ## Detach and drain (R326, R327) -/

/-- Mirroring ends on this module: sessions go on unmirrored, and shadows go; rings stay with their owners (R327). -/
def endMirroring (s : State) : State :=
  let s := (ownedMirrored s).foldl unmirror s
  let s := (shadows s).foldl dropShadow s
  let s := flushSteps s
  let s := setPairState s 0 0
  { s with pair := { s.pair with
    valid := [], twin := {}, entries := [], lastComps := [], lastRecords := [], drainWait := [], handing := []
    waiting := false, failover := false } }

/-- DETACH_FRAME. -/
def effDetachFrame (s : State) : State := if mirroring s then endMirroring s else s

/-- The write of 1 to detach: it has an effect in the states that R318 lets it leave and while mirroring is on;
FENCED ends only at module reset. -/
def startDetach (s : State) : State :=
  if mirroring s then endMirroring (sendFrame s 9 0)
  else if pairState s = 5 ∨ pairState s = 6 then endMirroring s
  else s

/-- A drain begins: owned mirrored rings are fetched no more (R326). -/
def startDrain (s : State) : State :=
  let s := setPairState s 4 (ownedMirrored s).length
  { s with pair := { s.pair with drainWait :=
    (s.parts.filter (fun e => e.2.runs && !(mirroredOf s e.1).isEmpty)).map (·.1) } }

/-- Once the laps are over and everything is acknowledged, HANDOVER is sent for each owned ring. -/
def drainOn (s : State) : State :=
  if pairState s ≠ 4 ∨ s.pair.drainWait ≠ [] ∨ s.pair.unacked ≠ [] ∨ (ownedMirrored s).any (fun i => hasUnacked (sessOf s i)) then s
  else if s.pair.owned = [] then setPairState s 2 0
  else
    let l := s.pair.owned.filter (fun r => !(s.pair.handing.contains r))
    let s := l.foldl (fun s r => sendFrame s 6 r) s
    { s with pair := { s.pair with handing := s.pair.handing ++ l } }

/-- A baton of a partition has passed. -/
def drainLap (s : State) (p : Nat) : State :=
  drainOn { s with pair := { s.pair with drainWait := s.pair.drainWait.filter (· ≠ p) } }

/-- HANDOVER (R326): a request gives a ring to this module; done takes it from this one with its sessions. -/
def effHandover (s : State) (ring : Nat) (done : Bool) : State :=
  if !done then
    if mirroring s && domBit s K.pairMirroredRings ring then sendFrame (takeRings s [ring]) 6 (ring + 2 ^ 15) else s
  else if !(s.pair.handing.contains ring) then s
  else
    let s := { s with pair := { s.pair with
      handing := s.pair.handing.filter (· ≠ ring), owned := s.pair.owned.filter (· ≠ ring) } }
    let s := ((ownedMirrored s).filter (fun i => (sessOf s i).openRing == ring)).foldl dropSession s
    let s := updSub s ring (fun q => { q with dispatch := [], fetchOrder := [], outstanding := 0 })
    drainOn s

/-! ## Frames -/

/-- HEARTBEAT: one over the bus shows that the bus path is up. -/
def effHeartbeat (s : State) (f : FrameIn) : State :=
  if f.viaBus then pathsChanged { s with pair := { s.pair with busUp := true } } else s

/-- HEARTBEAT_SEND: sequence and pair state, on both paths. -/
def effHeartbeatSend (s : State) : State :=
  if !s.plant.powered ∨ s.plant.powerFail ∨ s.plant.resetting then s
  else
    let n := s.pair.beatSeq
    sendFrame { s with pair := { s.pair with beatSeq := (n + 1) % 65536 } } 1 (n + pairState s * 65536)

/-- ABORT_FRAME: the shadow is dropped and the frame answered (R328). -/
def effAbortFrame (s : State) (sess : Nat) : State := sendFrame (dropShadow s sess) 5 sess

/-- ABORT_DONE. -/
def effAbortDone (s : State) (sess : Nat) : State := updSess s sess (fun x => { x with twinAbort := false })

/-- RESERVED_FRAME_CODE: discarded and recorded. -/
def effReservedFrame (s : State) : State :=
  recordEvent s {
    code := 0x9000, source := .pairBus
    payload := natLe (pairState s) 1 ++ natLe (pairState s) 1 ++ natLe 0 2 }

/-- BUS_PATH_DOWN: sixteen frames in a row have failed, each counted (R314). -/
def effBusDown (s : State) : State :=
  pathsChanged { bump s K.pairBusFrameRetries 16 with pair := { s.pair with busUp := false } }

/-- A frame of a code other than HEARTBEAT: the second copy is ignored (R315). -/
def onFrame (f : FrameIn) (s : State) (go : State → State) : State := if f.secondCopy then s else go s

/-! ## The commands -/

/-- HEARTBEAT. -/
def execHeartbeat (f : FrameIn) (_sequence _twinState : Nat) (s : State) : Result := .next (effHeartbeat s f)
/-- HEARTBEAT_SEND (R315). -/
def execHeartbeatSend (s : State) : Result := .next (effHeartbeatSend s)
/-- MIRROR_ACK (R320). -/
def execMirrorAck (f : FrameIn) (p lapLow ns : Nat) (s : State) : Result :=
  atPart p (onFrame f s (fun s => goOnAll s (drainOn (effMirrorAck s p lapLow ns))))
/-- SHADOW_ACK (R321). -/
def execShadowAck (f : FrameIn) (sequence : Nat) (s : State) : Result :=
  .next (onFrame f s (fun s => drainOn (effShadowAck s sequence)))
/-- ABORT_FRAME (R328). -/
def execAbortFrame (f : FrameIn) (session : Nat) (s : State) : Result :=
  atSess session (onFrame f s (fun s => effAbortFrame s session))
/-- ABORT_DONE (R328). -/
def execAbortDone (f : FrameIn) (session : Nat) (s : State) : Result :=
  atSess session (onFrame f s (fun s => effAbortDone s session))
/-- HANDOVER (R326). -/
def execHandover (f : FrameIn) (ring : Nat) (done : Bool) (s : State) : Result :=
  atRing ring (onFrame f s (fun s => effHandover s ring done))
/-- FLIP_FRAME (R328). -/
def execFlipFrame (f : FrameIn) (p set : Nat) (ready refused : Bool) (s : State) : Result :=
  atPart p (onFrame f s (fun s => flipFrameIn s p set ready refused))
/-- ATTACH_FRAME (R318). -/
def execAttachFrame (f : FrameIn) (step : Nat) (body : AttachBody) (s : State) : Result :=
  .next (onFrame f s (fun s => effAttachFrame s step body.result body.twin))
/-- DETACH_FRAME (R327). -/
def execDetachFrame (f : FrameIn) (s : State) : Result := .next (onFrame f s effDetachFrame)
/-- RESERVED_FRAME_CODE (R315). -/
def execReservedFrameCode (f : FrameIn) (_code : Nat) (s : State) : Result := .next (onFrame f s effReservedFrame)
/-- BUS_PATH_DOWN (R314). -/
def execBusPathDown (s : State) : Result := .next (effBusDown s)
/-- MIRROR_ENTRY (R320). -/
def execMirrorEntry (session vaddr : Nat) (data : List Byte) (s : State) : Result :=
  atSess session (effMirrorEntry s session vaddr data)
/-- MIRROR_VERDICT (R320). -/
def execMirrorVerdict (p lap : Nat) (v : Verdict) (l : List MirrorSession) (s : State) : Result :=
  atPart p (effMirrorVerdict s p lap v l)
/-- SHADOW_MESSAGE (R321). -/
def execShadowMessage (sequence : Nat) (body : ShadowBody) (s : State) : Result := .next (effShadowMessage s sequence body)
/-- MIRROR_ACK_TIMEOUT (R320). -/
def execMirrorAckTimeout (p lap : Nat) (s : State) : Result := atPart p (drainOn (effMirrorAckTimeout s p lap))
/-- FN_INPUT (R316, R317). -/
def execFnInput (input widthNs : Nat) (s : State) : Result :=
  atUnit (decide (input < 2)) "FN line" input (effFnInput s input widthNs)
/-- FN_STUCK (R316). -/
def execFnStuck (input : Nat) (s : State) : Result := atUnit (decide (input < 2)) "FN line" input (effFnStuck s input)
/-- PR_CHANGE (R316, R418). -/
def execPrChange (input : Nat) (level steady overLimit : Bool) (s : State) : Result :=
  atUnit (decide (input < 2)) "PR line" input (effPrChange s input level steady overLimit)
/-- HEARTBEAT_TIMEOUT (R319). -/
def execHeartbeatTimeout (us : Nat) (s : State) : Result := .next (effHeartbeatTimeout s us)
/-- TAKEOVER_WAIT_EXPIRY (R319). -/
def execTakeoverWaitExpiry (us : Nat) (s : State) : Result := .next (effTakeoverWait s us)

end Sys2Proof.Machine
end

