-- ==== Sys2Proof/Machine/Networks.lean ====
section
/-! DEFINITION. Failures of the bulk network's links and of routers (R282, R287, R288), the Geanna ports (R289 to
R291), the messages of multi-module jobs (R292 to R303) and fabric writes (R298, R299). -/

namespace Sys2Proof.Machine

/-! ## Failed elements (R287, R288) -/

def near (a b : Nat) : Bool :=
  let d (x y : Nat) : Nat := if x ≤ y then y - x else x - y
  a != b && decide (d (clusterX a) (clusterX b) ≤ 1) && decide (d (clusterY a) (clusterY b) ≤ 1)

/-- Failed routers that the detour tables do not cover: one near another, or at the end of a failed link. -/
def uncoveredSet (s : State) : List Nat :=
  let r := s.fabric.bulkDown
  let l := (s.fabric.links.filter (fun e => e.2.failed)).flatMap (fun e => linkEnds e.1)
  r.filter (fun a => r.any (near a) || l.contains a)

/-- Does the traffic of a partition cross a router that the detours do not cover? -/
def crosses (s : State) (p : Nat) : Bool :=
  (partRoutes s p).any (fun r => (xyRoute r.1 r.2).any s.fabric.uncovered.contains)

/-- After a failure: packets in the failed element are lost and the others take the detours. Where the failures are
beyond the covered sets, routes across them are unavailable, and the partitions whose traffic crosses them fault with
NO_ROUTE. -/
def checkRoutes (s : State) (lost : List (Nat × Nat × Nat)) : State :=
  let u := uncoveredSet s
  let old := s.fabric.uncovered
  let s := divert { s with fabric := { s.fabric with uncovered := u } } lost
  if u.all old.contains then s
  else (s.parts.filter (fun e => e.2.loaded && crosses s e.1)).foldl (fun s e => raiseFault s e.1 0x000E (u.headD 0)) s

/-- A link is failed: recorded, entered in the yield map, and its traffic detours. -/
def failLink (s : State) (l : Nat) (lost : List (Nat × Nat × Nat)) : State :=
  if (linkOf s l).failed then s
  else
    let s := updLink s l (fun x => { x with failed := true, retraining := false, due := false })
    let s := addYield s 6 0xFFFF 0 0 0 l
    let s := recordEvent s { code := 0x8100, source := .cluster, location := (linkEnds l).headD 0, payload := natLe l 2 }
    checkRoutes (replaceRequest s 9 1) lost

/-- A router is failed: its cluster is lost, and so is its block to later loads (R288, R386). Only a router of the bulk
network closes a way to packets. -/
def failRouter (s : State) (cl network : Nat) (lost : List (Nat × Nat × Nat)) : State :=
  if s.fabric.routers.contains cl then s
  else
    let s := { s with fabric := { s.fabric with
      routers := insertNat cl s.fabric.routers
      bulkDown := if network = 0 then insertNat cl s.fabric.bulkDown else s.fabric.bulkDown } }
    let s := match partAt s cl with
      | some p => if (partOf s p).state = .loading then blockGoneFor s (blockOf cl) 0
        else raiseFault (updCluster s cl (fun c => { c with fenced := true })) p 0x000D cl
      | none => s
    let s := addYield s 5 cl network 0 0 0
    let s := recordEvent s { code := 0x8100, source := .cluster, location := cl, payload := natLe 0xFFFF 2 }
    let s := replaceRequest (replaceRequest s 9 1) 6 2
    checkRoutes (recountYield (rebind s cl)) lost

/-! ## Geanna ports (R290, R291) -/

def geannaOf (s : State) (i : Nat) : Port := kvGet {} s.fabric.ports i
def updGeanna (s : State) (i : Nat) (f : Port → Port) : State :=
  { s with fabric := { s.fabric with ports := kvSet {} s.fabric.ports i (f (geannaOf s i)) } }

def portStateCode : PortState → Nat
  | .down => 0 | .training => 1 | .up8 => 2 | .up6 => 3 | .up4 => 4 | .miscabled => 5 | .failed => 6

def portUp (x : PortState) : Bool := [PortState.up8, .up6, .up4].contains x

/-- Direction of a port: 0 +X, 1 -X, 2 +Y, 3 -Y, 4 +Z, 5 -Z, 6 Thaha. -/
def portDir (i : Nat) : Nat := i / 4

/-- Does a job of a partition use a direction: by a fabric channel, or by the extent of its box? -/
def usesDir (s : State) (p dir : Nat) : Bool :=
  jobOf s p != 0 &&
    ((List.range 256).any (fun c =>
      let e := slice (domGet s (K.partChannelTable p)) (16 * c) 16
      fieldLe e 0 1 == 2 && fieldLe e 1 1 == dir) ||
    decide (1 < fieldLe (domGet s (K.partJobBox p)) (3 + dir / 2) 1))

/-- A direction is lost for good when every port of it is FAILED, MISCABLED or DOWN (R299). -/
def checkDirection (s : State) (dir : Nat) : State :=
  if 6 ≤ dir ∨ (List.range 4).any (fun i =>
      let x := (geannaOf s (4 * dir + i)).state
      portUp x || decide (x = .training)) then s
  else s.parts.foldl (fun s e =>
    if (partOf s e.1).runs ∧ usesDir s e.1 dir then
      raiseFault s e.1 0x000F ((partOf s e.1).oy * 24 + (partOf s e.1).ox)
    else s) s

/-- A port changes state: recorded, with the replace request below UP_8, and what hangs on its direction. -/
def setPort (s : State) (i : Nat) (n : PortState) : State :=
  let x := geannaOf s i
  if x.state = n then s
  else
    let s := updGeanna s i (fun x => { x with
      state := n
      trainings := if n = .training then Nat.min (x.trainings + 1) (2 ^ 32 - 1) else x.trainings
      attempts := if n = .training then 0 else x.attempts
      lanes := if portUp n then x.lanes else 0 })
    let s := recordEvent s {
      code := 0x8000, source := .geannaPort, location := i
      payload := natLe (portStateCode x.state) 1 ++ natLe (portStateCode n) 1 ++ natLe (geannaOf s i).lanes 1 }
    let s := if [PortState.up6, .up4, .miscabled, .failed].contains n then replaceRequest s 7 1 else s
    pathsChanged (checkDirection s (portDir i))

/-- Is a port enabled in port_enable? -/
def portEnabled (s : State) (i : Nat) : Bool := (odGet s K.fabPortEnable).testBit i

/-- The retrain command of a port (R290). One that is disabled or training stays as it is. -/
def retrainPort (s : State) (i : Nat) : State :=
  if portEnabled s i && decide ((geannaOf s i).state ≠ .training) then setPort s i .training else s

/-- port_enable has a new value: disabled ports go dark; those newly enabled train at bring-up or by the retrain
command (R290). -/
def applyPortEnable (s : State) : State :=
  (List.range 28).foldl (fun s i =>
    if !(portEnabled s i) then setPort s i .down
    else s) s

/-- The position that the module at the far end of a port must have (R294). -/
def expectedPos (s : State) (dir : Nat) : Nat × Nat × Nat :=
  let pos := domGet s K.fabTorusPosition
  let c (axis : Nat) : Nat :=
    let d := Nat.max 1 (domField s K.fabTorusDims axis 1)
    let x := fieldLe pos axis 1
    if dir / 2 ≠ axis then x else if dir % 2 = 0 then (x + 1) % d else (x + d - 1) % d
  (c 0, c 1, c 2)

/-- One attempt at training has failed; after three the port is FAILED. -/
def failAttempt (s : State) (i : Nat) : State :=
  let s := updGeanna s i (fun x => { x with attempts := x.attempts + 1 })
  if 3 ≤ (geannaOf s i).attempts then setPort s i .failed else s

/-- TRAINING_COMPLETE. The Thaha ports have the twin as neighbour, whose position is not checked. -/
def effTrained (s : State) (i lanes nid : Nat) (pos : Nat × Nat × Nat) (delayNs : Nat) : State :=
  if (geannaOf s i).state ≠ .training then s
  else if lanes < 4 then failAttempt s i
  else
    let s := updGeanna s i (fun x => { x with neighbourId := nid, neighbourPos := pos, delayNs })
    if portDir i < 6 ∧ pos ≠ expectedPos s (portDir i) then setPort s i .miscabled
    else
      let n := if lanes = 8 then 8 else if lanes ≥ 6 then 6 else 4
      let s := updGeanna s i (fun x => { x with lanes })
      setPort s i (if n = 8 then .up8 else if n = 6 then .up6 else .up4)

/-- LANE_FAILURE: a retry is counted; a lane that fails, or eight retries of one flit, retrain the port. -/
def effLaneFailure (s : State) (i : Nat) (e : LaneEvent) : State :=
  if !(portUp (geannaOf s i).state) then s
  else match e with
    | .retry => bump (updGeanna s i (fun x => { x with retries := Nat.min (x.retries + 1) (2 ^ 32 - 1) })) K.fabFlitRetries
    | .eightRetries => setPort s i .training
    | .lane => setPort (replaceRequest (bump s K.fabLaneFailures) 7 1) i .training

/-- NEIGHBOUR_DARK. -/
def effNeighbourDark (s : State) (i : Nat) : State :=
  if portUp (geannaOf s i).state then setPort s i .training else s

/-! ## Job synchronization messages (R292, R296, R297, R301) -/

/-- The lane table that the root sends in the clear of hurdle 0 (R297): the member's lanes for the lap. A
session's committed length is the first position of its block. -/
def takeLanes (s : State) (p : Nat) (l : List JobLane) : State :=
  let s := l.foldl (fun s x =>
    let s := settlePagesOf s p x.session x.p0 (fun _ => true)
    updSess s x.session (fun y => { y with
      part := p, len := x.p0, blockRead := true, block := x.tokens, adapter := x.adapter })) s
  updPart s p (fun y => { y with lanes := l.foldl (fun acc x =>
    kvSet noLane acc x.lane {
      session := x.session, p0 := x.p0, block := x.block
      kind := if x.block = 0 then .idle else if x.prefill then .prefill else .decode }) [] })

/-- What a message does in one partition of its job. -/
def jobMessageIn (s : State) (p member : Nat) (k : JobMsgKind) : State :=
  let pt := partOf s p
  match k with
  | .arrival h replay aborts =>
    if !(jobRoot s p) then s
    else
      let s := aborts.foldl (fun s a => updSess s a.1 (fun x =>
        { x with abortStatus := some (x.abortStatus.getD a.2) })) s
      chooseMark (updPart s p (fun x => { x with
        jobArrived := insertNat (h * 4096 + member) x.jobArrived
        jobReplays := if replay then insertNat h x.jobReplays else x.jobReplays
        remoteLast := x.remoteLast || (decide (h = x.hurdle) && allArrived s p)
        aborts := aborts.foldl (fun acc a => insertNat a.1 acc) x.aborts })) p
  | .clear h repeat_ mark lanes =>
    if jobRoot s p ∨ h ≠ pt.hurdle then s
    else if h = 0 then takeLanes (updPart s p (fun x => { x with jobMark := some mark })) p lanes
    else updPart s p (fun x => { x with jobClear := true, jobRepeat := repeat_ })
  | .verdict replay aborts =>
    if jobRoot s p then s
    else updPart s p (fun x => { x with
      jobClear := true, jobReplay := replay, aborts := aborts.foldl (fun acc i => insertNat i acc) x.aborts })
  | .wave sess =>
    freeSessionPages (updPart s p (fun x => { x with cutSessions := insertNat sess x.cutSessions })) p sess
  | .flip slot set policy lap => jobFlipArrives s p member slot set policy lap
  | .suspend up => holdTimer s p up
  | .foreign => s

/-- JOB_SYNCHRONIZATION_MESSAGE: one of no job here is foreign and is discarded (R293); a mark count that
differs from this module's faults the partition (R301). -/
def effJobMessage (s : State) (job mark member : Nat) (k : JobMsgKind) : State :=
  match partsOfJob s job with
  | [] => bump s K.fabForeignFrames
  | l =>
    if k = .foreign then bump s K.fabForeignFrames
    else l.foldl (fun s p =>
      if mark ≠ odGet s K.meshMarkCount then raiseFault s p 0x0010 ((partOf s p).oy * 24 + (partOf s p).ox)
      else jobMessageIn s p member k) s

/-- ALIGNMENT_MESSAGE: the counter goes to 0 at the next mark (R301). -/
def effAlignment (s : State) (job : Nat) : State :=
  match partsOfJob s job with
  | [] => bump s K.fabForeignFrames
  | _ => { s with plant := { s.plant with alignDue := true } }

/-- FABRIC_WRITE_ARRIVAL (R298, R299): granules land in a channel's landing area; a write beyond it, or to a
channel that is not a fabric channel, is rejected and changes nothing here. One for a partition of no job is foreign
(R293). -/
def effFabricWrite (s : State) (p ch granule : Nat) (data : List Byte) (poisoned : List Nat) : State :=
  let e := channelOf s p ch
  let n := ceilDiv data.length 64
  if jobOf s p = 0 then bump s K.fabForeignFrames
  else if !(partOf s p).runs ∨ fieldLe e 0 1 ≠ 2 ∨ granule + n > fieldLe e 4 4 then s
  else
    let addr := fieldLe e 8 1 * 2 ^ 37 + fieldLe e 9 4 * 65536 + 64 * granule
    let s := ((granList data).zipIdx).foldl (fun s e =>
      writeStackGran s (addr + 64 * e.2) e.1 (poisoned.contains e.2)) s
    bump s (K.statFabricBytesIn p) data.length

/-! ## The commands -/

def atPort (i : Nat) (next : State) : Result := atUnit (decide (i < 28)) "Geanna port" i next
def atLink (l : Nat) (next : State) : Result := atUnit (decide (l < linkCount)) "link" l next

/-- LINK_FAILURE (R287). -/
def execLinkFailure (link : Nat) (lost : List (Nat × Nat × Nat)) (s : State) : Result :=
  atLink link (failLink s link lost)
/-- ROUTER_FAILURE (R288). -/
def execRouterFailure (cluster network : Nat) (lost : List (Nat × Nat × Nat)) (s : State) : Result :=
  atCluster cluster (failRouter s cluster network lost)
/-- TRAINING_COMPLETE (R290). -/
def execTrainingComplete (port lanes nid : Nat) (pos : Nat × Nat × Nat) (delayNs : Nat) (s : State) : Result :=
  atPort port (effTrained s port lanes nid pos delayNs)
/-- TRAINING_ATTEMPT_TIMEOUT (R290). -/
def execTrainingAttemptTimeout (port : Nat) (s : State) : Result :=
  atPort port (if (geannaOf s port).state = .training then failAttempt s port else s)
/-- LANE_FAILURE (R290, R291). -/
def execLaneFailure (port : Nat) (e : LaneEvent) (s : State) : Result := atPort port (effLaneFailure s port e)
/-- NEIGHBOUR_DARK (R290). -/
def execNeighbourDark (port : Nat) (s : State) : Result := atPort port (effNeighbourDark s port)
/-- JOB_SYNCHRONIZATION_MESSAGE (R296). -/
def execJobSynchronizationMessage (jobId mark member : Nat) (k : JobMsgKind) (s : State) : Result :=
  .next (effJobMessage s jobId mark member k)
/-- JOB_FAULT_MESSAGE (R300). -/
def execJobFaultMessage (jobId code : Nat) (s : State) : Result := .next (effJobFault s jobId code)
/-- ALIGNMENT_MESSAGE (R301). -/
def execAlignmentMessage (jobId : Nat) (s : State) : Result := .next (effAlignment s jobId)
/-- FABRIC_WRITE_ARRIVAL (R298). -/
def execFabricWriteArrival (p channel granule : Nat) (data : FabricData) (s : State) : Result :=
  atPart p (effFabricWrite s p channel granule data.bytes data.poisoned)

end Sys2Proof.Machine
end

