-- ==== Sys2Proof/Machine/Mesh.lean ====
section
/-! DEFINITION. The oscillator mesh and the rack reference (R370 to R374), and the counter of its marks (R301,
R373). Mesh states: 0 UNLOCKED, 1 LOCKING, 2 LOCKED_RACK, 3 LOCKED_LOCAL (R378). -/

namespace Sys2Proof.Machine

def meshState (s : State) : Nat := odGet s K.meshMeshState

/-- A mesh event is recorded (R432). -/
def recordMesh (s : State) : State :=
  recordEvent s {
    code := 0x3200, source := .edgeInput
    payload := natLe (meshState s) 1 ++ natLe (odGet s K.meshMarkCount) 8 }

/-! ## Islands and the clocks of the edge PHYs (R370, R374) -/

/-- Free-running oscillators (R374). -/
def islands (s : State) : List Nat :=
  let c := oscConnected s
  (List.range clusterCount).filter (fun x => oscActive s x && !(c.contains x))

/-- The oscillator that clocks an edge PHY: that of its attach cluster, or, where it has dropped out or lies in an
island, the nearest of the same edge with a path to row 0 (R370, R374). -/
def phyClock (s : State) (edge : List Nat) (cl : Nat) : Option Nat :=
  let c := oscConnected s
  (edge.filter c.contains).foldl (fun (best : Option Nat) x => match best with
    | none => some x
    | some y => if hopCount x cl < hopCount y cl then some x else some y) none

/-! ## States of the mesh (R371) -/

/-- LOCKING ends: on the reference where it is present, else on the crystal. -/
def lockMesh (s : State) (us : Nat) : State :=
  if meshState s ≠ 1 then s
  else
    let s := odPut s K.meshLockTime us
    odSet s K.meshMeshState (if odGet s K.meshReferencePresent = 1 then 2 else 3)

/-- The reference is absent: injection moves to the crystal. -/
def loseReference (s : State) : State :=
  let s := odSet s K.meshReferencePresent 0
  let s := { s with plant := { s.plant with slewing := false } }
  if meshState s = 2 then odSet s K.meshMeshState 3 else s

/-- REFERENCE_ABSENT (R372): a disturbance under 50 ns is only counted. -/
def effReferenceAbsent (s : State) : RefEvent → State
  | .glitch => bump s K.meshRefGlitches
  | .offFrequency => loseReference s
  | .chatter => loseReference (markChatter s .rackReference)
  | .noEdge =>
    let s := loseReference s
    if !s.plant.refArmed then s
    else
      let s := { s with plant := { s.plant with refArmed := false } }
      recordMesh (reportInput (odBit (odSet s K.meshRefStuck 1) K.hlthInputStatus 0 true) 0 1)

/-- REFERENCE_RESTORED: present for 100 ms; the latch may count again, and a mesh on the crystal slews. -/
def effReferenceRestored (s : State) : State :=
  if chattering s .rackReference then s
  else
    let s := odSet s K.meshReferencePresent 1
    { s with plant := { s.plant with refArmed := true, slewing := decide (meshState s = 3) } }

/-- SLEW_COMPLETE: the mark counter takes the reference's count. -/
def effSlewComplete (s : State) (mark : Nat) : State :=
  if !s.plant.slewing ∨ meshState s ≠ 3 then s
  else
    odSet (odSet { s with plant := { s.plant with slewing := false } } K.meshMeshState 2) K.meshMarkCount (mark % 2 ^ 48)

/-- OSCILLATOR_UNLOCK. -/
def effOscillatorUnlock (s : State) (cl : Nat) : State :=
  if (meshState s = 2 ∨ meshState s = 3) ∧ (oscConnected s).contains cl then
    recordMesh (odSet { s with plant := { s.plant with slewing := false } } K.meshMeshState 1)
  else s

/-! ## Marks (R301, R373) -/

/-- RACK_MARK: the counter advances, or goes to 0 after an alignment message; a root that starts a job sends its
alignment message now. -/
def effRackMark (s : State) : State :=
  if meshState s ≠ 2 then s
  else
    let n := if s.plant.alignDue then 0 else (odGet s K.meshMarkCount + 1) % 2 ^ 48
    let jobs := s.plant.alignSend
    let s := odSet s K.meshMarkCount n
    let s := { s with plant := { s.plant with alignDue := decide (jobs ≠ []), alignSend := [] } }
    jobs.foldl (fun s j => emit s (.jobAlign j)) s

/-- MARKER: one at the expected count confirms it; three in a row at one other count move the counter to the
markers, the third being a mark of its own. -/
def effMarker (s : State) (offset : Nat) : State :=
  let q := s.plant
  if meshState s ≠ 2 then s
  else if offset % 1024 = 0 then { s with plant := { q with markerRun := 0 } }
  else
    let run := if q.markerRun ≠ 0 ∧ q.markerAt = offset % 1024 then q.markerRun + 1 else 1
    if run < 3 then
      { s with plant := { q with markerAt := offset % 1024, markerRun := run, markersIgnored := q.markersIgnored + 1 } }
    else
      let s := { s with plant := { q with markerRun := 0, markersIgnored := q.markersIgnored + 1 } }
      let s := odSet s K.meshMarkCount ((odGet s K.meshMarkCount + 1) % 2 ^ 48)
      recordMesh (bump s K.meshMarkSlips)

/-! ## The commands -/

/-- LOCK_TIMEOUT (R371): recorded, and tried again. -/
def execLockTimeout (s : State) : Result := .next (if meshState s = 1 then recordMesh s else s)
/-- REFERENCE_ABSENT (R372). -/
def execReferenceAbsent (e : RefEvent) (s : State) : Result := .next (effReferenceAbsent s e)
/-- REFERENCE_RESTORED (R371). -/
def execReferenceRestored (s : State) : Result := .next (effReferenceRestored s)
/-- SLEW_COMPLETE (R371). -/
def execSlewComplete (mark : Nat) (s : State) : Result := .next (effSlewComplete s mark)
/-- OSCILLATOR_UNLOCK (R371). -/
def execOscillatorUnlock (cluster : Nat) (s : State) : Result := atCluster cluster (effOscillatorUnlock s cluster)
/-- RACK_MARK (R301). -/
def execRackMark (s : State) : Result := .next (effRackMark s)
/-- MARKER (R373). -/
def execMarker (offset : Nat) (s : State) : Result := .next (effMarker s offset)

end Sys2Proof.Machine
end

