-- ==== Sys2Proof/Machine/LapEvents.lean ====
section
/-! DEFINITION. The commands of laps, arrays, rings, sessions, weight sets and partition faults: one meaning each
over the effects of the files before. After an event that may let a sequencer go on, the cores go on. -/

namespace Sys2Proof.Machine

/-! ## Laps -/

/-- HURDLE_CLEAR (R30, R32, R38). -/
def execHurdleClear (p : Nat) (t : ClearTimes) (s : State) : Result :=
  atPart p (noteArrivals s (effHurdleClear s p t) p)

/-- HURDLE_TIMEOUT (R34). -/
def execHurdleTimeout (p : Nat) (s : State) : Result := atPart p (effHurdleTimeout s p)

/-- A baton, and what the drain of a pair waits for (R40, R326). -/
def passBaton (s : State) (p : Nat) (t : BatonTimes) : State :=
  beginTransition (noteArrivals s (drainLap (effBaton s p t.lapNs) p) p)

/-- BATON (R38 order 9, R40, R42). -/
def execBaton (p : Nat) (t : BatonTimes) (s : State) : Result := atPart p (passBaton s p t)

/-- TOKEN_RECORD_RELEASE (R38 order 10, R247, R258). -/
def execTokenRecordRelease (session intervalNs replays cadence : Nat) (s : State) : Result :=
  atSess session (drainOn (effRelease s session intervalNs replays cadence))

/-- COMPLETION_POST (R244, R245, R246). -/
def execCompletionPost (ring : Nat) (s : State) : Result := atRing ring (effPost s ring)

/-- SAMPLING (R264 to R267). -/
def execSampling (session : Nat) (samples : List SampleIn) (drafts : List Nat) (parity : Bool) (s : State) : Result :=
  atSess session (effSampling s session samples drafts parity)

/-! ## Draining (R105) -/

/-- LATE_WRITE: the target stays powered and its request is withdrawn; the error is counted and recorded to
the partitions that issued the pending writes. DESIGN CHOICE (log entry 173): the record of a block's or a
partition's drain has no one bank and no one command; its bank field is 0xFFFF, and its index the issuing core's
command position. The switch-offs for heat and supply ask again every 50 us (R339,
R364), so their requests stay; a partition's unload is asked again by its own wipe. -/
def effLateWrite (s : State) (target : DrainTarget) : State :=
  match target with
  | .bank a bank =>
    let ci := coreIndex a
    if (bankOf (coreOf s ci) bank).power ≠ .pendingOff ∨ bankIncoming s ci bank = 0 then s
    else
      let s := updCore s ci (fun c => { c with banks := kvSet {} c.banks bank { bankOf c bank with power := .on } })
      lateWrite s (issuersTo s true (fun a => a / 2 ^ 16 == ci * 32 + bank)) bank
  | .block b =>
    if (blkOf s b).drain = none ∨ blockIncoming s b = 0 then s
    else
      let s := updBlk s b (fun x => { x with drain := if x.drain = some .idle then none else x.drain })
      lateWrite s (issuersTo s false (fun a => a / 2 ^ 37 == b) ++
        issuersTo s true (fun a => (blockClusters b).contains (a / 2 ^ 25))) 0xFFFF
  | .partition p =>
    let pt := partOf s p
    if !(wipeDue s p) ∨ partIncoming s p = 0 then s
    else lateWrite s (issuersTo s true (fun a => pt.holds (a / 2 ^ 25)) ++
      issuersTo s false (fun a => pt.blocks.contains (a / 2 ^ 37))) 0xFFFF

/-- Does the drain's target exist? -/
def targetExists (s : State) : DrainTarget → Bool
  | .bank a bank => coreExists s a && decide (bank < 32)
  | .block b => decide (b < 144)
  | .partition p => decide (p < 48)

/-- The number of a drain's target: its core, block or partition. -/
def targetNumber : DrainTarget → Nat
  | .bank a _ => coreIndex a
  | .block b => b
  | .partition p => p

/-- LATE_WRITE: the drain has waited `us` since its request, of which 50 are its bound (R105). -/
def execLateWrite (target : DrainTarget) (us : Nat) (s : State) : Result :=
  atUnit (targetExists s target) "drain" (targetNumber target) (if us < 50 then s else effLateWrite s target)

/-! ## Arrays (R128 to R134) -/

/-- The chain's number of a core is one of its table. -/
def chainKnown (s : State) (ci ch : Nat) : Bool := decide (ch < (chainsOf s ci).length)

/-- A window of monitor_window outputs of one chain has ended: its counts restart (R131). -/
def windowEnd (s : State) (ci ch : Nat) : State :=
  if (chainOf s (ci * 8 + ch)).seen < odGet s K.arrMonitorWindow then s
  else updChain s (ci * 8 + ch) (fun c => { c with outside := 0, seen := 0 })

/-- RANGE_MONITOR_WINDOW_END (R131). -/
def execRangeMonitorWindowEnd (at_ : CoreRef) (chain : Nat) (s : State) : Result :=
  if chain < 8 then atCore s at_ (windowEnd s (coreIndex at_) chain) else .fault (.noSuchUnit "chain" chain)

/-- One converter's window of 4,096 conversions has ended: its full-scale count restarts (R131). -/
def scaleWindowEnd (s : State) (a col : Nat) : State :=
  if (arrOf s a).converted < scaleWindow then s
  else updArr s a (fun x => { x with fullScale := kvSet 0 x.fullScale col 0 })

/-- FULL_SCALE_WINDOW_END (R131). -/
def execFullScaleWindowEnd (at_ : CoreRef) (array column : Nat) (s : State) : Result :=
  if array < 32 ∧ column < 512 then atCore s at_ (scaleWindowEnd s (coreIndex at_ * 32 + array) column)
  else .fault (.noSuchUnit "array" array)

/-- CAL_INTERVAL_EXPIRY (R128). -/
def execCalIntervalExpiry (at_ : CoreRef) (chain : Nat) (s : State) : Result :=
  if chain < 8 then atCore s at_ (queueCalibration s (coreIndex at_) chain) else .fault (.noSuchUnit "chain" chain)

/-- CALIBRATION_COMPLETE (R129, R130). -/
def execCalibrationComplete (at_ : CoreRef) (chain : Nat) (trims : List (List Nat)) (failed : List (Nat × Nat)) (s : State) :
    Result :=
  if chain < 8 then atCore s at_ (calibrationDone s (coreIndex at_) chain trims failed)
  else .fault (.noSuchUnit "chain" chain)

/-- REWRITE_COMPLETE (R133). -/
def execRewriteComplete (at_ : CoreRef) (chain : Nat) (mismatch : List (Nat × Nat × Nat)) (s : State) : Result :=
  if chain < 8 then atCore s at_ (rewriteDone s (coreIndex at_) chain mismatch) else .fault (.noSuchUnit "chain" chain)

/-! ## Rings (R238 to R245) -/

/-- A ring number as the doorbells and contexts of a function name it. -/
def execRingContextWrite (fn offset : Nat) (bytes : List Byte) (s : State) : Result :=
  atFn fn (effContextWrite s fn offset bytes)

/-- RING_ENABLE (R238, R459). -/
def execRingEnable (fn : Nat) (kind : RingKind) (ring : Nat) (s : State) : Result := atFn fn (effRingEnable s fn kind ring)

/-- RING_DISABLE (R239, R459). -/
def execRingDisable (fn : Nat) (kind : RingKind) (ring : Nat) (s : State) : Result := atFn fn (effRingDisable s fn kind ring)

/-- SUBMISSION_DOORBELL (R239, R457). -/
def execSubmissionDoorbell (fn ring : Nat) (d : Doorbell) (s : State) : Result := atFn fn (effSubDoorbell s fn ring d)

/-- COMPLETION_DOORBELL (R239, R241, R457). -/
def execCompletionDoorbell (fn ring : Nat) (d : Doorbell) (s : State) : Result := atFn fn (effCompDoorbell s fn ring d)

/-- TOKEN_RING_DOORBELL (R241, R457). -/
def execTokenRingDoorbell (fn session : Nat) (d : Doorbell) (s : State) : Result := atFn fn (effTokenDoorbell s fn session d)

/-- BITMAP_DOORBELL (R266, R457). -/
def execBitmapDoorbell (fn session : Nat) (d : Doorbell) (s : State) : Result := atFn fn (effBitmapDoorbell s fn session d)

/-- SUBMISSION_ENTRY_FETCH (R240). -/
def execSubmissionEntryFetch (ring : Nat) (entry : Option (List Byte)) (s : State) : Result :=
  atRing ring (effFetch s ring entry)

/-- COALESCE_TIMEOUT (R238). -/
def execCoalesceTimeout (ring : Nat) (s : State) : Result := atRing ring (effCoalesce s ring)

/-! ## Commands of sessions (R249 to R269) -/

/-- SESSION_OPEN (R252). -/
def execSessionOpen (ring : Nat) (s : State) : Result := atRing ring (effOpen s ring)
/-- PROMPT_APPEND (R253). -/
def execPromptAppend (ring : Nat) (s : State) : Result := atRing ring (effPrompt s ring)
/-- GENERATE (R254). -/
def execGenerate (ring : Nat) (random : W64) (s : State) : Result := atRing ring (effGenerate s ring random)
/-- FORK (R255). -/
def execFork (ring : Nat) (s : State) : Result := atRing ring (effFork s ring)
/-- CANCEL (R268). -/
def execCancel (ring : Nat) (s : State) : Result := atRing ring (effCancel s ring)
/-- CLOSE (R251). -/
def execClose (ring : Nat) (s : State) : Result := atRing ring (effClose s ring)
/-- KV_EVICT (R203). -/
def execKvEvict (ring : Nat) (s : State) : Result := atRing ring (effKvEvict s ring)
/-- KV_RESTORE (R204). -/
def execKvRestore (ring : Nat) (s : State) : Result := atRing ring (effKvRestore s ring)
/-- WEIGHT_STAGE (R219). -/
def execWeightStage (ring : Nat) (s : State) : Result := atRing ring (effWeightStage s ring)
/-- WEIGHT_FLIP (R226). -/
def execWeightFlip (ring : Nat) (s : State) : Result := atRing ring (effWeightFlip s ring)
/-- BARRIER (R256). -/
def execBarrier (ring : Nat) (s : State) : Result := atRing ring (effBarrier s ring)
/-- ABORT_WAVE (R269). -/
def execAbortWave (session : Nat) (s : State) : Result := atSess session (effAbortWave s session)
/-- ABORT_WAVE_ACKNOWLEDGED (R269). -/
def execAbortWaveAcknowledged (session : Nat) (s : State) : Result := atSess session (effAbortAcked s session)
/-- BITMAP_SLOT_READ (R266). -/
def execBitmapSlotRead (session slot : Nat) (data : Option (List Byte)) (s : State) : Result :=
  atSess session (effSlotRead s session slot data)
/-- KV_EVICT_TRANSFER_COMPLETE (R203). -/
def execKvEvictTransferComplete (session : Nat) (ok : Bool) (s : State) : Result :=
  atSess session (effEvictDone s session ok)
/-- KV_RESTORE_TRANSFER_COMPLETE (R203, R204). -/
def execKvRestoreTransferComplete (session : Nat) (fin : RestoreEnd) (s : State) : Result :=
  atSess session (effRestoreDone s session fin)
/-- HOST_READ_COMPLETE (R253). -/
def execHostReadComplete (session : Nat) (r : HostRead) (s : State) : Result := atSess session (effHostRead s session r)

/-! ## Weight sets (R209 to R235) -/

/-- STAGE_HEADER_READ (R220). -/
def execStageHeaderRead (set : Nat) (head : Option BundleHead) (s : State) : Result := atSet set (effStageHeader s set head)
/-- SIGNATURE_VERIFIED (R220, R222). -/
def execSignatureVerified (set : Nat) (ok : Bool) (s : State) : Result := atSet set (effSignature s set ok)
/-- WEIGHT_CHUNK_READ (R221). -/
def execWeightChunkRead (set chunk : Nat) (data : ChunkIn) (s : State) : Result :=
  atSet set (goOnAll s (effChunk s set chunk data))
/-- RELAY_HEADER (R223). -/
def execRelayHeader (set dir : Nat) (body : BundleBody) (signature : List Byte) (s : State) : Result :=
  if dir < 7 then atSet set (effRelayHeader s set dir { toBundleBody := body, signature := signature }) else .fault (.noSuchUnit "direction" dir)
/-- RELAY_CHUNK (R224). -/
def execRelayChunk (set dir chunk : Nat) (data : List Byte) (s : State) : Result :=
  if dir < 7 then atSet set (effRelayChunk s set dir chunk data) else .fault (.noSuchUnit "direction" dir)
/-- RELAY_TIMEOUT (R225). -/
def execRelayTimeout (set : Nat) (s : State) : Result := atSet set (effRelayTimeout s set)
/-- SET_WIPE_COMPLETE (R231). -/
def execSetWipeComplete (set : Nat) (s : State) : Result := atSet set (goOnAll s (effSetWipe s set))
/-- PIECE_REFETCH_COMPLETE (R232, R233). -/
def execPieceRefetchComplete (set piece : Nat) (fin : RefetchEnd) (s : State) : Result :=
  atSet set (goOnAll s (effRefetch s set piece fin))
/-- FLIP_PREPARE_COMPLETE (R227). -/
def execFlipPrepareComplete (p : Nat) (s : State) : Result := atPart p (effFlipPrepared s p)
/-- FLIP_GAP_COMPLETE (R227, R229). -/
def execFlipGapComplete (p : Nat) (gap : FlipGap) (s : State) : Result :=
  atPart p (goOnAll s (effFlipGap s p gap.ns gap.cells))

/-! ## Partition faults (R400 to R402) -/

/-- PARTITION_FAULT (R402). -/
def execPartitionFault (p : Nat) (failed : Option CoreRef) (s : State) : Result :=
  atPart p (beginTransition (drainOn (effPartitionFault s p failed)))

/-- While a partition is EMPTY its objects keep the values its last run left (R491). -/
def keepLast (s : State) (p : Nat) : State :=
  let free := (partOf s p).blocks.flatMap (fun b => natLe (freeFrames s b) 4)
  let shares := (partOf s p).shares.flatMap (fun v => natLe v 1)
  domSet (domSet (odSet s (K.partLapNumber p) (partOf s p).lap) (K.strLastShare p) shares) (K.partFreeFrames p) free

/-- PARTITION_WIPE_COMPLETE (R391, R402 order 6, R492). -/
def execPartitionWipeComplete (p : Nat) (s : State) : Result :=
  atPart p (beginTransition (effWipe (if wipeDue s p ∧ partIncoming s p = 0 then keepLast s p else s) p))

end Sys2Proof.Machine
end

