-- ==== Sys2Proof/Machine/Program.lean ====
section
/-! DEFINITION. What a load writes (R492): the stack image (R194), the cores' bank modes and random generators
(R88, R151), the arrays' contents and their bindings (R134 to R136), and the blocks it wakes (R348, R395). -/

namespace Sys2Proof.Machine

/-! ## The stack image (R194) -/

/-- A block of a shape placed at (ox, oy), counted from its origin along x first. -/
def shapeBlockAt (ox oy width i : Nat) : Nat :=
  let per := width / 3
  blockOf ((oy + 2 * (i / per)) * 24 + ox + 3 * (i % per))

/-- Frames that the image claims leave the free list; those of a weight region and withdrawn ones stay as they
are. -/
def claimFrames (s : State) (b first n : Nat) : State :=
  (List.range n).foldl (fun s i =>
    let f := first + i
    if regionOf s b ≤ f ∧ f < framesPerStack ∧ (frameOf s (frameKey b f)).use = .free then
      updFrame s (frameKey b f) (fun x => { x with use := .image })
    else s) s

/-- Bytes of the image, but for those that would fall in the weight region. -/
def writeImageBytes (s : State) (b off : Nat) (data : List Byte) : State :=
  let lo := regionOf s b * 65536
  { s with stack := memWriteN s.stack (b * 2 ^ 37 + Nat.max off lo) (data.drop (lo - off)) }

/-- The content of the image, at the same place of the placed rectangle. -/
def writeImage (s : State) (pt : Part) (g : LapProgram) : State :=
  let at_ (i : Nat) := shapeBlockAt pt.ox pt.oy pt.width i
  let s := g.claims.foldl (fun s c => claimFrames s (at_ c.1) c.2.1 c.2.2) s
  g.stackImage.foldl (fun s x => writeImageBytes s (at_ x.1) x.2.1 x.2.2) s

/-! ## Cores (R88, R151) -/

/-- The banks of a core in their modes. -/
def loadedBanks (c : CoreProgram) : KV Bank :=
  (List.range 32).foldl (fun m b =>
    kvSet {} m b (if 32 ≤ b + c.cacheBanks then { mode := .cache }
      else if c.offBanks.contains b then { power := .off } else {})) []

/-- A core as its load leaves it, with a seed from the module's random source. -/
def setupCore (s : State) (ci : Nat) : State :=
  match programOf s ci with
  | none => s
  | some c =>
    let d := drawFree s
    let seed := (Config.randomWord d.1).setWidth 32
    setCore d.2 ci { banks := loadedBanks c, cacheBanks := c.cacheBanks, rng := seed, rngSaved := seed }

/-! ## Arrays (R134, R136) -/

/-- Physical arrays of a core that have been retired since module reset: those behind a RETIRED index, and
those that another array has replaced. -/
def badArrays (s : State) (ci : Nat) : List Nat :=
  (List.range 32).filter (fun i => decide ((arrOf s (ci * 32 + i)).state = .retired) || (arrOf s (ci * 32 + i)).phys.isSome)

def inChain (chains : List Chain) (i : Nat) : Bool := chains.any (fun c => decide (c.first ≤ i ∧ i < c.first + c.count))

/-- Free arrays in place of the retired ones of a program's chains, as (index, array). -/
def bindFree (chains : List Chain) (bad : List Nat) : List (Nat × Nat) :=
  (((List.range 32).filter (fun i => inChain chains i && bad.contains i)).zip
    ((List.range 32).filter (fun k => !(inChain chains k) && !(bad.contains k))))

/-- One array before its contents are written: free arrays stand in for retired ones where there are any, with their
own spares and trims, and the arrays of chains are calibrated. -/
def prepareArray (chains : List Chain) (bad : List Nat) (bound : List (Nat × Nat)) (free : Nat → Arr) (i : Nat)
    (x : Arr) : Arr :=
  if bad.contains i then
    match bound.find? (fun b => b.1 == i) with
    | some b => { (if x.phys = some b.2 then x else x.behind (free b.2) b.2) with state := .calibrating, masked := false }
    | none => { x with state := .retired, masked := false, phys := none }
  else if inChain chains i then { x with state := .calibrating, masked := false }
  else x

/-- The arrays of a core are bound. -/
def prepareArrays (s : State) (ci : Nat) : State :=
  match programOf s ci with
  | none => s
  | some c =>
    let bad := badArrays s ci
    let bound := bindFree c.chains bad
    let fresh := (bound.filter (fun b => (arrOf s (ci * 32 + b.1)).phys != some b.2)).length
    bump ((List.range 32).foldl (fun s i => updArr s (ci * 32 + i) (prepareArray c.chains bad bound (fun k => arrOf s (ci * 32 + k)) i)) s)
      K.arrFreeArraysBound fresh

/-- The contents of one array of the image; a RETIRED one takes none. -/
def writeArrayImage (s : State) (pt : Part) (x : ArrayImage) : State :=
  let a := imageArray pt x
  if (arrOf s a).state = .retired then s
  else updArr s a (fun y =>
    let y := { y with wfmt := x.wfmt, persist := x.persist, repair := if x.persist then some x.repair else none }
    let y := x.rows.zipIdx.foldl (fun (y : Arr) e => setArrRow y e.2 (storedRow x.wfmt (padTo 64 e.1))) y
    x.scales.zipIdx.foldl (fun (y : Arr) e => { y with scales := kvSet 0 y.scales e.2 e.1 }) y)

/-! ## The whole program -/

/-- Everything that a load writes once its blocks are up. -/
def writeProgram (s : State) (p : Nat) : State :=
  let pt := partOf s p
  match pt.program with
  | none => s
  | some g =>
    let s := updPart s p (fun x => { x with written := true })
    let s := writeImage s pt g
    let cs := partCores s p
    let s := cs.foldl setupCore s
    let s := cs.foldl prepareArrays s
    g.arrays.foldl (fun s x => writeArrayImage s pt x) s

/-- A stack that a load can use: trained, or still in use while a trigger waits for class-0 lanes to go (R392). -/
def stackUsable (s : State) (b : Nat) : Bool :=
  decide ((blkOf s b).stack = .trained) ||
    (decide ((blkOf s b).stack = .held) && (stackUsers s b).any (hasClass0 s))

def blocksUp (s : State) (p : Nat) : Bool :=
  (partOf s p).blocks.all (fun b => coreOn (blkOf s b) && stackUsable s b)

/-- A load that waited for its blocks goes on when they are up (R348, R395). -/
def proceedLoad (s : State) (p : Nat) : State :=
  let pt := partOf s p
  if pt.state = .loading ∧ !pt.wiping ∧ !pt.written ∧ blocksUp s p then writeProgram s p else s

def proceedLoads (s : State) : State := s.parts.foldl (fun s e => proceedLoad s e.1) s

/-- A load names a block: it wakes, and an idle switch-off under way is withdrawn (R348, R419). -/
def wakeForLoad (s : State) (b : Nat) : State :=
  let s := updBlk s b (fun x => { x with stopOff := false, drain := if x.drain = some .idle then none else x.drain })
  stackOn (requestWake s b) b

end Sys2Proof.Machine
end

