-- ==== Sys2Proof/Machine/Power.lean ====
section
/-! DEFINITION. Power delivery and the pacer (R331 to R352): converters, regulator phases and set-points, shorts
and isolation, switch-off for supply, connectors, current reports, token credits, the governor, and switching
blocks on and off. -/

namespace Sys2Proof.Machine

/-! ## Domains (R333, R341) -/

def domainCode : Domain → Nat
  | .core => 0 | .array => 1 | .sram => 2 | .transit => 3 | .stackQ => 4 | .stackP => 5

/-- Phases of a domain; phase 2 of TRANSIT stands for its backfeed path (R333, R337). -/
def domainPhases : Domain → Nat
  | .core => 8
  | .transit => 3
  | _ => 2

/-- Failed phases of a domain of a block. -/
def failedPhases (x : Block) (d : Domain) : List Nat := kvGet [] x.phases (domainCode d)

/-- A power event is recorded: domain, phase or group, and a value in mV or W (R432). -/
def recordPower (s : State) (b d ph v : Nat) : State :=
  recordEvent s {
    code := 0x2100, source := .regulator, location := b
    payload := natLe d 1 ++ natLe ph 1 ++ natLe v 2 }

/-! ## Targets (R335, R337, R346, R352, R361) -/

/-- A class-0 block is a block of a partition whose class0_lanes is nonzero (R361). -/
def class0Block (s : State) (b : Nat) : Bool :=
  match partOfBlock s b with
  | some p => hasClass0 s p
  | none => false

/-- mV that a throttle level takes off the target of a class-0 block. -/
def levelDrop (s : State) (b : Nat) : Nat :=
  let l := (blkOf s b).level
  if class0Block s b ∧ (l = 1 ∨ l = 2) then l * odGet s K.heatClass0TargetStep else 0

/-- Lowest target, mV. -/
def targetFloor : Nat := 550

/-- The target in force: the lowest of what the cap, the governor and the level leave of the committed one. -/
def targetMv (s : State) (b : Nat) : Nat :=
  let c := domField s K.pwrCoreTarget (2 * b) 2
  Nat.max targetFloor (c - Nat.max (odGet s K.pwrGovernorDerate) (Nat.max (blkOf s b).capDrop (levelDrop s b)))

/-- SET_POINT_STEP: one step of 2.5 mV; a request above the grade's ceiling is clamped and counted (R335). -/
def effSetPoint (s : State) (b droopMv : Nat) : State :=
  let x := blkOf s b
  if !(coreOn x) then s
  else
    let t := 10 * targetMv s b
    if 10 * droopMv < t then
      let top := 10 * odGet s K.gradeCoreRailCeiling
      if top < x.setPoint + 25 then bump (setBlk s b { x with setPoint := top }) K.gradeCeilingClamps
      else setBlk s b { x with setPoint := x.setPoint + 25 }
    else if t + 25 ≤ 10 * droopMv then
      setBlk s b { x with setPoint := Nat.max (10 * targetFloor) (x.setPoint - 25) }
    else s

/-- The 75 % cap, W. -/
def capW (s : State) : Nat := odGet s K.pwrBlockPowerCap * 3 / 4

/-- TARGET_STEP: a capped block's target falls by 10 mV while its 1 ms draw is above the cap (R337). -/
def effTargetStep (s : State) (b drawW : Nat) : State :=
  let x := blkOf s b
  if !x.capped ∨ drawW ≤ capW s ∨ targetMv s b ≤ targetFloor then s
  else setBlk s b { x with capDrop := x.capDrop + 10 }

/-! ## Converters (R332) -/

def workingConverters (s : State) : Nat :=
  ((List.range 16).filter (fun i => !((odGet s K.pwrConvertersFailed).testBit i))).length

/-- What the converters can carry: 2.0 kW each, divided by 1.1. -/
def converterLimit (n : Nat) : Nat := n * 2000 * 10 / 11

/-- The limit the governor works to. -/
def governorLimit (s : State) : Nat :=
  let w := workingConverters s
  let grade := odGet s K.gradeModulePowerLimit
  if w < odGet s K.gradeConvertersRequired then Nat.min grade (converterLimit w) else grade

/-- The replace request for converters, prompt below the number required (R422). -/
def requestConverters (s : State) : State :=
  replaceRequest s 3 (if workingConverters s < odGet s K.gradeConvertersRequired then 2 else 1)

/-- CONVERTER_FAILURE. -/
def effConverter (s : State) (i : Nat) : State :=
  if (odGet s K.pwrConvertersFailed).testBit i then s
  else
    let s := odBit s K.pwrConvertersFailed i true
    let s := addYield s 0x0E 0xFFFF i 0 0 0
    requestConverters (recordPower s 0xFFFF 0xFF i (governorLimit s))

/-! ## Blocks that lose their power (R338 to R340, R364) -/

/-- The pacer sets every token vector of a block's clusters to zero. -/
def zeroVectors (s : State) (b : Nat) : State :=
  (blockClusters b).foldl (fun s cl => updCluster s cl (fun c => { c with tokens := [0, 0, 0, 0], credit := [0, 0, 0, 0] })) s

/-- The stack domains go off, and what the stack held with them. -/
def stackGoesOff (s : State) (b : Nat) : State :=
  let lo := b * 2 ^ 37
  let s := { s with
    stack := memZero s.stack lo (2 ^ 37)
    stackPoison := s.stackPoison.filter (fun a => decide (a < lo ∨ lo + 2 ^ 37 ≤ a)) }
  updBlk s b (fun x => if x.stack = .lost then x else { x with stack := .off, retrainDue := false })

/-- A write on its way to a block: to its stack, or to a bank of its clusters. -/
def writesTo (b : Nat) (t : Transfer) : Bool :=
  if t.kind.toScratch then t.dst.any (fun g => (blockClusters b).contains (g.addr / 2 ^ 25))
  else decide (t.kind = .stackWrite) && t.dst.any (fun g => g.addr / 2 ^ 37 == b)

/-- Writes in flight to an isolated block are lost (R339). -/
def dropWrites (s : State) (b : Nat) : State :=
  s.cores.foldl (fun s e =>
    ((coreOf s e.1).transfers.filter (writesTo b)).foldl (fun s t => endTransfer s e.1 t) s) s

/-- The main switch opens: the block is isolated; its transit rail stays up (R338). -/
def isolateBlock (s : State) (b cause code : Nat) (payload : List Byte) : State :=
  let die := dieOfBlock b
  let s := dropWrites (zeroVectors s b) b
  let s := updBlk s b (fun x => { x with mainOpen := true, run := .isolated, drain := none, wakeDue := false })
  let s := if cause = 0 then s else addYield s 9 b cause 0 0 0
  let s := if dieWaking s b then s else nextWake s die
  stackGoesOff (loseBlock s b code payload) b

/-- A block's six routers lose their power (R287, R288). -/
def transitDown (s : State) (b : Nat) (lost : List (Nat × Nat × Nat)) : State :=
  (blockClusters b).foldl (fun s cl => failRouter s cl 0 lost) (updBlk s b (fun x => { x with transitOpen := true }))

/-- The block of the same die that feeds a block's routers by its backfeed path, and is fed by it (R333). -/
def backfeed (b : Nat) : Nat := if b % 2 = 0 then b + 1 else b - 1

/-- Transit power of a block is lost: so is the backfeed of the block beside it, and where that has no phase left its
routers go as well (R337). -/
def loseTransit (s : State) (b : Nat) (lost : List (Nat × Nat × Nat)) : State :=
  if (blkOf s b).transitOpen then s
  else
    let q := backfeed b
    let s := transitDown s b lost
    let l := insertNat 2 (failedPhases (blkOf s q) .transit)
    let s := updBlk s q (fun x => { x with phases := kvSet [] x.phases (domainCode .transit) l })
    if l.length = 3 ∧ !(blkOf s q).transitOpen then transitDown s q lost else s

/-- SHORT_DECLARED (R338). A transit short takes down the block's six routers (R287, R288). -/
def effShort (s : State) (b : Nat) (sw : Switch) (d : Domain) (lost : List (Nat × Nat × Nat)) : State :=
  let x := blkOf s b
  let payload := natLe (domainCode d) 1 ++ [0, 0, 0]
  match sw with
  | .main =>
    if x.mainOpen then s else isolateBlock (bump s K.pwrEfuseTrips) b 1 0x2100 payload
  | .transit =>
    if x.transitOpen then s
    else
      let s := addYield (bump s K.pwrEfuseTrips) 9 b 1 0 0 0
      loseTransit (recordPower s b (domainCode d) 0 0) b lost

/-- Switch-off for supply: the drain begins, and the block is lost to its partition (R339, R340). -/
def supplyOff (s : State) (b : Nat) (d : Domain) : State :=
  let x := blkOf s b
  if x.mainOpen ∨ x.run = .supplyOff ∨ x.drain = some .supply then s
  else
    let s := zeroVectors s b
    let s := setBlk s b { x with drain := some .supply, drainStack := true, wakeDue := false }
    loseBlock s b 0x2100 (natLe (domainCode d) 1 ++ [0, 0, 0])

/-- Does a stack hold a piece of a set, or is a stage writing to it (R348)? -/
def stackNeeded (s : State) (b : Nat) : Bool := s.sets.any (fun e => (placedPieces e.2).any (fun x => pBlock x.2 == b))

/-- The domains of a drained block go off. -/
def finishDrain (s : State) (b : Nat) : State :=
  let x := blkOf s b
  match x.drain with
  | none => s
  | some .supply => stackGoesOff (setBlk s b { x with drain := none, run := .supplyOff }) b
  | some .idle =>
    let s := setBlk s b { x with drain := none, run := .idleOff }
    if stackNeeded s b then s else stackGoesOff s b
  | some .heat =>
    let s := setBlk s b { x with drain := none, run := .heatOff }
    let s := recordEvent (bump s K.heatHeatOffs) {
      code := 0x3000, source := .regulator, location := b, payload := natLe x.level 1 ++ natLe x.level 1 ++ [0, 0] }
    if x.drainStack then blockPiecesLost (stackGoesOff s b) b else s

/-- BLOCK_DRAIN_COMPLETE: the incoming write counts have reached zero (R339, R105). -/
def effDrained (s : State) (b : Nat) : State := if blockIncoming s b ≠ 0 then s else finishDrain s b

/-! ## Phases (R337) -/

/-- A regulator phase fails and switches out. -/
def failPhase (s : State) (b : Nat) (d : Domain) (ph : Nat) : State :=
  let x := blkOf s b
  if (failedPhases x d).contains ph ∨ (x.mainOpen ∧ d ≠ .transit) ∨ (x.transitOpen ∧ d = .transit) then s
  else
    let l := insertNat ph (failedPhases x d)
    let n := l.length
    let s := setBlk (bump s K.pwrPhaseFailures) b { x with phases := kvSet [] x.phases (domainCode d) l }
    let s := recordPower s b (domainCode d) ph 0
    let s := replaceRequest s 4 (if d = .core ∧ 2 ≤ n then 2 else 1)
    match d with
    | .core => if n = 2 then updBlk s b (fun x => { x with capped := true }) else if 3 ≤ n then supplyOff s b d else s
    | .transit => if n = 3 then loseTransit s b [] else s
    | _ => if n = 2 then supplyOff s b d else s

/-! ## Connectors (R341) -/

/-- The domain and phase of a connector group. -/
def groupDomain (g : Nat) : Nat := if g < 8 then 0 else if g = 8 then 1 else if g = 9 then 2 else if g = 10 then 3 else 4

/-- One group's 1 s average. -/
def effConnector (s : State) (r : ConnReading) : State :=
  let x := blkOf s r.block
  let st := kvGet 0 x.connState r.group
  if !r.judged ∨ 144 ≤ r.block ∨ 12 ≤ r.group ∨ st = 2 then s
  else if 2000 < r.permille then
    let s := setBlk s r.block { x with connState := kvSet 0 x.connState r.group 2 }
    let s := replaceRequest (recordPower s r.block (groupDomain r.group) r.group 0) 5 2
    if r.group < 8 then failPhase s r.block .core r.group
    else updBlk s r.block (fun x => { x with capped := true })
  else if r.permille ≤ 1300 then setBlk s r.block { x with connRun := kvSet 0 x.connRun r.group 0 }
  else
    let n := kvGet 0 x.connRun r.group + 1
    let s := setBlk s r.block { x with connRun := kvSet 0 x.connRun r.group n }
    if n < 10 ∨ st ≠ 0 then s
    else
      let s := updBlk s r.block (fun x => { x with connState := kvSet 0 x.connState r.group 1 })
      replaceRequest (recordPower s r.block (groupDomain r.group) r.group 0) 5 1

/-! ## Current reports (R342) -/

/-- The networks' figures of the millisecond: link loads replace the last ones, and the counters grow (R305,
R306, R314). -/
def takeNetSample (s : State) (x : NetSample) : State :=
  let s := { s with fabric := { s.fabric with
    links := (x.loads.filter (fun e => decide (e.1 < linkCount))).foldl (fun m e =>
      kvSet {} m e.1 { kvGet {} m e.1 with load := e.2 })
      (s.fabric.links.foldl (fun m e => kvSet {} m e.1 { e.2 with load := [] }) []) } }
  let s := if x.vc1WaitNs = 0 then s else bump s K.netVc1WaitTime x.vc1WaitNs
  let s := if x.hpWaits = 0 then s else bump s K.netHpOverflow x.hpWaits
  let s := if x.busRetries = 0 then s else bump s K.pairBusFrameRetries x.busRetries
  (x.corrected.filter (fun e => decide (e.1 < 28))).foldl (fun s e =>
    updGeanna s e.1 (fun y => { y with corrected := Nat.min (y.corrected + e.2) 0xFFFFFFFF })) s

/-- CURRENT_REPORT: the report of one millisecond; the time at each throttle level grows by it (R376). -/
def effReport (s : State) (mv w joules : Nat) (l : List (Nat × Nat × DomainReading)) (net : NetSample) : State :=
  let s := takeNetSample (bump s K.pwrReportTick) net
  let s := odPut (odPut (bump s K.pwrEnergy joules) K.pwrInputVoltage mv) K.pwrInputPower w
  let rep := (l.filter (fun e => decide (e.1 < 144) && decide (e.2.1 < 6))).foldl (fun m e =>
    kvSet (0, 0, 0) m (e.1 * 6 + e.2.1) (e.2.2.current, e.2.2.voltage, e.2.2.droop)) []
  let time := s.plant.levelTime.zipIdx.map (fun e =>
    e.1 + ((List.range 144).filter (fun b => (blkOf s b).level == e.2)).length)
  { s with plant := { s.plant with report := rep, levelTime := time } }

/-! ## Token credits (R344) -/

/-- CREDIT_REFILL: credits grow by one refill, to at most four; units that held go on. -/
def effRefill (s : State) : State :=
  let t := s.clusters.foldl (fun s e => updCluster s e.1 (fun c => { c with
    credit := c.tokens.zipIdx.map (fun x => Nat.min (getAt 0 c.credit x.2 + refillPj x.1) (4 * refillPj x.1)) })) s
  goOnAll s t

/-! ## The governor (R347) -/

/-- Most that the governor can take off before every target is at the floor. -/
def derateTop (s : State) : Nat :=
  (List.range 144).foldl (fun m b => Nat.max m (domField s K.pwrCoreTarget (2 * b) 2)) 0 - targetFloor

def recordGovernor (s : State) : State := recordPower s 0xFFFF 0 0 (odGet s K.pwrGovernorDerate)

/-- 95 % of the limit. -/
def belowBand (s : State) (avgW : Nat) : Bool := decide (100 * avgW ≤ 95 * governorLimit s)

def setAverage (s : State) (avgW : Nat) : State := { s with plant := { s.plant with governorAvg := avgW } }

/-- GOVERNOR_STEP: every 10 ms. -/
def effGovernorStep (s : State) (avgW : Nat) : State :=
  let s := setAverage s avgW
  if governorLimit s < avgW then
    if odGet s K.pwrGovernorDerate < derateTop s then
      recordGovernor (odSet s K.pwrGovernorDerate (odGet s K.pwrGovernorDerate + 10))
    else if odGet s K.pwrGovernorHalved = 0 then recordGovernor (reapplyAll (excuseAll (odSet s K.pwrGovernorHalved 1)))
    else s
  else if belowBand s avgW ∧ odGet s K.pwrGovernorHalved = 1 then
    recordGovernor (reapplyAll (odSet s K.pwrGovernorHalved 0))
  else s

/-- GOVERNOR_RAISE: every 100 ms. -/
def effGovernorRaise (s : State) (avgW : Nat) : State :=
  let s := setAverage s avgW
  if belowBand s avgW ∧ 0 < odGet s K.pwrGovernorDerate then
    recordGovernor (odSet s K.pwrGovernorDerate (odGet s K.pwrGovernorDerate - 10))
  else s

/-! ## Switching blocks off and on (R348, R349) -/

/-- IDLE_OFF: a block of no partition; with writes in flight it drains first (R105). -/
def effIdleOff (s : State) (b : Nat) : State :=
  let x := blkOf s b
  if odGet s K.pwrIdleOffDelay = 0 ∨ (partOfBlock s b).isSome ∨ !(coreOn x) ∨ x.drain.isSome then s
  else
    let s := setBlk s b { x with drain := some .idle }
    if blockIncoming s b = 0 then finishDrain s b else s

/-- WAKE_COMPLETE: scratchpads and arrays are zeros; a stack that was off trains; the next block may wake. -/
def effWake (s : State) (b ns : Nat) : State :=
  let die := dieOfBlock b
  if (blkOf s b).run ≠ .waking then s
  else
    let s := updBlk (noteHeadroom s die) b (fun x => { x with run := .on })
    let s := wipeClusters s (blockClusters b)
    let s := odMax (bump s K.pacerWakes) K.pacerWakeTimeMax ns
    proceedLoads (nextWake (stackOn s b) die)

/-! ## The commands -/

/-- SET_POINT_STEP (R335). -/
def execSetPointStep (block droopMv : Nat) (s : State) : Result := atBlock block (effSetPoint s block droopMv)
/-- CONVERTER_FAILURE (R332). -/
def execConverterFailure (converter : Nat) (s : State) : Result :=
  atUnit (decide (converter < 16)) "converter" converter (effConverter s converter)
/-- PHASE_FAILURE (R337). -/
def execPhaseFailure (block : Nat) (d : Domain) (phase : Nat) (s : State) : Result :=
  atBlock block (if phase < domainPhases d then failPhase s block d phase else s)
/-- TARGET_STEP (R337). -/
def execTargetStep (block drawW : Nat) (s : State) : Result := atBlock block (effTargetStep s block drawW)
/-- SHORT_DECLARED (R338). -/
def execShortDeclared (block : Nat) (sw : Switch) (d : Domain) (lost : List (Nat × Nat × Nat)) (s : State) : Result :=
  atBlock block (effShort s block sw d lost)
/-- BLOCK_DRAIN_COMPLETE (R339). -/
def execBlockDrainComplete (block : Nat) (s : State) : Result := atBlock block (effDrained s block)
/-- CONNECTOR_CHECK (R341). -/
def execConnectorCheck (readings : List ConnReading) (s : State) : Result := .next (readings.foldl effConnector s)
/-- CURRENT_REPORT (R342). -/
def execCurrentReport (inputMv inputW joules : Nat) (figures : MsReport) (s : State) : Result :=
  .next (effReport s inputMv inputW joules figures.domains figures.net)
/-- CREDIT_REFILL (R344). -/
def execCreditRefill (s : State) : Result := .next (effRefill s)
/-- GOVERNOR_STEP (R347). -/
def execGovernorStep (avgW : Nat) (s : State) : Result := .next (effGovernorStep s avgW)
/-- GOVERNOR_RAISE (R347). -/
def execGovernorRaise (avgW : Nat) (s : State) : Result := .next (effGovernorRaise s avgW)
/-- IDLE_OFF (R348). -/
def execIdleOff (block : Nat) (s : State) : Result := atBlock block (effIdleOff s block)
/-- WAKE_COMPLETE (R349): a wake charges the block's capacitance, and then fills its scratchpads and arrays. -/
def execWakeComplete (block chargeNs fillNs : Nat) (s : State) : Result :=
  atBlock block (effWake s block (chargeNs + fillNs))

end Sys2Proof.Machine
end

