-- ==== Sys2Proof/Machine/Heat.lean ====
section
/-! DEFINITION. Sensors and governing readings (R358 to R360), throttle levels (R361, R362), switch-off for heat
and hardware trips (R364 to R367), coolant supervision (R368, R369) and the interlocks (R418 to R420).
Temperatures are in 0.1 degree C. -/

namespace Sys2Proof.Machine

/-! ## Sensors -/

/-- Number of a sensor: junction sensors by cluster, then stack sensors by block (R376). -/
def sensorKey : SensorRef → Nat
  | .junction cl i => 2 * cl + i % 2
  | .stack b i => 1728 + 2 * b + i % 2

/-- The first sensor of a pair. -/
def clusterPair (cl : Nat) : Nat := 2 * cl
def stackPair (b : Nat) : Nat := 1728 + 2 * b

def sensorExists : SensorRef → Bool
  | .junction cl i => decide (cl < clusterCount) && decide (i < 2)
  | .stack b i => decide (b < 144) && decide (i < 2)

/-- The block of a sensor. -/
def sensorBlock : SensorRef → Nat
  | .junction cl _ => blockOf cl
  | .stack b _ => b

def Sensor.good (x : Sensor) : Bool := !x.failed && !x.suspect

/-- A suspect or failed sensor enters the yield map once, and raises bit 8 of the replace request. -/
def noteSensor (s : State) (r : SensorRef) (value : Nat) : State :=
  let (loc, unit, sub) := match r with
    | .junction cl i => (cl, i, 0)
    | .stack b i => (b, i, 1)
  let there := (yieldAll s).any (fun e => e.type == 0x0C && e.location == loc && e.unit == unit && e.sub == sub && e.value == value)
  replaceRequest (if there then s else addYield s 0x0C loc unit sub 0 value) 8 1

/-- One sensor is read: it is failed while it does not answer, reads outside -20 to 150 degree C, or has moved by
more than 20 degree C (R358). -/
def readSensor (s : State) (r : Reading) : State :=
  let k := sensorKey r.sensor
  let x := sensorOf s k
  let bad := match r.value with
    | none => true
    | some v => decide (v < -200) || decide (1500 < v) || (x.seen && decide (200 < (v - x.value).natAbs))
  let s := setSensor s k (match r.value with
    | none => { x with failed := true }
    | some v => { x with value := v, seen := true, failed := bad })
  if bad ∧ !x.failed then noteSensor s r.sensor 2 else s

/-- A pair more than 8 degree C apart; each episode is counted (R360). -/
def judgePair (s : State) (k : Nat) : State :=
  let a := sensorOf s k
  let b := sensorOf s (k + 1)
  let apart := !a.failed && !b.failed && decide (80 < (a.value - b.value).natAbs)
  if apart = a.apart then s
  else
    let s := setSensor s k { a with apart }
    if apart then bump s K.heatDisagreements else s

/-- Governing reading of a pair with a trusted reading (R359). -/
def pairReading (s : State) (k : Nat) : Option Int :=
  let a := sensorOf s k
  let b := sensorOf s (k + 1)
  if !a.failed ∧ !b.failed ∧ (a.good ∨ b.good) then some (max a.value b.value)
  else if a.good then some a.value
  else if b.good then some b.value
  else none

def maxReading (l : List (Option Int)) : Option Int :=
  l.foldl (fun (acc : Option Int) x => match acc, x with
    | some a, some b => some (max a b)
    | some a, none => some a
    | none, y => y) none

/-- Governing reading of a cluster: without a trusted reading, the highest of the block's others plus 5. -/
def clusterReading (s : State) (cl : Nat) : Option Int :=
  match pairReading s (clusterPair cl) with
  | some v => some v
  | none => (maxReading ((blockClusters (blockOf cl)).map (fun c => pairReading s (clusterPair c)))).map (· + 50)

/-- Junction and stack temperatures of a block; none without any trusted reading. -/
def blockJunction (s : State) (b : Nat) : Option Int := maxReading ((blockClusters b).map (clusterReading s))
def blockStack (s : State) (b : Nat) : Option Int := pairReading s (stackPair b)

/-- Arrays of a cluster's chains that the temperature leaves: their error stays at 2 until they are calibrated (R111). -/
def markStale (s : State) (cl : Nat) : State :=
  (clusterChains s cl).foldl (fun s e => (chainArrays s e.1 e.2).foldl (fun s a =>
    if beyondCal s a then updArr s a (fun x => { x with stale := true }) else s) s) s

/-- The governing temperature of a cluster takes its reading; a chain whose arrays have drifted by cal_temp_delta is
queued, and the arrays of no chain are calibrated at once (R128). -/
def governCluster (s : State) (cl : Nat) : State :=
  match clusterReading s cl with
  | none => s
  | some v =>
    if (clusterOf s cl).govTemp = v then s
    else
      let s := updCluster s cl (fun c => { c with
        govTemp := v, idleCal := if odGet s K.arrCalTempDelta * 10 ≤ (c.idleCal - v).natAbs then v else c.idleCal })
      let s := markStale s cl
      (clusterChains s cl).foldl (fun s e =>
        if (chainArrays s e.1 e.2).any (fun a =>
            decide (odGet s K.arrCalTempDelta * 10 ≤ ((arrOf s a).calTemp - v).natAbs)) then queueCalibration s e.1 e.2
        else s) s

/-- A stack whose temperature has moved by more than stack_retrain_temp since its training (R392). -/
def driftRetrain (s : State) (b : Nat) : State :=
  match blockStack s b with
  | none => s
  | some v =>
    let x := blkOf s b
    if x.stack = .trained ∧ odGet s K.yldStackRetrainTemp * 10 < (v - x.trainTemp).natAbs then triggerRetrain s b else s

/-- SENSOR_READ: readings, pairs, governing temperatures and the triggers that follow from them. -/
def effSensorRead (s : State) (l : List Reading) : State :=
  let l := l.filter (fun r => sensorExists r.sensor)
  let s := l.foldl readSensor s
  let s := (l.foldl (fun acc r => insertNat (sensorKey r.sensor / 2 * 2) acc) []).foldl judgePair s
  let blocks := l.foldl (fun acc r => insertNat (sensorBlock r.sensor) acc) []
  blocks.foldl (fun s b => driftRetrain ((blockClusters b).foldl governCluster s) b) s

/-- The two sensors of a pair, the lower of them first. -/
def lowerOf (s : State) : SensorRef → SensorRef
  | .junction cl _ => .junction cl (if (sensorOf s (clusterPair cl)).value < (sensorOf s (clusterPair cl + 1)).value then 0 else 1)
  | .stack b _ => .stack b (if (sensorOf s (stackPair b)).value < (sensorOf s (stackPair b + 1)).value then 0 else 1)

/-- A 16-bit two's complement number. -/
def i16 (v : Int) : Nat := (v % 65536).toNat

/-- A heat event is recorded: levels and the reading (R432). -/
def recordHeat (s : State) (b old new : Nat) (v : Int) : State :=
  recordEvent s {
    code := 0x3000, source := .regulator, location := b
    payload := natLe old 1 ++ natLe new 1 ++ natLe (i16 v) 2 }

/-- SENSOR_SUSPECT: the lower sensor of the pair is suspect until module reset. -/
def effSuspect (s : State) (r : SensorRef) : State :=
  let low := lowerOf s r
  let k := sensorKey low
  let x := sensorOf s k
  if !(sensorOf s (k / 2 * 2)).apart ∨ x.suspect then s
  else
    let b := sensorBlock low
    let l := (blkOf s b).level
    let s := bump (setSensor s k { x with suspect := true }) K.heatSensorsSuspect
    recordHeat (noteSensor s low 1) b l l x.value

/-! ## Throttle levels -/

def thresholdOf (s : State) (k i : Nat) : Int := 10 * (domField s k i 1 : Int)

/-- The level a temperature calls for: how many of the four thresholds it has reached. -/
def calledBy (s : State) (k : Nat) : Option Int → Nat
  | none => 0
  | some v => ((List.range 4).filter (fun i => decide (thresholdOf s k i ≤ v))).length

/-- Floors set by missing readings (R359) and by the coolant (R368). -/
def levelFloor (s : State) (b : Nat) : Nat :=
  let sensors := if (blockJunction s b).isNone ∨ (blockStack s b).isNone then 3 else 0
  let c := odGet s K.coolCoolantState
  Nat.max sensors (if c = 2 then 2 else if 3 ≤ c then 4 else 0)

def calledLevel (s : State) (b : Nat) : Nat :=
  Nat.max (levelFloor s b)
    (Nat.max (calledBy s K.heatJunctionThresholds (blockJunction s b)) (calledBy s K.heatStackThresholds (blockStack s b)))

/-- The higher of a block's temperatures, for records. -/
def blockTemp (s : State) (b : Nat) : Int := (maxReading [blockJunction s b, blockStack s b]).getD 0

def setLevel (s : State) (b n : Nat) : State :=
  let old := (blkOf s b).level
  let s := if n < 3 then s
    else (s.parts.filter (fun e => e.2.blocks.contains b)).foldl (fun s e => excuseIntervals s e.1) s
  recordHeat (updBlk s b (fun x => { x with level := n })) b old n (blockTemp s b)

/-- LEVEL_RISE. -/
def effLevelRise (s : State) (b : Nat) : State :=
  let n := (blkOf s b).level
  if n < calledLevel s b then setLevel s b (n + 1) else s

/-- Is a temperature below a threshold minus the hysteresis? A missing reading holds a floor instead. -/
def coolerThan (s : State) (k i : Nat) : Option Int → Bool
  | none => true
  | some v => decide (v < thresholdOf s k i - 10 * (odGet s K.heatHysteresis : Int))

/-- LEVEL_FALL. -/
def effLevelFall (s : State) (b : Nat) : State :=
  let n := (blkOf s b).level
  if n = 0 ∨ n ≤ levelFloor s b then s
  else if coolerThan s K.heatJunctionThresholds (n - 1) (blockJunction s b) &&
      coolerThan s K.heatStackThresholds (n - 1) (blockStack s b) then setLevel s b (n - 1)
  else s

/-! ## Switch-off for heat -/

/-- The drain of a block that goes off for heat begins; a block that is waking goes off at once (R375). -/
def drainForHeat (s : State) (b : Nat) (stack : Bool) : State :=
  let x := blkOf s b
  match x.run with
  | .waking =>
    nextWake (finishDrain (setBlk s b { x with drain := some .heat, drainStack := stack }) b) (dieOfBlock b)
  | .on | .idleOff =>
    if x.drain = some .supply then s
    else
      let s := setBlk (zeroVectors s b) b { x with drain := some .heat, drainStack := stack, wakeDue := false }
      if x.run = .idleOff then finishDrain s b else s
  | _ => s

/-- HEAT_OFF (R364). -/
def effHeatOff (s : State) (b : Nat) (byStack : Bool) : State :=
  let x := blkOf s b
  let hot := if byStack then (blockStack s b).any (fun v => decide (thresholdOf s K.heatStackThresholds 4 ≤ v))
    else (blockJunction s b).any (fun v => decide (thresholdOf s K.heatJunctionThresholds 4 ≤ v))
  if x.level ≠ 4 ∨ !hot ∨ x.drain = some .heat then s
  else match x.run with
    | .on | .waking | .idleOff => drainForHeat (blockGoneFor s b 0x0012) b byStack
    | _ => s

/-- HEAT_RETURN (R366): the block wakes at level 2. -/
def effHeatReturn (s : State) (b : Nat) : State :=
  let x := blkOf s b
  if x.run ≠ .heatOff ∨ s.plant.shutdown ∨ s.plant.stopActive then s
  else if (blockJunction s b).isSome && (blockStack s b).isSome &&
      coolerThan s K.heatJunctionThresholds 0 (blockJunction s b) &&
      coolerThan s K.heatStackThresholds 0 (blockStack s b) then
    requestWake (setLevel (setBlk s b { x with run := .idleOff }) b 2) b
  else s

/-- HARDWARE_TRIP (R367); a comparator whose sensor is failed does not trip. -/
def effTrip (s : State) (r : SensorRef) : State :=
  let x := sensorOf s (sensorKey r)
  let b := sensorBlock r
  if x.failed ∨ (blkOf s b).mainOpen then s
  else
    let l := (blkOf s b).level
    isolateBlock (bump s K.heatHwTrips) b 3 0x3000 (natLe l 1 ++ natLe l 1 ++ natLe (i16 x.value) 2)

/-! ## Every block off: SHUTDOWN and ILK_STOP_N (R369, R419) -/

/-- Every loaded partition takes a fault; one that is loading gives up its load. -/
def faultAll (s : State) (code : Nat) : State :=
  s.parts.foldl (fun s e =>
    let pt := partOf s e.1
    if pt.state = .loading then giveUpLoad s e.1 else raiseFault s e.1 code (pt.oy * 24 + pt.ox)) s

/-- Every block drains and goes off, with its stack. -/
def drainAll (s : State) (stop : Bool) : State :=
  (List.range 144).foldl (fun s b =>
    let s := drainForHeat s b true
    if stop ∧ ((blkOf s b).run = .heatOff ∨ (blkOf s b).drain = some .heat) then
      updBlk s b (fun x => { x with stopOff := true })
    else s) s

/-- R369. -/
def shutDown (s : State) : State :=
  let s := { s with plant := { s.plant with shutdown := true, coolHold := true } }
  startFlush (drainAll (faultAll s 0x0013) false)

/-! ## Coolant (R368) -/

/-- The worst row whose condition holds. `flow` is none when the flow sensor has failed. -/
def coolantRow (s : State) (flow : Option Nat) (inlet outlet : Int) : Nat :=
  let need := odGet s K.coolFlowRequired
  let below (percent : Nat) : Bool := match flow with
    | some f => decide (100 * f < percent * need)
    | none => false
  if below 15 || decide (700 < outlet) then 4
  else if below 40 || decide (450 < inlet) || decide (600 < outlet) then 3
  else if below 70 || decide (400 < inlet) || flow.isNone then 2
  else if below 90 || decide (350 < inlet) then 1
  else 0

/-- The row that holds now, with the floor of ILK_COOL_N. -/
def coolantCalls (s : State) : Nat :=
  if s.plant.coolFloor then Nat.max 3 s.plant.coolRow else s.plant.coolRow

/-- The coolant state changes. -/
def setCoolant (s : State) (n : Nat) : State :=
  let s := odSet s K.coolCoolantState n
  let s := if n = 0 then s else bump s K.coolCoolantEvents
  recordEvent s {
    code := 0x3100, source := mpSource s
    payload := natLe n 1 ++ natLe (odGet s K.coolFlow) 2 ++ natLe (odGet s K.coolInletTemp) 2 ++ natLe (odGet s K.coolOutletTemp) 2 }

/-- The state rises to the row that holds. -/
def riseCoolant (s : State) : State :=
  let n := coolantCalls s
  if n ≤ odGet s K.coolCoolantState then s
  else
    let s := setCoolant s n
    if n = 4 ∧ !s.plant.shutdown then shutDown s else s

/-- COOLANT_CHECK: the 1 s averages. -/
def effCoolant (s : State) (flow : Option Nat) (inlet outlet : Int) : State :=
  let s := odSet (odSet (odPut s K.coolFlow (flow.getD 0)) K.coolInletTemp (i16 inlet)) K.coolOutletTemp (i16 outlet)
  let n := coolantRow s flow inlet outlet
  let s := { s with plant := { s.plant with coolRow := n, coolHold := s.plant.coolHold || (s.plant.shutdown && decide (n ≠ 0)) } }
  riseCoolant s

/-- COOLANT_STATE_FALL: the condition has been absent for 10 s. In SHUTDOWN the state stays until a module reset;
that the coolant has been NORMAL for 10 s is kept. -/
def effCoolantFall (s : State) : State :=
  let n := odGet s K.coolCoolantState
  if s.plant.shutdown then
    if s.plant.coolRow = 0 then { s with plant := { s.plant with coolHold := false } } else s
  else if n = 0 ∨ n ≤ coolantCalls s then s
  else setCoolant s (n - 1)

/-! ## Interlocks (R418 to R420) -/

/-- ILK_COOL_N: active, it holds the coolant state at CRITICAL or higher. -/
def effIlkCool (s : State) (widthNs : Nat) (active overLimit : Bool) : State :=
  if widthNs < 50 then bump s K.hlthInterlockGlitches
  else
    let s := if overLimit then markChatter s .ilkCool else s
    let held := active || chattering s .ilkCool
    let s := odBit s K.hlthInputStatus 16 active
    if held then riseCoolant { s with plant := { s.plant with coolFloor := true } } else s

/-- ILK_STOP_N: a valid assertion faults every partition and switches every block off. -/
def effIlkStop (s : State) (widthNs : Nat) (active overLimit : Bool) : State :=
  if widthNs < 50 then bump s K.hlthInterlockGlitches
  else
    let s := if overLimit then markChatter s .ilkStop else s
    let held := active || chattering s .ilkStop
    let s := odBit s K.hlthInputStatus 17 active
    if held ∧ !s.plant.stopActive then
      startFlush (drainAll (faultAll { s with plant := { s.plant with stopActive := true } } 0x0015) true)
    else s

/-- INTERLOCK_RELEASE: the line has been inactive for 1 s. -/
def effInterlockRelease (s : State) (stop : Bool) : State :=
  if stop then
    if inputBit s 17 ∨ chattering s .ilkStop ∨ !s.plant.stopActive then s
    else
      let s := { s with plant := { s.plant with stopActive := false } }
      (List.range 144).foldl (fun s b =>
        let x := blkOf s b
        if x.stopOff ∧ x.run = .heatOff ∧ !s.plant.shutdown then setBlk s b { x with stopOff := false, run := .idleOff }
        else s) s
  else if inputBit s 16 ∨ chattering s .ilkCool then s
  else { s with plant := { s.plant with coolFloor := false } }

/-- The port whose reset line an input is. -/
def perstPort : Input → Option Nat
  | .perst0 => some 0
  | .perst1 => some 1
  | _ => none

/-- What an input stands for once it chatters no more: an interlock inactive through the quiet time is released, the
rack reference is present, and PR has the level it settled at (R418 to R420). -/
def settleInput (s : State) : Input → State
  | .ilkCool => effInterlockRelease s false
  | .ilkStop => effInterlockRelease s true
  | .rackReference => effReferenceRestored s
  | .pr0 => if side s = 0 then { s with pair := { s.pair with prHigh := s.pair.prLevel } } else s
  | .pr1 => if side s = 1 then { s with pair := { s.pair with prHigh := s.pair.prLevel } } else s
  | _ => s

/-- CHATTER_CLEAR: the quiet time has passed. -/
def effChatterClear (s : State) (i : Input) : State :=
  match perstPort i with
  | some p =>
    if !(portOf s p).chatter then s
    else
      let s := odBit (updPort s p (fun x => { x with chatter := false })) K.pciePerstStatus p false
      trainPort s p
  | none => match chatterBit i with
    | some b => if inputBit s b then settleInput (odBit s K.hlthInputStatus b false) i else s
    | none => s

/-! ## The commands -/

/-- SENSOR_READ (R358). -/
def execSensorRead (readings : List Reading) (s : State) : Result := .next (effSensorRead s readings)
/-- SENSOR_SUSPECT (R360). -/
def execSensorSuspect (pair : SensorRef) (s : State) : Result :=
  atUnit (sensorExists pair) "sensor" (sensorKey pair) (effSuspect s pair)
/-- LEVEL_RISE (R362). -/
def execLevelRise (block : Nat) (s : State) : Result := atBlock block (effLevelRise s block)
/-- LEVEL_FALL (R362). -/
def execLevelFall (block : Nat) (s : State) : Result := atBlock block (effLevelFall s block)
/-- HEAT_OFF (R364). -/
def execHeatOff (block : Nat) (byStack : Bool) (s : State) : Result := atBlock block (effHeatOff s block byStack)
/-- HEAT_RETURN (R366). -/
def execHeatReturn (block : Nat) (s : State) : Result := atBlock block (effHeatReturn s block)
/-- HARDWARE_TRIP (R367). -/
def execHardwareTrip (sensor : SensorRef) (s : State) : Result :=
  atUnit (sensorExists sensor) "sensor" (sensorKey sensor) (effTrip s sensor)
/-- COOLANT_CHECK (R368). -/
def execCoolantCheck (flow : Option Nat) (inlet outlet : Int) (s : State) : Result := .next (effCoolant s flow inlet outlet)
/-- ILK_COOL_N_INPUT (R419). -/
def execIlkCoolNInput (widthNs : Nat) (active overLimit : Bool) (s : State) : Result := .next (effIlkCool s widthNs active overLimit)
/-- ILK_STOP_N_INPUT (R419). -/
def execIlkStopNInput (widthNs : Nat) (active overLimit : Bool) (s : State) : Result := .next (effIlkStop s widthNs active overLimit)
/-- INTERLOCK_RELEASE (R419). -/
def execInterlockRelease (stop : Bool) (s : State) : Result := .next (effInterlockRelease s stop)
/-- ILK_COOL_N_STUCK (R418): held beyond 60 s; the action stays in force. -/
def execIlkCoolNStuck (s : State) : Result := .next (if inputBit s 16 then latchStuck s 4 60000000 else s)
/-- CHATTER_CLEAR (R420). -/
def execChatterClear (input : Input) (s : State) : Result := .next (effChatterClear s input)

end Sys2Proof.Machine
end

