-- ==== Sys2Proof/Machine/EventLog.lean ====
section
/-! DEFINITION. The event recorder's own commands (R427 to R438): an event's arrival in its stages, marked gaps,
the end of suppress windows, flushes, clearing, and the first record of a run. -/

namespace Sys2Proof.Machine

def mpNumber (mpB : Bool) : Nat := if mpB then 1 else 0

/-! ## Reserved slots (R429) -/

/-- A management processor reserves the next slot; an event suppressed or dropped reserves none. -/
def effReserve (s : State) (mpB : Bool) (e : Event) : State :=
  let r := s.recorder
  if !r.accepting then s
  else if !neverSuppressed e.code && r.inWindow e.code e.location then
    bump { s with recorder := r.suppress e.code e.location } K.recSuppressed
  else if r.full then bump s K.recEventsDropped
  else { s with recorder := (r.push { reserved := some mpB }).fillUp }

/-- A record is written into a reserved slot. -/
def fillSlot (r : Recorder) (slot : Nat) (bytes : List Byte) : Recorder := { r with slots := setAt r.slots slot { bytes } }

def slotReserved (r : Recorder) (slot : Nat) : Option Bool := (getAt {} r.slots slot).reserved

/-- The record is committed into the slot reserved for it. -/
def effCommitRecord (s : State) (slot : Nat) (e : Event) : State :=
  let r := s.recorder
  if (slotReserved r slot).isNone then s
  else
    let r1 := fillSlot r slot (recordBytes (r.firstSeq + slot) e (r.pendingCount e.code e.location))
    { s with recorder :=
        if neverSuppressed e.code then r1 else r1.openWindow e.code e.location (odGet s K.recSuppressWindow) }

/-- EVENT_RECORD. -/
def effEventRecord (s : State) (stage : EventStage) (e : Event) : State :=
  match stage with
  | .hardware => recordEvent s e
  | .reserve mpB => effReserve s mpB e
  | .commit slot => effCommitRecord s slot e

/-- A GAP record takes a reserved slot whose record never came. -/
def writeGap (s : State) (slot : Nat) : State :=
  let r := s.recorder
  match slotReserved r slot with
  | none => s
  | some mpB =>
    let bytes := recordBytes (r.firstSeq + slot) { code := 0xB002, source := .recorder, payload := natLe (mpNumber mpB) 1 } 0
    bump { s with recorder := fillSlot r slot bytes } K.recGaps

/-- Every slot reserved by a processor that has failed becomes a gap. -/
def writeGaps (s : State) (mpB : Bool) : State :=
  (List.range s.recorder.slots.length).foldl (fun s i =>
    if slotReserved s.recorder i = some mpB then writeGap s i else s) s

/-- SUPPRESS_WINDOW_END: the count, if any, waits for the next record of its code and location. -/
def effWindowEnd (s : State) (code loc : Nat) : State :=
  let r := s.recorder
  if !(r.inWindow code loc) then s
  else if r.pendingCount code loc = 0 then { s with recorder := r.dropWindow code loc }
  else { s with recorder := { r with windows := r.windows.map (fun w =>
      if w.code == code && w.location == loc then { w with isOpen := false } else w) } }

/-! ## Clear (R435) -/

/-- The log is emptied; CLEARED takes slot 0. -/
def clearLog (s : State) : State :=
  let r := s.recorder
  let last := r.lastSeq
  let payload := natLe r.firstSeq 8 ++ natLe last 8 ++ natLe (odGet s K.recEventsDropped) 8
  let s := { s with recorder := { r with firstSeq := last + 1, slots := [], flash := [], clearing := false } }
  recordOwn (odSet s K.recEventsDropped 0) 0xB003 payload

/-- A write of 1 to clear: any flush in progress ends first. -/
def effClearLog (s : State) : State :=
  if s.recorder.flushing.isSome then { s with recorder := { s.recorder with clearing := true } } else clearLog s

/-! ## Flush (R436, R437) -/

/-- The committed records up to a number, as flash holds them. -/
def mirrorLog (r : Recorder) (upTo : Nat) : List (List Byte) := (r.slots.take (upTo + 1 - r.firstSeq)).map (·.bytes)

/-- FLUSH_COMPLETE. -/
def effFlushEnd (s : State) (fin : FlushEnd) : State :=
  let r := s.recorder
  match r.flushing with
  | none => s
  | some n =>
    let s := match fin with
      | .done us =>
        let s := { s with recorder := { r with flash := mirrorLog r n, flushedSeq := n, flushing := none } }
        odPut (bump s K.recFlushes) K.recLastFlushTime us
      | .failed seq =>
        let upTo := Nat.min n (seq - 1)
        let s := { s with recorder := { r with flash := mirrorLog r upTo, flushedSeq := upTo, flushing := none } }
        if r.accepting then recordOwn s 0xB005 (natLe seq 8) else s
    if s.recorder.clearing then clearLog s else s

/-! ## A new run (R430, R438) -/

/-- The first record of a run: RESTART, numbered with the stored ceiling. The area flushed last becomes the
previous run's log. A flush that a reset or power-fail began has ended by then. -/
def newRun (s : State) (cause : Nat) : State :=
  let r := match s.recorder.flushing with
    | some n => { s.recorder with flash := mirrorLog s.recorder n, flushedSeq := n }
    | none => s.recorder
  let r : Recorder := {
    firstSeq := r.ceiling, ceiling := r.ceiling, flushedSeq := r.flushedSeq, prevLog := r.flash
    prevFirst := fieldLe (r.flash.headD []) 0 8, prevLast := fieldLe (r.flash.getLastD []) 0 8 }
  recordOwn { s with recorder := r } 0xB001 (natLe r.flushedSeq 8 ++ natLe (r.ceiling + 2 ^ 20) 8 ++ natLe cause 1)

/-! ## The commands -/

/-- EVENT_RECORD (R427, R429). -/
def execEventRecord (stage : EventStage) (e : Event) (s : State) : Result := .next (effEventRecord s stage e)
/-- GAP_TIMEOUT (R429). -/
def execGapTimeout (slot : Nat) (s : State) : Result := .next (writeGap s slot)
/-- FLUSH_COMPLETE (R437). -/
def execFlushComplete (fin : FlushEnd) (s : State) : Result := .next (effFlushEnd s fin)
/-- SUPPRESS_WINDOW_END (R431). -/
def execSuppressWindowEnd (code location : Nat) (s : State) : Result := .next (effWindowEnd s code location)

end Sys2Proof.Machine
end

