-- ==== Sys2Proof/Machine/Retrain.lean ====
section
/-! DEFINITION. Retraining of stacks (R392, R393) and of stitched links (R394) while the module serves. -/

namespace Sys2Proof.Machine

/-! ## Stacks -/

/-- STACK_ERROR_RATE: correctable errors above the threshold. -/
def effErrorRate (s : State) (b perSecond : Nat) : State :=
  if odGet s K.yldStackErrorRate < perSecond ∧ (blkOf s b).stack = .trained then triggerRetrain s b else s

/-- The timers that a stack's retrain suspends resume. -/
def freeTimers (s : State) (b : Nat) : State :=
  let users := (blkOf s b).timersHeld
  updBlk (holdTimers s users false) b (fun x => { x with timersHeld := [] })

/-- A failed data lane of a stack is bound to the next of its spare lanes (R387, R393; DESIGN CHOICE: which spare a
lane takes is open, log 183). -/
def bindLane (s : State) (b lane : Nat) : State :=
  addYield s 0x0A b ((yieldAll s).filter (fun e => e.type == 0x0A && e.location == b)).length 0 lane 0

/-- STACK_RETRAIN_COMPLETE. A retrain cut short by the block's switch-off only lets the timers resume, and the next
stack of the die start (R395). -/
def effRetrained (s : State) (b : Nat) (ok : Bool) (lanes : List Nat) : State :=
  let x := blkOf s b
  if x.stack ≠ .retraining ∧ x.timersHeld = [] then s
  else
    let s := freeTimers s b
    if x.stack ≠ .retraining then nextRetrain s (dieOfBlock b)
    else
      let s := bump s K.yldRetrains
      let s := if ok then
          updBlk (lanes.foldl (fun s l => bindLane s b l) s) b (fun x => { x with stack := .trained, trainTemp := (blockStack s b).getD x.trainTemp })
        else loseStack s b
      proceedLoads (nextRetrain s (dieOfBlock b))

/-! ## Links -/

/-- Spare wires bound on a link in a direction, counted in its bindings. -/
def boundSpares (s : State) (l dir : Nat) : Nat := ((linkOf s l).wires.filter (fun w => w.1 / 65536 == dir)).length

/-- One failed wire, given by its direction and index, takes the next spare of the direction (DESIGN CHOICE: which spare
a wire takes is open, log 183). -/
def bindWire (s : State) (l : Nat) (w : Nat × Nat) : State :=
  let spare := boundSpares s l w.1
  let s := addYield s 7 0xFFFF spare w.1 w.2 l
  let s := updLink s l (fun x => { x with wires := x.wires ++ [(w.1 * 65536 + w.2, spare)] })
  let s := odSet s K.netSeamSparesLeft (odGet s K.netSeamSparesLeft - 1)
  if 64 ≤ boundSpares s l w.1 then replaceRequest s 2 1 else s

/-- Do more wires of a direction fail than it has spares left (R282)? -/
def sparesShort (s : State) (l : Nat) (wires : List (Nat × Nat)) (dir : Nat) : Bool :=
  decide (64 < boundSpares s l dir + (wires.filter (fun w => w.1 == dir)).length)

/-- LINK_RETRAIN_COMPLETE: failed wires are bound to spares, or the link is failed. -/
def effLinkRetrained (s : State) (l : Nat) (wires : List (Nat × Nat)) : State :=
  let x := linkOf s l
  if !x.retraining then s
  else
    let s := holdTimers s x.timersHeld false
    let s := bump (updLink s l (fun x => { x with retraining := false, timersHeld := [] })) K.yldRetrains
    if sparesShort s l wires 0 ∨ sparesShort s l wires 1 then failLink s l []
    else wires.foldl (fun s w => bindWire s l w) s

/-! ## The commands -/

/-- STACK_ERROR_RATE (R392). -/
def execStackErrorRate (block perSecond : Nat) (s : State) : Result := atBlock block (effErrorRate s block perSecond)
/-- STACK_RETRAIN_COMPLETE (R393); held accesses go on. `lanes` are the failed lanes that it has bound to spares, none
where it has failed. -/
def execStackRetrainComplete (block : Nat) (lanes : Option (List Nat)) (s : State) : Result :=
  atBlock block (effRetrained s block lanes.isSome (lanes.getD []))
/-- LINK_RETRY_RATE (R394). -/
def execLinkRetryRate (link : Nat) (s : State) : Result := atLink link (triggerLink s link)
/-- LINK_RETRAIN_COMPLETE (R394): the wires of each direction that it has found failed. -/
def execLinkRetrainComplete (link : Nat) (forth back : List Nat) (s : State) : Result :=
  atLink link (effLinkRetrained s link (forth.map (fun w => (0, w)) ++ back.map (fun w => (1, w))))

end Sys2Proof.Machine
end

