-- ==== Sys2Proof/Machine/Views.lean ====
section
/-! DEFINITION. What a read of an object of the dictionary gives (R487, R494 to R512). Objects that the rules
define by other state of the module are computed here when they are read; the others are held in `od` and
`dom`. A string or constant that the factory sets is a field of Config. -/

namespace Sys2Proof.Machine

/-- The bytes of a value: little-endian, in its type's width (R475). -/
def widthOf : ObjType → Nat
  | .bool | .u8 | .enum8 => 1
  | .u16 | .i16 => 2
  | .u32 | .bits32 | .f32 => 4
  | .u64 => 8
  | .str | .domain => 0

/-! ## Scalars that other state defines -/

/-- State of a partition (R62). -/
def partStateCode : PartState → Nat
  | .empty => 0 | .loading => 1 | .running => 2 | .draining => 3 | .faulted => 4 | .resetting => 5

/-- Arrays of presented cores (R137). -/
def usableArrays (s : State) : Nat :=
  s.clusters.foldl (fun n e => n - (16 - e.2.presented) * 32) 442368

/-- Usable arrays that satisfy a condition which a READY array does not. -/
def arraysWith (s : State) (f : Arr → Bool) : Nat :=
  (s.arrays.filter (fun e => decide (e.1 / 32 % 16 < (clusterOf s (e.1 / 512)).presented) && f e.2)).length

/-- Base draw of every block and the peak of every loaded partition, in W (R334, R355). -/
def budgetUsed (s : State) : Nat :=
  (List.range 144).foldl (fun n b => n + Config.baseDraw b) 0 +
    (s.parts.filter (fun e => e.2.loaded)).foldl (fun n e => n + odGet s (K.partPowerPeak e.1)) 0

/-- The paths of the pair (R329). -/
def pathBits (s : State) : Nat :=
  (if s.pair.busUp then 1 else 0) + (if thahaUp s then 2 else 0) + (if s.pair.prHigh then 0 else 4) +
    (if s.pair.fence then 8 else 0)

/-- Scalars set at the factory to which the manual gives no value. -/
def factoryScalar (k : Nat) : Bool :=
  [K.devBoardRevision, K.devPfDeviceId, K.devVfDeviceId, K.devRomVersion, K.devManufactureDate].contains k

/-- The scalars of a partition's index that its state defines. An EMPTY partition keeps its last values
(R491). -/
def partScalar (s : State) (p sub : Nat) : Nat :=
  let pt := partOf s p
  if sub = 1 then partStateCode pt.state
  else if sub = 2 ∧ pt.loaded then pt.lap
  else odGet s ((0x4000 + p) * 256 + sub)

/-- The value of a scalar object. -/
def scalarView (s : State) (k : Nat) : Nat :=
  let i := k / 256
  if 0x4000 ≤ i ∧ i < 0x4030 then partScalar s (i - 0x4000) (k % 256)
  else if 0x5000 ≤ i ∧ i < 0x5008 ∧ k % 256 = 5 then openOfClass s (i - 0x5000)
  else if factoryScalar k then fieldLe (Config.factoryBytes k) 0 4 % (objTop k + 1)
  else if k = K.mgmtSessionsOpen then (s.mgmt.filter (fun e => e.2.isOpen)).length
  else if k = K.sessSessionsOpen then (s.sessions.filter (fun e => decide (e.2.state ≠ .free))).length
  else if k = K.wtSetsLoaded then
    (s.sets.filter (fun e => decide (e.2.state = .loaded) || decide (e.2.state = .damaged))).length
  else if k = K.wtMisplacedPieces then s.sets.foldl (fun n e => n + e.2.misplaced.length) 0
  else if k = K.arrArraysReady then usableArrays s - arraysWith s (fun x => decide (x.state ≠ .ready))
  else if k = K.arrArraysRetired then arraysWith s (fun x => decide (x.state = .retired))
  else if k = K.meshOscillatorsActive then ((List.range clusterCount).filter (oscActive s)).length
  else if k = K.pacerModuleBudgetUsed then budgetUsed s
  else if k = K.pairPaths then pathBits s
  else if k = K.yldYieldGeneration then s.yield.generation
  else if k = K.recFirstSeq then s.recorder.firstSeq
  else if k = K.recLastSeq then s.recorder.lastSeq
  else if k = K.recRecords then s.recorder.slots.length
  else if k = K.recFull then (if s.recorder.full then 1 else 0)
  else if k = K.recFlushedSeq then s.recorder.flushedSeq
  else if k = K.recPrevFirstSeq then s.recorder.prevFirst
  else if k = K.recPrevLastSeq then s.recorder.prevLast
  else odGet s k

/-! ## Records and tables -/

/-- Numbers of `w` bytes each. -/
def table (w : Nat) (l : List Nat) : List Byte := l.flatMap (fun n => natLe n w)

/-- Small numbers of `w` bits each, the first in the low bits, as `len` bytes. -/
def packBits (w len : Nat) (l : List Nat) : List Byte := natLe (l.foldr (fun n acc => n + acc * 2 ^ w) 0) len

/-- One domain's record of the current report (R342). -/
def reportRecord (s : State) (b d : Nat) : List Byte :=
  let x := blkOf s b
  let r := kvGet (0, 0, 0) s.plant.report (b * 6 + d)
  let isOn := if d = 3 then !x.transitOpen && !x.mainOpen
    else if d ≥ 4 then decide (x.stack ≠ .off) && !x.mainOpen
    else coreOn x || decide (x.run = .waking)
  let worst := (List.range 12).foldl (fun n g => if groupDomain g = d then Nat.max n (kvGet 0 x.connState g) else n) 0
  let ph := (kvGet [] x.phases d).length
  table 2 [r.1, r.2.1, if d = 0 then r.2.2 else 0] ++ natLe ph 1 ++
    natLe ((if isOn then 1 else 0) + (if x.capped then 2 else 0) + (if worst = 1 then 4 else 0) +
      (if worst = 2 then 8 else 0)) 1

/-- The current report (R342). -/
def reportBytes (s : State) : List Byte :=
  natLe (odGet s K.pwrReportTick) 8 ++ table 4 [odGet s K.pwrInputVoltage, odGet s K.pwrInputPower, workingConverters s] ++
    List.replicate 12 0 ++ (List.range 144).flatMap (fun b => (List.range 6).flatMap (reportRecord s b))

/-- Throttle factor and halving applied in a block, in sixteenths (R355). -/
def appliedScale (s : State) (b : Nat) : Nat :=
  let f := throttle16 (class0Block s b) (blkOf s b).applied
  if (blkOf s b).appliedHalf then f / 2 else f

/-- Status of a sensor (R376). -/
def sensorCode (x : Sensor) : Nat := if x.failed then 2 else if x.suspect then 1 else 0

def readings (s : State) (lo n : Nat) : List Byte :=
  (List.range n).flatMap (fun i => natLe (i16 (sensorOf s (lo + i)).value) 2)

/-- One record of the session table (R276). -/
def sessionRecord (s : State) (i : Nat) : List Byte :=
  let x := sessOf s i
  let st := match x.shown with
    | .free => 0 | .idle => 1 | .active => 2 | .evicting => 3 | .evicted => 4 | .restoring => 5 | .ending => 6
  let released := match x.running with
    | some g => g.released
    | none => 0
  natLe i 2 ++ table 1 [st, x.cls, x.part, x.homeDie,
      (if x.mirrored then 1 else 0) + (if x.bitmapBase.isSome then 2 else 0) + (if holdsLane s i then 4 else 0), x.fn] ++
    table 4 [x.len, x.pendingPositions, released] ++ natLe (x.adapter.getD 0xFFFF) 2 ++ natLe x.openRing 2 ++
    natLe x.seed.toNat 8

def setStateCode : SetState → Nat
  | .empty => 0 | .verifying => 1 | .loading => 2 | .loaded => 3 | .damaged => 4 | .wiping => 5

/-- One record of the set table (R235). -/
def setRecord (s : State) (i : Nat) : List Byte :=
  let w := wsetOf s i
  natLe i 2 ++ table 1 [setStateCode w.state, w.kind, w.owner,
      (if w.retained then 1 else 0) + (if w.relayedIn then 2 else 0) + (if w.relaySource then 4 else 0), 0, 0] ++
    table 4 [bindCount s i, w.pieces] ++ table 8 [w.shapeId, w.imageBytes] ++ padTo 32 w.measurement

def arrStateCode : ArrState → Nat
  | .ready => 0 | .calPending => 1 | .calibrating => 2 | .suspect => 3 | .writePending => 4 | .writing => 5
  | .retired => 6

/-- The usable arrays, in the order of R137. -/
def usableList (s : State) : List Nat :=
  (List.range clusterCount).flatMap (fun cl =>
    (List.range ((clusterOf s cl).presented * 32)).map (fun i => cl * 512 + i))

/-- Pairs of 4-bit codes as bytes. -/
def nibbles : List Nat → List Byte
  | [] => []
  | [a] => natLe a 1
  | a :: b :: r => natLe (a + 16 * b) 1 ++ nibbles r

/-- One record of the port table (R305). -/
def portRecord (s : State) (i : Nat) : List Byte :=
  let x := geannaOf s i
  table 1 [i, portStateCode x.state, x.lanes, portDir i] ++ natLe x.neighbourId 8 ++
    table 1 [x.neighbourPos.1, x.neighbourPos.2.1, x.neighbourPos.2.2, 0] ++
    table 4 [x.delayNs, x.trainings, Nat.min x.corrected 0xFFFFFFFF, Nat.min x.retries 0xFFFFFFFF]

/-- One record of the PCI Express ports (R468). -/
def pcieRecord (s : State) (i : Nat) : List Byte :=
  let x := portOf s i
  table 1 [i, x.state, x.rate, x.width, if x.flit then 1 else 0, x.vfs, 0, 0] ++
    table 4 [Nat.min x.correctable 0xFFFFFFFF, x.trainings]

def stackCode : StackState → Nat
  | .trained => 0 | .retraining => 1 | .off => 2 | .lost => 3 | .held => 4

/-- The yield map (R384). -/
def yieldBytes (s : State) : List Byte :=
  let of (src : Nat) : List YieldEntry := s.yield.entries.filter (fun e => e.source == src)
  asciiBytes "VWYM" ++ natLe 1 2 ++ [0, 0] ++ table 4 [s.yield.generation, s.yield.entries.length, (of 0).length] ++
    natLe (odGet s K.fabModuleId) 8 ++ List.replicate 36 0 ++ (of 0 ++ of 1 ++ of 2).flatMap yieldEntryBytes

/-- The log from a slot up to the last committed record (R433). -/
def logBytes (r : Recorder) (slot : Nat) : List Byte :=
  ((r.slots.take (r.lastSeq + 1 - r.firstSeq)).drop slot).flatMap (·.bytes)

/-- Physical cores presented in a cluster (R387). -/
def coreMask (s : State) (cl : Nat) : Nat :=
  if (clusterOf s cl).presented = 0 then 0 else (coreOrder s cl).foldl (fun n k => n + 2 ^ k) 0

/-- The partition map while the pair has been attached: an entry broken since reads 0xFF (R309). -/
def partitionMap (s : State) : List Byte :=
  if pairState s = 0 then domGet s K.pairPartitionMap
  else (List.range 48).flatMap (fun p => if mapValid s p then natLe (domField s K.pairPartitionMap p 1) 1 else [0xFF])

/-- Bits of 4,096 bytes: which submission rings this module owns now (R329). -/
def ownerBits (s : State) : List Byte :=
  (List.range 4096).flatMap (fun i => natLe
    (((List.range 8).map (fun b => if s.pair.owned.contains (8 * i + b) then 2 ^ b else 0)).foldl (· + ·) 0) 1)

/-- The DOMAIN objects of a partition's indexes that its state defines. -/
def partDomain (s : State) (p k : Nat) : List Byte :=
  let pt := partOf s p
  if !pt.loaded then domGet s k
  else if k = K.partFreeFrames p then pt.blocks.flatMap (fun b => natLe (freeFrames s b) 4)
  else if k = K.strLastShare p then table 1 pt.shares
  else domGet s k

/-- The value of a DOMAIN object. -/
def domainView (s : State) (k : Nat) : List Byte :=
  let i := k / 256
  if 0x4000 ≤ i ∧ i < 0x4030 then partDomain s (i - 0x4000) k
  else if 0x5100 ≤ i ∧ i < 0x5130 then partDomain s (i - 0x5100) k
  else if k = K.pwrBaseDraw then (List.range 144).flatMap (fun b => natLe (Config.baseDraw b) 2)
  else if k = K.pwrReport then reportBytes s
  else if k = K.pwrBlockPowerState then (List.range 144).flatMap (fun b => natLe (powerStateCode (blkOf s b)) 1)
  else if k = K.pwrConnectorState then
    (List.range 144).flatMap (fun b => packBits 2 3 ((List.range 12).map (kvGet 0 (blkOf s b).connState)))
  else if k = K.pacerPartitionPeaks then
    table 4 ((List.range 48).map (fun p => if (partOf s p).loaded then odGet s (K.partPowerPeak p) else 0))
  else if k = K.pacerAppliedScale then table 1 ((List.range 144).map (appliedScale s))
  else if k = K.pacerDieHeadroomMin then table 2 ((List.range 24).map (kvGet 1200 s.plant.headroomMin))
  else if k = K.heatBlockLevel then table 1 ((List.range 144).map (fun b => (blkOf s b).level))
  else if k = K.heatJunctionTemps then readings s 0 1728
  else if k = K.heatStackTemps then readings s 1728 288
  else if k = K.heatSensorStatus then packBits 2 504 ((List.range 2016).map (fun i => sensorCode (sensorOf s i)))
  else if k = K.heatLevelTime then table 8 s.plant.levelTime
  else if k = K.meshIslands then clusterMap (islands s)
  else if k = K.sessSessionTable then (List.range 4096).flatMap (sessionRecord s)
  else if k = K.wtRegionFree then (List.range 144).flatMap (fun b => natLe (regionFree s b) 4)
  else if k = K.wtSetTable then (List.range 4096).flatMap (setRecord s)
  else if k = K.arrStateMap then nibbles ((usableList s).map (fun a => arrStateCode (arrOf s a).state))
  else if k = K.fabPortTable then (List.range 28).flatMap (portRecord s)
  else if k = K.netFailedRouters then clusterMap s.fabric.routers
  else if k = K.netFailedLinks then
    packBits 1 213 ((List.range linkCount).map (fun l => if (linkOf s l).failed then 1 else 0))
  else if k = K.netLinkLoad then
    (List.range linkCount).flatMap (fun l => padTo 8 (table 2 (linkOf s l).load))
  else if k = K.pairPartitionMap then partitionMap s
  else if k = K.pairRingOwner then ownerBits s
  else if k = K.yldYieldMap then yieldBytes s
  else if k = K.yldStackState then table 1 ((List.range 144).map (fun b => stackCode (blkOf s b).stack))
  else if k = K.recLog then logBytes s.recorder 0
  else if k = K.recPrevLog then s.recorder.prevLog.flatMap id
  else if k = K.secAttestationReport then s.security.report
  else if k = K.secLcChallenge then s.security.challenge.getD []
  else if k = K.secSlotVersions then
    table 1 [if s.security.slot0.valid then 1 else 0, s.security.slot0.version,
      if s.security.slot1.valid then 1 else 0, s.security.slot1.version]
  else if k = K.pciePortState then (List.range 2).flatMap (pcieRecord s)
  else if k = K.diagPhysicalCoreMap then (List.range clusterCount).flatMap (fun cl => natLe (coreMask s cl) 3)
  else if k = K.diagArrayTrims then (usableList s).flatMap (fun a => table 1 (arrOf s a).trims)
  else if k = K.diagRawSensors then readings s 0 2016
  else if [K.pacerEnergyWeights, K.secIdentityPublicKey, K.secIdentityCertificates].contains k then Config.factoryBytes k
  else domGet s k

/-- A string of the dictionary. The running image gives the firmware's version string. -/
def stringView (s : State) (k : Nat) : List Byte :=
  if k = K.devVendor then asciiBytes "Balhel"
  else if k = K.devProduct then asciiBytes "Virvik W1"
  else if k = K.devFirmwareVersion then
    Config.factoryBytes (k + 2 ^ 32 * (1 + if odGet s K.devFirmwareSlot = 0 then s.security.slot0.version else s.security.slot1.version))
  else Config.factoryBytes k

/-- The value of an object as a management session reads it: each session has its own read_slot, from which
its reads of the log count (R433, R509). A string carries its length (R475). -/
def objValue (s : State) (m : Mgmt) (o : Obj) (k : Nat) : List Byte :=
  match o.type with
  | .domain => (domainView s k).drop (if k = K.recLog ∨ k = K.recPrevLog then 64 * m.readSlot else 0)
  | .str => natLe (stringView s k).length 1 ++ stringView s k
  | t => natLe (if k = K.recReadSlot then m.readSlot else scalarView s k) (widthOf t)

end Sys2Proof.Machine
end

