-- ==== Sys2Proof/Machine/Swiuth.lean ====
section
/-! DEFINITION. The Swiuth management protocol (R469 to R484): the window of sequence numbers, replies, what a
session may reach, the checks of a value, and the operations READ, STAGE, ABORT, SUBSCRIBE and NOTIFY, the reads
of SEGMENT, the mailbox, and the end of a session. -/

namespace Sys2Proof.Machine

/-! ## Status codes (R482) -/

def swNoObject : Nat := 0x01
def swNoSubindex : Nat := 0x02
def swAccess : Nat := 0x03
def swType : Nat := 0x04
def swRange : Nat := 0x05
def swState : Nat := 0x06
def swPermission : Nat := 0x07
def swNotReady : Nat := 0x08
def swNotStaged : Nat := 0x09
def swCommitLimit : Nat := 0x0A
def swSegmentOrder : Nat := 0x0B
def swTooLarge : Nat := 0x0C
def swBusy : Nat := 0x0D
def swRate : Nat := 0x0E
def swAuth : Nat := 0x0F
def swBadOp : Nat := 0x10

/-- What a request answers: status, detail (R473) and data; none where the reply comes later. -/
structure Answer where
  status : Nat := 0
  detail : Nat := 0
  data : List Byte := []
deriving DecidableEq, Repr

/-! ## Sessions -/

/-- A management processor serves Swiuth: bring-up has passed R379 order 2 (R472). -/
def mpUp (s : State) : Bool := decide (odGet s K.hlthMpState % 4 ≠ 0)

/-- An Ethernet port serves Swiuth while port_enable says so (R485); a mailbox always does. -/
def served (s : State) : Transport → Bool
  | .udp port _ => decide (port < 2) && (odGet s K.mgmtPortEnable).testBit port
  | .mailbox fn => decide (fn < 128)

/-- The mailbox of a session's function has no request in progress. -/
def freeMailbox (s : State) : Transport → State
  | .mailbox fn => updFn s fn (fun x => { x with busy := false })
  | .udp _ _ => s

/-- A session ends: its staged set and whatever it was writing are discarded (R472, R479). -/
def dropMgmt (s : State) (i : Nat) : State := freeMailbox (setMgmt s i {}) (mgmtOf s i).transport

/-- A session ends, and the module tells the client. -/
def closeMgmt (s : State) (i : Nat) : State :=
  if (mgmtOf s i).live then emit (dropMgmt s i) (.swClose i) else s

/-- Messages in either direction after which a session ends (R447). -/
def messageLimit : Nat := 2 ^ 32

def endIfSpent (s : State) (i : Nat) : State :=
  if (mgmtOf s i).sent ≥ messageLimit ∨ (mgmtOf s i).next ≥ messageLimit then closeMgmt s i else s

/-- The body of a reply (R473). -/
def replyBytes (r : Reply) : List Byte :=
  natLe (r.op + 0x80) 1 ++ natLe r.status 1 ++ natLe r.index 2 ++ natLe r.sub 1 ++ [0] ++ natLe r.detail 2 ++ r.data

/-- A message of the module goes to a session; a mailbox signals it on vector 0 (R460). -/
def deliver (s : State) (i : Nat) (msg : OutMsg) (waiting : List Byte) : State :=
  let m := mgmtOf s i
  let s := emit (setMgmt s i { m with sent := m.sent + 1 }) msg
  match m.transport with
  | .mailbox fn => emit (updFn s fn (fun x => { x with reply := waiting })) (.msix fn 0)
  | .udp _ _ => s

/-- A reply goes out; the request is no longer in progress. -/
def sendReply (s : State) (i seq : Nat) (r : Reply) : State :=
  if !(mgmtOf s i).isOpen then s
  else endIfSpent (freeMailbox (deliver s i (.swReply i seq r) (replyBytes r)) (mgmtOf s i).transport) i

/-- The replies of the last 64 requests executed are kept (R471). -/
def keepReply (s : State) (i seq : Nat) (r : Reply) : State :=
  let m := mgmtOf s i
  if !m.isOpen then s
  else
    let l := m.kept ++ [(seq, r)]
    setMgmt s i { m with kept := l.drop (l.length - 64) }

/-- A request that has been executed is answered. -/
def answer (s : State) (i seq op index sub : Nat) (a : Answer) : State :=
  let r : Reply := { op, status := a.status, index, sub, detail := a.detail, data := a.data }
  sendReply (keepReply s i seq r) i seq r

/-- Mark a number executed (R471). -/
def markExecuted (m : Mgmt) (seq : Nat) : Mgmt :=
  let n := Nat.max m.next (seq + 1)
  { m with next := n, executed := (seq :: m.executed).filter (fun q => decide (n ≤ q + 64)) }

/-- May a number be executed: one of the eight above the highest executed, or one of the last 64 not yet
executed (R471)? `next` is one above the highest. -/
def inWindow (m : Mgmt) (seq : Nat) : Bool :=
  (decide (m.next ≤ seq) && decide (seq < m.next + 8)) ||
    (decide (seq < m.next) && decide (m.next ≤ seq + 64) && !(m.executed.contains seq))

/-- A request of a session (R469, R471, R483): executed, answered again from the replies kept, refused for its
limits without being executed, or dropped. `run` gives the state after the request and its answer. -/
def request (s : State) (rq : Rq) (op index sub : Nat) (run : State → State × Option Answer) : State :=
  let i := rq.session
  let m := mgmtOf s i
  if !(mpUp s) ∨ !(served s m.transport) then s
  else if !m.isOpen ∨ !rq.tagOk then bump (if m.isOpen then freeMailbox s m.transport else s) K.mgmtReplayDrops
  else if inWindow m rq.seq then
    if rq.inFlightFull then sendReply s i rq.seq { op, status := swBusy, index, sub }
    else if rq.overRate then sendReply s i rq.seq { op, status := swRate, index, sub }
    else
      let r := run (setMgmt s i (markExecuted m rq.seq))
      match r.2 with
      | some a => answer r.1 i rq.seq op index sub a
      | none => r.1
  else match m.kept.find? (fun e => e.1 == rq.seq) with
    | some e => sendReply s i rq.seq e.2
    | none => bump (freeMailbox s m.transport) K.mgmtReplayDrops

/-! ## Objects and what a session may reach -/

/-- The object a request names; subindex 0 is a U8 that gives the highest subindex (R487). -/
def findObject (index sub : Nat) : Except Nat Obj :=
  match baseIndex index with
  | none => .error swNoObject
  | some b =>
    if sub = 0 then .ok ⟨b, 0, .u8, .ro, 0, 0, 255, 1, false⟩
    else match objFind index sub with
      | some o => .ok o
      | none => .error swNoSubindex

/-- Life-cycle states (R448). -/
def lifecycle (s : State) : Nat := odGet s K.secLifecycleState
def lcBlank : Nat := 0
def lcProvisioned : Nat := 1
def lcService : Nat := 2
def lcReturn : Nat := 3
def lcDisposed : Nat := 4

/-- What a request wants of an object: to read it, or to write it with some bytes. -/
inductive Wish where
  | read (offset length : Nat)
  | write (value : List Byte)
deriving DecidableEq, Repr

def Wish.isRead : Wish → Bool
  | .read _ _ => true
  | .write _ => false

/-- What the mailbox of a virtual function reaches (R461). -/
def vfMay (s : State) (fn k : Nat) (w : Wish) : Bool :=
  match w with
  | .read off len =>
    decide (0x1000 ≤ k / 256 ∧ k / 256 ≤ 0x10FF) || k == K.secAttestationReport ||
      (k == K.sessSessionTable &&
        (len == 0 || (decide (32 * (sessRange s fn).1 ≤ off) &&
          decide (off + len ≤ 32 * ((sessRange s fn).1 + (sessRange s fn).2)))))
  | .write v =>
    k == K.secAttest || ((k == K.wtUnload || k == K.wtReleaseHost) && (wsetOf s (leNat v)).owner == fn)

/-- May a session reach an object (R461, R477, R448)? -/
def permitted (s : State) (m : Mgmt) (k : Nat) (w : Wish) : Bool :=
  let lc := lifecycle s
  let diag := decide (0xE000 ≤ k / 256 ∧ k / 256 ≤ 0xE0FF)
  let byLife :=
    if lc = lcDisposed then w.isRead && (k == K.secLifecycleState || k == K.fabModuleId)
    else if lc = lcReturn then m.balhel && (w.isRead || diag || k == K.secLcRequest)
    else !diag
  let byClaim := !m.claim || decide (k / 256 = 0xC000)
  let byFn := match m.transport with
    | .mailbox fn => decide (fn % 64 = 0) || vfMay s fn k w
    | .udp _ _ => true
  byLife && byClaim && byFn

/-- The firmware objects of R445. -/
def firmwareObject (k : Nat) : Bool := k == K.secFwImage || k == K.secFwActivate

/-- The checks before an object's own: the object exists, the session reaches it, the module is ready. -/
def gate (s : State) (m : Mgmt) (index sub : Nat) (w : Wish) : Except Nat Obj :=
  let k := index * 256 + sub
  match findObject index sub with
  | .error e => .error e
  | .ok o =>
    if !(permitted s m k w) then .error swPermission
    else if !w.isRead ∧ !(moduleReady s) ∧ !(firmwareObject k) then .error swNotReady
    else .ok o

/-- Operations without an object: COMMIT and ABORT. A virtual function's mailbox and a session in RETURN do not
reach them. -/
def setGate (s : State) (m : Mgmt) : Nat :=
  let vf := match m.transport with
    | .mailbox fn => decide (fn % 64 ≠ 0)
    | .udp _ _ => false
  if vf || decide (lifecycle s ≥ lcReturn) then swPermission else if !(moduleReady s) then swNotReady else 0

/-! ## Values -/

/-- The bounds of a scalar's object (R476); a zero of either sign is a zero. -/
def scalarInRange (s : State) (o : Obj) (k v : Nat) : Bool :=
  let v := if o.type = .f32 ∧ v = 0x80000000 then 0 else v
  decide (o.lo ≤ v ∧ v ≤ o.hi) &&
    (if k = K.arrMonitorThreshold then decide (v ≤ odGet s K.arrMonitorWindow)
     else if o.index = 0x4000 ∧ o.sub = 0x0F then decide (v % 256 = 0)
     else if o.index = 0x4000 ∧ o.sub = 0x12 then decide (v % 65536 = 0)
     else if k = K.yldLinkRetrain then decide (v < linkCount)
     else if k = K.sessEndSession then decide (v < 4096)
     else true)

/-- Elements of `w` bytes. -/
def elements (w : Nat) (v : List Byte) : List Nat := (List.range (v.length / w)).map (fun i => fieldLe v (w * i) w)

def risingNat : List Nat → Bool
  | a :: b :: r => decide (a < b) && risingNat (b :: r)
  | _ => true

/-- The element ranges of a DOMAIN value (R476); sessions, blocks and clusters named are those of R7 (R10). -/
def domainInRange (s : State) (o : Obj) (k : Nat) (v : List Byte) : Bool :=
  if k = K.pwrCoreTarget then
    (elements 2 v).all (fun t => decide (550 ≤ t ∧ t ≤ odGet s K.gradeCoreRailCeiling))
  else if k = K.heatJunctionThresholds then (elements 1 v).all (fun t => decide (60 ≤ t ∧ t ≤ 110)) && risingNat (elements 1 v)
  else if k = K.heatStackThresholds then (elements 1 v).all (fun t => decide (60 ≤ t ∧ t ≤ 100)) && risingNat (elements 1 v)
  else if k = K.wtRegionFrames then (elements 4 v).all (fun n => decide (n ≤ 1464843))
  else if k = K.fabTorusDims then (elements 1 v).all (fun n => decide (1 ≤ n ∧ n ≤ 64))
  else if k = K.pairPartitionMap then (elements 1 v).all (fun n => decide (n < 48 ∨ n = 0xFF))
  else if k = K.pcieTargetRate then (elements 1 v).all (fun n => n == 16 || n == 32 || n == 64)
  else if k = K.sessSessionRanges then
    (List.range (v.length / 4)).all (fun i => fieldLe v (4 * i + 2) 2 == 0 || decide (fieldLe v (4 * i) 2 + fieldLe v (4 * i + 2) 2 ≤ 4096))
  else if k = K.pcieRingRanges then
    (List.range (v.length / 4)).all (fun i => fieldLe v (4 * i + 2) 2 == 0 || decide (fieldLe v (4 * i) 2 + fieldLe v (4 * i + 2) 2 ≤ 32768))
  else if o.index = 0x4000 ∧ o.sub = 0x1A then
    (List.range (v.length / 16)).all (fun i => fieldLe v (16 * i) 1 != 2 || decide (fieldLe v (16 * i + 8) 1 < 144))
  else if o.index = 0x4000 ∧ o.sub = 0x22 then
    decide (fieldLe v 0 1 < 24 ∧ fieldLe v 1 1 < 36 ∧ fieldLe v 0 1 + fieldLe v 2 1 ≤ 24 ∧ fieldLe v 1 1 + fieldLe v 3 1 ≤ 36)
  else if o.index = 0x4000 ∧ o.sub = 0x17 then (elements 2 v).all (fun n => decide (n < 4096 ∨ n = 0xFFFF))
  else true

/-- The lengths a DOMAIN value may have: that of its layout; a box may be empty, and a key table, a lap program
and a firmware image have the length of what they hold. -/
def domainLength (o : Obj) (k n : Nat) : Bool :=
  if k = K.secOperatorKeys then n % 2600 == 0
  else if k = K.secFwImage ∨ (o.index = 0x4000 ∧ o.sub = 0x23) then true
  else if k = K.relayRelayBox ∨ (o.index = 0x4000 ∧ o.sub = 0x1C) then n == 0 || n == 6
  else n == o.size

/-- The status of a scalar value (R475, R476). -/
def scalarStatus (s : State) (o : Obj) (k : Nat) (v : List Byte) : Nat :=
  if v.length ≠ widthOf o.type then swType
  else if !(scalarInRange s o k (leNat v)) then swRange
  else 0

/-- Objects that are writable only while their partition is EMPTY (R478). -/
def emptyOnly (o : Obj) : Bool := o.index == 0x4000 && [0x17, 0x1A, 0x1B, 0x1C, 0x22, 0x23].contains o.sub

/-- The rule of an RW object (R330, R478): false refuses with STATE. -/
def ownRule (s : State) (o : Obj) (k v : Nat) : Bool :=
  if emptyOnly o then !(partOf s (k / 256 - 0x4000)).loaded
  else if k = K.pairHeartbeatInterval then
    decide (pairState s = 0) && decide (8 * v ≤ odGet s K.pairHeartbeatTimeout)
  else if k = K.pairHeartbeatTimeout then
    decide (pairState s = 0) && decide (8 * odGet s K.pairHeartbeatInterval ≤ v)
  else true

/-! ## READ, STAGE, ABORT -/

/-- READ (R474, R475). -/
def runRead (rq : Rq) (index sub : Nat) (s : State) : State × Option Answer :=
  let m := mgmtOf s rq.session
  let k := index * 256 + sub
  match gate s m index sub (.read 0 0) with
  | .error e => (s, some { status := e })
  | .ok o =>
    if o.access = .wo ∨ o.access = .cmd then (s, some { status := swAccess })
    else if sub = 0 then (s, some { data := natLe (objHighest index) 1 })
    else
      let v := objValue s m o k
      (s, some { data := if o.type = .domain then natLe v.length 4 else v })

def effRead (s : State) (rq : Rq) (index sub : Nat) : State := request s rq 0x01 index sub (runRead rq index sub)

/-- Bytes of the DOMAIN values staged (R479). -/
def stagedBytes (m : Mgmt) (k : Nat) : Nat :=
  ((m.staged.filter (fun e => e.1 != k && isDomain e.1)).map (fun e => e.2.length)).foldl (· + ·) 0

/-- Put a value into the staged set, replacing an earlier one of its object; none where it is full (R479). -/
def stageValue (m : Mgmt) (k : Nat) (v : List Byte) : Option Mgmt :=
  let rest := m.staged.filter (fun e => e.1 != k)
  if rest.length ≥ 256 ∨ (isDomain k ∧ stagedBytes m k + v.length > 2 ^ 20) then none
  else some { m with staged := rest ++ [(k, v)] }

/-- STAGE (R474, R476, R479). -/
def runStage (rq : Rq) (index sub : Nat) (v : List Byte) (s : State) : State × Option Answer :=
  let m := mgmtOf s rq.session
  let k := index * 256 + sub
  match gate s m index sub (.write v) with
  | .error e => (s, some { status := e })
  | .ok o =>
    if o.access ≠ .rws ∨ o.type = .domain then (s, some { status := swAccess })
    else
      let st := scalarStatus s o k v
      if st ≠ 0 then (s, some { status := st })
      else match stageValue m k v with
        | none => (s, some { status := swTooLarge })
        | some m => (setMgmt s rq.session m, some { data := natLe m.staged.length 2 })

def effStage (s : State) (rq : Rq) (index sub : Nat) (v : List Byte) : State :=
  request s rq 0x03 index sub (runStage rq index sub v)

/-- The partial value of an object is discarded (R478). -/
def dropWriting (m : Mgmt) (k : Nat) : Mgmt := { m with writing := m.writing.filter (fun w => w.key != k) }

/-- ABORT (R474, R479). -/
def runAbort (rq : Rq) (s : State) : State × Option Answer :=
  let m := mgmtOf s rq.session
  let st := setGate s m
  if st ≠ 0 then (s, some { status := st })
  else (setMgmt s rq.session { m with staged := [] }, some { data := natLe m.staged.length 2 })

def effAbort (s : State) (rq : Rq) : State := request s rq 0x05 0 0 (runAbort rq)

/-! ## SEGMENT reads (R478) -/

def segmentMax : Transport → Nat
  | .udp _ _ => 1024
  | .mailbox _ => 16256

/-- Objects frozen for a session by a read of their offset 0. -/
def freezes (k : Nat) : Bool := k == K.pwrReport || k == K.secAttestationReport

/-- Bytes of the module's random source. -/
def drawBytes (s : State) : Nat → List Byte × State
  | 0 => ([], s)
  | n + 1 =>
    let d := drawFree s
    let r := drawBytes d.2 n
    (natLe (Config.randomWord d.1).toNat 8 ++ r.1, r.2)

/-- A read of lc_challenge from its beginning makes a new challenge (R449). -/
def newChallenge (s : State) (bytes : List Byte) : State :=
  { s with security := { s.security with challenge := some bytes } }

/-- Before a segment of an object is read from its beginning. -/
def beginRead (s : State) (i k : Nat) (o : Obj) : State :=
  if k = K.secLcChallenge then
    let r := drawBytes s 8
    newChallenge r.2 r.1
  else if freezes k then
    let m := mgmtOf s i
    setMgmt s i { m with frozen := m.frozen.filter (fun e => e.1 != k) ++ [(k, objValue s m o k)] }
  else s

/-- The value a segment is read from: the frozen one, if the session holds one. -/
def segmentValue (s : State) (i k : Nat) (o : Obj) : List Byte :=
  match (mgmtOf s i).frozen.find? (fun e => e.1 == k) with
  | some e => e.2
  | none => objValue s (mgmtOf s i) o k

/-- SEGMENT, a read. -/
def runSegmentRead (rq : Rq) (index sub offset length : Nat) (s : State) : State × Option Answer :=
  let m := mgmtOf s rq.session
  let k := index * 256 + sub
  match gate s m index sub (.read offset length) with
  | .error e => (s, some { status := e })
  | .ok o =>
    if o.type ≠ .domain ∨ o.access = .wo ∨ o.access = .cmd then (s, some { status := swAccess })
    else if length > segmentMax m.transport then (s, some { status := swTooLarge })
    else
      let s := if offset = 0 then beginRead s rq.session k o else s
      let v := segmentValue s rq.session k o
      (s, some { data := natLe offset 4 ++ natLe v.length 4 ++ slice v offset length })

def effSegmentRead (s : State) (rq : Rq) (index sub offset length : Nat) : State :=
  request s rq 0x06 index sub (runSegmentRead rq index sub offset length)

/-! ## Subscriptions (R481) -/

def periodFloor : Transport → Nat
  | .udp _ _ => 10
  | .mailbox _ => 1

/-- SUBSCRIBE. -/
def runSubscribe (rq : Rq) (index sub period : Nat) (s : State) : State × Option Answer :=
  let m := mgmtOf s rq.session
  let k := index * 256 + sub
  match gate s m index sub (.read 0 0) with
  | .error e => (s, some { status := e })
  | .ok o =>
    if o.access = .wo ∨ o.access = .cmd then (s, some { status := swAccess })
    else
      let rest := m.subs.filter (fun e => e.1 != k)
      if period = 0xFFFFFFFF then (setMgmt s rq.session { m with subs := rest }, some {})
      else if rest.length ≥ 16 then (s, some { status := swTooLarge })
      else
        let t := if period = 0 then 0 else Nat.max period (periodFloor m.transport)
        (setMgmt s rq.session { m with subs := rest ++ [(k, t)] }, some {})

def effSubscribe (s : State) (rq : Rq) (index sub period : Nat) : State :=
  request s rq 0x07 index sub (runSubscribe rq index sub period)

/-- The data of a notification after its count: the value, or a DOMAIN's generation and size. -/
def notifyData (s : State) (m : Mgmt) (o : Obj) (k : Nat) : List Byte × State :=
  if o.sub = 0 then (natLe (objHighest (k / 256)) 1, s)
  else if o.type ≠ .domain then (objValue s m o k, s)
  else
    let size := natLe (objValue s m o k).length 4
    if k = K.pwrReport then (natLe (odGet s K.pwrReportTick) 8 ++ size, s)
    else
      let d := drawFree s
      (natLe (Config.generation d.1) 8 ++ size, d.2)

/-- NOTIFY: a subscribed object's notification is sent, or dropped beyond the rate of R483. -/
def effNotify (s : State) (i index sub : Nat) (overRate : Bool) : State :=
  let m := mgmtOf s i
  let k := index * 256 + sub
  match findObject index sub with
  | .error _ => s
  | .ok o =>
    if !m.isOpen ∨ !(mpUp s) ∨ !(m.subs.any (fun e => e.1 == k)) then s
    else if overRate then bump s K.mgmtNotifyDrops
    else
      let d := notifyData s m o k
      let n := m.notified + 1
      let s := setMgmt d.2 i { m with notified := n }
      endIfSpent (deliver s i (.swNotify i n index sub d.1)
        (natLe 0x88 1 ++ [0] ++ natLe index 2 ++ natLe sub 1 ++ [0, 0, 0] ++ natLe n 4 ++ d.1)) i

/-! ## Ends, timers and the mailbox -/

/-- A partial write with no segment for 5 s is discarded (R478). -/
def effSegmentAbandon (s : State) (i k : Nat) : State := setMgmt s i (dropWriting (mgmtOf s i) k)

/-- The freeze of an object ends (R478). -/
def effFreezeExpiry (s : State) (i k : Nat) : State :=
  setMgmt s i { mgmtOf s i with frozen := (mgmtOf s i).frozen.filter (fun e => e.1 != k) }

/-- MAILBOX_REQUEST: a write to req_len (R460). -/
def effMailboxRequest (s : State) (fn length : Nat) : State :=
  updFn s fn (fun x =>
    if x.busy ∨ length = 0 ∨ length > 16384 then { x with ignored := x.ignored + 1 }
    else { x with busy := true, requests := x.requests + 1 })

/-- RSP_ACK (R460). -/
def effRspAck (s : State) (fn value : Nat) : State :=
  if value = 1 then updFn s fn (fun x => { x with reply := [] }) else s

/-- READ (R474). -/
def execRead (rq : Rq) (index sub : Nat) (s : State) : Result := .next (effRead s rq index sub)
/-- STAGE (R474, R479). -/
def execStage (rq : Rq) (index sub : Nat) (v : List Byte) (s : State) : Result := .next (effStage s rq index sub v)
/-- ABORT (R474, R479). -/
def execAbort (rq : Rq) (s : State) : Result := .next (effAbort s rq)
/-- SEGMENT, read (R478). -/
def execSegmentRead (rq : Rq) (index sub offset length : Nat) (s : State) : Result :=
  .next (effSegmentRead s rq index sub offset length)
/-- SEGMENT_ABANDON (R478). -/
def execSegmentAbandon (session index sub : Nat) (s : State) : Result :=
  .next (effSegmentAbandon s session (index * 256 + sub))
/-- SUBSCRIBE (R481). -/
def execSubscribe (rq : Rq) (index sub period : Nat) (s : State) : Result := .next (effSubscribe s rq index sub period)
/-- NOTIFY (R481). -/
def execNotify (session index sub : Nat) (overRate : Bool) (s : State) : Result :=
  .next (effNotify s session index sub overRate)
/-- SWIUTH_CLOSE: a close message from the client (R472). -/
def execSwiuthClose (session : Nat) (s : State) : Result := .next (dropMgmt s session)
/-- IDLE_TIMEOUT (R472). -/
def execIdleTimeout (session : Nat) (s : State) : Result := .next (closeMgmt s session)
/-- MANAGEMENT_SESSION_EXPIRY (R447). -/
def execManagementSessionExpiry (session : Nat) (s : State) : Result := .next (closeMgmt s session)
/-- REPORT_FREEZE_EXPIRY (R342, R478). -/
def execReportFreezeExpiry (session index : Nat) (s : State) : Result :=
  .next (effFreezeExpiry s session (if index = 0x2100 then K.pwrReport else K.secAttestationReport))
/-- MAILBOX_REQUEST (R460). -/
def execMailboxRequest (fn length : Nat) (s : State) : Result := atFn fn (effMailboxRequest s fn length)
/-- RSP_ACK (R460). -/
def execRspAck (fn value : Nat) (s : State) : Result := atFn fn (effRspAck s fn value)
/-- DROPPED_DATAGRAM (R469, R483). -/
def execDroppedDatagram (_cause : DropCause) (s : State) : Result := .next (bump s K.mgmtDroppedDatagrams)
/-- UNKNOWN_OP_REQUEST (R482). -/
def execUnknownOpRequest (rq : Rq) (op : Nat) (s : State) : Result :=
  .next (request s rq op 0 0 (fun s => (s, some { status := swBadOp })))

end Sys2Proof.Machine
end

