-- ==== Sys2Proof/Machine/Manage.lean ====
section
/-! DEFINITION. Writes to the command objects of the dictionary (R474, R476): the checks that all of them share,
and the actions of those that need nothing but the state. -/

namespace Sys2Proof.Machine

/-! ## A WRITE to a command object -/

/-- What an action answers: the state after it, or the status and the detail of its refusal (R473, R482). -/
abbrev Act := Except (Nat × Nat) State

/-- Refused by the object's own rule. -/
def refuse : Act := .error (swState, 0)

/-- The bytes of a value of `w` bytes; a number that does not fit has the wrong length. -/
def valueBytes (w v : Nat) : List Byte := if v < 256 ^ w then natLe v w else natLe v (w + 1)

/-- A WRITE to a CMD object: it exists, the session reaches it, the value has its type and lies in its range, and
the object's own rule lets the action go on (R476). -/
def runCmd (rq : Rq) (k : Nat) (v : List Byte) (act : State → Act) (s : State) : State × Option Answer :=
  match gate s (mgmtOf s rq.session) (k / 256) (k % 256) (.write v) with
  | .error e => (s, some { status := e })
  | .ok o =>
    let st := if o.access ≠ .cmd then swAccess else scalarStatus s o k v
    if st ≠ 0 then (s, some { status := st })
    else match act s with
      | .error e => (s, some { status := e.1, detail := e.2 })
      | .ok t => (t, some {})

/-- Width in bytes of a command object's value. -/
def cmdWidth (k : Nat) : Nat :=
  match objOf k with
  | some o => widthOf o.type
  | none => 1

/-- A WRITE of a number to a CMD object. -/
def cmdWrite (s : State) (rq : Rq) (k value : Nat) (act : State → Act) : State :=
  request s rq 0x02 (k / 256) (k % 256) (runCmd rq k (valueBytes (cmdWidth k) value) act)

/-- An action that a write of 1 starts; a write of 0 has no effect. -/
def onOne (value : Nat) (act : State → Act) (s : State) : Act := if value = 0 then .ok s else act s

/-! ## Actions -/

/-- Every chain of the loaded partitions is queued for calibration (R128, R137). -/
def queueEveryChain (s : State) : State :=
  (s.parts.filter (fun e => e.2.loaded)).foldl (fun s e =>
    (partOf s e.1).clusters.foldl (fun s cl =>
      (clusterChains s cl).foldl (fun s c => queueCalibration s c.1 c.2) s) s) s

/-- Every object of an index from one subindex to another becomes 0. -/
def zeroObjects (s : State) (index lo hi : Nat) : State :=
  ((List.range (hi + 1)).drop lo).foldl (fun s sub => odSet s (index * 256 + sub) 0) s

/-- Lap statistics 01 to 0E become 0 (R63, R64); the mean starts over. -/
def clearLapStats (s : State) (p : Nat) : State :=
  updPart (zeroObjects s (0x4100 + p) 1 14) p (fun x => { x with lapTimes := [] })

/-- A session that is open ends with CANCELLED; a FREE or ENDING one refuses (R276). -/
def endNamedSession (sess : Nat) (s : State) : Act :=
  if (sessOf s sess).shown = .free ∨ (sessOf s sess).shown = .ending then refuse
  else .ok (endSession s sess stCancelled)

/-- A set is unloaded (R221, R231). -/
def unloadNamedSet (set : Nat) (s : State) : Act :=
  match unloadSet s set with
  | .ok t => .ok t
  | .error busy => .error (swState, if busy then stWeightBusy else 0)

/-- The host bundle is no longer a repair source (R219). -/
def releaseBundle (set : Nat) (s : State) : Act := .ok (updWset s set (fun w => { w with retained := false }))

/-- A partition reset is refused while the partition is EMPTY or RESETTING (R391). -/
def resetNamedPartition (p : Nat) (s : State) : Act :=
  if (partOf s p).state = .empty ∨ (partOf s p).state = .resetting then refuse else .ok (resetPartition s p)

/-- A stack that a partition with class-0 lanes uses is not retrained (R392). -/
def retrainNamedStack (b : Nat) (s : State) : Act :=
  if (stackUsers s b).any (hasClass0 s) then refuse else .ok (triggerRetrain s b)

/-- A link, under the class-0 rule (R394). -/
def retrainNamedLink (l : Nat) (s : State) : Act :=
  if (linkOwner s l).toList.any (hasClass0 s) then refuse else .ok (triggerLink s l)

/-- Pairing starts from UNPAIRED alone. -/
def attachNow (twin : TwinInfo) (s : State) : Act :=
  if pairState s ≠ 0 then refuse else .ok (startAttach s twin)

/-- A drain hands mirrored rings to the twin, so it needs one. -/
def drainNow (s : State) : Act := if mirroring s then .ok (drainOn (startDrain s)) else refuse

/-- The kept BLOCK entry of cause 1, a short (R338, R384). -/
def shortEntry (b : Nat) (e : YieldEntry) : Bool := e.type == 9 && e.location == b && e.source == 2 && e.unit == 1

/-- The entry of a short goes; a block without one refuses (R512). -/
def clearShort (b : Nat) (s : State) : Act :=
  if s.yield.entries.any (shortEntry b) then
    .ok { s with yield := { s.yield with
      generation := s.yield.generation + 1, entries := s.yield.entries.filter (fun e => !(shortEntry b e)) } }
  else refuse

/-! ## The commands -/

/-- CALIBRATE_ALL (R128, R137). -/
def execCalibrateAll (rq : Rq) (value : Nat) (s : State) : Result :=
  .next (cmdWrite s rq K.arrCalibrateAll value (onOne value (fun s => .ok (queueEveryChain s))))
/-- PRECISION_CLEAR (R172). -/
def execPrecisionClear (rq : Rq) (value : Nat) (s : State) : Result :=
  .next (cmdWrite s rq K.numClear value (onOne value (fun s => .ok (zeroObjects s 0x7100 2 12))))
/-- LAP_STATISTICS_CLEAR (R64). -/
def execLapStatisticsClear (rq : Rq) (p value : Nat) (s : State) : Result :=
  .next (cmdWrite s rq (K.statClear p) value (onOne value (fun s => .ok (clearLapStats s p))))
/-- END_SESSION (R276). -/
def execEndSession (rq : Rq) (session : Nat) (s : State) : Result :=
  .next (cmdWrite s rq K.sessEndSession session (endNamedSession session))
/-- WEIGHT_UNLOAD (R221, R231). -/
def execWeightUnload (rq : Rq) (set : Nat) (s : State) : Result :=
  .next (cmdWrite s rq K.wtUnload set (unloadNamedSet set))
/-- RELEASE_HOST (R219). -/
def execReleaseHost (rq : Rq) (set : Nat) (s : State) : Result :=
  .next (cmdWrite s rq K.wtReleaseHost set (releaseBundle set))
/-- PORT_RETRAIN (R290). -/
def execPortRetrain (rq : Rq) (port : Nat) (s : State) : Result :=
  .next (cmdWrite s rq K.fabRetrain port (fun s => .ok (retrainPort s port)))
/-- ATTACH (R309, R325). -/
def execAttach (rq : Rq) (value : Nat) (config : TwinConfig) (parts : List TwinPart) (s : State) : Result :=
  .next (cmdWrite s rq K.pairAttach value (onOne value (attachNow { toTwinConfig := config, parts := parts })))
/-- DETACH (R327). -/
def execDetach (rq : Rq) (value : Nat) (s : State) : Result :=
  .next (cmdWrite s rq K.pairDetach value (onOne value (fun s => .ok (startDetach s))))
/-- DRAIN (R326). -/
def execDrain (rq : Rq) (value : Nat) (s : State) : Result :=
  .next (cmdWrite s rq K.pairDrain value (onOne value drainNow))
/-- PARTITION_RESET (R391). -/
def execPartitionReset (rq : Rq) (p value : Nat) (s : State) : Result :=
  .next (beginTransition (cmdWrite s rq (K.partPartitionReset p) value (onOne value (resetNamedPartition p))))
/-- STACK_RETRAIN (R392). -/
def execStackRetrain (rq : Rq) (block : Nat) (s : State) : Result :=
  .next (cmdWrite s rq K.yldStackRetrain block (retrainNamedStack block))
/-- LINK_RETRAIN (R394). -/
def execLinkRetrain (rq : Rq) (link : Nat) (s : State) : Result :=
  .next (cmdWrite s rq K.yldLinkRetrain link (retrainNamedLink link))
/-- RECORDER_CLEAR (R435). -/
def execRecorderClear (rq : Rq) (value : Nat) (s : State) : Result :=
  .next (cmdWrite s rq K.recClear value (onOne value (fun s => .ok (effClearLog s))))
/-- FLUSH_NOW (R436). -/
def execFlushNow (rq : Rq) (value : Nat) (s : State) : Result :=
  .next (cmdWrite s rq K.recFlushNow value (onOne value (fun s => .ok (startFlush s))))
/-- CLEAR_BLOCK_ENTRY (R512). -/
def execClearBlockEntry (rq : Rq) (block : Nat) (s : State) : Result :=
  .next (cmdWrite s rq K.diagClearBlockEntry block (clearShort block))

end Sys2Proof.Machine
end

