-- ==== Sys2Proof/Machine/Loader.lean ====
section
/-! DEFINITION. The loader's checks (R493), in its order: signature, program limits, rectangle, overlap, blocks,
write map and channel table, power tokens, core-count variants, class-0 reservation. A rule about a descriptor is
checked for every value that a command may meet in it. -/

namespace Sys2Proof.Machine

/-! ## What a load looks at -/

/-- Where a shape would be placed. -/
structure Placing where
  ox : Nat := 0
  oy : Nat := 0
  width : Nat := 0
  height : Nat := 0
deriving DecidableEq, Repr

def Placing.clusters (r : Placing) : List Nat := rectClusters r.ox r.oy r.width r.height
def Placing.blocks (r : Placing) : List Nat := rectBlocks r.ox r.oy r.width r.height

/-- The rectangle written for a partition. -/
def placingOf (s : State) (p : Nat) : Placing :=
  let f (i : Nat) := domField s (K.partRectangle p) i 1
  { ox := f 0, oy := f 1, width := f 2, height := f 3 }

/-- A block of the shape (R194). -/
def shapeBlock (r : Placing) (i : Nat) : Nat := shapeBlockAt r.ox r.oy r.width i

/-- A cluster of the shape. -/
def shapeCluster (r : Placing) (dx dy : Nat) : Nat := (r.oy + dy) * 24 + r.ox + dx

/-! ## Program limits of a core (R72, R88, R119, R152, R153) -/

/-- Do no two elements of a list meet? -/
def apart {α : Type} (meet : α → α → Bool) : List α → Bool
  | [] => true
  | x :: r => r.all (fun y => !(meet x y)) && apart meet r

/-- Bank modes (R88): cache banks are the highest-numbered. -/
def banksOk (c : CoreProgram) : Bool :=
  [0, 1, 2, 4, 8, 16].contains c.cacheBanks && c.offBanks.all (fun b => decide (b + c.cacheBanks < 32)) &&
    apart (fun a b => a == b) c.offBanks && decide (16 + c.cacheBanks + c.offBanks.length ≤ 32)

/-- The chain table (R119). -/
def chainTableOk (c : CoreProgram) : Bool :=
  decide (c.chains.length ≤ 8) && c.chains.all (fun x => decide (1 ≤ x.count ∧ x.first + x.count ≤ 32)) &&
    apart (fun (a b : Chain) => decide (a.first < b.first + b.count ∧ b.first < a.first + a.count)) c.chains

/-- BF16 codes that are at least zero. -/
def atLeastZero (v : Nat) : Bool := decide (v ≤ 0x7F80) || v == 0x8000

/-- A precision entry (R152, R153). -/
def precisionOk (e : BitVec 128) : Bool :=
  let f := pField e 3 0
  let g := pGroup e
  decide (f ≤ 11) && f != 9 && f != 10 && decide (pRounding e ≤ 2) && decide (pCandidates e ≤ 30) &&
    decide (pFeedback e ≤ 2) && g % 32 == 0 && decide (g ≤ 2016) && pField e 31 30 == 0 &&
    (!(pFmt e).blockScaled || g == 32) &&
    atLeastZero (pField e 47 32) && atLeastZero (pField e 63 48) && atLeastZero (pField e 79 64) &&
    atLeastZero (pField e 95 80) && decide (0x3F80 ≤ pField e 111 96 ∧ pField e 111 96 ≤ 0x7F80) &&
    (decide (pField e 127 112 ≤ 0x3F80) || pField e 127 112 == 0x8000)

/-- The tables that a core carries. -/
def tablesOk (g : LapProgram) (c : CoreProgram) : Bool :=
  decide (c.dx < g.width ∧ c.dy < g.height) && decide (c.core < c.variant) && g.variants.contains c.variant &&
    banksOk c && chainTableOk c && decide (c.precision.length ≤ 64) && c.precision.all precisionOk &&
    c.staticLists.all (fun x => decide (x.1 < 64)) && decide (c.envelopes.length ≤ 64)

/-! ## The walk over a body -/

/-- What a walk over a body of commands has seen. -/
structure BodyWalk where
  /-- Values that each descriptor set so far may hold; a DESC inside a block that may be skipped adds one. -/
  descs : KV (List W64) := []
  /-- Values that the core's bodies leave in the descriptors: what a body finds before it sets them. -/
  carried : KV (List W64) := []
  /-- Banks in off mode that BANK_POWER has switched on. -/
  on : List Nat := []
  /-- The arrive of a split pair whose wait has not come (R75). -/
  split : Option HurdleArgs := none
  /-- Last hurdle waited for: the phase (R28). -/
  phase : Option Nat := none
  hurdles : Nat := 0
  checkpoints : Nat := 0
  /-- The last hurdle met was the verdict hurdle. -/
  verdict : Bool := false
  /-- Commands left of a fallback or widening block (R124, R166). -/
  block : Nat := 0
  /-- Every program limit has held; every rule of the write map has held. -/
  limits : Bool := true
  writes : Bool := true
  /-- Fields of the token vector that a phase needs (R345), and edge channels named. -/
  needs : List (Nat × Nat) := []
  channels : List Nat := []
deriving DecidableEq, Repr

/-- Values that a command may meet in a descriptor: those set in its body, else those a body leaves, else 0. -/
def BodyWalk.values (w : BodyWalk) (i : Nat) : List W64 :=
  match kvFind w.descs i with
  | some l => l
  | none => (kvFind w.carried i).getD [0]

/-- A rule about the format of an operand, where there is one. -/
def BodyWalk.fmt (w : BodyWalk) (i : BitVec 6) (f : Fmt → Bool) : Bool :=
  i == noDesc || (w.values i.toNat).all (fun d => f (dFmt d))

/-- An area holds so many granules. -/
def BodyWalk.holds (w : BodyWalk) (i : BitVec 6) (n : Nat) : Bool :=
  (w.values i.toNat).all (fun d => decide (n ≤ areaGranules d))

/-- A DESC: inside a block that may be skipped, the old values stay possible. -/
def BodyWalk.set (w : BodyWalk) (a : DescArgs) : BodyWalk :=
  let i := a.index.toNat
  { w with descs := kvPut w.descs i (if w.block = 0 then [a.desc] else w.values i ++ [a.desc]) }

/-- Banks of a descriptor's area, both halves of a paired one (R72, R73). -/
def areaBanks (d : W64) : List Nat :=
  let n := List.range (2 ^ dStripe d)
  n.map (dBase d + ·) ++ if dPaired d then n.map (dAlt d + ·) else []

/-- A bank that a descriptor may name: not in cache mode, and not in off mode until BANK_POWER has switched it
on (R72, R88). -/
def bankUsable (c : CoreProgram) (w : BodyWalk) (b : Nat) : Bool :=
  decide (b + c.cacheBanks < 32) && (!(c.offBanks.contains b) || w.on.contains b)

/-- A weight-set handle (R215). -/
def handleOk (h : Nat) : Bool := decide (h < 16) || decide (0xF000 ≤ h)

def placeHandleOk : StackPlace → Bool
  | .phys _ _ => true
  | .set h _ => handleOk h.toNat

def dmaHandleOk : DmaStack → Bool
  | .set h _ => handleOk h.toNat
  | _ => true

/-- Formats of an array's weights and inputs (R118, R120). -/
def arrayFmt : Fmt → Bool
  | .ternary | .int2 | .int4 => true
  | _ => false

def outFmt : Fmt → Bool
  | .bf16 | .fp32 => true
  | _ => false

def isFp32 : Fmt → Bool
  | .fp32 => true
  | _ => false

def isBf16 : Fmt → Bool
  | .bf16 => true
  | _ => false

/-- MMA (R78, R140). -/
def mmaOk (w : BodyWalk) (a : MmaArgs) : Bool :=
  let scaled := !(w.fmt a.a (fun f => !f.blockScaled)) || !(w.fmt a.w (fun f => !f.blockScaled))
  w.fmt a.a (fun f => !(isFp32 f)) && w.fmt a.w (fun f => !(isFp32 f)) && w.fmt a.out outFmt &&
    (!a.accumulate || w.fmt a.out isFp32) && (!scaled || (a.k.toNat % 32 == 0 && a.scale != noDesc))

/-- ARR_MVM (R118, R119). -/
def arrMvmOk (c : CoreProgram) (w : BodyWalk) (a : ArrMvmArgs) : Bool :=
  w.fmt a.inp arrayFmt && w.fmt a.out outFmt && (!a.accumulate || w.fmt a.out isFp32) &&
    c.chains.any (fun x => x.first == a.firstArray.toNat && x.count == a.count.toNat)

/-- ARR_WRITE (R120, R215): the repair source counts only where the contents persist. -/
def arrWriteOk (w : BodyWalk) (a : ArrWriteArgs) : Bool :=
  w.fmt a.src arrayFmt &&
    (!a.persist || (match a.repair with
      | .phys _ _ => true
      | .set h _ => decide (h.toNat < 16)))

/-- ATTN (R179, R183, R186). -/
def attnOk (g : LapProgram) (w : BodyWalk) (op : BitVec 2) (a : AttnArgs) : Bool :=
  let need := ceilDiv (8 * (g.largestBlock * (a.group.toNat + 1)) + 262144) 64
  (op == 2#2 || w.fmt a.q isBf16) && (op == 1#2 || w.fmt a.out outFmt) && w.holds a.kvbuf 2112 &&
    (a.sel == 1#2 || decide (g.largestBlock ≤ 8192) || (a.work != noDesc && w.holds a.work need))

/-- CHECK's block length (R164, R166): a sampled CHECK at layer scope has no block. -/
def checkOk (c : CoreProgram) (w : BodyWalk) (a : VecArgs) : Bool :=
  let e := getAt 0 c.precision (a.param.toNat % 64)
  a.imm == 0#16 && w.fmt a.a isBf16 && w.fmt a.b (fun f => !(isFp32 f)) && w.fmt a.c isFp32 && w.fmt a.dst outFmt &&
    (if a.param.toNat / 64 ≠ 31 ∧ pScope e = 1 then a.rows == 1#16 else decide (a.rows.toNat ≤ 4096))

/-- QUANT (R153). -/
def quantOk (c : CoreProgram) (w : BodyWalk) (a : VecArgs) : Bool :=
  let e := getAt 0 c.precision a.param.toNat
  let list := ((c.staticLists.find? (fun x => x.1 == a.param.toNat)).map (·.2)).getD []
  a.imm == 0#16 && w.fmt a.a isBf16 && w.fmt a.b isBf16 && w.fmt a.dst (fun f => decide (f = pFmt e)) && ((a.b == noDesc) == (pFeedback e == 0)) &&
    (!([1, 3].contains (pOutlier e)) || decide (list.length ≤ a.length.toNat / 64))

/-- VEC (R139, R140): operands and results are BF16 or FP32, but for QUANT's result, what DEQUANT expands, CHECK's
weights, and the lists, scales and pairs that have a layout of their own. -/
def vecOk (c : CoreProgram) (w : BodyWalk) (fn : VecFn) (a : VecArgs) : Bool :=
  match fn with
  | .quant => quantOk c w a
  | .check => checkOk c w a
  | .dequant => w.fmt a.dst outFmt
  | .topk => w.fmt a.a outFmt
  | .outlier => w.fmt a.b isBf16 && w.fmt a.dst isFp32
  | _ => w.fmt a.a outFmt && w.fmt a.b outFmt && w.fmt a.c outFmt && w.fmt a.dst outFmt

/-- A HURDLE keeps the split pairs and the place of the verdict hurdle (R75). -/
def hurdleOk (w : BodyWalk) (form : BitVec 2) (a : HurdleArgs) : Bool :=
  !w.verdict &&
    (match w.split with
      | none => form != 2#2
      | some x => form == 2#2 && x.hurdle == a.hurdle && x.checkpoint == a.checkpoint && x.verdict == a.verdict)

/-- Does a command keep every program limit? -/
def limitsOk (g : LapProgram) (c : CoreProgram) (w : BodyWalk) : CoreCmd → Bool
  | .desc a => (areaBanks a.desc).all (bankUsable c w)
  | .hurdle form a => w.block == 0 && hurdleOk w form a
  | .bankPower _ mask => (List.range 32).all (fun b => !(mask.getLsbD b) || decide (b + c.cacheBanks < 32))
  | .mma a => mmaOk w a
  | .arrMvm a => w.block == 0 && arrMvmOk c w a
  | .arrWrite a => arrWriteOk w a
  | .attn op a => attnOk g w op a
  | .vec fn a => vecOk c w fn a
  | .dmaLoad a => dmaHandleOk a.remote
  | .dmaStore a => dmaHandleOk a.remote
  | .gather a => placeHandleOk a.table
  | .nop | .fence _ | .dmaCore _ | .dmaEdgeIn _ | .dmaEdgeOut _ | .dmaWait _ _ | .cinval => true

/-- Does a command keep the write map: nothing is written to a shared region (R100), and key/value writes are
tentative (R199)? -/
def writesOk : CoreCmd → Bool
  | .dmaStore a => match a.remote with
    | .set _ _ => false
    | .session _ _ => a.tentative
    | .phys _ _ => true
  | _ => true

/-- What a command adds to the walk. -/
def walkNote (c : CoreProgram) (w : BodyWalk) : CoreCmd → BodyWalk
  | .desc a => w.set a
  | .hurdle form a =>
    { w with
      split := if form = 1#2 then some a else none
      phase := if form = 1#2 then w.phase else some a.hurdle.toNat
      hurdles := if form = 2#2 then w.hurdles else w.hurdles + 1
      checkpoints := if form ≠ 2#2 ∧ a.checkpoint then w.checkpoints + 1 else w.checkpoints
      verdict := a.verdict }
  | .bankPower true mask => { w with on := w.on ++ (List.range 32).filter (fun b => mask.getLsbD b) }
  | .arrMvm a => { w with block := Nat.max w.block a.fbSkip.toNat }
  | .vec .check a =>
    let e := getAt 0 c.precision (a.param.toNat % 64)
    if a.param.toNat / 64 ≠ 31 ∧ pScope e = 1 then w else { w with block := Nat.max w.block (a.rows.toNat - 1) }
  | .dmaEdgeIn a => { w with channels := a.channel.toNat :: w.channels }
  | .dmaEdgeOut a => { w with channels := a.channel.toNat :: w.channels }
  | _ => w

/-- One command of a body. -/
def walkOne (g : LapProgram) (c : CoreProgram) (w : BodyWalk) (word : CmdWord) : BodyWalk :=
  match decodeCommand word with
  | none => { w with limits := false }
  | some cmd =>
    let ok := w.limits && limitsOk g c w cmd
    let needs := match cmdField cmd, w.phase with
      | some f, some ph => if w.needs.contains (ph, f) then w.needs else (ph, f) :: w.needs
      | _, _ => w.needs
    walkNote c { w with limits := ok, writes := w.writes && writesOk cmd, needs, block := w.block - 1 } cmd

/-- A whole body: its last hurdle is the verdict hurdle, no split pair is left open, and hurdles and checkpoints
are within their limits (R28, R75). -/
def walkBody (g : LapProgram) (c : CoreProgram) (carried : KV (List W64)) (body : List CmdWord) : BodyWalk :=
  let w := body.foldl (walkOne g c) { carried }
  { w with limits := w.limits && w.verdict && w.split.isNone && decide (w.hurdles ≤ 4096) && decide (w.checkpoints ≤ 64) }

/-- The bodies of a core: an even turn, and an odd turn where it has one (R126). -/
def bodies (c : CoreProgram) : List (Bool × List CmdWord) :=
  (false, c.even) :: if c.odd = [] then [] else [(true, c.odd)]

/-- Values that the bodies of a core leave in its descriptors. -/
def leftDescs (g : LapProgram) (c : CoreProgram) : KV (List W64) :=
  (bodies c).foldl (fun m b => (walkBody g c [] b.2).descs.foldl (fun m e =>
    kvPut m e.1 ((kvFind m e.1).getD [] ++ e.2)) m) []

def walksOf (g : LapProgram) : List (CoreProgram × Bool × BodyWalk) :=
  g.cores.flatMap (fun c => (bodies c).map (fun b => (c, b.1, walkBody g c (leftDescs g c) b.2)))

/-! ## Check 2: program limits -/

/-- One token vector per cluster and phase, with no reserved bit (R28, R343). -/
def tokensOk (g : LapProgram) : Bool :=
  apart (fun (a b : TokenVector) => a.odd == b.odd && a.phase == b.phase && a.dx == b.dx && a.dy == b.dy) g.tokens &&
    g.tokens.all (fun t => bitsOf t.vec.toNat 63 40 == 0)

/-- The slot map serves the shapes declared (R216). -/
def slotsOk (s : State) (p : Nat) (g : LapProgram) : Bool :=
  g.slotShapes.all (fun x =>
    let w := wsetOf s (slotOf s p x.1)
    decide (x.1 < 16) && slotOf s p x.1 != 0xFFFF && decide (w.state = .loaded) && w.shapeId == x.2)

def programOk (s : State) (p : Nat) (g : LapProgram) (walks : List (CoreProgram × Bool × BodyWalk)) : Bool :=
  decide (g.hurdles ≤ 4096) && decide (g.checkpoints.length ≤ 64) && decide (g.segmentNs.length ≤ 64) &&
    g.variants != [] && g.variants.all (fun v => [16, 15, 14].contains v) && decide (g.lanes ≤ 4096) &&
    g.cores.all (tablesOk g) && walks.all (fun w => w.2.2.limits) && tokensOk g && slotsOk s p g

/-! ## Checks 3 and 4: rectangle and overlap -/

/-- R22, the grid, and the shape the program was compiled for (R59). -/
def rectangleOk (g : LapProgram) (r : Placing) : Bool :=
  r.ox % 3 == 0 && r.width % 3 == 0 && r.oy % 2 == 0 && r.height % 2 == 0 && decide (1 ≤ r.width ∧ 1 ≤ r.height) &&
    decide (r.ox + r.width ≤ 24 ∧ r.oy + r.height ≤ 36) && r.width == g.width && r.height == g.height

/-- Hops from the root along one axis of a box (R295). -/
def axisHops (extent dim : Nat) : Nat := if extent = dim then extent / 2 else extent - 1

/-- Hop depth of a job box, where the box is one that R295 admits: every extent within its dimension, this
module's position inside, and at most 10 hops. -/
def boxDepth (s : State) (box : List Byte) : Option Nat :=
  let pos (i : Nat) := domField s K.fabTorusPosition i 1
  let dim (i : Nat) := Nat.max 1 (domField s K.fabTorusDims i 1)
  let org (i : Nat) := fieldLe box i 1
  let ext (i : Nat) := fieldLe box (3 + i) 1
  let inside (i : Nat) : Bool :=
    decide (1 ≤ ext i ∧ ext i ≤ dim i ∧ org i < dim i) && decide ((pos i + dim i - org i) % dim i < ext i)
  let d := axisHops (ext 0) (dim 0) + axisHops (ext 1) (dim 1) + axisHops (ext 2) (dim 2)
  if box.length = 6 ∧ inside 0 ∧ inside 1 ∧ inside 2 ∧ d ≤ 10 then some d else none

/-- The hop depth that a load shows: 0 for a partition of no job. -/
def depthFor (s : State) (p : Nat) : Nat :=
  if odGet s (K.partJobId p) = 0 then 0 else (boxDepth s (domGet s (K.partJobBox p))).getD 0

/-- No loaded partition shares a block, and none is a member of the same job (R295). -/
def overlapOk (s : State) (p : Nat) (r : Placing) : Bool :=
  let job := odGet s (K.partJobId p)
  s.parts.all (fun e => e.1 == p || !e.2.loaded ||
    (e.2.blocks.all (fun b => !(r.blocks.contains b)) && (job == 0 || odGet s (K.partJobId e.1) != job))) &&
    (job == 0 || (boxDepth s (domGet s (K.partJobBox p))).isSome)

/-! ## Check 5: blocks -/

/-- Every block is available (R23), no planned route crosses a router beyond the detours (R288), and neither SHUTDOWN nor the stop input
keeps loads away (R369, R419). -/
def blocksOk (s : State) (p : Nat) (g : LapProgram) (r : Placing) : Bool :=
  !s.plant.stopActive && !s.plant.shutdown && !s.plant.coolHold && r.blocks.all (fun b => !(blockUnavailable s b)) &&
    (plannedRoutes s p g r.ox r.oy).all (fun x => (routeFor s x.1 x.2).isSome)

/-! ## Check 6: write map and channel table (R298, R299) -/

/-- A frame that the stack image claims in a block of the module. -/
def claimed (g : LapProgram) (r : Placing) (b f : Nat) : Bool :=
  g.claims.any (fun c => shapeBlock r c.1 == b && decide (c.2.1 ≤ f ∧ f < c.2.1 + c.2.2))

/-- One entry of the channel table. -/
def channelOk (g : LapProgram) (r : Placing) (e : List Byte) : Bool :=
  let size := fieldLe e 4 4
  if fieldLe e 0 1 = 1 then decide (fieldLe e 1 1 ≤ 1) && size != 0 && fieldLe e 8 8 % 64 == 0
  else if fieldLe e 0 1 = 2 then
    decide (fieldLe e 1 1 ≤ 5) && decide (1 ≤ fieldLe e 2 1 ∧ fieldLe e 2 1 ≤ 15) && size != 0 &&
      r.blocks.contains (fieldLe e 8 1) &&
      (List.range (ceilDiv size 1024)).all (fun i => claimed g r (fieldLe e 8 1) (fieldLe e 9 4 + i))
  else false

def writeMapOk (s : State) (p : Nat) (g : LapProgram) (r : Placing) (walks : List (CoreProgram × Bool × BodyWalk)) : Bool :=
  g.writeMapOk && walks.all (fun w => w.2.2.writes &&
    w.2.2.channels.all (fun ch => channelOk g r (slice (domGet s (K.partChannelTable p)) (16 * ch) 16)))

/-! ## Check 7: power tokens (R334, R345) -/

/-- Tokens of a vector, all four fields together. -/
def vectorTokens (v : BitVec 64) : Nat := (vectorFields v).foldl (· + ·) 0

/-- Largest total of a program's vectors on some clusters, over its phases and both turns, in tokens. -/
def peakTokens (g : LapProgram) (ox oy : Nat) (mine : Nat → Bool) : Nat :=
  let l := g.tokens.filter (fun t => mine ((oy + t.dy) * 24 + ox + t.dx))
  l.foldl (fun best t => Nat.max best
    ((l.filter (fun u => u.odd == t.odd && u.phase == t.phase)).foldl (fun n u => n + vectorTokens u.vec) 0)) 0

/-- Peak of a loaded partition on some clusters. -/
def loadedPeak (pt : Part) (mine : Nat → Bool) : Nat :=
  match pt.program with
  | some g => peakTokens g pt.ox pt.oy mine
  | none => 0

/-- Peaks of every other loaded partition on some clusters, added up (R334). -/
def otherPeaks (s : State) (p : Nat) (mine : Nat → Bool) : Nat :=
  (s.parts.filter (fun e => e.1 != p && e.2.loaded)).foldl (fun n e => n + loadedPeak e.2 mine) 0

/-- Sixteen tokens of 62.5 mW make 1 W (R343). -/
def fitsWatts (tokens base limit : Nat) : Bool := decide (tokens + 16 * base ≤ 16 * limit)

def baseOf (bs : List Nat) : Nat := bs.foldl (fun n b => n + Config.baseDraw b) 0

/-- A phase that issues a command for a unit whose field is 0 in that cluster (R345). -/
def fieldsOk (g : LapProgram) (walks : List (CoreProgram × Bool × BodyWalk)) : Bool :=
  walks.all (fun w => w.2.2.needs.all (fun n =>
    match g.tokens.find? (fun t => t.odd == w.2.1 && t.phase == n.1 && t.dx == w.1.dx && t.dy == w.1.dy) with
    | some t => decide (getAt 0 (vectorFields t.vec) n.2 ≠ 0)
    | none => false))

def powerOk (s : State) (p : Nat) (g : LapProgram) (r : Placing) (walks : List (CoreProgram × Bool × BodyWalk)) : Bool :=
  let peak := peakTokens g r.ox r.oy
  let dies := r.clusters.foldl (fun acc c => insertNat (dieOf c) acc) []
  r.blocks.all (fun b =>
      fitsWatts (peak (fun c => blockOf c == b)) (Config.baseDraw b) (odGet s K.pwrBlockPowerCap)) &&
    dies.all (fun d => fitsWatts (peak (fun c => dieOf c == d) + otherPeaks s p (fun c => dieOf c == d))
      (baseOf ((List.range 6).map (d * 6 + ·))) 1140) &&
    fitsWatts (peak (fun _ => true) + otherPeaks s p (fun _ => true)) (baseOf (List.range 144))
      (odGet s K.gradeModulePowerLimit) &&
    fieldsOk g walks

/-! ## Check 8: core-count variants and retired arrays (R60, R136) -/

/-- The program of one core of the shape, for the variant that its cluster gets (R59). -/
def coreProgramAt (s : State) (g : LapProgram) (r : Placing) (ci : Nat) : Option CoreProgram :=
  let v := variantFor g.variants (clusterOf s (ci / 16)).presented
  g.cores.find? (fun x => shapeCluster r x.dx x.dy == ci / 16 && x.core == ci % 16 && x.variant == v)

/-- Chains that retired arrays leave off on a core. -/
def chainsLeftOff (s : State) (g : LapProgram) (r : Placing) (ci : Nat) : Nat :=
  match coreProgramAt s g r ci with
  | none => 0
  | some c =>
    let bad := badArrays s ci
    let bound := bindFree c.chains bad
    (c.chains.filter (fun x => (List.range x.count).any (fun i =>
      bad.contains (x.first + i) && !(bound.any (fun b => b.1 == x.first + i))))).length

/-- The lowest cluster that refuses the load: too few cores, or more than two chains off. -/
def variantRefusal (s : State) (g : LapProgram) (r : Placing) : Option Nat :=
  (sortBy (fun a b => decide (a ≤ b)) r.clusters).find? (fun cl =>
    variantFor g.variants (clusterOf s cl).presented == 0 ||
      decide (2 < (List.range 16).foldl (fun n k => n + chainsLeftOff s g r (cl * 16 + k)) 0))

/-! ## Check 9: the class-0 reservation (R28, R170, R274) -/

/-- A program's figures admit class-0 lanes. -/
def class0Program (g : LapProgram) : Bool :=
  g.segmentNs.all (fun n => decide (5 * n ≤ g.nominalLapNs)) && decide (20 * g.widenReserveNs ≤ g.nominalLapNs)

def class0Ok (s : State) (p : Nat) (g : LapProgram) : Bool :=
  let n := odGet s (K.strClass0Lanes p)
  n == 0 || (class0Program g && decide (n ≤ g.lanes))

/-! ## The order of R493 -/

/-- load_result of a program, and the cluster that a refusal names (0xFFFF for none). -/
def loadCheck (s : State) (p : Nat) (g : LapProgram) : Nat × Nat :=
  let r := placingOf s p
  let walks := walksOf g
  if !g.signatureOk ∨ lifecycle s ≠ lcService then (8, 0xFFFF)
  else if !(programOk s p g walks) then (10, 0xFFFF)
  else if !(rectangleOk g r) then (1, 0xFFFF)
  else if !(overlapOk s p r) then (2, 0xFFFF)
  else if !(blocksOk s p g r) then (3, 0xFFFF)
  else if !(writeMapOk s p g r walks) then (7, 0xFFFF)
  else if !(powerOk s p g r walks) then (5, 0xFFFF)
  else match variantRefusal s g r with
    | some cl => (6, cl)
    | none => if !(class0Ok s p g) then (9, 0xFFFF) else (0, 0xFFFF)

end Sys2Proof.Machine
end

