-- ==== Sys2Proof/Machine/Load.lean ====
section
/-! DEFINITION. Loading and unloading a partition (R492): the write of 1 to load, the start of lap 0, and the two
writes to unload. -/

namespace Sys2Proof.Machine

/-! ## Values at the partition's own index -/

/-- The RO objects of a partition that a load sets to their defaults (R491): all but load_result, fault_lap and
fault_cluster. -/
def loadResets (p k : Nat) : Bool :=
  let i := k / 256
  (i == 0x4000 + p || i == 0x4100 + p || i == 0x5100 + p) &&
    (match objOf k with
      | some o => decide (o.access = .ro)
      | none => false) &&
    k != K.partLoadResult p && k != K.partFaultLap p && k != K.partFaultCluster p

def resetObjects (s : State) (p : Nat) : State :=
  { s with od := s.od.filter (fun e => !(loadResets p e.1)), dom := s.dom.filter (fun e => !(loadResets p e.1)) }

/-- Figures that the program states or that its placing gives. DESIGN CHOICE: where the cores of a program have
different numbers of cache banks, cache_banks shows the largest (R106 does not say; log 174). -/
def showFigures (s : State) (p : Nat) (g : LapProgram) : State :=
  let pt := partOf s p
  let cores := (partCores s p).filterMap (programOf s)
  let inUse := pt.clusters.map (fun cl => coresUsed s pt cl)
  let variantBits := (if inUse.contains 16 then 1 else 0) + (if inUse.contains 15 then 2 else 0) +
    (if inUse.contains 14 then 4 else 0)
  let long := cores.any (fun c => decide (4096 < c.even.length + c.odd.length))
  let set (l : List (Nat × Nat)) (s : State) : State := l.foldl (fun s e => odPut s e.1 e.2) s
  set [(K.partSegmentMax p, g.segmentNs.foldl Nat.max 0), (K.partNominalLapTime p, g.nominalLapNs),
    (K.partCoreVariants p, variantBits), (K.partCacheBanks p, (cores.map (·.cacheBanks)).foldl Nat.max 0),
    (K.partProgramStreamed p, if long then 1 else 0),
    (K.partArrayChains p, (cores.map (fun c => c.chains.length)).foldl (· + ·) 0),
    (K.partWidenReserve p, g.widenReserveNs), (K.partFlipGap p, g.flipGapNs), (K.partJobDepth p, depthFor s p),
    (K.partPowerPeak p, ceilDiv (loadedPeak pt (fun _ => true)) 16), (K.strLanes p, g.lanes),
    (K.strPrefillPositionsMax p, g.prefillMax), (K.strMaxDraft p, g.maxDraft),
    (K.strShareVariants p, g.shareVariants.toNat), (K.strVocabulary p, g.vocabulary)] s

/-! ## The write of 1 to load -/

/-- A load is refused or given up: nothing has been written (R493). -/
def refuseLoad (s : State) (p result cluster : Nat) : State :=
  let s := setPart (odSet s (K.partLoadResult p) result) p {}
  recordEvent s {
    code := 0x4002, source := mpSource s, partition := p, payload := natLe result 1 ++ [0] ++ natLe cluster 2 }

/-- prefill_block above what the program carries is replaced, and recorded (R274). -/
def notePrefill (s : State) (p : Nat) (g : LapProgram) : State :=
  if odGet s (K.strPrefillBlock p) ≤ g.prefillMax then s
  else recordEvent s {
    code := 0x5101, source := mpSource s, partition := p
    payload := natLe (odGet s (K.strPrefillBlock p)) 4 ++ natLe g.prefillMax 4 }

/-- Every check has passed: the partition is LOADING, and its blocks wake. -/
def startLoad (s : State) (p : Nat) (g : LapProgram) : State :=
  let r := placingOf s p
  let old := odGet s (K.partLoadResult p)
  let s := odSet s (K.partLoadResult p) 0
  let s := setPart s p { state := .loading, ox := r.ox, oy := r.oy, width := r.width, height := r.height, program := some g, oldResult := old }
  let s := notePrefill (showFigures s p g) p g
  let s := breakMap s p
  proceedLoad (r.blocks.foldl wakeForLoad s) p

/-- The checks run, and the load goes on or is refused. -/
def runLoad (s : State) (p : Nat) (g : LapProgram) : State :=
  let c := loadCheck s p g
  if c.1 = 0 then startLoad s p g
  else refuseLoad (if g.signatureOk then s else bump s K.secSignatureFailures) p c.1 c.2

/-- A commit in prepare carries an object of the partition (R492). -/
def loadHeld (s : State) (p : Nat) : Bool :=
  s.commits.any (fun c => decide (c.phase = .prepare) && c.values.any (fun v => ownPart v.1 == some p))

/-- Loads that waited for a commit in prepare. -/
def runHeldLoads (s : State) : State :=
  s.parts.foldl (fun s e =>
    match (partOf s e.1).heldLoad with
    | some g => if loadHeld s e.1 then s else runLoad (setPart s e.1 {}) e.1 g
    | none => s) s

/-- The action of a write of 1 to load: the RO objects go to their defaults, then the checks run or wait. -/
def loadNow (p : Nat) (g : LapProgram) (s : State) : Act :=
  if (partOf s p).state ≠ .empty then refuse
  else
    let s := resetObjects s p
    .ok (if loadHeld s p then
        setPart s p { state := .loading, heldLoad := some g, oldResult := odGet s (K.partLoadResult p) }
      else runLoad s p g)

/-! ## LOAD_COMPLETE -/

/-- Calibration at load ends: the arrays of a chain are READY, but for RETIRED ones (R136). -/
def readyChain (s : State) (ci ch : Nat) : State :=
  let gov := (clusterOf s (ci / 16)).govTemp
  let s := (chainArrays s ci ch).foldl (fun s a => updArr s a (fun x =>
    if x.state = .retired then { x with masked := false }
    else { x with state := .ready, passed := false, masked := true, calTemp := gov, stale := false })) s
  bump (updChain s (ci * 8 + ch) (fun c => { c with queued := false, alarms := 0, calLap := 0 })) K.arrCalibrations

/-- Every array is calibrated before the first lap, those of no chain among them (R136). -/
def readyChains (s : State) (p : Nat) : State :=
  (partOf s p).clusters.foldl (fun s cl =>
    let s := (clusterChains s cl).foldl (fun s x => readyChain s x.1 x.2) s
    updCluster s cl (fun c => { c with idleCal := c.govTemp })) s

/-- Arrays of a partition that some faults lie in, in rising order. -/
def faultyArrays (s : State) (p : Nat) (l : List Nat) : List Nat :=
  (l.filter (fun a => partAt s (a / 512) == some p)).foldl (fun acc a => insertNat a acc) []

/-- The verify of a load's writes binds spares, and so do converters that fail in its calibration (R122, R130, R136). -/
def repairLoaded (s : State) (p : Nat) (x : LoadFaults) : State :=
  let s := (faultyArrays s p (x.cells.map (·.1))).foldl (fun s a =>
    bindSpares s a ((x.cells.filter (fun e => e.1 == a)).map (·.2))) s
  (faultyArrays s p (x.converters.map (·.1))).foldl (fun s a =>
    if (arrOf s a).state = .retired then s
    else replaceColumns s a ((x.converters.filter (fun e => e.1 == a)).map (·.2))) s

/-- Objects that several partitions read take, in a partition just loaded, the values of the commits that are
still switching (R53). -/
def takeSwitching (s : State) (p : Nat) : State :=
  (s.commits.filter (fun c => decide (c.phase = .switching))).foldl (fun s c =>
    c.values.foldl (fun s v =>
      if perPart v.1 && (ownPart v.1).isNone && v.1 != K.pwrCoreTarget then
        updPart s p (fun x => { x with overrides := x.overrides.filter (fun e => e.1 != v.1) ++ [(v.1, leNat v.2)] })
      else s) s) s

/-- LOAD_COMPLETE: every array is READY, and the starter begins lap 0 (R492). -/
def effLoadComplete (s : State) (p : Nat) (faults : LoadFaults) : State :=
  let pt := partOf s p
  if pt.state ≠ .loading ∨ pt.wiping ∨ !pt.written ∨ !(blocksUp s p) then s
  else
    let s := readyChains (repairLoaded s p faults) p
    let s := odSet (odSet s (K.partFaultLap p) (objDefault (K.partFaultLap p)))
      (K.partFaultCluster p) (objDefault (K.partFaultCluster p))
    let s := updPart s p (fun x => { x with state := .running })
    let s := recheckMap (takeSwitching s p) p
    let s := if jobOf s p ≠ 0 ∧ jobRoot s p then
        { s with plant := { s.plant with alignSend := s.plant.alignSend ++ [jobOf s p] } }
      else s
    buildLanes s p

/-! ## Unloading -/

/-- The write of 0: no new sessions, and the open ones run on; with none open, the wipe is due at once. -/
def drainPartition (p : Nat) (s : State) : Act :=
  if (partOf s p).state = .running ∨ (partOf s p).state = .draining then
    .ok (updPart s p (fun x => { x with state := .draining }))
  else refuse

/-- The write of 1: as a partition reset (R391). -/
def unloadPartition (p : Nat) (s : State) : Act :=
  if (partOf s p).state = .running ∨ (partOf s p).state = .draining then .ok (resetPartition s p) else refuse

/-! ## The commands -/

/-- LOAD (R492). -/
def execLoad (rq : Rq) (p value : Nat) (g : LapProgram) (s : State) : Result :=
  .next (cmdWrite s rq (K.partLoad p) value (onOne value (loadNow p g)))
/-- LOAD_COMPLETE (R492). -/
def execLoadComplete (fin : LoadEnd) (s : State) : Result := atPart fin.part (effLoadComplete s fin.part fin.faults)
/-- UNLOAD_DRAIN (R492). -/
def execUnloadDrain (rq : Rq) (p : Nat) (s : State) : Result :=
  .next (cmdWrite s rq (K.partUnload p) 0 (drainPartition p))
/-- UNLOAD_NOW (R492). -/
def execUnloadNow (rq : Rq) (p : Nat) (s : State) : Result :=
  .next (beginTransition (cmdWrite s rq (K.partUnload p) 1 (unloadPartition p)))

end Sys2Proof.Machine
end

