-- ==== Sys2Proof/Machine/CommitCmds.lean ====
section
/-! DEFINITION. COMMIT, the end of prepare and its timeout (R50 to R53, R414 to R416, R480): the rules that join
objects (R415), the commit point, and rollback. -/

namespace Sys2Proof.Machine

/-! ## Rules that join objects (R415) -/

/-- The value an object has once a set of values is committed: carried, or committed before, or its default. -/
def wouldBe (s : State) (vs : List (Nat × List Byte)) (k : Nat) : List Byte :=
  match vs.find? (fun e => e.1 == k), s.stored.find? (fun e => e.1 == k) with
  | some e, _ => e.2
  | none, some e => e.2
  | none, none => if isDomain k then domDefault k else natLe (objDefault k) 8

def wouldBeNat (s : State) (vs : List (Nat × List Byte)) (k : Nat) : Nat := leNat (wouldBe s vs k)

/-- Ranges (base, count) of which two meet. -/
def rangesMeet (l : List (Nat × Nat)) : Bool :=
  !(apart (fun (a b : Nat × Nat) => decide (a.1 < b.1 + b.2 ∧ b.1 < a.1 + a.2 ∧ 0 < a.2 ∧ 0 < b.2)) l)

/-- One (base, count) of each function, from tables of `width` bytes a function. -/
def functionRanges (v : List Byte) (width off : Nat) : List (Nat × Nat) :=
  (List.range functionCount).map (fun f => (fieldLe v (width * f + off) 2, fieldLe v (width * f + off + 2) 2))

/-- A ring that is enabled and would leave its function's range (R456). -/
def takesRing (s : State) (v : List Byte) : Bool :=
  let subs := functionRanges v 8 0
  let comps := functionRanges v 8 4
  let kept (l : List (Nat × Nat)) (owner : Option Nat) (r : Nat) : Bool :=
    match owner with
    | some f => inRange (getAt (0, 0) l f) r
    | none => true
  s.subRings.any (fun e => e.2.enable && !(kept subs (fnOfSub s e.1) e.1)) ||
    s.compRings.any (fun e => e.2.enable && !(kept comps (fnOfComp s e.1) e.1))

/-- The usage bits of the keys of an operator key table (R453). -/
def keyUsages (v : List Byte) : List Nat := (List.range (v.length / 2600)).map (fun i => fieldLe v (2600 * i) 1)

/-- A region that would shrink below frames in use, or grow into a loaded partition's block (R212). -/
def regionRefused (s : State) (v : List Byte) : Bool :=
  (List.range 144).any (fun b =>
    let new := fieldLe v (4 * b) 4
    (regionUsed s b).any (fun f => decide (new ≤ f)) || (decide (regionFrames s b < new) && (partOfBlock s b).isSome))

/-- The program of the loaded partition at whose index an object is. -/
def programAt (s : State) (k : Nat) : Option LapProgram := (ownPart k).bind (fun p => (partOf s p).program)

/-- The reason for which one carried value rolls the commit back; 0 for none. -/
def rollbackReason (s : State) (vs : List (Nat × List Byte)) (k : Nat) (v : List Byte) : Nat :=
  let i := k / 256
  let sub := k % 256
  if k = K.sessSessionRanges then (if rangesMeet (functionRanges v 4 0) then 2 else 0)
  else if k = K.pcieRingRanges then
    (if rangesMeet (functionRanges v 8 0) || rangesMeet (functionRanges v 8 4) || takesRing s v then 1 else 0)
  else if k = K.wtRegionFrames then (if regionRefused s v then 3 else 0)
  else if k = K.secOperatorKeys then (if (keyUsages v).any (fun u => u % 4 == 3) then 0 else 1)
  else if k = K.fabTorusPosition ∨ k = K.fabTorusDims then
    let pos := wouldBe s vs K.fabTorusPosition
    let dims := wouldBe s vs K.fabTorusDims
    (if (List.range 3).all (fun a => decide (fieldLe pos a 1 < fieldLe dims a 1)) then 0 else 1)
  else if 0x5000 ≤ i ∧ i < 0x5008 ∧ sub = 1 then
    (if 100 < ((List.range 8).drop 1).foldl (fun n c => n + wouldBeNat s vs (K.clsLaneFloor c)) 0 then 3 else 0)
  else match ownPart k with
    | none => 0
    | some p =>
      if k = K.partKvLowMark p ∨ k = K.partClass0Reserve p then
        (if wouldBeNat s vs (K.partKvLowMark p) < wouldBeNat s vs (K.partClass0Reserve p) then 1 else 0)
      else match programAt s k with
        | none => 0
        | some g =>
          if k = K.strClass0Lanes p then
            (if g.lanes < leNat v then 1 else if leNat v ≠ 0 ∧ !(class0Program g) then 4 else 0)
          else if k = K.strPrefillBlock p then (if g.prefillMax < leNat v then 1 else 0)
          else 0

/-- The first object at fault, with its reason. -/
def faultyValue (s : State) (vs : List (Nat × List Byte)) : Option (Nat × Nat) :=
  (vs.map (fun e => (e.1, rollbackReason s vs e.1 e.2))).find? (fun e => e.2 != 0)

/-! ## Prepare -/

/-- Prepare handles one commit at a time (R480). -/
def nextPrepare (s : State) : State :=
  if s.commits.any (fun c => decide (c.phase = .prepare)) then s
  else match s.commits.find? (fun c => decide (c.phase = .waiting)) with
    | none => s
    | some c => { s with commits := s.commits.map (fun x => if x.epoch = c.epoch then { x with phase := .prepare } else x) }

def preparing (s : State) : Option Commit := s.commits.find? (fun c => decide (c.phase = .prepare))

/-- COMMIT: the staged set is accepted as one commit, under the next epoch number (R480). The key table is changed by a
claim of the module while it is empty, and else by a key of bit 1 (R442). -/
def runCommit (rq : Rq) (s : State) : State × Option Answer :=
  let m := mgmtOf s rq.session
  let st := setGate s m
  if st ≠ 0 then (s, some { status := st })
  else if m.staged = [] then (s, some { status := swNotStaged })
  else if 4 ≤ s.commits.length then (s, some { status := swCommitLimit })
  else if m.staged.any (fun e => e.1 == K.secOperatorKeys) && !(m.claim && domGet s K.secOperatorKeys == []) &&
      !(m.usage.testBit 1) then
    (s, some { status := swPermission })
  else
    let epoch := odGet s K.cfgNextEpoch
    let c : Commit := { epoch, values := m.staged, client := rq.session, seq := rq.seq }
    (nextPrepare (odSet { s with commits := s.commits ++ [c] } K.cfgNextEpoch (epoch + 1)), none)

def effCommit (s : State) (rq : Rq) : State := request s rq 0x04 0 0 (runCommit rq)

/-- The reply of a commit: the 12 bytes of last_commit (R474). -/
def replyCommit (s : State) (c : Commit) : State :=
  answer s c.client c.seq 0x04 0 0 { data := domGet s K.cfgLastCommit }

/-- Prepare is over: the next commit enters it, and loads that waited go on. -/
def afterPrepare (s : State) : State := runHeldLoads (nextPrepare s)

/-- A commit is rolled back; its staged values stay staged (R415). -/
def rollBack (s : State) (c : Commit) (reason key part : Nat) : State :=
  let s := { s with commits := s.commits.filter (fun x => x.epoch != c.epoch) }
  let s := bump (noteCommit s (commitBytes c.epoch 1 reason key part)) K.cfgRollbacks
  afterPrepare (replyCommit s c)

/-! ## The commit point (R414, R416) -/

/-- A module-scoped object takes its value in one step. -/
def applyModule (s : State) (k : Nat) (v : List Byte) : State :=
  if perPart k then s
  else
    let s := setValue s k v
    if k = K.fabPortEnable then applyPortEnable s
    else if k = K.wtRegionFrames then retryUnplaced s
    else s

/-- Blocks that belong to no partition that runs laps. -/
def idleBlocks (s : State) : List Nat :=
  (List.range 144).filter (fun b => match partOfBlock s b with
    | some p => !(partOf s p).runs
    | none => true)

/-- A DRAINING partition keeps the values that its laps have. -/
def freezeDraining (s : State) (k : Nat) : State :=
  (s.parts.filter (fun e => decide (e.2.state = .draining))).foldl (fun s e =>
    if e.2.overrides.any (fun o => o.1 == k) then s
    else updPart s e.1 (fun x => { x with overrides := x.overrides ++ [(k, odGet s k)] })) s

/-- A partition-scoped object at the commit point: at once where no lap reads it, at the switch elsewhere. -/
def applyIdle (s : State) (k : Nat) (v : List Byte) : State :=
  if !(perPart k) then s
  else match ownPart k with
    | some p => if (partOf s p).runs then s else setValue s k v
    | none => if k = K.pwrCoreTarget then setTargets s (idleBlocks s) v else freezeDraining s k

/-- Does a partition's lap read an object? -/
def readsObject (p k : Nat) : Bool :=
  perPart k && (match ownPart k with
    | some q => q == p
    | none => true)

/-- The partitions a commit names: the RUNNING ones that read any object it carries (R414). -/
def namedParts (s : State) (vs : List (Nat × List Byte)) : List Nat :=
  (s.parts.filter (fun e => decide (e.2.state = .running) && vs.any (fun v => readsObject e.1 v.1))).map (·.1)

/-- The values committed leave the client's staged set. -/
def dropStaged (s : State) (c : Commit) : State :=
  updMgmt s c.client (fun m => { m with staged := m.staged.filter (fun e => !(c.values.contains e)) })

/-- The commit point. -/
def commitPoint (s : State) (c : Commit) : State :=
  let s := { s with stored := c.values.foldl (fun m e => kvPut m e.1 e.2) s.stored }
  let parts := namedParts s c.values
  let s := c.values.foldl (fun s e => applyModule s e.1 e.2) s
  let s := c.values.foldl (fun s e => applyIdle s e.1 e.2) s
  let s := dropStaged s c
  let s := if parts = [] then finishCommit s c
    else
      let s := { s with commits := s.commits.map (fun x => if x.epoch = c.epoch then { x with phase := .switching, parts } else x) }
      countSwitching (noteCommit s (commitBytes c.epoch 2 0 0 0xFF))
  afterPrepare (replyCommit s c)

/-- PREPARE_COMPLETE: every cluster has acknowledged; the rules that join objects decide. -/
def effPrepareComplete (s : State) : State :=
  match preparing s with
  | none => s
  | some c =>
    match faultyValue s c.values with
    | some e => rollBack s c e.2 e.1 ((ownPart e.1).getD 0xFF)
    | none => commitPoint s c

/-- PREPARE_TIMEOUT: a cluster did not acknowledge in time (R415). -/
def effPrepareTimeout (s : State) (key part : Nat) : State :=
  match preparing s with
  | none => s
  | some c => rollBack s c 6 key part

/-! ## The commands -/

/-- COMMIT (R474, R480). -/
def execCommit (rq : Rq) (s : State) : Result := .next (effCommit s rq)
/-- PREPARE_COMPLETE (R50, R414, R416). -/
def execPrepareComplete (s : State) : Result := .next (effPrepareComplete s)
/-- PREPARE_TIMEOUT (R415). -/
def execPrepareTimeout (index sub p : Nat) (s : State) : Result :=
  .next (effPrepareTimeout s (index * 256 + sub) p)

end Sys2Proof.Machine
end

