-- ==== Sys2Proof/Machine/Security.lean ====
section
/-! DEFINITION. Keys, firmware, attestation, the management handshake and the life cycle (R440 to R453, R470). What
a signature check answers is an operand of the command; signatures and ciphertexts that the module makes are
free values. -/

namespace Sys2Proof.Machine

/-! ## Keys (R440, R441) -/

def isBalhelKey (keyId : List Byte) : Bool := keyIdOf Config.balhelKey == keyId

/-! ## Values written whole by SEGMENT -/

/-- The last segment of a value whose object acts on it (R478): the checks, and the action. -/
def runWhole (rq : Rq) (k : Nat) (v : List Byte) (act : State → Act) (s : State) : State × Option Answer :=
  let m := mgmtOf s rq.session
  match gate s m (k / 256) (k % 256) (.write v) with
  | .error e => (s, some { status := e })
  | .ok o =>
    let s := setMgmt s rq.session (dropWriting m k)
    if o.size < v.length then (s, some { status := swTooLarge })
    else if !(domainLength o k v.length) then (s, some { status := swType })
    else match act s with
      | .error e => (s, some { status := e.1, detail := e.2 })
      | .ok t => (t, some {})

def wholeWrite (s : State) (rq : Rq) (k : Nat) (v : List Byte) (act : State → Act) : State :=
  request s rq 0x06 (k / 256) (k % 256) (runWhole rq k v act)

/-! ## Attestation (R446) -/

def runningSlot (s : State) : FwSlot :=
  if odGet s K.devFirmwareSlot = 0 then s.security.slot0 else s.security.slot1

/-- Partitions that a report lists; one whose load is in progress is shown as before it (R452). -/
def attestedParts (s : State) : List Nat :=
  (s.parts.filter (fun e => decide (e.2.state ≠ .empty) && decide (e.2.state ≠ .loading))).map (·.1)

/-- One partition entry. -/
def partEntry (s : State) (p : Nat) : List Byte :=
  let pt := partOf s p
  let waiting := match pt.flip with
    | some f => if f.gap then 0xFFFF else f.set
    | none => 0xFFFF
  let meas := match pt.program with
    | some g => g.measurement
    | none => []
  table 1 [p, partStateCode pt.state] ++ natLe waiting 2 ++ natLe (odGet s (K.partActiveEpoch p)) 4 ++
    natLe (odGet s (K.partJobId p)) 4 ++ natLe 0 4 ++ padTo 64 meas ++ padTo 32 (domGet s (K.partSlotMap p))

/-- One set entry. -/
def setEntry (s : State) (i : Nat) : List Byte :=
  let w := wsetOf s i
  natLe i 2 ++ table 1 [setStateCode w.state, w.kind, w.owner, 0, 0, 0] ++ natLe w.shapeId 8 ++ padTo 64 w.measurement

/-- The stored configuration as bytes: each object's number and value, in rising order of number. -/
def storedBytes (s : State) : List Byte := s.stored.flatMap (fun e => natLe e.1 3 ++ e.2)

/-- Every byte of a report before its signature. -/
def reportBody (s : State) (nonce : List Byte) : List Byte :=
  let ps := attestedParts s
  let ss := (s.sets.filter (fun e => decide (e.2.state = .loaded) || decide (e.2.state = .damaged))).map (·.1)
  asciiBytes "VWAR" ++ natLe 1 2 ++ table 1 [lifecycle s, odGet s K.gradeGrade] ++
    natLe (odGet s K.fabModuleId) 8 ++ padTo 64 nonce ++ natLe s.recorder.lastSeq 8 ++
    table 2 [ps.length, ss.length, odGet s K.secFwSecurityVersion] ++ List.replicate 34 0 ++
    padTo 64 (runningSlot s).measurement ++ padTo 64 Config.romMeasurement ++
    sha3 (domGet s K.secOperatorKeys) ++ sha3 (storedBytes s) ++ ps.flatMap (partEntry s) ++ ss.flatMap (setEntry s)

/-- A signature by the identity key over a digest: 4,627 bytes. -/
def identitySign (s : State) (digest : List Byte) : List Byte × State :=
  let d := drawFree s
  (padTo 4627 (Config.identitySignature d.1 digest), d.2)

/-- The report is formed and stays readable until the next write to attest. -/
def formReport (nonce : List Byte) (s : State) : Act :=
  let body := reportBody s nonce
  let r := identitySign s (sha3 body)
  .ok { r.2 with security := { r.2.security with report := body ++ r.1 } }

/-! ## Firmware (R443 to R445) -/

def idleSlot (s : State) : Nat := 1 - odGet s K.devFirmwareSlot

def setFwSlot (s : State) (i : Nat) (x : FwSlot) : State :=
  { s with security := if i = 0 then { s.security with slot0 := x } else { s.security with slot1 := x } }

def slotAt (s : State) (i : Nat) : FwSlot := if i = 0 then s.security.slot0 else s.security.slot1

/-- A slot marked empty. -/
def emptySlot : FwSlot := { valid := false }

/-- The ROM waits in recovery (R380, R445). -/
def inRecovery (s : State) : Bool := odGet s K.devBringUpState == 9 && odGet s K.devBringUpFailure == 2

/-- Are an image's signatures those that R443 requires? -/
def imageSigned (s : State) (g : FwImage) : Bool := g.balhelOk && (odGet s K.secFwCosignRequired == 0 || g.cosignOk)

/-- A complete image goes to the idle slot if it passes; else that slot is empty. In recovery the ROM then
resets the module. -/
def takeImage (g : FwImage) (s : State) : Act :=
  let s := if imageSigned s g then s else bump s K.secSignatureFailures
  let good := imageSigned s g && decide (odGet s K.secFwFuseVersion ≤ g.version) && decide (g.version ≤ 64)
  let s := setFwSlot s (idleSlot s) (if good then { valid := true, version := g.version, measurement := g.measurement } else emptySlot)
  .ok (if good && inRecovery s then { s with plant := { s.plant with resetDue := some 2 } } else s)

/-- The slot to run from the next module reset. -/
def activateSlot (slot : Nat) (s : State) : Act := .ok { s with security := { s.security with activate := some slot } }

/-- Fuses are blown up to the running image's version, unless the other slot's valid image would be shut out
(R444). -/
def advanceVersion (s : State) : Act :=
  let other := slotAt s (idleSlot s)
  let run := odGet s K.secFwSecurityVersion
  if other.valid && decide (other.version < run) then refuse
  else .ok (odSet s K.secFwFuseVersion (Nat.max (odGet s K.secFwFuseVersion) run))

/-! ## Life cycle (R448 to R450) -/

/-- Who must sign the transition from one state to another: true is Balhel, false an operator key with bit 0;
and whether the operator keys are erased. -/
def transitionRule (current target : Nat) : Option (Bool × Bool) :=
  if current = lcBlank ∧ target = lcProvisioned then some (true, false)
  else if current = lcProvisioned ∧ target = lcService then some (false, false)
  else if current = lcService ∧ target = lcProvisioned then some (false, true)
  else if (current = lcProvisioned ∨ current = lcService) ∧ target = lcReturn then some (false, true)
  else if current = lcReturn ∧ target = lcProvisioned then some (true, false)
  else if current < lcDisposed ∧ target = lcDisposed then
    some (current == lcBlank || current == lcReturn, true)
  else none

/-- Is a token's signer one that the transition accepts? -/
def signerOk (s : State) (balhel : Bool) (keyId : List Byte) : Bool :=
  if balhel then isBalhelKey keyId else ((keyUsage s keyId).getD 0).testBit 0

/-- The transition that a token asks for and that is allowed now: its target, and whether keys are erased. -/
def tokenAsks (s : State) (t : List Byte) (signatureOk : Bool) : Option (Nat × Bool) :=
  let target := fieldLe t 4 1
  let current := fieldLe t 5 1
  match transitionRule current target with
  | none => none
  | some (balhel, erase) =>
    if signatureOk && slice t 0 4 == asciiBytes "VWLC" && current == lifecycle s && fieldLe t 6 2 == 0 &&
        fieldLe t 8 8 == odGet s K.fabModuleId && s.security.challenge == some (slice t 16 64) &&
        signerOk s balhel (slice t 80 8) &&
        (target != lcService || (keyUsages (domGet s K.secOperatorKeys)).any (fun u => u.testBit 2 || u.testBit 3)) then
      some (target, erase)
    else none

/-- A token written to lc_request. Its challenge serves once. -/
def requestTransition (token : List Byte) (signatureOk : Bool) (s : State) : Act :=
  match tokenAsks s token signatureOk with
  | none => refuse
  | some t =>
    if s.security.transition.isSome then refuse
    else .ok { s with security := { s.security with challenge := none, transition := some t } }

/-! ## The management handshake (R447, R470, R472, R483) -/

/-- A message of the handshake, or a refusal, goes to a client; a mailbox signals it (R460). -/
def sendTo (s : State) (t : Transport) (msg : OutMsg) (waiting : List Byte) : State :=
  let s := emit s msg
  match t with
  | .mailbox fn => emit (updFn s fn (fun x => { x with reply := waiting, busy := false })) (.msix fn 0)
  | .udp _ _ => s

def refuseHandshake (s : State) (t : Transport) (status : Nat) : State :=
  sendTo (bump s K.mgmtRefusals) t (.swRefusal t status) (natLe status 1)

/-- A refusal of R447. -/
def refuseAuth (s : State) (t : Transport) : State := refuseHandshake (bump s K.secAuthFailures) t swAuth

/-- The claim case of R442. -/
def claimCase (s : State) : Bool := lifecycle s == lcProvisioned && domGet s K.secOperatorKeys == []

/-- The usage bits with which a client may go on to order 3; none where R447 refuses it. -/
def handshakeUsage (s : State) (keyId : List Byte) : Option Nat :=
  if lifecycle s = lcReturn then (if isBalhelKey keyId then some 0 else none)
  else if isBalhelKey keyId then none
  else if claimCase s then some 0
  else match keyUsage s keyId with
    | some u => if u.testBit 0 then some u else none
    | none => none

/-- The module's answer to order 1: its nonce, the ciphertext, and the signature over T2. -/
def answerOrder1 (s : State) (t : Transport) (order1 kemKey : List Byte) (usage : Nat) : State :=
  let r := drawBytes s 4
  let d := drawFree r.2
  let open2 := r.1 ++ padTo 1568 (Config.kemCiphertext d.1 kemKey)
  let g := identitySign d.2 (sha3 (order1 ++ open2))
  let s := g.2
  let n := s.nextMgmt
  let m : Mgmt := { live := true, transport := t, usage, claim := claimCase s, balhel := decide (lifecycle s = lcReturn) }
  let s := setMgmt { s with nextMgmt := n + 1 } n m
  sendTo s t (.swOrder2 t n (open2 ++ g.1)) (open2 ++ g.1)

/-- HANDSHAKE_ORDER_1. A message of which a fragment is missing waits for it. -/
def effOrder1 (s : State) (t : Transport) (nonce kemKey keyId : List Byte) (complete overRate : Bool) : State :=
  if !complete ∨ !(served s t) then s
  else if !(mpUp s) then refuseHandshake s t swNotReady
  else if overRate ∨ odGet s K.mgmtMaxSessions ≤ (s.mgmt.filter (fun e => e.2.live)).length then refuseHandshake s t swBusy
  else match handshakeUsage s keyId with
    | none => refuseAuth s t
    | some u => answerOrder1 s t (nonce ++ kemKey ++ keyId) kemKey u

/-- HANDSHAKE_ORDER_3: the client's signature; none in the claim case, which must still hold. -/
def effOrder3 (s : State) (t : Transport) (i : Nat) (signed signatureOk complete : Bool) : State :=
  let m := mgmtOf s i
  if !m.live ∨ m.isOpen ∨ !complete ∨ !(mpUp s) then s
  else if m.transport ≠ t then bump s K.mgmtDroppedDatagrams
  else if (m.claim && claimCase s) || (!m.claim && signed && signatureOk) then
    bump (freeMailbox (setMgmt s i { m with isOpen := true }) t) K.mgmtHandshakes
  else refuseAuth (dropMgmt s i) t

/-- HANDSHAKE_TIMEOUT. -/
def effHandshakeTimeout (s : State) (i : Nat) : State :=
  if (mgmtOf s i).live && !(mgmtOf s i).isOpen then dropMgmt s i else s

/-! ## The commands -/

/-- ATTEST (R446). -/
def execAttest (rq : Rq) (nonce : List Byte) (s : State) : Result :=
  .next (wholeWrite s rq K.secAttest nonce (formReport nonce))
/-- LC_CHALLENGE: a read of lc_challenge (R449). -/
def execLcChallenge (rq : Rq) (s : State) : Result := .next (effSegmentRead s rq 0xC000 8 0 64)
/-- LC_REQUEST (R449, R450). -/
def execLcRequest (rq : Rq) (token : List Byte) (signatureOk : Bool) (s : State) : Result :=
  .next (beginTransition (wholeWrite s rq K.secLcRequest token (requestTransition token signatureOk)))
/-- FW_IMAGE (R443 to R445). -/
def execFwImage (rq : Rq) (image : FwImage) (s : State) : Result :=
  .next (takeReset (wholeWrite s rq K.secFwImage image.bytes (takeImage image)))
/-- FW_ACTIVATE (R445). -/
def execFwActivate (rq : Rq) (slot : Nat) (s : State) : Result :=
  .next (cmdWrite s rq K.secFwActivate slot (activateSlot slot))
/-- ADVANCE_SECURITY_VERSION (R444). -/
def execAdvanceSecurityVersion (rq : Rq) (value : Nat) (s : State) : Result :=
  .next (cmdWrite s rq K.secAdvanceSecurityVersion value (onOne value advanceVersion))
/-- HANDSHAKE_ORDER_1 (R447, R470, R472, R483). -/
def execHandshakeOrder1 (t : Transport) (_handshakeId : Nat) (nonce kemKey keyId : List Byte)
    (complete overRate : Bool) (s : State) : Result := .next (effOrder1 s t nonce kemKey keyId complete overRate)
/-- HANDSHAKE_ORDER_3 (R447). -/
def execHandshakeOrder3 (t : Transport) (session : Nat) (signed signatureOk complete : Bool) (s : State) : Result :=
  .next (effOrder3 s t session signed signatureOk complete)
/-- HANDSHAKE_TIMEOUT (R470). -/
def execHandshakeTimeout (session : Nat) (s : State) : Result := .next (effHandshakeTimeout s session)

end Sys2Proof.Machine
end

