-- ==== Sys2Proof/Machine/Pcie.lean ====
section
/-! DEFINITION. The PCI Express ports (R454, R462 to R467): training, the reset inputs, the loss of a host,
function-level resets, retraining and configuration requests. Port states: 0 DOWN, 1 TRAINING, 2 UP, 3 RECOVERY,
4 RESET, 5 LOST (R468). -/

namespace Sys2Proof.Machine

/-- A port changes state; the change is recorded (R432). -/
def setLink (s : State) (port new : Nat) : State :=
  let old := (portOf s port).state
  if old = new then s
  else recordEvent (updPort s port (fun x => { x with state := new })) {
    code := 0xD000, source := .pciePort, location := port, payload := table 1 [port, old, new] }

/-! ## The loss of a host (R464, R465) -/

/-- The functions of a port. -/
def portFunctions (port : Nat) : List Nat := (List.range 64).map (fun f => port * 64 + f)

/-- A session whose host is lost: ENDING, with nothing more to post. It keeps its pages until it is cut out. A child
that went with its parent is gone. -/
def loseHost (s : State) (sess : Nat) : State :=
  let x := sessOf s sess
  if x.state = .free then s
  else if x.state = .ending ∧ !x.hostLost then dropSession s sess
  else updSess (dropReserved (dropChildren s sess) sess) sess (fun x => { x with
    state := .ending, hostLost := true, cmds := [], cancel := none, records := [], slots := [], image := []
    bitmaps := [], held := none, sampled := [], drafts := [], nextDrafts := [], abortStatus := none })

/-- A set of a lost function: a stage stops without completion, and a loaded set has no owner. -/
def loseOwner (s : State) (set : Nat) : State :=
  let s := updWset s set (fun w => { w with stage := none })
  match (wsetOf s set).state with
  | .verifying => retryUnplaced (failVerify s set stCancelled set)
  | .loading => failLoad s set stCancelled
  | .loaded | .damaged => updWset s set (fun w => { w with owner := 0xFF, ownerLost := true })
  | .empty | .wiping => s

/-- Paging to a lost port fails, and the sessions that are then EVICTED end (R464 order 5). -/
def losePaging (s : State) (sess : Nat) : State :=
  let s := match (sessOf s sess).state with
    | .evicting => effEvictDone s sess false
    | .restoring => effRestoreDone s sess .hostError
    | _ => s
  if (sessOf s sess).state = .evicted then endSession s sess stKvLost else s

/-- A form 3 or 4 transfer of a partition on a host channel of a port. -/
def usesHostPort (s : State) (p port : Nat) (t : Transfer) : Bool :=
  (decide (t.kind = .edgeRead) || decide (t.kind = .edgeWrite)) &&
    fieldLe (channelOf s p t.channel) 0 1 == 1 && fieldLe (channelOf s p t.channel) 1 1 == port

/-- What a port's loss does beyond its own functions. -/
def loseWindows (s : State) (port : Nat) : State :=
  s.parts.foldl (fun s e =>
    let p := e.1
    let s := if odGet s (K.partHostSwapPort p) = port then
        ((openOf s p).filter (fun i => !(sessOf s i).hostLost)).foldl losePaging s else s
    if (partCores s p).any (fun c => (coreOf s c).transfers.any (usesHostPort s p port)) then
      raiseFault s p 0x0008 (e.2.oy * 24 + e.2.ox) else s) s

/-- Owned mirrored rings of a lost port that the twin can go on with: they are handed over (R465). -/
def handRings (s : State) (fns : List Nat) (twinUp : Bool) : List Nat :=
  if mirroring s && twinUp then
    s.pair.owned.filter (fun r => (fnOfSub s r).any fns.contains && !(s.pair.handing.contains r))
  else []

/-- The contexts of the rings of lost functions are disabled and their positions gone; a mirrored ring handed to
the twin keeps what the twin's copy needs. -/
def loseRings (s : State) (fns hand : List Nat) : State :=
  let s := (s.subRings.filter (fun e => (fnOfSub s e.1).any fns.contains)).foldl (fun s e =>
    if hand.contains e.1 then updSub s e.1 (fun q => { q with enable := false }) else setSub s e.1 {}) s
  (s.compRings.filter (fun e => (fnOfComp s e.1).any fns.contains)).foldl (fun s e => setComp s e.1 {}) s

/-- The orders of R464 for some functions. -/
def loseFunctions (s : State) (fns hand : List Nat) : State :=
  let gone (i : Nat) : Bool :=
    let x := sessOf s i
    decide (x.state ≠ .free) && !x.shadow && fns.contains x.fn && !(x.mirrored && hand.contains x.openRing)
  let lost := (s.sessions.map (·.1)).filter gone
  let s := lost.foldl loseHost s
  let staging (w : WSet) : Bool := match w.stage with
    | some (ring, _) => (fnOfSub s ring).any fns.contains
    | none => false
  let s := (s.sets.filter (fun e => fns.contains e.2.owner || staging e.2)).foldl (fun s e => loseOwner s e.1) s
  let s := loseRings (dropUnowned s) fns hand
  let s := (s.mgmt.filter (fun e => match e.2.transport with
    | .mailbox fn => fns.contains fn
    | .udp _ _ => false)).foldl (fun s e => dropMgmt s e.1) s
  fns.foldl (fun s f => updFn s f (fun x => { x with busy := false, reply := [] })) s

/-- A port loses its host. -/
def losePort (s : State) (port new : Nat) (twinUp : Bool) : State :=
  let fns := portFunctions port
  let hand := handRings s fns twinUp
  let s := loseWindows (loseFunctions s fns hand) port
  let s := hand.foldl (fun s r => sendFrame s 6 r) s
  let s := { s with pair := { s.pair with handing := s.pair.handing ++ hand } }
  let s := updPort s port (fun x => { x with linkDown := false, retrainDue := false })
  releasePorts (setLink (bump s K.pcieHostLosses) port new)

/-! ## The reset input (R463) -/

/-- PERST_INPUT: a port reset; one assertion too many in 10 s marks the input. -/
def effPerst (s : State) (port widthNs : Nat) (overLimit twinUp : Bool) : State :=
  if widthNs < 50 then bump s K.pciePerstGlitches
  else
    let s := odBit (updPort s port (fun x => { x with asserted := true })) K.pciePerstStatus (port + 2) true
    let s := if overLimit ∧ !(portOf s port).chatter then
        let s := odBit (updPort s port (fun x => { x with chatter := true })) K.pciePerstStatus port true
        reportInput (bump s K.hlthChatterEvents) (16 + port) 0
      else s
    if (portOf s port).state = 4 ∨ (portOf s port).state = 5 then setLink s port 4 else losePort s port 4 twinUp

/-- PERST_DEASSERTION: the port trains, unless it is held for chattering. -/
def effPerstEnd (s : State) (port : Nat) : State :=
  if !(portOf s port).asserted then s
  else trainPort (odBit (updPort s port (fun x => { x with asserted := false })) K.pciePerstStatus (port + 2) false) port

/-! ## Links (R454, R464, R466) -/

/-- PCIE_LINK_UP, at a rate of no more than target_rate (R468): training ends, or Data Link Layer comes back within 10 ms. A link below 16 GT/s or narrower
than x4 is held in DOWN. -/
def effLinkUp (s : State) (port rate width : Nat) (flit : Bool) : State :=
  let x := portOf s port
  let rate := Nat.min rate (domField s K.pcieTargetRate port 1)
  let s := if x.state = 5 then trainPort s port else s
  if (portOf s port).state = 1 then
    if rate < 16 ∨ width < 4 then setLink s port 0
    else setLink (updPort s port (fun x => { x with rate, width, flit })) port 2
  else if x.state = 2 ∧ x.linkDown then updPort s port (fun x => { x with linkDown := false, rate, width, flit })
  else s

/-- DATA_LINK_DOWN: outbound writes are held, and the hold is counted. -/
def effLinkDown (s : State) (port heldNs : Nat) : State :=
  let x := portOf s port
  if x.state = 2 ∨ x.state = 3 then bump (updPort s port (fun x => { x with linkDown := true })) K.pcieHeldWriteTime heldNs
  else s

/-- LINK_DOWN_TIMEOUT: down for more than 10 ms. -/
def effLinkLost (s : State) (port : Nat) (twinUp : Bool) : State :=
  if (portOf s port).linkDown then losePort s port 5 twinUp else s

/-- FLR of a function, with the virtual functions of a physical one. -/
def effFlr (s : State) (fn : Nat) : State :=
  let s := loseFunctions s (if fn % 64 = 0 then portFunctions (fn / 64) else [fn]) []
  let x := portOf s (fn / 64)
  let s := recordEvent (bump s K.pcieFlrs) {
    code := 0xD000, source := .pciePort, location := fn / 64, payload := table 1 [fn / 64, x.state, x.state] }
  releasePorts (if fn % 64 = 0 then updPort s (fn / 64) (fun x => { x with vfs := 0 }) else s)

/-- CORRECTABLE_THRESHOLD: errors in one second; a retrain waits for class-0 sessions to go. -/
def effCorrectable (s : State) (port errors : Nat) : State :=
  let s := updPort s port (fun x => { x with correctable := x.correctable + errors })
  let x := portOf s port
  if errors ≤ odGet s K.pcieCorrectableThreshold ∨ x.state ≠ 2 then s
  else if portClass0 s port then
    if x.retrainDue then s
    else recordEvent (updPort s port (fun x => { x with retrainDue := true })) {
      code := 0xD001, source := .pciePort, location := port, payload := natLe port 1 }
  else setLink s port 3

/-- A write to retrain: refused for class 0; a port that is not UP stays as it is. -/
def retrainNamedPort (port : Nat) (s : State) : Act :=
  if portClass0 s port then refuse
  else .ok (if (portOf s port).state = 2 then setLink s port 3 else s)

/-- PCIE_RETRAIN_COMPLETE: held writes proceed, or Data Link Layer is down. -/
def effRetrainEnd (s : State) (port : Nat) (ok : Bool) (heldNs : Nat) : State :=
  if (portOf s port).state ≠ 3 then s
  else
    let s := bump (setLink s port 2) K.pcieHeldWriteTime heldNs
    if ok then s else updPort s port (fun x => { x with linkDown := true })

/-- CONFIGURATION_REQUEST (R462): Request Retry Status until READY or FAILED. -/
def effConfig (s : State) (port fn : Nat) : State :=
  let up := (portOf s port).state = 2 ∨ (portOf s port).state = 3
  let retry := decide (odGet s K.devBringUpState < 8)
  if !(decide up) then s
  else
    let s := if retry then updFn s (port * 64 + fn) (fun x => { x with retries := x.retries + 1 }) else s
    emit s (.configReply port fn retry)

/-! ## The commands -/

def atPcie (port : Nat) (next : State) : Result := atUnit (decide (port < 2)) "PCI Express port" port next

/-- PERST_INPUT (R463, R464). -/
def execPerstInput (port widthNs : Nat) (overLimit twinUp : Bool) (s : State) : Result :=
  atPcie port (drainOn (effPerst s port widthNs overLimit twinUp))
/-- PERST_DEASSERTION (R463). -/
def execPerstDeassertion (port : Nat) (s : State) : Result := atPcie port (effPerstEnd s port)
/-- LINK_DOWN_TIMEOUT (R464). -/
def execLinkDownTimeout (port : Nat) (twinUp : Bool) (s : State) : Result :=
  atPcie port (drainOn (effLinkLost s port twinUp))
/-- DATA_LINK_DOWN (R464). -/
def execDataLinkDown (port heldNs : Nat) (s : State) : Result := atPcie port (effLinkDown s port heldNs)
/-- FLR (R464). -/
def execFlr (fn : Nat) (s : State) : Result := atFn fn (drainOn (effFlr s fn))
/-- PCIE_LINK_UP (R454, R464). -/
def execPcieLinkUp (port rate width : Nat) (flit : Bool) (s : State) : Result := atPcie port (effLinkUp s port rate width flit)
/-- CORRECTABLE_THRESHOLD (R466). -/
def execCorrectableThreshold (port errors : Nat) (s : State) : Result := atPcie port (effCorrectable s port errors)
/-- PCIE_RETRAIN (R466). -/
def execPcieRetrain (rq : Rq) (port : Nat) (s : State) : Result :=
  .next (cmdWrite s rq K.pcieRetrain port (retrainNamedPort port))
/-- PCIE_RETRAIN_COMPLETE (R466). -/
def execPcieRetrainComplete (port : Nat) (ok : Bool) (heldNs : Nat) (s : State) : Result :=
  atPcie port (effRetrainEnd s port ok heldNs)
/-- CONFIGURATION_REQUEST (R462). -/
def execConfigurationRequest (port fn : Nat) (s : State) : Result :=
  if fn < 64 then atPcie port (effConfig s port fn) else .fault (.noSuchUnit "function" fn)

end Sys2Proof.Machine
end

