-- ==== Sys2Proof/Machine/BringUp.lean ====
section
/-! DEFINITION. Power-fail, module reset and bring-up (R350, R351, R379 to R391, R416, R445, R450, R490). Orders 1 to
7 of R379 run in one step, at the release of reset or at the end of the reset's wipe; the bring-up then waits for
the mesh to lock, and orders 8 to 11 follow in one step. Before order 3 it may wait for the coolant.
bring_up_state while it waits: 0 BOOTING before order 3, 4 MESH at order 7. -/

namespace Sys2Proof.Machine

/-! ## What is kept (R351, R390, R450, R490) -/

/-- Scalars in fuses or flash. -/
def keptScalars : List Nat :=
  [K.secLifecycleState, K.secFwFuseVersion, K.cfgNextEpoch, K.devFirmwareSlot, K.devResetCause]

/-- What fuses and flash hold; messages sent, free values and waiting commands are not the module's memory. -/
def flashOnly (s : State) : State :=
  { od := s.od.filter (fun e => keptScalars.contains e.1)
    recorder := s.recorder, yield := { s.yield with unwritten := [] }, nextMgmt := s.nextMgmt
    security := { slot0 := s.security.slot0, slot1 := s.security.slot1, activate := s.security.activate, transition := s.security.transition }
    stored := s.stored, commits := s.commits.filter (fun c => decide (c.phase ≠ .switching))
    out := s.out, free := s.free, pending := s.pending }

/-- A module reset also leaves the edge ring its input levels and marks, and the coolant supervision. -/
def afterReset (s : State) : State :=
  let t := flashOnly s
  let t := odSet t K.hlthInputStatus (odGet s K.hlthInputStatus - odGet s K.hlthInputStatus % 256)
  let t := odSet t K.pciePerstStatus (odGet s K.pciePerstStatus)
  let t := odSet t K.coolCoolantState (if s.plant.coolHold then odGet s K.coolCoolantState else 0)
  let t := odSet t K.pwrConvertersFailed (odGet s K.pwrConvertersFailed)
  let t := updPort (updPort t 0 (fun _ => quietPort (portOf s 0))) 1 (fun _ => quietPort (portOf s 1))
  { t with
    pair := { prHigh := s.pair.prHigh, prLevel := s.pair.prLevel }
    plant := { powered := true, resetting := true, coolHold := s.plant.coolHold, coolRow := s.plant.coolRow
               coolFloor := s.plant.coolFloor, stopActive := s.plant.stopActive } }

/-- A life-cycle change that has begun: its erase is completed before order 3 (R450 order 3). -/
def finishTransition (s : State) : State :=
  match s.security.transition with
  | none => s
  | some t =>
    let s := { s with security := { s.security with transition := none } }
    if t.1 ≠ odGet s K.secLifecycleState then s
    else
      let keys := if t.2 then [] else domKeys s
      let s := odSet s K.cfgNextEpoch (objDefault K.cfgNextEpoch)
      { s with stored := keys, recorder := { s.recorder with
        flash := [], flushing := none, flushedSeq := s.recorder.flushing.getD s.recorder.flushedSeq } }
where
  /-- The operator keys are in the security area, not in the stored configuration's. -/
  domKeys (s : State) : KV (List Byte) := s.stored.filter (fun e => e.1 == K.secOperatorKeys)

/-! ## Stopping in FAILED (R380) -/

/-- The bring-up stops; the management ports and the mailbox stay available. -/
def failBringUp (s : State) (order reason : Nat) : State :=
  let s := recordEvent s { code := 0x1000, source := mpSource s, payload := natLe order 1 ++ natLe reason 1 }
  let s := odSet (odSet (odSet s K.devBringUpState 9) K.devBringUpFailure reason) K.hlthHealthState 2
  let s := { s with plant := { s.plant with resetting := false, heldBringUp := none } }
  trainPort (trainPort s 0) 1

/-! ## Order 2: processors, firmware and the stored configuration -/

/-- Is a slot's image one that the ROM boots (R443, R444)? -/
def slotBoots (s : State) (i : Nat) (verified : Bool) : Bool :=
  verified && (slotAt s i).valid && decide (odGet s K.secFwFuseVersion ≤ (slotAt s i).version)

/-- The slot that boots: the active one, else the other. -/
def bootSlot (s : State) (f : BringUp) : Option Nat :=
  let act := s.security.activate.getD (odGet s K.devFirmwareSlot)
  let ok (i : Nat) : Bool := slotBoots s i (if i = 0 then f.slotOk0 else f.slotOk1)
  if ok act then some act else if ok (1 - act) then some (1 - act) else none

/-- Images whose verification fails as the ROM tries the slots; each counts at 0xC000:11 (R443). -/
def bootFailures (s : State) (f : BringUp) : Nat :=
  let act := s.security.activate.getD (odGet s K.devFirmwareSlot)
  let verified (i : Nat) : Bool := if i = 0 then f.slotOk0 else f.slotOk1
  let bad (i : Nat) : Bool := (slotAt s i).valid && !(verified i)
  (if bad act then 1 else 0) + (if !(slotBoots s act (verified act)) && bad (1 - act) then 1 else 0)

/-- Firmware has booted from a slot; a fallback is recorded and raises bit 14. -/
def runSlot (s : State) (slot : Nat) : State :=
  let act := s.security.activate.getD (odGet s K.devFirmwareSlot)
  let s := odSet (odSet s K.devFirmwareSlot slot) K.secFwSecurityVersion (slotAt s slot).version
  if slot = act then { s with security := { s.security with activate := none } }
  else
    let s := { s with security := { s.security with activate := some act } }
    replaceRequest (recordEvent s { code := 0x1000, source := mpSource s, payload := [2, 2] }) 14 1

/-- A commit that a power-fail or reset has overtaken is recorded with reason 8 (R416). -/
def noteLost (s : State) (c : Commit) : State :=
  bump (noteCommit s (commitBytes c.epoch 1 8 0 0xFF)) K.cfgRollbacks

/-- The processors boot, the recorder's new run begins, and the stored configuration governs. -/
def bootProcessors (s : State) (f : BringUp) : State :=
  let s := odSet s K.hlthMpState ((if f.mpFailA then 0 else 1) + (if f.mpFailB then 0 else 2))
  let s := odSet s K.devPrimaryMp (if f.mpFailA then 1 else 0)
  let s := newRun (finishTransition s) (odGet s K.devResetCause)
  let lost := s.commits
  let s := lost.foldl noteLost { s with commits := [] }
  let s := if f.mpFailA ∨ f.mpFailB then replaceRequest s 10 2 else s
  s.stored.foldl (fun s e => setValue s e.1 e.2) s

/-! ## Order 5: the yield map is merged (R385) -/

/-- Is a runtime entry kept across module reset (R384)? -/
def keptEntry (e : YieldEntry) : Bool :=
  decide (e.type ≤ 0x0B) && !(e.type == 9 && (e.unit == 2 || e.unit == 3))

/-- Entries of this bring-up: what self-test found, blocks that failed their feed test, failed converters, cores
that failed the firmware load, and cores of retired arrays (R136). -/
def bistEntries (f : BringUp) (kept : List YieldEntry) : List YieldEntry :=
  f.selfTest ++ f.feedFail.map (fun b => { type := 9, source := 1, location := b, unit := 2 }) ++
    f.convertersFailed.map (fun c => { type := 0x0E, source := 1, location := 0xFFFF, unit := c }) ++
    f.firmwareFail.map (fun c => { type := 1, source := 1, location := c.1, unit := c.2, value := 5 }) ++
    (kept.filter (fun e => e.type == 4)).map (fun e => { type := 1, source := 1, location := e.location, unit := e.unit, value := 3 })

def mergeYield (s : State) (f : BringUp) : State :=
  let y := s.yield
  let gen := y.generation + 1
  let factory := y.entries.filter (fun e => e.source == 0)
  let kept := y.entries.filter (fun e => e.source == 2 && keptEntry e)
  let bist := (bistEntries f (factory ++ kept)).map (fun e => { e with source := 1, added := gen })
  let room := yieldMax - factory.length - kept.length
  let s := { s with yield := { generation := gen, entries := factory ++ bist.take room ++ kept, unwritten := bist.drop room } }
  if bist.length ≤ room then s else replaceRequest (bump s K.yldYieldOverflow (bist.length - room)) 13 1

/-! ## Order 6: bindings and detours -/

/-- The logical core of a physical one in its cluster. -/
def logicalCore (s : State) (cl unit : Nat) : Option Nat := indexWhere (fun k => k == unit) (coreOrder s cl)

/-- One entry's failure is applied. -/
def applyEntry (s : State) (e : YieldEntry) : State :=
  let onArray (f : Arr → Arr) (k : Nat) (s : State) : State :=
    match logicalCore s e.location e.unit with
    | some c => updArr (odSet s k (odGet s k - 1)) ((e.location * 16 + c) * 32 + e.sub) f
    | none => odSet s k (odGet s k - 1)
  match e.type with
  | 2 => if e.value < 8 then onArray (fun x => { x with rowsBound := x.rowsBound ++ [e.index] }) K.arrSpareRowsLeft s else s
  | 3 => if e.value < 8 then onArray (fun x => { x with colsBound := x.colsBound ++ [e.index] }) K.arrSpareColumnsLeft s else s
  | 5 => { s with fabric := { s.fabric with
      routers := insertNat e.location s.fabric.routers
      bulkDown := if e.unit = 0 then insertNat e.location s.fabric.bulkDown else s.fabric.bulkDown } }
  | 6 => updLink s e.value (fun x => { x with failed := true })
  | 7 =>
    -- a link with more failed wires than spares is failed (R282)
    if 64 ≤ boundSpares s e.value e.sub then updLink s e.value (fun x => { x with failed := true }) else
    let s := updLink s e.value (fun x => { x with wires := x.wires ++ [(e.sub * 65536 + e.index, e.unit)] })
    odSet s K.netSeamSparesLeft (odGet s K.netSeamSparesLeft - 1)
  | 8 => updFrame s (e.location * 2 ^ 21 + e.value) (fun x => { x with use := .withdrawn })
  | 9 => updBlk s e.location (fun x => { x with mainOpen := true, run := .isolated, stack := .off })
  | 0x0B => updBlk s e.location (fun x => { x with stack := .lost })
  | 0x0C =>
    let k := if e.sub = 0 then 2 * e.location + e.unit else 1728 + 2 * e.location + e.unit
    updSensor s k (fun x => if e.value = 2 then { x with failed := true } else { x with suspect := true })
  | _ => s

/-- Spares are bound in every cluster, every entry is applied, and the failures are counted. -/
def applyYield (s : State) : State :=
  let cls := ((yieldAll s).filter (fun e => e.type == 1 || e.type == 5)).foldl (fun acc e => insertNat e.location acc) []
  let s := cls.foldl rebind s
  let s := (yieldAll s).foldl applyEntry s
  recountYield { s with fabric := { s.fabric with uncovered := uncoveredSet s } }

/-- Bits of the replace request whose cause is still present are set again (R423). -/
def raiseAgain (s : State) : State :=
  let has (t : Nat) : Bool := (yieldAll s).any (fun e => e.type == t)
  let s := checkSpares s
  let s := if (yieldAll s).any (fun e => e.type == 4 && e.value == 0xFF) then replaceRequest s 1 1 else s
  let s := if s.fabric.links.any (fun e => decide (64 ≤ boundSpares s e.1 0) || decide (64 ≤ boundSpares s e.1 1)) then
      replaceRequest s 2 1 else s
  let s := if odGet s K.pwrConvertersFailed = 0 then s else requestConverters s
  let s := if odGet s K.yldBlocksUnavailable = 0 then s else replaceRequest s 6 2
  let s := if has 0x0C then replaceRequest s 8 1 else s
  let s := if has 5 || has 6 then replaceRequest s 9 1 else s
  if odGet s K.hlthInputStatus / 256 % 64 = 0 then s else replaceRequest s 12 1

/-! ## Orders 3 to 7 -/

/-- A regulator phase that fails as it starts; a block it takes off is off at once (R337, R381). -/
def startPhase (s : State) (x : Nat × Domain) : State :=
  let s := failPhase s x.1 x.2 (failedPhases (blkOf s x.1) x.2).length
  if (blkOf s x.1).drain = some .supply then finishDrain s x.1 else s

/-- Orders 3 to 7: blocks, self-test, yield map, binding; then the mesh locks. -/
def bringUpBlocks (s : State) (f : BringUp) : State :=
  let s := applyYield (mergeYield s f)
  let s := raiseAgain (f.phaseFail.foldl startPhase s)
  let s := odSet s K.meshReferencePresent (if f.reference then 1 else 0)
  let s := odSet (odSet s K.meshMeshState 1) K.devBringUpState 4
  { s with plant := { s.plant with heldBringUp := some f, coolHold := false } }

/-- Orders 1 and 2, and the wait for the coolant. A grade in flash that differs from the fuses is recorded, and the
fuses govern (R388). Both processors failed: no port answers. Recovery, a lack of power
and DISPOSED end the bring-up. -/
def bringUp (s : State) (f : BringUp) (cold : Bool) : State :=
  let s := odSet s K.pwrConvertersFailed
    ((List.range 16).foldl (fun n i => if f.convertersFailed.contains i ∨ (odGet s K.pwrConvertersFailed).testBit i then n + 2 ^ i else n) 0)
  if f.mpFailA && f.mpFailB then s
  else
    let s := bootProcessors s f
    let s := if f.gradeMismatch then recordEvent s { code := 0x1000, source := mpSource s, payload := [1, 0] } else s
    let s := if bootFailures s f = 0 then s else bump s K.secSignatureFailures (bootFailures s f)
    let base := (List.range 144).foldl (fun n b => n + Config.baseDraw b) 0
    if cold && decide (workingConverters s * 200000 < base * 121) then failBringUp s 1 1
    else match bootSlot s f with
      | none => failBringUp s 2 2
      | some slot =>
        let s := runSlot s slot
        if lifecycle s = lcDisposed then { s with plant := { s.plant with resetting := false } }
        else if s.plant.coolHold || odGet s K.coolCoolantState == 4 then { s with plant := { s.plant with heldBringUp := some f } }
        else bringUpBlocks s f

/-! ## Orders 8 to 11 -/

def lostStacks (s : State) : Nat := (s.blocks.filter (fun e => decide (e.2.stack = .lost))).length

/-- The enabled Geanna ports begin training (R290). -/
def trainGeanna (s : State) : State :=
  (List.range 28).foldl (fun s i => if portEnabled s i then setPort s i .training else s) s

/-- Stacks, firmware, ports; the module is READY. -/
def finishBringUp (s : State) (f : BringUp) : State :=
  let s := { s with plant := { s.plant with heldBringUp := none } }
  let s := (f.stacksLost.filter (fun b => decide (b < 144) && decide ((blkOf s b).stack ≠ .lost))).foldl loseStack s
  if 24 < lostStacks s then failBringUp s 8 4
  else
    let s := odSet s K.devBringUpState 7
    let s := trainGeanna (trainPort (trainPort s 0) 1)
    let s := odPut (odSet s K.devBringUpState 8) K.devBringUpTime f.timeMs
    { s with plant := { s.plant with resetting := false } }

/-- MESH_LOCK (R371): a bring-up that waited for it goes on. -/
def effMeshLock (s : State) (us : Nat) : State :=
  if meshState s ≠ 1 then s
  else
    let s := recordMesh (lockMesh s us)
    match s.plant.heldBringUp with
    | some f => if odGet s K.devBringUpState = 4 then finishBringUp s f else s
    | none => s

/-- MESH_BRING_UP_TIMEOUT (R380). -/
def effMeshTimeout (s : State) : State :=
  if odGet s K.devBringUpState = 4 ∧ meshState s = 1 then failBringUp s 7 3 else s

/-- COOLANT_STATE_FALL: a held bring-up goes on once the coolant has been NORMAL for 10 s (R369, R380). -/
def effCoolantReturn (s : State) : State :=
  match s.plant.heldBringUp with
  | some f =>
    if odGet s K.devBringUpState ≠ 0 then effCoolantFall s
    else if s.plant.coolRow ≠ 0 then s
    else bringUpBlocks (setCoolant s 0) f
  | none => effCoolantFall s

/-! ## Power-fail and resets -/

/-- POWER_FAIL (R350): the flush is the last thing the module does. -/
def effPowerFail (s : State) : State :=
  if !s.plant.powered ∨ s.plant.powerFail then s
  else
    let s := recordLast s {
      code := 0x2100, source := mpSource s, payload := [0xFF, 0xFF] ++ natLe (odGet s K.pwrInputVoltage) 2 }
    let s := odSet (flashOnly s) K.devResetCause 1
    { s with plant := { powerFail := true } }

/-- RESET_RELEASE (R379, R514): a cold start. -/
def effRelease56 (s : State) (f : BringUp) : State :=
  if s.plant.powered then s
  else
    let s := odSet (flashOnly s) K.devResetCause (if s.plant.powerFail then 1 else 0)
    bringUp { s with plant := { powered := true } } f true

/-- RESET_WIPE_COMPLETE (R390 orders 3 and 4, R451): every memory is zeros; a stack that has not confirmed is lost. -/
def effResetWipe (s : State) (ms : Nat) (lost : List Nat) (f : BringUp) : State :=
  if !s.plant.resetting ∨ odGet s K.devBringUpState ≠ 0 ∨ s.plant.heldBringUp.isSome then s
  else bringUp (odPut (afterReset s) K.secWipeTime ms) { f with stacksLost := lost ++ f.stacksLost } false

/-- MRST_N_INPUT (R389, R418): a fourth reset within 60 s is refused, and the line ignored while it chatters. -/
def effMrst (s : State) (widthNs : Nat) (overLimit : Bool) : State :=
  if !s.plant.powered then s
  else if widthNs < 50 then bump s K.devResetGlitches
  else if chattering s .mrst then s
  else if overLimit then markChatter s .mrst
  else startReset s 3

/-- MRST_N_STUCK (R389). -/
def effMrstStuck (s : State) : State :=
  if odGet s K.devResetInputStuck = 1 then s else latchStuck (odSet s K.devResetInputStuck 1) 3 1000000

/-! ## The commands -/

/-- POWER_FAIL (R350). -/
def execPowerFail (_cause : PowerFailCause) (s : State) : Result := .next (effPowerFail s)
/-- RESET_RELEASE (R379, R514). -/
def execResetRelease (f : BringUp) (s : State) : Result := .next (effRelease56 s f)
/-- MESH_LOCK (R371, R379). -/
def execMeshLock (us : Nat) (s : State) : Result := .next (effMeshLock s us)
/-- MESH_BRING_UP_TIMEOUT (R380). -/
def execMeshBringUpTimeout (s : State) : Result := .next (effMeshTimeout s)
/-- COOLANT_STATE_FALL (R368, R380). -/
def execCoolantStateFall (s : State) : Result := .next (effCoolantReturn s)
/-- MODULE_RESET (R389): the reply goes out, then the reset starts. -/
def execModuleReset (rq : Rq) (value : Nat) (s : State) : Result :=
  .next (takeReset (cmdWrite s rq K.devModuleReset value (onOne value (fun s =>
    .ok { s with plant := { s.plant with resetDue := some 2 } }))))
/-- MRST_N_INPUT (R389). -/
def execMrstNInput (widthNs : Nat) (overLimit : Bool) (s : State) : Result := .next (effMrst s widthNs overLimit)
/-- MRST_N_STUCK (R389). -/
def execMrstNStuck (s : State) : Result := .next (effMrstStuck s)
/-- WATCHDOG (R389). -/
def execWatchdog (s : State) : Result := .next (startReset s 4)
/-- RESET_WIPE_COMPLETE (R390). -/
def execResetWipeComplete (ms : Nat) (lost : List Nat) (f : BringUp) (s : State) : Result :=
  .next (effResetWipe s ms lost f)

end Sys2Proof.Machine
end

