-- ==== Sys2Proof/Machine/Takeover.lean ====
section
/-! DEFINITION. Management processor takeover (R410 to R413, R429, R452): the standby becomes primary, and what the
failed processor had in progress ends as R412 says. -/

namespace Sys2Proof.Machine

/-- The bit of mp_state of a processor (R424). -/
def mpBit (mpB : Bool) : Nat := if mpB then 1 else 0

def mpIsUp (s : State) (mpB : Bool) : Bool := (odGet s K.hlthMpState).testBit (mpBit mpB)

/-- A firmware image half written: its slot is marked empty (R452). -/
def dropImage (s : State) : State :=
  if s.mgmt.any (fun e => e.2.writing.any (fun w => w.key == K.secFwImage)) then setFwSlot s (idleSlot s) emptySlot else s

/-- Every management session ends, without a message of the failed processor. -/
def dropClients (s : State) : State := (s.mgmt.map (·.1)).foldl dropMgmt s

/-- A commit in prepare is rolled back with reason 7. -/
def rollPrepare (s : State) : State :=
  match preparing s with
  | some c => rollBack s c 7 0 0xFF
  | none => s

/-- The standby takes over from the primary; `us` is the time it takes. With no standby nothing takes over. -/
def processorTakeover (s : State) (us : Nat) : State :=
  let failed := decide (odGet s K.devPrimaryMp = 1)
  if !(mpIsUp s failed) then s
  else
    let s := dropClients (dropImage (odBit s K.hlthMpState (mpBit failed) false))
    if !(mpIsUp s !failed) then replaceRequest s 10 2
    else
      let s := odSet (odBit s K.hlthMpState 2 true) K.devPrimaryMp (mpBit !failed)
      let s := rollPrepare (writeGaps s failed)
      let s := odPut (bump s K.hlthMpTakeovers) K.hlthLastTakeoverDuration us
      let s := recordEvent (replaceRequest s 10 2) {
        code := 0xA100, source := mpSource s, payload := natLe 10 1 ++ natLe us 4 }
      startFlush s

/-- MP_HEARTBEAT_TIMEOUT (R410, R411). -/
def execMpHeartbeatTimeout (us : Nat) (s : State) : Result := .next (processorTakeover s us)
/-- MP_SELF_CHECK_FAIL (R410, R411). -/
def execMpSelfCheckFail (us : Nat) (s : State) : Result := .next (processorTakeover s us)

end Sys2Proof.Machine
end

