-- ==== Sys2Proof/Machine/Writes.lean ====
section
/-! DEFINITION. WRITE and the writes of SEGMENT (R474, R476, R478). A WRITE of a command object runs the same action
as the row that the table gives that object. -/

namespace Sys2Proof.Machine

/-! ## WRITE -/

/-- The action of a module-wide command object on a value. -/
def moduleAction (k v : Nat) : Option (State → Act) :=
  if k = K.devModuleReset then
    some (onOne v (fun s => .ok { s with plant := { s.plant with resetDue := some 2 } }))
  else if k = K.arrCalibrateAll then some (onOne v (fun s => .ok (queueEveryChain s)))
  else if k = K.numClear then some (onOne v (fun s => .ok (zeroObjects s 0x7100 2 12)))
  else if k = K.sessEndSession then some (endNamedSession v)
  else if k = K.wtUnload then some (unloadNamedSet v)
  else if k = K.wtReleaseHost then some (releaseBundle v)
  else if k = K.fabRetrain then some (fun s => .ok (retrainPort s v))
  else if k = K.pairDetach then some (onOne v (fun s => .ok (startDetach s)))
  else if k = K.pairDrain then some (onOne v drainNow)
  else if k = K.yldStackRetrain then some (retrainNamedStack v)
  else if k = K.yldLinkRetrain then some (retrainNamedLink v)
  else if k = K.recClear then some (onOne v (fun s => .ok (effClearLog s)))
  else if k = K.recFlushNow then some (onOne v (fun s => .ok (startFlush s)))
  else if k = K.secFwActivate then some (activateSlot v)
  else if k = K.secAdvanceSecurityVersion then some (onOne v advanceVersion)
  else if k = K.pcieRetrain then some (retrainNamedPort v)
  else if k = K.diagClearBlockEntry then some (clearShort v)
  else none

/-- The action of any command object on a value, but for `load` and `attach`, whose rows carry what the module
finds outside itself. -/
def cmdAction (k v : Nat) : Option (State → Act) :=
  let p := k / 256 % 256
  if k = K.partPartitionReset p then some (onOne v (resetNamedPartition p))
  else if k = K.partUnload p then some (if v = 0 then drainPartition p else unloadPartition p)
  else if k = K.statClear p then some (onOne v (fun s => .ok (clearLapStats s p)))
  else moduleAction k v

/-- What follows at once from a new value: the thresholds of R421 are compared. -/
def afterWrite (s : State) (k : Nat) : State :=
  if k = K.hlthSpareCoreThreshold then recountYield s
  else if k = K.hlthSpareArrayThreshold then checkSpares s
  else s

/-- A scalar RW object takes its value. -/
def writeScalar (s : State) (i k v : Nat) : State :=
  if k = K.recReadSlot then setMgmt s i { mgmtOf s i with readSlot := v } else afterWrite (odSet s k v) k

/-- A WRITE of an RW object (R474, R476). -/
def runWrite (rq : Rq) (index sub : Nat) (v : List Byte) (s : State) : State × Option Answer :=
  let k := index * 256 + sub
  match gate s (mgmtOf s rq.session) index sub (.write v) with
  | .error e => (s, some { status := e })
  | .ok o =>
    if o.access ≠ .rw ∨ o.type = .domain then (s, some { status := swAccess })
    else
      let st := scalarStatus s o k v
      if st ≠ 0 then (s, some { status := st })
      else if !(ownRule s o k (leNat v)) then (s, some { status := swState })
      else (writeScalar s rq.session k (leNat v), some {})

/-- WRITE. -/
def effWrite (s : State) (rq : Rq) (index sub : Nat) (v : List Byte) : State :=
  let k := index * 256 + sub
  if k = K.partLoad (k / 256 % 256) ∨ k = K.pairAttach then s
  else match cmdAction k (leNat v) with
    | some act => beginTransition (takeReset (request s rq 0x02 index sub (runCmd rq k v act)))
    | none => request s rq 0x02 index sub (runWrite rq index sub v)

/-! ## The writes of SEGMENT (R478) -/

/-- A refused segment discards what the session had written of the object. -/
def refuseSegment (s : State) (i k status : Nat) : State × Option Answer :=
  (setMgmt s i (dropWriting (mgmtOf s i) k), some { status })

/-- The bytes of an object that a session has written so far; none before its first segment. -/
def writtenSoFar (m : Mgmt) (k : Nat) : Option (List Byte) :=
  (m.writing.find? (fun w => w.key == k)).map (·.bytes)

/-- Bit 2 is as the access asks: set for RWS, clear for RW, WO and CMD; RO is not written. -/
def stageBitOk (a : Access) (staged : Bool) : Bool :=
  match a with
  | .rws => staged
  | .rw | .wo | .cmd => !staged
  | .ro => false

/-- The ranges of a whole value; a box must be one that R295 admits. -/
def wholeInRange (s : State) (o : Obj) (k : Nat) (v : List Byte) : Bool :=
  domainInRange s o k v &&
    (decide (o.index ≠ 0x4000 ∨ o.sub ≠ 0x1C) || v == [] || (boxDepth s v).isSome)

/-- The last segment: the whole value is checked, and is staged, or replaces the object's. The bytes of a lap
program are what `load` runs from. -/
def finishSegments (s : State) (i : Nat) (o : Obj) (k : Nat) (v : List Byte) : State × Option Answer :=
  let s := setMgmt s i (dropWriting (mgmtOf s i) k)
  if !(domainLength o k v.length) then (s, some { status := swType })
  else if !(wholeInRange s o k v) then (s, some { status := swRange })
  else if !(ownRule s o k 0) then (s, some { status := swState })
  else if o.access = .rws then
    match stageValue (mgmtOf s i) k v with
    | none => (s, some { status := swTooLarge })
    | some m => (setMgmt s i m, some { data := natLe m.staged.length 2 })
  else if o.access = .rw then (domSet s k v, some {})
  else (s, some {})

/-- SEGMENT, a write. -/
def runSegmentWrite (rq : Rq) (index sub offset : Nat) (bytes : List Byte) (last staged : Bool) (s : State) :
    State × Option Answer :=
  let i := rq.session
  let m := mgmtOf s i
  let k := index * 256 + sub
  let before := writtenSoFar m k
  let v := before.getD [] ++ bytes
  match gate s m index sub (.write v) with
  | .error e => (s, some { status := e })
  | .ok o =>
    if o.type ≠ .domain ∨ !(stageBitOk o.access staged) then refuseSegment s i k swAccess
    else if bytes.length > segmentMax m.transport then refuseSegment s i k swTooLarge
    else if offset ≠ (before.getD []).length then refuseSegment s i k swSegmentOrder
    else if v.length > o.size then refuseSegment s i k swTooLarge
    else if before.isNone ∧ !(ownRule s o k 0) then refuseSegment s i k swState
    else if last then finishSegments s i o k v
    else
      let m := dropWriting m k
      (setMgmt s i { m with writing := m.writing ++ [{ key := k, staged, bytes := v }] }, some {})

/-- SEGMENT_WRITE. The last segment of attest, lc_request and fw_image has a row of its own. -/
def effSegmentWrite (s : State) (rq : Rq) (index sub offset : Nat) (bytes : List Byte) (last staged : Bool) : State :=
  let k := index * 256 + sub
  if last && !staged && (k == K.secAttest || k == K.secLcRequest || k == K.secFwImage) then s
  else request s rq 0x06 index sub (runSegmentWrite rq index sub offset bytes last staged)

/-- WRITE (R474, R476). -/
def execWrite (rq : Rq) (index sub : Nat) (v : List Byte) (s : State) : Result := .next (effWrite s rq index sub v)
/-- SEGMENT, write (R478). -/
def execSegmentWrite (rq : Rq) (index sub offset : Nat) (bytes : List Byte) (last staged : Bool) (s : State) : Result :=
  .next (effSegmentWrite s rq index sub offset bytes last staged)

end Sys2Proof.Machine
end

