-- ==== Sys2Proof/Machine/Dispatch.lean ====
section
/-! DEFINITION. The effect of a command: one arm per row of spec/opcode_table.json, each a direct call of that row's
meaning. -/

namespace Sys2Proof.Machine

/-- The command's effect on everything but the queue. -/
def exec (i : Instr) (s : State) : Host.Outcome State Fault Refusal :=
  match i with
  | .nop at_ env => Sys2Proof.Machine.execNop at_ env s
  | .desc at_ env a => Sys2Proof.Machine.execDesc at_ env a s
  | .hurdleArriveWait at_ env a => Sys2Proof.Machine.execHurdleArriveWait at_ env a s
  | .hurdleArrive at_ env a => Sys2Proof.Machine.execHurdleArrive at_ env a s
  | .hurdleWait at_ env a => Sys2Proof.Machine.execHurdleWait at_ env a s
  | .fence at_ env engines => Sys2Proof.Machine.execFence at_ env engines s
  | .bankPowerOff at_ env mask => Sys2Proof.Machine.execBankPowerOff at_ env mask s
  | .bankPowerOn at_ env mask => Sys2Proof.Machine.execBankPowerOn at_ env mask s
  | .mma at_ env a => Sys2Proof.Machine.execMma at_ env a s
  | .arrMvm at_ env a => Sys2Proof.Machine.execArrMvm at_ env a s
  | .arrWrite at_ env a => Sys2Proof.Machine.execArrWrite at_ env a s
  | .attnFull at_ env a badFrames => Sys2Proof.Machine.execAttnFull at_ env a badFrames s
  | .attnPartial at_ env a badFrames => Sys2Proof.Machine.execAttnPartial at_ env a badFrames s
  | .attnMerge at_ env a => Sys2Proof.Machine.execAttnMerge at_ env a s
  | .copy at_ env a => Sys2Proof.Machine.execCopy at_ env a s
  | .add at_ env a => Sys2Proof.Machine.execAdd at_ env a s
  | .sub at_ env a => Sys2Proof.Machine.execSub at_ env a s
  | .mul at_ env a => Sys2Proof.Machine.execMul at_ env a s
  | .fma at_ env a => Sys2Proof.Machine.execFma at_ env a s
  | .max at_ env a => Sys2Proof.Machine.execMax at_ env a s
  | .min at_ env a => Sys2Proof.Machine.execMin at_ env a s
  | .scale at_ env a => Sys2Proof.Machine.execScale at_ env a s
  | .exp at_ env a => Sys2Proof.Machine.execExp at_ env a s
  | .recip at_ env a => Sys2Proof.Machine.execRecip at_ env a s
  | .rsqrt at_ env a => Sys2Proof.Machine.execRsqrt at_ env a s
  | .silu at_ env a => Sys2Proof.Machine.execSilu at_ env a s
  | .gelu at_ env a => Sys2Proof.Machine.execGelu at_ env a s
  | .sigmoid at_ env a => Sys2Proof.Machine.execSigmoid at_ env a s
  | .tanh at_ env a => Sys2Proof.Machine.execTanh at_ env a s
  | .sum at_ env a => Sys2Proof.Machine.execSum at_ env a s
  | .maxr at_ env a => Sys2Proof.Machine.execMaxr at_ env a s
  | .sumsq at_ env a => Sys2Proof.Machine.execSumsq at_ env a s
  | .rmsnorm at_ env a => Sys2Proof.Machine.execRmsnorm at_ env a s
  | .layernorm at_ env a => Sys2Proof.Machine.execLayernorm at_ env a s
  | .softmax at_ env a => Sys2Proof.Machine.execSoftmax at_ env a s
  | .rope at_ env a => Sys2Proof.Machine.execRope at_ env a s
  | .quant at_ env a => Sys2Proof.Machine.execQuant at_ env a s
  | .dequant at_ env a => Sys2Proof.Machine.execDequant at_ env a s
  | .topk at_ env a => Sys2Proof.Machine.execTopk at_ env a s
  | .outlier at_ env a => Sys2Proof.Machine.execOutlier at_ env a s
  | .check at_ env a => Sys2Proof.Machine.execCheck at_ env a s
  | .guardCheck at_ env a => Sys2Proof.Machine.execGuardCheck at_ env a s
  | .dmaCopyStackToScratch at_ env a => Sys2Proof.Machine.execDmaCopyStackToScratch at_ env a s
  | .dmaCopyScratchToStack at_ env a => Sys2Proof.Machine.execDmaCopyScratchToStack at_ env a s
  | .dmaCopyScratchToCore at_ env a => Sys2Proof.Machine.execDmaCopyScratchToCore at_ env a s
  | .dmaCopyEdgeToScratch at_ env a => Sys2Proof.Machine.execDmaCopyEdgeToScratch at_ env a s
  | .dmaCopyScratchToEdge at_ env a => Sys2Proof.Machine.execDmaCopyScratchToEdge at_ env a s
  | .dmaWait at_ env counter threshold => Sys2Proof.Machine.execDmaWait at_ env counter threshold s
  | .cgather at_ env a => Sys2Proof.Machine.execCgather at_ env a s
  | .cinval at_ env => Sys2Proof.Machine.execCinval at_ env s
  | .engineCommandComplete at_ engine progParity => Sys2Proof.Machine.execEngineCommandComplete at_ engine progParity s
  | .dmaTransferComplete at_ index fin data => Sys2Proof.Machine.execDmaTransferComplete at_ index fin data s
  | .bankPowerUpComplete at_ bank => Sys2Proof.Machine.execBankPowerUpComplete at_ bank s
  | .bankSwitchOff at_ bank => Sys2Proof.Machine.execBankSwitchOff at_ bank s
  | .lateWrite target us => Sys2Proof.Machine.execLateWrite target us s
  | .cacheFill at_ index parity => Sys2Proof.Machine.execCacheFill at_ index parity s
  | .hurdleClear p t => Sys2Proof.Machine.execHurdleClear p t s
  | .hurdleTimeout p => Sys2Proof.Machine.execHurdleTimeout p s
  | .baton p t => Sys2Proof.Machine.execBaton p t s
  | .tokenRecordRelease session intervalNs replays cadence => Sys2Proof.Machine.execTokenRecordRelease session intervalNs replays cadence s
  | .completionPost ring => Sys2Proof.Machine.execCompletionPost ring s
  | .sampling session samples drafts parity => Sys2Proof.Machine.execSampling session samples drafts parity s
  | .rangeMonitorWindowEnd at_ chain => Sys2Proof.Machine.execRangeMonitorWindowEnd at_ chain s
  | .fullScaleWindowEnd at_ array column => Sys2Proof.Machine.execFullScaleWindowEnd at_ array column s
  | .calIntervalExpiry at_ chain => Sys2Proof.Machine.execCalIntervalExpiry at_ chain s
  | .calibrateAll rq value => Sys2Proof.Machine.execCalibrateAll rq value s
  | .calibrationComplete at_ chain trims failed => Sys2Proof.Machine.execCalibrationComplete at_ chain trims failed s
  | .rewriteComplete at_ chain mismatch => Sys2Proof.Machine.execRewriteComplete at_ chain mismatch s
  | .precisionClear rq value => Sys2Proof.Machine.execPrecisionClear rq value s
  | .lapStatisticsClear rq p value => Sys2Proof.Machine.execLapStatisticsClear rq p value s
  | .ringContextWrite fn offset bytes => Sys2Proof.Machine.execRingContextWrite fn offset bytes s
  | .ringEnable fn kind ring => Sys2Proof.Machine.execRingEnable fn kind ring s
  | .ringDisable fn kind ring => Sys2Proof.Machine.execRingDisable fn kind ring s
  | .submissionDoorbell fn ring d => Sys2Proof.Machine.execSubmissionDoorbell fn ring d s
  | .completionDoorbell fn ring d => Sys2Proof.Machine.execCompletionDoorbell fn ring d s
  | .tokenRingDoorbell fn session d => Sys2Proof.Machine.execTokenRingDoorbell fn session d s
  | .bitmapDoorbell fn session d => Sys2Proof.Machine.execBitmapDoorbell fn session d s
  | .submissionEntryFetch ring entry => Sys2Proof.Machine.execSubmissionEntryFetch ring entry s
  | .sessionOpen ring => Sys2Proof.Machine.execSessionOpen ring s
  | .promptAppend ring => Sys2Proof.Machine.execPromptAppend ring s
  | .generate ring random => Sys2Proof.Machine.execGenerate ring random s
  | .fork ring => Sys2Proof.Machine.execFork ring s
  | .cancel ring => Sys2Proof.Machine.execCancel ring s
  | .close ring => Sys2Proof.Machine.execClose ring s
  | .kvEvict ring => Sys2Proof.Machine.execKvEvict ring s
  | .kvRestore ring => Sys2Proof.Machine.execKvRestore ring s
  | .weightStage ring => Sys2Proof.Machine.execWeightStage ring s
  | .weightFlip ring => Sys2Proof.Machine.execWeightFlip ring s
  | .barrier ring => Sys2Proof.Machine.execBarrier ring s
  | .abortWave session => Sys2Proof.Machine.execAbortWave session s
  | .abortWaveAcknowledged session => Sys2Proof.Machine.execAbortWaveAcknowledged session s
  | .endSession rq session => Sys2Proof.Machine.execEndSession rq session s
  | .bitmapSlotRead session slot data => Sys2Proof.Machine.execBitmapSlotRead session slot data s
  | .kvEvictTransferComplete session ok => Sys2Proof.Machine.execKvEvictTransferComplete session ok s
  | .kvRestoreTransferComplete session fin => Sys2Proof.Machine.execKvRestoreTransferComplete session fin s
  | .stageHeaderRead set head => Sys2Proof.Machine.execStageHeaderRead set head s
  | .signatureVerified set ok => Sys2Proof.Machine.execSignatureVerified set ok s
  | .weightChunkRead set chunk data => Sys2Proof.Machine.execWeightChunkRead set chunk data s
  | .relayHeader set dir body signature => Sys2Proof.Machine.execRelayHeader set dir body signature s
  | .relayChunk set dir chunk data => Sys2Proof.Machine.execRelayChunk set dir chunk data s
  | .relayTimeout set => Sys2Proof.Machine.execRelayTimeout set s
  | .flipPrepareComplete p => Sys2Proof.Machine.execFlipPrepareComplete p s
  | .flipGapComplete p gap => Sys2Proof.Machine.execFlipGapComplete p gap s
  | .weightUnload rq set => Sys2Proof.Machine.execWeightUnload rq set s
  | .releaseHost rq set => Sys2Proof.Machine.execReleaseHost rq set s
  | .setWipeComplete set => Sys2Proof.Machine.execSetWipeComplete set s
  | .pieceRefetchComplete set piece fin => Sys2Proof.Machine.execPieceRefetchComplete set piece fin s
  | .linkFailure link lost => Sys2Proof.Machine.execLinkFailure link lost s
  | .routerFailure cluster network lost => Sys2Proof.Machine.execRouterFailure cluster network lost s
  | .portRetrain rq port => Sys2Proof.Machine.execPortRetrain rq port s
  | .trainingComplete port lanes neighbourId neighbourPos delayNs => Sys2Proof.Machine.execTrainingComplete port lanes neighbourId neighbourPos delayNs s
  | .trainingAttemptTimeout port => Sys2Proof.Machine.execTrainingAttemptTimeout port s
  | .laneFailure port e => Sys2Proof.Machine.execLaneFailure port e s
  | .neighbourDark port => Sys2Proof.Machine.execNeighbourDark port s
  | .jobSynchronizationMessage jobId mark member kind => Sys2Proof.Machine.execJobSynchronizationMessage jobId mark member kind s
  | .jobFaultMessage jobId code => Sys2Proof.Machine.execJobFaultMessage jobId code s
  | .alignmentMessage jobId => Sys2Proof.Machine.execAlignmentMessage jobId s
  | .fabricWriteArrival p channel granule data => Sys2Proof.Machine.execFabricWriteArrival p channel granule data s
  | .rackMark => Sys2Proof.Machine.execRackMark s
  | .marker offset => Sys2Proof.Machine.execMarker offset s
  | .heartbeat f sequence twinState => Sys2Proof.Machine.execHeartbeat f sequence twinState s
  | .heartbeatSend => Sys2Proof.Machine.execHeartbeatSend s
  | .mirrorAck f p lapLow ns => Sys2Proof.Machine.execMirrorAck f p lapLow ns s
  | .shadowAck f sequence => Sys2Proof.Machine.execShadowAck f sequence s
  | .abortFrame f session => Sys2Proof.Machine.execAbortFrame f session s
  | .abortDone f session => Sys2Proof.Machine.execAbortDone f session s
  | .handover f ring done => Sys2Proof.Machine.execHandover f ring done s
  | .flipFrame f p set ready refused => Sys2Proof.Machine.execFlipFrame f p set ready refused s
  | .attachFrame f step body => Sys2Proof.Machine.execAttachFrame f step body s
  | .detachFrame f => Sys2Proof.Machine.execDetachFrame f s
  | .reservedFrameCode f code => Sys2Proof.Machine.execReservedFrameCode f code s
  | .busPathDown => Sys2Proof.Machine.execBusPathDown s
  | .mirrorEntry session vaddr data => Sys2Proof.Machine.execMirrorEntry session vaddr data s
  | .mirrorVerdict p lap verdict sessions => Sys2Proof.Machine.execMirrorVerdict p lap verdict sessions s
  | .shadowMessage sequence body => Sys2Proof.Machine.execShadowMessage sequence body s
  | .mirrorAckTimeout p lap => Sys2Proof.Machine.execMirrorAckTimeout p lap s
  | .fnInput input widthNs => Sys2Proof.Machine.execFnInput input widthNs s
  | .fnStuck input => Sys2Proof.Machine.execFnStuck input s
  | .prChange input level steady overLimit => Sys2Proof.Machine.execPrChange input level steady overLimit s
  | .heartbeatTimeout us => Sys2Proof.Machine.execHeartbeatTimeout us s
  | .takeoverWaitExpiry us => Sys2Proof.Machine.execTakeoverWaitExpiry us s
  | .attach rq value config parts => Sys2Proof.Machine.execAttach rq value config parts s
  | .detach rq value => Sys2Proof.Machine.execDetach rq value s
  | .drain rq value => Sys2Proof.Machine.execDrain rq value s
  | .setPointStep block droopMv => Sys2Proof.Machine.execSetPointStep block droopMv s
  | .converterFailure converter => Sys2Proof.Machine.execConverterFailure converter s
  | .phaseFailure block domain phase => Sys2Proof.Machine.execPhaseFailure block domain phase s
  | .targetStep block drawW => Sys2Proof.Machine.execTargetStep block drawW s
  | .shortDeclared block sw domain lost => Sys2Proof.Machine.execShortDeclared block sw domain lost s
  | .blockDrainComplete block => Sys2Proof.Machine.execBlockDrainComplete block s
  | .connectorCheck readings => Sys2Proof.Machine.execConnectorCheck readings s
  | .currentReport inputMv inputW joules figures => Sys2Proof.Machine.execCurrentReport inputMv inputW joules figures s
  | .creditRefill => Sys2Proof.Machine.execCreditRefill s
  | .governorStep avgW => Sys2Proof.Machine.execGovernorStep avgW s
  | .governorRaise avgW => Sys2Proof.Machine.execGovernorRaise avgW s
  | .idleOff block => Sys2Proof.Machine.execIdleOff block s
  | .wakeComplete block chargeNs fillNs => Sys2Proof.Machine.execWakeComplete block chargeNs fillNs s
  | .powerFail cause => Sys2Proof.Machine.execPowerFail cause s
  | .resetRelease found => Sys2Proof.Machine.execResetRelease found s
  | .sensorRead readings => Sys2Proof.Machine.execSensorRead readings s
  | .sensorSuspect pair => Sys2Proof.Machine.execSensorSuspect pair s
  | .levelRise block => Sys2Proof.Machine.execLevelRise block s
  | .levelFall block => Sys2Proof.Machine.execLevelFall block s
  | .heatOff block byStack => Sys2Proof.Machine.execHeatOff block byStack s
  | .heatReturn block => Sys2Proof.Machine.execHeatReturn block s
  | .hardwareTrip sensor => Sys2Proof.Machine.execHardwareTrip sensor s
  | .coolantCheck flow inlet outlet => Sys2Proof.Machine.execCoolantCheck flow inlet outlet s
  | .coolantStateFall => Sys2Proof.Machine.execCoolantStateFall s
  | .meshLock us => Sys2Proof.Machine.execMeshLock us s
  | .lockTimeout => Sys2Proof.Machine.execLockTimeout s
  | .meshBringUpTimeout => Sys2Proof.Machine.execMeshBringUpTimeout s
  | .referenceAbsent e => Sys2Proof.Machine.execReferenceAbsent e s
  | .referenceRestored => Sys2Proof.Machine.execReferenceRestored s
  | .slewComplete mark => Sys2Proof.Machine.execSlewComplete mark s
  | .oscillatorUnlock cluster => Sys2Proof.Machine.execOscillatorUnlock cluster s
  | .moduleReset rq value => Sys2Proof.Machine.execModuleReset rq value s
  | .mrstNInput widthNs overLimit => Sys2Proof.Machine.execMrstNInput widthNs overLimit s
  | .mrstNStuck => Sys2Proof.Machine.execMrstNStuck s
  | .watchdog => Sys2Proof.Machine.execWatchdog s
  | .resetWipeComplete ms lost found => Sys2Proof.Machine.execResetWipeComplete ms lost found s
  | .partitionReset rq p value => Sys2Proof.Machine.execPartitionReset rq p value s
  | .partitionFault p failed => Sys2Proof.Machine.execPartitionFault p failed s
  | .partitionWipeComplete p => Sys2Proof.Machine.execPartitionWipeComplete p s
  | .stackErrorRate block perSecond => Sys2Proof.Machine.execStackErrorRate block perSecond s
  | .stackRetrain rq block => Sys2Proof.Machine.execStackRetrain rq block s
  | .stackRetrainComplete block lanes => Sys2Proof.Machine.execStackRetrainComplete block lanes s
  | .linkRetryRate link => Sys2Proof.Machine.execLinkRetryRate link s
  | .linkRetrain rq link => Sys2Proof.Machine.execLinkRetrain rq link s
  | .linkRetrainComplete link forth back => Sys2Proof.Machine.execLinkRetrainComplete link forth back s
  | .mpHeartbeatTimeout us => Sys2Proof.Machine.execMpHeartbeatTimeout us s
  | .mpSelfCheckFail us => Sys2Proof.Machine.execMpSelfCheckFail us s
  | .ilkCoolNInput widthNs active overLimit => Sys2Proof.Machine.execIlkCoolNInput widthNs active overLimit s
  | .ilkStopNInput widthNs active overLimit => Sys2Proof.Machine.execIlkStopNInput widthNs active overLimit s
  | .interlockRelease stop => Sys2Proof.Machine.execInterlockRelease stop s
  | .ilkCoolNStuck => Sys2Proof.Machine.execIlkCoolNStuck s
  | .chatterClear input => Sys2Proof.Machine.execChatterClear input s
  | .eventRecord stage e => Sys2Proof.Machine.execEventRecord stage e s
  | .gapTimeout slot => Sys2Proof.Machine.execGapTimeout slot s
  | .recorderClear rq value => Sys2Proof.Machine.execRecorderClear rq value s
  | .flushNow rq value => Sys2Proof.Machine.execFlushNow rq value s
  | .flushComplete fin => Sys2Proof.Machine.execFlushComplete fin s
  | .suppressWindowEnd code location => Sys2Proof.Machine.execSuppressWindowEnd code location s
  | .attest rq nonce => Sys2Proof.Machine.execAttest rq nonce s
  | .lcChallenge rq => Sys2Proof.Machine.execLcChallenge rq s
  | .lcRequest rq token signatureOk => Sys2Proof.Machine.execLcRequest rq token signatureOk s
  | .fwImage rq image => Sys2Proof.Machine.execFwImage rq image s
  | .fwActivate rq slot => Sys2Proof.Machine.execFwActivate rq slot s
  | .advanceSecurityVersion rq value => Sys2Proof.Machine.execAdvanceSecurityVersion rq value s
  | .handshakeOrder1 t handshakeId clientNonce kemKey keyId complete overRate => Sys2Proof.Machine.execHandshakeOrder1 t handshakeId clientNonce kemKey keyId complete overRate s
  | .handshakeOrder3 t session signed signatureOk complete => Sys2Proof.Machine.execHandshakeOrder3 t session signed signatureOk complete s
  | .handshakeTimeout session => Sys2Proof.Machine.execHandshakeTimeout session s
  | .read rq index sub => Sys2Proof.Machine.execRead rq index sub s
  | .write rq index sub value => Sys2Proof.Machine.execWrite rq index sub value s
  | .stage rq index sub value => Sys2Proof.Machine.execStage rq index sub value s
  | .commit rq => Sys2Proof.Machine.execCommit rq s
  | .prepareComplete => Sys2Proof.Machine.execPrepareComplete s
  | .prepareTimeout index sub p => Sys2Proof.Machine.execPrepareTimeout index sub p s
  | .abort rq => Sys2Proof.Machine.execAbort rq s
  | .segmentRead rq index sub offset length => Sys2Proof.Machine.execSegmentRead rq index sub offset length s
  | .segmentWrite rq index sub offset bytes last staged => Sys2Proof.Machine.execSegmentWrite rq index sub offset bytes last staged s
  | .segmentAbandon session index sub => Sys2Proof.Machine.execSegmentAbandon session index sub s
  | .subscribe rq index sub period => Sys2Proof.Machine.execSubscribe rq index sub period s
  | .notify session index sub overRate => Sys2Proof.Machine.execNotify session index sub overRate s
  | .swiuthClose session => Sys2Proof.Machine.execSwiuthClose session s
  | .idleTimeout session => Sys2Proof.Machine.execIdleTimeout session s
  | .mailboxRequest fn length => Sys2Proof.Machine.execMailboxRequest fn length s
  | .rspAck fn value => Sys2Proof.Machine.execRspAck fn value s
  | .perstInput port widthNs overLimit twinUp => Sys2Proof.Machine.execPerstInput port widthNs overLimit twinUp s
  | .linkDownTimeout port twinUp => Sys2Proof.Machine.execLinkDownTimeout port twinUp s
  | .flr fn => Sys2Proof.Machine.execFlr fn s
  | .pcieLinkUp port rate width flit => Sys2Proof.Machine.execPcieLinkUp port rate width flit s
  | .correctableThreshold port errors => Sys2Proof.Machine.execCorrectableThreshold port errors s
  | .pcieRetrain rq port => Sys2Proof.Machine.execPcieRetrain rq port s
  | .pcieRetrainComplete port ok heldNs => Sys2Proof.Machine.execPcieRetrainComplete port ok heldNs s
  | .load rq p value program => Sys2Proof.Machine.execLoad rq p value program s
  | .loadComplete fin => Sys2Proof.Machine.execLoadComplete fin s
  | .unloadDrain rq p => Sys2Proof.Machine.execUnloadDrain rq p s
  | .unloadNow rq p => Sys2Proof.Machine.execUnloadNow rq p s
  | .clearBlockEntry rq block => Sys2Proof.Machine.execClearBlockEntry rq block s
  | .coalesceTimeout ring => Sys2Proof.Machine.execCoalesceTimeout ring s
  | .dataLinkDown port heldNs => Sys2Proof.Machine.execDataLinkDown port heldNs s
  | .perstDeassertion port => Sys2Proof.Machine.execPerstDeassertion port s
  | .streamedCommandArrival at_ progParity => Sys2Proof.Machine.execStreamedCommandArrival at_ progParity s
  | .hostReadComplete session r => Sys2Proof.Machine.execHostReadComplete session r s
  | .managementSessionExpiry session => Sys2Proof.Machine.execManagementSessionExpiry session s
  | .reportFreezeExpiry session index => Sys2Proof.Machine.execReportFreezeExpiry session index s
  | .configurationRequest port fn => Sys2Proof.Machine.execConfigurationRequest port fn s
  | .droppedDatagram cause => Sys2Proof.Machine.execDroppedDatagram cause s
  | .unknownOpRequest rq op => Sys2Proof.Machine.execUnknownOpRequest rq op s

end Sys2Proof.Machine
end

