-- ==== Sys2Proof/Safety.lean ====
section
/-! DEFINITION. The terms in which claims speak of states: the canonical form of every sparse map and memory, and
what it means that a step leaves parts of the state as they were. -/

namespace Sys2Proof.Machine

/-- The canonical form of a map whose default depends on the key. -/
def kvWfBy {α : Type} [DecidableEq α] (d : Nat → α) (m : KV α) : Bool :=
  kvRising m && m.all (fun e => decide (e.2 ≠ d e.1))

/-- Every memory and every sparse map of the machine is in its canonical form, so that equal contents are equal
data. -/
structure State.Canonical (s : State) : Prop where
  od : kvWfBy objDefault s.od = true
  dom : kvWfBy domDefault s.dom = true
  scratch : Memory.wf s.scratch = true
  stack : Memory.wf s.stack = true
  cores : kvWf {} s.cores = true
  clusters : kvWf {} s.clusters = true
  arrays : kvWf {} s.arrays = true
  chains : kvWf {} s.chains = true
  frames : kvWf {} s.frames = true
  parts : kvWf {} s.parts = true
  sessions : kvWf {} s.sessions = true
  subRings : kvWf {} s.subRings = true
  compRings : kvWf {} s.compRings = true
  sets : kvWf {} s.sets = true
  blocks : kvWf {} s.blocks = true
  sensors : kvWf {} s.sensors = true
  pcie : kvWf {} s.pcie = true
  fns : kvWf {} s.fns = true
  mgmt : kvWf {} s.mgmt = true

/-- The parts of State. -/
inductive Field where
  | od | dom | scratch | stack | stackPoison | cores | clusters | arrays | chains
  | frames | parts | sessions | subRings | compRings | recorder | yield | sets | transits
  | blocks | sensors | plant | fabric | pair | pcie | fns | served0 | served1
  | mgmt | nextMgmt | security | commits | stored | out | free | pending
deriving DecidableEq, Repr

/-- A part of the state is the same in two states. -/
def Field.same : Field → State → State → Prop
  | .od, s, t => t.od = s.od
  | .dom, s, t => t.dom = s.dom
  | .scratch, s, t => t.scratch = s.scratch
  | .stack, s, t => t.stack = s.stack
  | .stackPoison, s, t => t.stackPoison = s.stackPoison
  | .cores, s, t => t.cores = s.cores
  | .clusters, s, t => t.clusters = s.clusters
  | .arrays, s, t => t.arrays = s.arrays
  | .chains, s, t => t.chains = s.chains
  | .frames, s, t => t.frames = s.frames
  | .parts, s, t => t.parts = s.parts
  | .sessions, s, t => t.sessions = s.sessions
  | .subRings, s, t => t.subRings = s.subRings
  | .compRings, s, t => t.compRings = s.compRings
  | .recorder, s, t => t.recorder = s.recorder
  | .yield, s, t => t.yield = s.yield
  | .sets, s, t => t.sets = s.sets
  | .transits, s, t => t.transits = s.transits
  | .blocks, s, t => t.blocks = s.blocks
  | .sensors, s, t => t.sensors = s.sensors
  | .plant, s, t => t.plant = s.plant
  | .fabric, s, t => t.fabric = s.fabric
  | .pair, s, t => t.pair = s.pair
  | .pcie, s, t => t.pcie = s.pcie
  | .fns, s, t => t.fns = s.fns
  | .served0, s, t => t.served0 = s.served0
  | .served1, s, t => t.served1 = s.served1
  | .mgmt, s, t => t.mgmt = s.mgmt
  | .nextMgmt, s, t => t.nextMgmt = s.nextMgmt
  | .security, s, t => t.security = s.security
  | .commits, s, t => t.commits = s.commits
  | .stored, s, t => t.stored = s.stored
  | .out, s, t => t.out = s.out
  | .free, s, t => t.free = s.free
  | .pending, s, t => t.pending = s.pending

/-- Nothing but the listed parts of the state differs. -/
def onlyChanges (fs : List Field) (s t : State) : Prop := ∀ f : Field, f ∉ fs → f.same s t

end Sys2Proof.Machine
end

