-- ==== Sys2Proof/Claims.lean ====
section
/-! DEFINITION. The terms in which the statements speak: when a command takes effect, what an operand of a core's
command is, and what a result that the manual only bounds may be. -/

namespace Sys2Proof.Machine

/-! ## Commands of a core -/

/-- What waits in a sequencer for a command and what befalls it. -/
def waitingFor (cmd : CoreCmd) (env : CoreEnv) (bad : List (Nat × Nat) := []) : Waiting := { cmd, env, bad }

/-- A core's command issues as it arrives and meets no error: the core is presented (R9), its partition `p` runs laps
(R62), nothing holds or precedes the command (R66, R67), it is no CHECK that the lap leaves out (R164), its engine has
room and its counter too (R66, R101), its field's credit covers every event (R345), no bank it touches is off (R92), no word it reads fails parity and no bank is in
conflict (R89, R90). -/
structure Issues (s : State) (p : Nat) (at_ : CoreRef) (env : CoreEnv) (cmd : CoreCmd) : Prop where
  canonical : s.Canonical
  presented : coreExists s at_ = true
  part : partAt s (coreIndex at_ / 16) = some p
  runs : (partOf s p).runs = true
  hold : (coreOf s (coreIndex at_)).hold = .none
  alone : (coreOf s (coreIndex at_)).waiting = []
  skip : (coreOf s (coreIndex at_)).skip = 0
  sampled : skippedCheck s p (coreIndex at_) cmd = none
  ready : readyToIssue s (coreIndex at_) cmd = true
  credit : overdraws s (coreIndex at_) (waitingFor cmd env) = false
  powered : touchesBank s (coreIndex at_) cmd (fun x => decide (x = .off)) = false
  parity : env.parity = []
  conflicts : env.conflicts = []
  poison : ∀ a ∈ (coreOf s (coreIndex at_)).poison, a ∉ readAddrs (coreIndex at_) (cmdUses s (coreIndex at_) cmd)

/-- A command that its core's sequencer takes up at once, whether it issues or the lap leaves it out: the core is
presented (R9), its partition `p` runs laps (R62), and nothing holds or precedes the command (R66, R67, R166). -/
structure Passes (s : State) (p : Nat) (at_ : CoreRef) : Prop where
  canonical : s.Canonical
  presented : coreExists s at_ = true
  part : partAt s (coreIndex at_ / 16) = some p
  runs : (partOf s p).runs = true
  hold : (coreOf s (coreIndex at_)).hold = .none
  alone : (coreOf s (coreIndex at_)).waiting = []
  skip : (coreOf s (coreIndex at_)).skip = 0

/-- The core has moved past the command: its position and, of a streamed program, its buffer (R25, R65). -/
def Core.past (long : Bool) (c : Core) : Core := { c with pos := c.pos + 1, ahead := if long then c.ahead - 1 else c.ahead }

/-- What the issue of an engine's command leaves in its core: the position has moved on, the command stands in its
engine's queue and in no other (R66), a synchronous one holds issue until it completes (R67), nothing waits, and
the descriptors are as they were. -/
structure Issued (s t : State) (ci : Nat) (e : Engine) (sync : Bool) : Prop where
  pos : (coreOf t ci).pos = (coreOf s ci).pos + 1
  queue : ∀ f, (coreOf t ci).queue f = (coreOf s ci).queue f + if f = e then 1 else 0
  hold : (coreOf t ci).hold = if sync then .engine e ((coreOf s ci).queue e + 1) else .none
  waiting : (coreOf t ci).waiting = []
  descs : (coreOf t ci).descs = (coreOf s ci).descs
  others : ∀ k, k ≠ ci → coreOf t k = coreOf s k

/-- What the issue of a command with a DMA counter leaves in its core (R67, R101): the transfer is in flight under the
next number and in its counter, the command stands in the DMA queue, and a synchronous one holds issue, by a cause that
its wait is charged to (R55). -/
def Core.started (long : Bool) (cause : StallCause) (x : Transfer) (c : Core) : Core :=
  { c.past long with
    transfers := c.transfers ++ [{ x with id := c.nextXfer }], nextXfer := c.nextXfer + 1
    counters := kvUpd 0 c.counters x.counter (· + 1), qDma := c.qDma + 1
    hold := if x.sync then .transfer c.nextXfer else .none
    stall := if x.sync then cause else c.stall }

/-- A transfer with the packets that carry it between the core and the far end of each of its granules (R278). -/
def routed (s : State) (p ci : Nat) (far : List Nat) (x : Transfer) : Transfer :=
  { x with packets := packetsOf s p (ci / 16) x.kind.inward far }

/-- A DMA command has started a transfer on the core, and nothing else of the cores, scratchpads and partitions differs;
the stacks are as given (a translation may fill a page). -/
structure Starts (s t : State) (p ci : Nat) (stack : Memory) (x : Transfer) : Prop where
  core : coreOf t ci = (coreOf s ci).started (streamed s ci) (xferCause s p x) x
  others : ∀ k, k ≠ ci → coreOf t k = coreOf s k
  scratch : t.scratch = s.scratch
  stack : t.stack = stack
  parts : t.parts = s.parts

/-- A counter after `n` more: it stops at its type's largest value (R491). -/
def counted (s : State) (k : Nat) (n : Nat := 1) : Nat := Nat.min (odGet s k + n) (objTop k)

/-- A counter after `n` events, each counted by itself. -/
def countedEach (s : State) (k n : Nat) : Nat := if n = 0 then odGet s k else counted s k n

/-- What follows a baton that has left the state `t`: the sequencers take up what waits, and what waited for the end of
the lap goes on, a drain of the pair (R326) and a requested reset (R390). -/
def afterBaton (s t : State) (p : Nat) : State := beginTransition (noteArrivals s (drainLap (resumeAll t p) p) p)

/-- Granules stored one after another at their places. -/
def landed (m : Memory) (l : List (Gran × List Byte)) : Memory := l.foldl (fun m e => memWriteN m e.1.addr e.2) m

/-- A target is to go off or be wiped, and writes to it are still on their way (R105). -/
def IsLate (s : State) : DrainTarget → Prop
  | .bank a b => (bankOf (coreOf s (coreIndex a)) b).power = .pendingOff ∧ bankIncoming s (coreIndex a) b ≠ 0
  | .block b => (blkOf s b).drain ≠ none ∧ blockIncoming s b ≠ 0
  | .partition p => wipeDue s p = true ∧ partIncoming s p ≠ 0

/-- Does an address of a scratchpad, or of a stack, belong to the target of a drain? -/
def covers (s : State) (scratch : Bool) (a : Nat) : DrainTarget → Prop
  | .bank r b => scratch = true ∧ a / 2 ^ 16 = coreIndex r * 32 + b
  | .block b => if scratch then a / 2 ^ 25 ∈ blockClusters b else a / 2 ^ 37 = b
  | .partition p => if scratch then (partOf s p).holds (a / 2 ^ 25) = true else a / 2 ^ 37 ∈ (partOf s p).blocks

/-- A core has a write on its way to the target of a drain (R104). -/
def Sends (s : State) (tgt : DrainTarget) (ci : Nat) : Prop :=
  ∃ x ∈ (coreOf s ci).transfers, (x.kind.toScratch = true ∨ x.kind = .stackWrite) ∧
    ∃ g ∈ x.dst, covers s x.kind.toScratch g.addr tgt

/-! ## Operands and results -/

/-- Element `j` of row `r` of an operand of `rows` rows of `cols` elements, as FP32 (R72, R83); zero where the field
says "no operand". -/
def operand (s : State) (ci : Nat) (i : BitVec 6) (rows cols r j : Nat) : FV :=
  let d := descOf (coreOf s ci) i
  if i = noDesc then FV.zero
  else (decElem (dFmt d) (bitsAt (areaNat s ci d (extent d rows cols)) (rowBit d cols r + j * (dFmt d).bits)
    (dFmt d).bits)).1

/-- One row of an operand. -/
def operandRow (s : State) (ci : Nat) (i : BitVec 6) (rows cols r : Nat) : List FV :=
  (List.range cols).map (operand s ci i rows cols r)

/-- Rows of `cols` elements by row and column. -/
def grid (rows cols : Nat) (f : Nat → Nat → FV) : List (List FV) :=
  (List.range rows).map (fun r => (List.range cols).map (f r))

/-- `rows` rows of `cols` elements, element `j` of row `r` being one of which `P r j` holds. -/
def GridOf (rows cols : Nat) (P : Nat → Nat → FV → Prop) (m : List (List FV)) : Prop :=
  m.length = rows ∧ ∀ r, r < rows → (getAt [] m r).length = cols ∧
    ∀ j, j < cols → P r j (getAt FV.zero (getAt [] m r) j)

/-- A result that the manual bounds: an FP32 value within `tol` of the reference, both in fixed point, or the
reference rounded to FP32 (R160 to R162). -/
def Near (v : FV) (ref tol : Int) : Prop :=
  ∃ w : W32, v = decF32 w ∧ (fxWithin w ref tol = true ∨ w = encF32 (fxVal ref))

/-- The result of a computation with exact value `ref`: within `tol` of it, and what IEEE 754 gives where the exact
value is not finite. -/
def Bounded (v ref : FV) (tol : Int) : Prop :=
  if ref.isFinite then Near v (fxOf ref) tol else v = rF32 ref

/-- The result of an FP32 accumulation of terms over `k` products of magnitudes that sum to `mag` (R145, R161): of one
term exactly that term, else within the accumulation bound of the exact sum. -/
def Accumulated (k : Nat) (mag : FV) (terms : List FV) (v : FV) : Prop :=
  match terms with
  | [x] => v = rF32 x
  | l => Bounded v (l.foldl FV.add FV.zero) (accTol k mag)

/-- A value within the relative bound 2^-relLog and the absolute bound absTol of a function of x (R162). -/
def Within (f : Int → Int) (relLog absTol : Nat) (x v : FV) : Prop :=
  Near v (f (fxOf x)) (((f (fxOf x)).natAbs : Int) / 2 ^ relLog + (absTol : Nat))

/-- Element j of RMSNORM or LAYERNORM (R83): its exact value, from the row less its mean, the mean square, the gain and
the bias. -/
def normRef (remove : Bool) (imm : FV) (row gain bias : List FV) (j : Nat) : FV :=
  FV.add (FV.div (FV.mul (getAt FV.zero (centred remove row).1 j) (getAt FV.zero gain j))
    (FV.sqrt (FV.add (centred remove row).2 imm))) (getAt FV.zero bias j)

/-- A result of RMSNORM or LAYERNORM (R83, R146, R162): within its bound of the exact value where that and the root are
finite, and else what IEEE 754 gives. -/
def NormOf (remove : Bool) (imm : FV) (row gain bias : List FV) (j : Nat) (v : FV) : Prop :=
  let r := normRef remove imm row gain bias j
  if r.isFinite = true ∧ (FV.sqrt (FV.add (centred remove row).2 imm)).isFinite = true then
    Near v (fxOf r) (((fxOf r).natAbs : Int) * (row.length : Int) / 2 ^ 24 + ((fxOf r).natAbs : Int) / 2 ^ 21)
  else v = rF32 r

/-- Element j of a row whose pairs are rotated by the angles of another (R83), in fixed point. -/
def ropeRef (row angles : List FV) (j : Nat) : Int :=
  let even := fxOf (getAt FV.zero row (j / 2 * 2))
  let odd := fxOf (getAt FV.zero row (j / 2 * 2 + 1))
  let sc := fxSinCos (fxOf (getAt FV.zero angles (j / 2)))
  if j % 2 = 0 then fxMul even sc.2 - fxMul odd sc.1 else fxMul even sc.1 + fxMul odd sc.2

/-- Exact element i of the merge of one row's partial records (R182), with the sum of its magnitudes: every record but
those of weight 0 is weighted by two to the power of its maximum less the largest. -/
def mergedRef (a : AttnArgs) (recs : List (List FV)) (i : Nat) : FV × FV :=
  let d := attnDim a
  let live := recs.filter (fun r => getAt FV.zero r d != .inf true)
  let m := (recs.map (fun r => getAt FV.zero r d)).foldl FV.maxV (.inf true)
  let ws := live.map (fun r => fxVal (fxExp2 (fxOf (getAt FV.zero r d) - fxOf m)))
  let l := (dotExact ws (live.map (fun r => getAt FV.zero r (d + 1)))).1
  let o := dotExact ws (live.map (fun r => getAt FV.zero r i))
  (FV.div o.1 l, (FV.div o.2 l).abs)

/-- Element i of a merged row (R182): NaN under a maximum that is NaN or +Inf, within the bound of the exact value where
some record has weight, and not stated where none has. -/
def MergeOf (a : AttnArgs) (recs : List (List FV)) (i : Nat) (v : FV) : Prop :=
  let ms := recs.map (fun r => getAt FV.zero r (attnDim a))
  if ms.any badScore then v.isNaN = true
  else if ms.all (· == .inf true) then True
  else Bounded v (mergedRef a recs i).1 (accTol (2 * recs.length + 4) (mergedRef a recs i).2)

/-- A row of ATTN op 0 (R183): its output, and of a block of more than 8,192 positions its m and l as the work area holds
them, as the steps of the fused or the two-pass mode give them for some draw of their free values. -/
def AttnRowOf (ci : Nat) (a : AttnArgs) (q : List FV) (pages : List FetchedPage) (l : LaneEntry) (pos : Nat)
    (x : List FV × List Byte) : Prop :=
  if l.block > 8192 then ∃ u, x.1 = (twoPassRow u ci a q pages pos).1.2.2 ∧
    x.2 = natLe (encF32 (twoPassRow u ci a q pages pos).1.1).toNat 4 ++
      natLe (encF32 (twoPassRow u ci a q pages pos).1.2.1).toNat 4
  else (∃ u, x.1 = (fullRow u ci a q pages pos).1) ∧ x.2 = [] ∧
    ((∀ f ∈ pages, attended a pos f = []) → x.1 = List.replicate (attnDim a) FV.zero)

/-- Rounding modes of a rounding field (R77, R149): 1 stochastic on 16 bits, 2 toward zero, else nearest-even. -/
def Rounds (mode : Nat) (r : Rnd) : Prop :=
  if mode = 1 then ∃ n, n < 2 ^ 16 ∧ r = .stochastic n else r = if mode = 2 then .towardZero else .nearestEven

/-- Two lists of one length whose elements are related place by place. -/
def Pointwise {α β : Type} (P : α → β → Prop) : List α → List β → Prop
  | [], [] => True
  | a :: l, b :: m => P a b ∧ Pointwise P l m
  | _, _ => False

/-- Codes of rows converted into a format. -/
def Coded (mode : Nat) (f : Fmt) (rows : List (List FV)) (codes : List (List Nat)) : Prop :=
  Pointwise (Pointwise (fun v c => ∃ r, Rounds mode r ∧ c = (encElem f r v).1)) rows codes

/-- The scratchpads after rows converted into a descriptor's format have been written to its area, in a state whose
scratchpads were those of `s`. -/
def Stored (mode : Nat) (s t : State) (ci : Nat) (d : W64) (cols : Nat) (rows : List (List FV)) : Prop :=
  ∃ codes, Coded mode (dFmt d) rows codes ∧ t.scratch = (writeRows s ci d cols codes).scratch

/-- Rows converted nearest-even into a format. -/
def nearestCodes (f : Fmt) (rows : List (List FV)) : List (List Nat) :=
  rows.map (fun row => row.map (fun v => (encElem f .nearestEven v).1))

/-- What QUANT makes of one row (R154 to R158): the residual is added under error feedback, values that are not finite
count as zero, the outlier channels are taken out into the list, each group takes its scale, the codes are the
values over their scale under the entry's rounding, and the residual is what the codes leave. -/
def QuantOf (f : Fmt) (e : BitVec 128) (static : List Nat) (row res : List FV) (q : QuantRow) : Prop :=
  let v0 := if pFeedback e = 1 then row.zipIdx.map (fun x => rF32 (FV.add x.1 (getAt FV.zero res x.2))) else row
  let v1 := v0.map (fun x => if x.isFinite then x else FV.zero)
  let out := (outlierList e static v1).1
  let v := v1.zipIdx.map (fun x => if out.contains x.2 then FV.zero else x.1)
  let groups := groupsOf (if f.blockScaled then 32 else groupSize e row.length) (row.length + 1) v
  let scales := groups.flatMap (fun g => g.map (fun _ => (chooseScale f g).2))
  q.back = v ∧ q.list = out.map (fun i => (i, getAt FV.zero v1 i)) ∧
    q.scales = groups.map (fun g => (chooseScale f g).1) ∧
    Pointwise (fun x c => ∃ r, Rounds (pRounding e) r ∧ c = (encElem f r x).1)
      (groups.flatMap (fun g => g.map (fun x => FV.div x (chooseScale f g).2))) q.codes ∧
    q.residual = v.zipIdx.map (fun x => if out.contains x.2 then FV.zero else FV.mul (pBF e 112) (FV.sub x.1
      (getAt FV.zero ((q.codes.zip scales).map (fun y => FV.mul (decElem f y.1).1 y.2)) x.2)))

/-- The scales and outlier lists that QUANT writes to c (R156). -/
def quantArea (f : Fmt) (k : Nat) (qs : List QuantRow) : List Byte :=
  let sc := qs.flatMap (fun q => q.scales.flatMap (fun x => natLe x (if f.blockScaled then 1 else 2)))
  padTo (ceilDiv sc.length 64 * 64) sc ++ qs.flatMap (fun q => listBytes k q.list)

end Sys2Proof.Machine
end

