-- ==== Sys2Proof/Terms.lean ====
section
/-! DEFINITION. The terms in which the statements speak of requests of the management interface, of events at a
unit of the module, and of what leaves the module. -/

namespace Sys2Proof.Machine

/-! ## Requests (R469 to R483) -/

/-- The module executes a request: a management processor serves (R472), the transport is open (R485), the session
is open and its tag checks (R447, R469), the number is one that may be executed (R471), and no limit of R483
refuses it. -/
structure Executes (s : State) (rq : Rq) : Prop where
  up : mpUp s = true
  served : served s (mgmtOf s rq.session).transport = true
  isOpen : (mgmtOf s rq.session).isOpen = true
  tag : rq.tagOk = true
  window : inWindow (mgmtOf s rq.session) rq.seq = true
  room : rq.inFlightFull = false
  rate : rq.overRate = false

/-- A write of the number `v` to the command object `k` is accepted as far as its object goes (R474 to R477): the
module is READY, the session reaches the object, and the value has its type and lies in its range. -/
structure Accepts (s : State) (rq : Rq) (k v : Nat) : Prop where
  executes : Executes s rq
  ready : moduleReady s = true
  reached : permitted s (mgmtOf s rq.session) k (.write (natLe v (cmdWidth k))) = true
  range : ∃ o, objOf k = some o ∧ o.access = .cmd ∧ v < 256 ^ widthOf o.type ∧ scalarInRange s o k v = true
  named : k % 256 ≠ 0

/-- A value built by SEGMENT is accepted whole by the object `k` that acts on it (R443 to R450, R478): the module is
READY, or the object is one of the firmware's (R477); the session reaches the object, and the length is one it has. -/
structure AcceptsWhole (s : State) (rq : Rq) (k : Nat) (v : List Byte) : Prop where
  executes : Executes s rq
  ready : moduleReady s = true ∨ firmwareObject k = true
  reached : permitted s (mgmtOf s rq.session) k (.write v) = true
  fits : ∃ o, objOf k = some o ∧ v.length ≤ o.size ∧ domainLength o k v.length = true
  named : k % 256 ≠ 0

/-- The session outlasts this exchange: neither direction has reached the limit of R447. -/
def Lasts (s : State) (rq : Rq) : Prop :=
  (mgmtOf s rq.session).sent + 1 < messageLimit ∧ (mgmtOf s rq.session).next < messageLimit ∧ rq.seq + 1 < messageLimit

/-- The state in which a request is executed: its number is marked (R471). -/
def executing (s : State) (rq : Rq) : State :=
  setMgmt s rq.session (markExecuted (mgmtOf s rq.session) rq.seq)

/-- A request was answered with a status, a detail and data (R473), and nothing differs but what answering changes
(management sessions, mailboxes, messages) and the parts of the state named. -/
structure Answered (s t : State) (rq : Rq) (op index sub status : Nat) (data : List Byte) (fs : List Field)
    (detail : Nat := 0) : Prop where
  reply : OutMsg.swReply rq.session rq.seq { op, status, index, sub, detail, data } ∈ t.out
  frame : onlyChanges (fs ++ [.mgmt, .fns, .out]) s t

/-- A write to the command object `k` was accepted: status OK (R476, R482). -/
def Accepted (s t : State) (rq : Rq) (k : Nat) (fs : List Field) : Prop :=
  Answered s t rq 0x02 (k / 256) (k % 256) 0 [] fs

/-- A reply with status OK for an object, sent to the client whose session may have ended since (R473). -/
def OkReply (t : State) (rq : Rq) (op k : Nat) (data : List Byte := []) : Prop :=
  OutMsg.swReply rq.session rq.seq { op, status := 0, index := k / 256, sub := k % 256, detail := 0, data } ∈ t.out

/-! ## Messages -/

/-- The messages that leave the module between two states. -/
def sent (s t : State) : List OutMsg := t.out.drop s.out.length

/-! ## Rings -/

/-- A ring error of a function was counted (R238, R276, R458). -/
def RingErred (s t : State) (fn : Nat) : Prop :=
  (fnOf t fn).ringErrors = (fnOf s fn).ringErrors + 1 ∧ odGet t K.sessRingErrors = counted s K.sessRingErrors

/-- A write of context bytes lies in one context, at its byte `off`, and the fields it touches are within range once
it is made (R238, R459); the position copy and the enable bit keep their values. -/
def contextBytes (old : List Byte) (off : Nat) (bytes : List Byte) (keep : List Nat) : List Byte :=
  (List.range 32).map (fun i =>
    if off ≤ i ∧ i < off + bytes.length ∧ i ∉ keep then getAt 0 bytes (i - off) else getAt 0 old i)

/-! ## Commands of a submission ring -/

/-- The command at the front of a ring's fetched entries (R240), with its opcode. -/
def Front (s : State) (ring op : Nat) (e : List Byte) (rest : List (List Byte)) : Prop :=
  ring < 32768 ∧ (subOf s ring).dispatch = e :: rest ∧ eOp e = op

/-- A ring whose oldest fetched entry has been dispatched: its place in the order of fetching goes with it. -/
def SubRing.dispatched (q : SubRing) (rest : List (List Byte)) : SubRing :=
  { q with dispatch := rest, fetchOrder := q.fetchOrder.tail, lastOrder := q.fetchOrder.headD 0 }

/-- The entry has left its ring's fetched entries, and its command is still outstanding. -/
def Dispatched (s t : State) (ring : Nat) (rest : List (List Byte)) : Prop :=
  subOf t ring = (subOf s ring).dispatched rest

/-- The entry's command has completed at dispatch (R245): it is no longer outstanding, and its completion is the
last formed for the ring's completion ring. -/
def Completed (s t : State) (ring : Nat) (e : List Byte) (rest : List (List Byte)) (status : Nat)
    (result : List Byte := []) : Prop :=
  let q := subOf s ring
  subOf t ring = { q.dispatched rest with outstanding := q.outstanding - 1 } ∧
    (compOf t q.cq).ready = (compOf s q.cq).ready ++ [{
      tag := eTag e, opcode := eOp e, status, sq := ring, sqHead := q.fetch, session := eSessionField e, flags := 0
      result, place := nextPlace s }]

/-- The command names an open session that takes it: its fields are good (R242), the session is the function's own,
open and not fenced (R249, R250), and no CLOSE has been fetched (R256). -/
structure Names (s : State) (ring : Nat) (e : List Byte) (ok : Bool) : Prop where
  fields : ok = true
  named : namesSession s ring (eSess e) = none
  notClosing : closing (sessOf s (eSess e)) = false

/-- The stage of a weight set completes (R221, R245): its completion is the last formed for its ring. -/
def StageEnds (s t : State) (set status result : Nat) : Prop :=
  ∀ ring tag, (wsetOf s set).stage = some (ring, tag) →
    let q := subOf s ring
    (compOf t q.cq).ready = (compOf s q.cq).ready ++ [{
      tag, opcode := 0x20, status, sq := ring, sqHead := q.fetch, session := 0xFFFF, flags := 0, result := natLe result 2
      place := nextPlace s }]

end Sys2Proof.Machine
end

