-- ==== Sys2Proof/Frames.lean ====
section
/-! DEFINITION. Which parts of the state a command may change, for the statements that say what it leaves as it was. -/

namespace Sys2Proof.Machine

/-- A row of the opcode table that is a lap program's command, as it reaches a core's sequencer. -/
def lapCommand : Instr → Option (CoreRef × Waiting)
  | .nop c e => some (c, waitingFor .nop e)
  | .desc c e a => some (c, waitingFor (.desc a) e)
  | .hurdleArriveWait c e a => some (c, waitingFor (.hurdle 0 a) e)
  | .hurdleArrive c e a => some (c, waitingFor (.hurdle 1 a) e)
  | .hurdleWait c e a => some (c, waitingFor (.hurdle 2 a) e)
  | .fence c e m => some (c, waitingFor (.fence m) e)
  | .bankPowerOff c e m => some (c, waitingFor (.bankPower false m) e)
  | .bankPowerOn c e m => some (c, waitingFor (.bankPower true m) e)
  | .mma c e a => some (c, waitingFor (.mma a) e)
  | .arrMvm c e a => some (c, waitingFor (.arrMvm a) e)
  | .arrWrite c e a => some (c, waitingFor (.arrWrite a) e)
  | .attnFull c e a bad => some (c, waitingFor (.attn 0 a) e bad)
  | .attnPartial c e a bad => some (c, waitingFor (.attn 1 a) e bad)
  | .attnMerge c e a => some (c, waitingFor (.attn 2 a) e)
  | .copy c e a => some (c, waitingFor (.vec .copy a) e)
  | .add c e a => some (c, waitingFor (.vec .add a) e)
  | .sub c e a => some (c, waitingFor (.vec .sub a) e)
  | .mul c e a => some (c, waitingFor (.vec .mul a) e)
  | .fma c e a => some (c, waitingFor (.vec .fma a) e)
  | .max c e a => some (c, waitingFor (.vec .max a) e)
  | .min c e a => some (c, waitingFor (.vec .min a) e)
  | .scale c e a => some (c, waitingFor (.vec .scale a) e)
  | .exp c e a => some (c, waitingFor (.vec .exp a) e)
  | .recip c e a => some (c, waitingFor (.vec .recip a) e)
  | .rsqrt c e a => some (c, waitingFor (.vec .rsqrt a) e)
  | .silu c e a => some (c, waitingFor (.vec .silu a) e)
  | .gelu c e a => some (c, waitingFor (.vec .gelu a) e)
  | .sigmoid c e a => some (c, waitingFor (.vec .sigmoid a) e)
  | .tanh c e a => some (c, waitingFor (.vec .tanh a) e)
  | .sum c e a => some (c, waitingFor (.vec .sum a) e)
  | .maxr c e a => some (c, waitingFor (.vec .maxr a) e)
  | .sumsq c e a => some (c, waitingFor (.vec .sumsq a) e)
  | .rmsnorm c e a => some (c, waitingFor (.vec .rmsnorm a) e)
  | .layernorm c e a => some (c, waitingFor (.vec .layernorm a) e)
  | .softmax c e a => some (c, waitingFor (.vec .softmax a) e)
  | .rope c e a => some (c, waitingFor (.vec .rope a) e)
  | .quant c e a => some (c, waitingFor (.vec .quant a) e)
  | .dequant c e a => some (c, waitingFor (.vec .dequant a) e)
  | .topk c e a => some (c, waitingFor (.vec .topk a) e)
  | .outlier c e a => some (c, waitingFor (.vec .outlier a) e)
  | .check c e a => some (c, waitingFor (.vec .check a) e)
  | .guardCheck c e a => some (c, waitingFor (.vec .check a) e)
  | .dmaCopyStackToScratch c e a => some (c, waitingFor (.dmaLoad a) e)
  | .dmaCopyScratchToStack c e a => some (c, waitingFor (.dmaStore a) e)
  | .dmaCopyScratchToCore c e a => some (c, waitingFor (.dmaCore a) e)
  | .dmaCopyEdgeToScratch c e a => some (c, waitingFor (.dmaEdgeIn a) e)
  | .dmaCopyScratchToEdge c e a => some (c, waitingFor (.dmaEdgeOut a) e)
  | .dmaWait c e k n => some (c, waitingFor (.dmaWait k n) e)
  | .cgather c e a => some (c, waitingFor (.gather a) e)
  | .cinval c e => some (c, waitingFor .cinval e)
  | _ => none

/-- The parts of the state that the issue of a command itself may change: its core, its cluster's credit, and what
its effect reaches. -/
def issueMay : CoreCmd → List Field
  | .nop | .desc _ | .fence _ | .dmaWait _ _ => [.cores]
  | .bankPower _ _ | .cinval => [.cores, .clusters]
  | .hurdle _ _ => [.od, .cores, .parts, .recorder, .out, .free]
  | .mma _ => [.od, .scratch, .cores, .clusters, .free]
  | .vec _ _ => [.od, .scratch, .cores, .clusters, .recorder, .free]
  | .arrWrite _ => [.od, .cores, .clusters, .arrays, .parts, .recorder, .yield, .plant]
  | .arrMvm _ =>
    [.od, .scratch, .cores, .clusters, .arrays, .chains, .parts, .recorder, .yield, .plant, .free]
  | .attn op _ =>
    if op = 2 then [.od, .scratch, .cores, .clusters, .free]
    else [.od, .scratch, .stack, .cores, .clusters, .frames, .parts, .sessions, .recorder, .yield, .plant, .free]
  | .dmaLoad _ =>
    [.od, .stack, .cores, .clusters, .frames, .parts, .sessions, .recorder, .yield, .plant, .free]
  | .dmaStore _ =>
    [.od, .stack, .cores, .clusters, .frames, .parts, .sessions, .recorder, .yield, .plant, .out, .free]
  | .dmaCore _ => [.od, .cores, .clusters, .parts, .recorder, .plant]
  | .dmaEdgeIn _ | .dmaEdgeOut _ => [.od, .cores, .clusters, .parts, .recorder, .plant, .out]
  | .gather _ => [.od, .cores, .clusters, .parts, .sessions, .recorder, .plant, .free]

/-- The parts of the state that a command may change, whatever waits in the machine: a command of a lap program may
be followed by those that waited behind it. No command changes the queue. -/
def mayChange : Instr → List Field
  | .nop .. | .desc .. | .hurdleArriveWait .. | .hurdleArrive .. | .hurdleWait .. | .fence .. | .bankPowerOff ..
  | .bankPowerOn .. | .mma .. | .arrMvm .. | .arrWrite .. | .attnFull .. | .attnPartial .. | .attnMerge ..
  | .copy .. | .add .. | .sub .. | .mul .. | .fma .. | .max .. | .min .. | .scale .. | .exp .. | .recip ..
  | .rsqrt .. | .silu .. | .gelu .. | .sigmoid .. | .tanh .. | .sum .. | .maxr .. | .sumsq .. | .rmsnorm ..
  | .layernorm .. | .softmax .. | .rope .. | .quant .. | .dequant .. | .topk .. | .outlier .. | .check ..
  | .guardCheck .. | .dmaCopyStackToScratch .. | .dmaCopyScratchToStack .. | .dmaCopyScratchToCore ..
  | .dmaCopyEdgeToScratch .. | .dmaCopyScratchToEdge .. | .dmaWait .. | .cgather .. | .cinval ..
  | .engineCommandComplete .. | .bankPowerUpComplete .. | .bankSwitchOff .. | .cacheFill .. | .creditRefill ..
  | .streamedCommandArrival .. =>
    [.od, .scratch, .stack, .cores, .clusters, .arrays, .chains, .frames, .parts, .sessions, .recorder,
      .yield, .plant, .out, .free]
  | .dmaTransferComplete .. =>
    [.od, .scratch, .stack, .stackPoison, .cores, .clusters, .arrays, .chains, .frames, .parts, .sessions,
      .recorder, .yield, .sets, .blocks, .plant, .out, .free]
  | .lateWrite .. =>
    [.od, .cores, .recorder, .blocks]
  | .hurdleClear .. =>
    [.od, .scratch, .stack, .cores, .clusters, .arrays, .chains, .frames, .parts, .sessions, .recorder,
      .yield, .blocks, .plant, .out, .free]
  | .hurdleTimeout .. =>
    [.od, .dom, .parts, .recorder]
  | .baton .. =>
    [.od, .dom, .scratch, .stack, .cores, .clusters, .arrays, .chains, .frames, .parts, .sessions,
      .subRings, .compRings, .recorder, .yield, .sets, .transits, .blocks, .plant, .fabric, .pair, .pcie,
      .fns, .mgmt, .security, .commits, .out, .free]
  | .tokenRecordRelease .. =>
    [.od, .sessions, .recorder, .pair, .out]
  | .completionPost .. =>
    [.od, .sessions, .compRings, .recorder, .sets, .pair, .pcie, .out]
  | .sampling .. =>
    [.od, .parts, .sessions, .free]
  | .rangeMonitorWindowEnd .. =>
    [.chains]
  | .fullScaleWindowEnd .. =>
    [.arrays]
  | .calIntervalExpiry .. =>
    [.clusters, .arrays, .chains]
  | .calibrateAll .. =>
    [.od, .clusters, .arrays, .chains, .fns, .mgmt, .out]
  | .calibrationComplete .. =>
    [.od, .clusters, .arrays, .chains, .parts, .recorder, .yield, .plant, .free]
  | .rewriteComplete .. =>
    [.od, .clusters, .arrays, .parts, .recorder, .yield, .plant]
  | .precisionClear .. | .advanceSecurityVersion .. | .handshakeOrder3 .. | .read .. | .stage .. | .abort ..
  | .subscribe .. | .unknownOpRequest .. =>
    [.od, .fns, .mgmt, .out]
  | .lapStatisticsClear .. | .unloadDrain .. =>
    [.od, .parts, .fns, .mgmt, .out]
  | .ringContextWrite .. | .ringEnable .. | .ringDisable .. =>
    [.od, .subRings, .compRings, .fns]
  | .submissionDoorbell .. =>
    [.od, .subRings, .recorder, .fns]
  | .completionDoorbell .. =>
    [.od, .compRings, .recorder, .fns]
  | .tokenRingDoorbell .. =>
    [.od, .sessions, .recorder, .fns]
  | .bitmapDoorbell .. =>
    [.od, .fns, .out]
  | .submissionEntryFetch .. =>
    [.od, .subRings, .compRings, .recorder, .pair, .fns, .served0, .served1, .out]
  | .sessionOpen .. | .fork .. | .kvEvict .. | .kvRestore .. =>
    [.sessions, .subRings, .compRings]
  | .promptAppend .. =>
    [.parts, .sessions, .subRings, .compRings]
  | .generate .. =>
    [.parts, .sessions, .subRings, .compRings, .out]
  | .cancel .. | .close .. =>
    [.frames, .sessions, .subRings, .compRings]
  | .weightStage .. =>
    [.subRings, .compRings, .sets, .out]
  | .weightFlip .. =>
    [.od, .parts, .subRings, .compRings, .out]
  | .barrier .. =>
    [.subRings, .compRings]
  | .abortWave .. =>
    [.clusters, .frames, .parts, .sessions, .out]
  | .abortWaveAcknowledged .. =>
    [.od, .clusters, .frames, .parts, .sessions, .subRings, .compRings, .recorder, .sets, .pcie]
  | .endSession .. =>
    [.od, .clusters, .frames, .parts, .sessions, .subRings, .compRings, .fns, .mgmt, .out]
  | .bitmapSlotRead .. | .hostReadComplete .. =>
    [.od, .parts, .sessions, .subRings, .compRings]
  | .kvEvictTransferComplete .. =>
    [.od, .stack, .clusters, .frames, .sessions, .subRings, .compRings]
  | .kvRestoreTransferComplete .. =>
    [.od, .stack, .clusters, .frames, .parts, .sessions, .subRings, .compRings]
  | .stageHeaderRead .. =>
    [.od, .frames, .subRings, .compRings, .recorder, .sets]
  | .signatureVerified .. =>
    [.od, .stack, .frames, .parts, .subRings, .compRings, .recorder, .sets, .transits, .blocks, .plant,
      .out]
  | .weightChunkRead .. | .flipGapComplete .. =>
    [.od, .scratch, .stack, .cores, .clusters, .arrays, .chains, .frames, .parts, .sessions, .subRings,
      .compRings, .recorder, .yield, .sets, .plant, .out, .free]
  | .relayHeader .. =>
    [.od, .stack, .frames, .parts, .recorder, .sets, .transits, .blocks, .plant, .out]
  | .relayChunk .. =>
    [.od, .stack, .frames, .subRings, .compRings, .recorder, .sets, .transits, .out]
  | .relayTimeout .. =>
    [.od, .stack, .frames, .recorder, .sets, .transits]
  | .flipPrepareComplete .. =>
    [.parts, .out]
  | .weightUnload .. =>
    [.od, .cores, .frames, .parts, .sessions, .subRings, .compRings, .recorder, .sets, .fns, .mgmt, .out,
      .free]
  | .releaseHost .. =>
    [.od, .sets, .fns, .mgmt, .out]
  | .setWipeComplete .. =>
    [.od, .scratch, .stack, .cores, .clusters, .arrays, .chains, .frames, .parts, .sessions, .recorder,
      .yield, .sets, .plant, .out, .free]
  | .pieceRefetchComplete .. =>
    [.od, .scratch, .stack, .cores, .clusters, .arrays, .chains, .frames, .parts, .sessions, .recorder,
      .yield, .sets, .blocks, .plant, .out, .free]
  | .linkFailure .. =>
    [.od, .cores, .parts, .recorder, .yield, .plant, .fabric]
  | .routerFailure .. =>
    [.od, .cores, .clusters, .parts, .recorder, .yield, .plant, .fabric]
  | .portRetrain .. =>
    [.od, .clusters, .frames, .parts, .sessions, .subRings, .compRings, .recorder, .plant, .fabric, .fns,
      .mgmt, .out]
  | .trainingComplete .. | .trainingAttemptTimeout .. | .laneFailure .. | .neighbourDark .. =>
    [.od, .clusters, .frames, .parts, .sessions, .subRings, .compRings, .recorder, .plant, .fabric]
  | .jobSynchronizationMessage .. =>
    [.od, .stack, .clusters, .frames, .parts, .sessions, .subRings, .compRings, .recorder, .sets, .out,
      .free]
  | .jobFaultMessage .. =>
    [.od, .parts, .recorder]
  | .alignmentMessage .. | .referenceRestored .. | .slewComplete .. =>
    [.od, .plant]
  | .fabricWriteArrival .. =>
    [.od, .stack, .stackPoison]
  | .rackMark .. =>
    [.od, .plant, .out]
  | .marker .. | .fnStuck .. | .governorRaise .. | .referenceAbsent .. | .oscillatorUnlock .. | .mrstNStuck ..
  | .ilkCoolNStuck .. =>
    [.od, .recorder, .plant]
  | .heartbeat .. | .busPathDown .. =>
    [.od, .clusters, .frames, .parts, .sessions, .subRings, .compRings, .recorder, .pair]
  | .heartbeatSend .. =>
    [.pair, .out]
  | .mirrorAck .. =>
    [.od, .scratch, .stack, .cores, .clusters, .arrays, .chains, .frames, .parts, .sessions, .subRings,
      .compRings, .recorder, .yield, .plant, .pair, .out, .free]
  | .shadowAck .. =>
    [.od, .subRings, .compRings, .recorder, .pair, .out]
  | .abortFrame .. =>
    [.clusters, .frames, .sessions, .out]
  | .abortDone .. =>
    [.sessions]
  | .handover .. =>
    [.od, .stack, .clusters, .frames, .parts, .sessions, .subRings, .compRings, .recorder, .sets, .pair,
      .pcie, .out]
  | .flipFrame .. =>
    [.od, .parts, .subRings, .compRings, .recorder, .sets, .out]
  | .attachFrame .. | .mirrorAckTimeout .. =>
    [.od, .clusters, .frames, .parts, .sessions, .subRings, .compRings, .recorder, .pair, .out]
  | .detachFrame .. =>
    [.od, .clusters, .frames, .sessions, .subRings, .compRings, .recorder, .pair]
  | .reservedFrameCode .. | .lockTimeout .. | .eventRecord .. | .gapTimeout .. | .flushComplete .. =>
    [.od, .recorder]
  | .mirrorEntry .. =>
    [.od, .stack, .clusters, .frames, .sessions, .free]
  | .mirrorVerdict .. =>
    [.od, .stack, .clusters, .frames, .sessions, .pair, .out, .free]
  | .shadowMessage .. =>
    [.od, .stack, .clusters, .frames, .sessions, .subRings, .compRings, .pair, .out, .free]
  | .fnInput .. =>
    [.od, .clusters, .frames, .parts, .sessions, .recorder, .sets, .pair, .pcie]
  | .prChange .. =>
    [.od, .recorder, .plant, .pair]
  | .heartbeatTimeout .. =>
    [.od, .stack, .clusters, .frames, .parts, .sessions, .subRings, .compRings, .recorder, .plant, .pair,
      .out]
  | .takeoverWaitExpiry .. =>
    [.od, .stack, .clusters, .frames, .sessions, .subRings, .compRings, .recorder, .plant, .pair, .out]
  | .attach .. | .drain .. =>
    [.od, .recorder, .pair, .fns, .mgmt, .out]
  | .detach .. =>
    [.od, .clusters, .frames, .sessions, .subRings, .compRings, .recorder, .pair, .fns, .mgmt, .out]
  | .setPointStep .. =>
    [.od, .blocks]
  | .converterFailure .. =>
    [.od, .recorder, .yield, .plant]
  | .phaseFailure .. | .connectorCheck .. =>
    [.od, .cores, .clusters, .frames, .parts, .sessions, .subRings, .compRings, .recorder, .yield, .sets,
      .blocks, .plant, .fabric, .out, .free]
  | .targetStep .. =>
    [.blocks]
  | .shortDeclared .. =>
    [.od, .stack, .stackPoison, .cores, .clusters, .frames, .parts, .sessions, .subRings, .compRings,
      .recorder, .yield, .sets, .blocks, .plant, .fabric, .out, .free]
  | .blockDrainComplete .. | .idleOff .. =>
    [.od, .stack, .stackPoison, .cores, .frames, .parts, .sessions, .subRings, .compRings, .recorder, .sets,
      .blocks, .plant, .out, .free]
  | .currentReport .. =>
    [.od, .plant, .fabric]
  | .governorStep .. =>
    [.od, .clusters, .sessions, .recorder, .blocks, .plant]
  | .wakeComplete .. =>
    [.od, .scratch, .stack, .cores, .clusters, .arrays, .chains, .frames, .parts, .recorder, .blocks,
      .plant, .out, .free]
  | .powerFail .. =>
    [.od, .dom, .scratch, .stack, .stackPoison, .cores, .clusters, .arrays, .chains, .frames, .parts,
      .sessions, .subRings, .compRings, .recorder, .yield, .sets, .transits, .blocks, .sensors, .plant,
      .fabric, .pair, .pcie, .fns, .served0, .served1, .mgmt, .security, .commits]
  | .resetRelease .. | .resetWipeComplete .. =>
    [.od, .dom, .scratch, .stack, .stackPoison, .cores, .clusters, .arrays, .chains, .frames, .parts,
      .sessions, .subRings, .compRings, .recorder, .yield, .sets, .transits, .blocks, .sensors, .plant,
      .fabric, .pair, .pcie, .fns, .served0, .served1, .mgmt, .security, .commits, .stored, .out, .free]
  | .sensorRead .. =>
    [.od, .clusters, .arrays, .chains, .parts, .recorder, .yield, .blocks, .sensors, .plant, .out]
  | .sensorSuspect .. =>
    [.od, .recorder, .yield, .sensors, .plant]
  | .levelRise .. | .levelFall .. =>
    [.od, .sessions, .recorder, .blocks]
  | .heatOff .. | .coolantCheck .. | .ilkCoolNInput .. | .ilkStopNInput .. =>
    [.od, .stack, .stackPoison, .cores, .clusters, .frames, .parts, .sessions, .subRings, .compRings,
      .recorder, .sets, .blocks, .plant, .out, .free]
  | .heatReturn .. =>
    [.od, .sessions, .recorder, .blocks, .plant]
  | .hardwareTrip .. =>
    [.od, .stack, .stackPoison, .cores, .clusters, .frames, .parts, .sessions, .subRings, .compRings,
      .recorder, .yield, .sets, .blocks, .plant, .out, .free]
  | .coolantStateFall .. =>
    [.od, .stack, .stackPoison, .cores, .clusters, .arrays, .frames, .parts, .sessions, .subRings,
      .compRings, .recorder, .yield, .sets, .blocks, .sensors, .plant, .fabric, .out, .free]
  | .meshLock .. =>
    [.od, .cores, .clusters, .frames, .parts, .sessions, .subRings, .compRings, .recorder, .yield, .sets,
      .blocks, .plant, .fabric, .pcie, .out, .free]
  | .meshBringUpTimeout .. =>
    [.od, .recorder, .plant, .pcie]
  | .moduleReset .. | .lcRequest .. | .fwImage .. =>
    [.od, .cores, .clusters, .chains, .parts, .sessions, .subRings, .compRings, .recorder, .sets, .transits,
      .plant, .fabric, .pair, .pcie, .fns, .mgmt, .security, .commits, .out]
  | .mrstNInput .. | .watchdog .. =>
    [.od, .cores, .clusters, .chains, .parts, .sessions, .subRings, .compRings, .recorder, .sets, .transits,
      .plant, .fabric, .pair, .pcie, .fns, .mgmt, .security, .commits]
  | .partitionReset .. | .unloadNow .. =>
    [.od, .dom, .cores, .clusters, .chains, .frames, .parts, .sessions, .subRings, .compRings, .recorder,
      .sets, .transits, .plant, .fabric, .pair, .pcie, .fns, .mgmt, .security, .commits, .out]
  | .partitionFault .. =>
    [.od, .dom, .stack, .cores, .clusters, .chains, .frames, .parts, .sessions, .subRings, .compRings,
      .recorder, .yield, .sets, .transits, .plant, .fabric, .pair, .pcie, .fns, .mgmt, .security, .commits,
      .out]
  | .partitionWipeComplete .. =>
    [.od, .dom, .scratch, .stack, .stackPoison, .cores, .clusters, .arrays, .chains, .frames, .parts,
      .sessions, .subRings, .compRings, .recorder, .sets, .transits, .blocks, .plant, .fabric, .pair, .pcie,
      .fns, .mgmt, .security, .commits, .out]
  | .stackErrorRate .. =>
    [.od, .parts, .recorder, .blocks, .out]
  | .stackRetrain .. =>
    [.od, .parts, .recorder, .blocks, .fns, .mgmt, .out]
  | .stackRetrainComplete .. =>
    [.od, .stack, .cores, .clusters, .arrays, .frames, .parts, .sessions, .subRings, .compRings, .recorder,
      .yield, .sets, .blocks, .plant, .out, .free]
  | .linkRetryRate .. =>
    [.od, .cores, .parts, .recorder, .plant, .fabric, .out]
  | .linkRetrain .. =>
    [.od, .cores, .parts, .recorder, .plant, .fabric, .fns, .mgmt, .out]
  | .linkRetrainComplete .. =>
    [.od, .cores, .parts, .recorder, .yield, .plant, .fabric, .out]
  | .mpHeartbeatTimeout .. | .mpSelfCheckFail .. =>
    [.od, .dom, .stack, .cores, .arrays, .frames, .parts, .recorder, .blocks, .plant, .pair, .fns, .mgmt,
      .security, .commits, .out, .free]
  | .interlockRelease .. =>
    [.blocks, .plant]
  | .chatterClear .. =>
    [.od, .recorder, .blocks, .plant, .pair, .pcie]
  | .recorderClear .. | .flushNow .. =>
    [.od, .recorder, .fns, .mgmt, .out]
  | .suppressWindowEnd .. =>
    [.recorder]
  | .attest .. | .lcChallenge .. | .segmentRead .. =>
    [.od, .fns, .mgmt, .security, .out, .free]
  | .fwActivate .. =>
    [.od, .fns, .mgmt, .security, .out]
  | .handshakeOrder1 .. =>
    [.od, .fns, .mgmt, .nextMgmt, .out, .free]
  | .handshakeTimeout .. | .swiuthClose .. =>
    [.fns, .mgmt]
  | .write .. =>
    [.od, .dom, .cores, .clusters, .arrays, .chains, .frames, .parts, .sessions, .subRings, .compRings,
      .recorder, .yield, .sets, .transits, .blocks, .plant, .fabric, .pair, .pcie, .fns, .mgmt, .security,
      .commits, .out, .free]
  | .commit .. =>
    [.od, .fns, .mgmt, .commits, .out]
  | .prepareComplete .. =>
    [.od, .dom, .stack, .cores, .clusters, .arrays, .frames, .parts, .sessions, .subRings, .compRings,
      .recorder, .sets, .blocks, .plant, .fabric, .pair, .fns, .mgmt, .commits, .stored, .out, .free]
  | .prepareTimeout .. =>
    [.od, .dom, .stack, .cores, .arrays, .frames, .parts, .recorder, .blocks, .plant, .pair, .fns, .mgmt,
      .commits, .out, .free]
  | .segmentWrite .. =>
    [.od, .dom, .fns, .mgmt, .out]
  | .segmentAbandon .. | .reportFreezeExpiry .. =>
    [.mgmt]
  | .notify .. =>
    [.od, .fns, .mgmt, .out, .free]
  | .idleTimeout .. | .managementSessionExpiry .. =>
    [.fns, .mgmt, .out]
  | .mailboxRequest .. | .rspAck .. =>
    [.fns]
  | .perstInput .. =>
    [.od, .stack, .cores, .clusters, .frames, .parts, .sessions, .subRings, .compRings, .recorder, .sets,
      .plant, .pair, .pcie, .fns, .mgmt, .out, .free]
  | .linkDownTimeout .. =>
    [.od, .stack, .cores, .clusters, .frames, .parts, .sessions, .subRings, .compRings, .recorder, .sets,
      .pair, .pcie, .fns, .mgmt, .out, .free]
  | .flr .. =>
    [.od, .cores, .clusters, .frames, .parts, .sessions, .subRings, .compRings, .recorder, .sets, .pair,
      .pcie, .fns, .mgmt, .out, .free]
  | .pcieLinkUp .. | .correctableThreshold .. | .pcieRetrainComplete .. | .perstDeassertion .. =>
    [.od, .recorder, .pcie]
  | .pcieRetrain .. =>
    [.od, .recorder, .pcie, .fns, .mgmt, .out]
  | .load .. =>
    [.od, .dom, .stack, .cores, .arrays, .frames, .parts, .recorder, .blocks, .plant, .pair, .fns, .mgmt,
      .out, .free]
  | .loadComplete .. =>
    [.od, .clusters, .arrays, .chains, .parts, .sessions, .recorder, .yield, .plant, .pair, .out, .free]
  | .clearBlockEntry .. =>
    [.od, .yield, .fns, .mgmt, .out]
  | .coalesceTimeout .. =>
    [.compRings, .out]
  | .dataLinkDown .. =>
    [.od, .pcie]
  | .configurationRequest .. =>
    [.fns, .out]
  | .droppedDatagram .. =>
    [.od]

/-- The unit that a command of a lap program or an event names: whether the module has it, its kind and its number. The
commands of the management interface name none: they answer a status. -/
def namedUnit (s : State) (i : Instr) : Option (Bool × String × Nat) :=
  match lapCommand i with
  | some (c, _) => some (coreExists s c, "core", coreIndex c)
  | none => match i with
    | .bankPowerUpComplete at_ bank =>
      some (if bank < 32 then (coreExists s at_, "core", coreIndex at_) else (false, "bank", bank))
    | .bankSwitchOff at_ bank =>
      some (if bank < 32 then (coreExists s at_, "core", coreIndex at_) else (false, "bank", bank))
    | .rangeMonitorWindowEnd at_ chain =>
      some (if chain < 8 then (coreExists s at_, "core", coreIndex at_) else (false, "chain", chain))
    | .calIntervalExpiry at_ chain =>
      some (if chain < 8 then (coreExists s at_, "core", coreIndex at_) else (false, "chain", chain))
    | .calibrationComplete at_ chain _ _ =>
      some (if chain < 8 then (coreExists s at_, "core", coreIndex at_) else (false, "chain", chain))
    | .rewriteComplete at_ chain _ =>
      some (if chain < 8 then (coreExists s at_, "core", coreIndex at_) else (false, "chain", chain))
    | .fullScaleWindowEnd at_ array column =>
      some (if array < 32 ∧ column < 512 then (coreExists s at_, "core", coreIndex at_) else (false, "array", array))
    | .lateWrite target _ => some (targetExists s target, "drain", targetNumber target)
    | .engineCommandComplete at_ _ _ => some (coreExists s at_, "core", coreIndex at_)
    | .dmaTransferComplete at_ _ _ _ => some (coreExists s at_, "core", coreIndex at_)
    | .cacheFill at_ _ _ => some (coreExists s at_, "core", coreIndex at_)
    | .streamedCommandArrival at_ _ => some (coreExists s at_, "core", coreIndex at_)
    | .hurdleClear p _ => some (decide (p < 48), "partition", p)
    | .hurdleTimeout p => some (decide (p < 48), "partition", p)
    | .baton p _ => some (decide (p < 48), "partition", p)
    | .flipPrepareComplete p => some (decide (p < 48), "partition", p)
    | .flipGapComplete p _ => some (decide (p < 48), "partition", p)
    | .partitionFault p _ => some (decide (p < 48), "partition", p)
    | .partitionWipeComplete p => some (decide (p < 48), "partition", p)
    | .loadComplete fin => some (decide (fin.part < 48), "partition", fin.part)
    | .fabricWriteArrival p _ _ _ => some (decide (p < 48), "partition", p)
    | .mirrorAck _ p _ _ => some (decide (p < 48), "partition", p)
    | .flipFrame _ p _ _ _ => some (decide (p < 48), "partition", p)
    | .mirrorVerdict p _ _ _ => some (decide (p < 48), "partition", p)
    | .mirrorAckTimeout p _ => some (decide (p < 48), "partition", p)
    | .tokenRecordRelease session _ _ _ => some (decide (session < 4096), "session", session)
    | .sampling session _ _ _ => some (decide (session < 4096), "session", session)
    | .abortWave session => some (decide (session < 4096), "session", session)
    | .abortWaveAcknowledged session => some (decide (session < 4096), "session", session)
    | .bitmapSlotRead session _ _ => some (decide (session < 4096), "session", session)
    | .kvEvictTransferComplete session _ => some (decide (session < 4096), "session", session)
    | .kvRestoreTransferComplete session _ => some (decide (session < 4096), "session", session)
    | .hostReadComplete session _ => some (decide (session < 4096), "session", session)
    | .abortFrame _ session => some (decide (session < 4096), "session", session)
    | .abortDone _ session => some (decide (session < 4096), "session", session)
    | .mirrorEntry session _ _ => some (decide (session < 4096), "session", session)
    | .completionPost ring => some (decide (ring < 32768), "ring", ring)
    | .submissionEntryFetch ring _ => some (decide (ring < 32768), "ring", ring)
    | .coalesceTimeout ring => some (decide (ring < 32768), "ring", ring)
    | .sessionOpen ring => some (decide (ring < 32768), "ring", ring)
    | .promptAppend ring => some (decide (ring < 32768), "ring", ring)
    | .generate ring _ => some (decide (ring < 32768), "ring", ring)
    | .fork ring => some (decide (ring < 32768), "ring", ring)
    | .cancel ring => some (decide (ring < 32768), "ring", ring)
    | .close ring => some (decide (ring < 32768), "ring", ring)
    | .kvEvict ring => some (decide (ring < 32768), "ring", ring)
    | .kvRestore ring => some (decide (ring < 32768), "ring", ring)
    | .weightStage ring => some (decide (ring < 32768), "ring", ring)
    | .weightFlip ring => some (decide (ring < 32768), "ring", ring)
    | .barrier ring => some (decide (ring < 32768), "ring", ring)
    | .handover _ ring _ => some (decide (ring < 32768), "ring", ring)
    | .ringContextWrite fn _ _ => some (decide (fn < 128), "function", fn)
    | .ringEnable fn _ _ => some (decide (fn < 128), "function", fn)
    | .ringDisable fn _ _ => some (decide (fn < 128), "function", fn)
    | .submissionDoorbell fn _ _ => some (decide (fn < 128), "function", fn)
    | .completionDoorbell fn _ _ => some (decide (fn < 128), "function", fn)
    | .tokenRingDoorbell fn _ _ => some (decide (fn < 128), "function", fn)
    | .bitmapDoorbell fn _ _ => some (decide (fn < 128), "function", fn)
    | .flr fn => some (decide (fn < 128), "function", fn)
    | .mailboxRequest fn _ => some (decide (fn < 128), "function", fn)
    | .rspAck fn _ => some (decide (fn < 128), "function", fn)
    | .stageHeaderRead set _ => some (decide (set < 4096), "weight set", set)
    | .signatureVerified set _ => some (decide (set < 4096), "weight set", set)
    | .weightChunkRead set _ _ => some (decide (set < 4096), "weight set", set)
    | .relayTimeout set => some (decide (set < 4096), "weight set", set)
    | .setWipeComplete set => some (decide (set < 4096), "weight set", set)
    | .pieceRefetchComplete set _ _ => some (decide (set < 4096), "weight set", set)
    | .relayHeader set dir _ _ =>
      some (if dir < 7 then (decide (set < 4096), "weight set", set) else (false, "direction", dir))
    | .relayChunk set dir _ _ =>
      some (if dir < 7 then (decide (set < 4096), "weight set", set) else (false, "direction", dir))
    | .oscillatorUnlock cluster => some (decide (cluster < clusterCount), "cluster", cluster)
    | .routerFailure cluster _ _ => some (decide (cluster < clusterCount), "cluster", cluster)
    | .linkFailure link _ => some (decide (link < linkCount), "link", link)
    | .linkRetryRate link => some (decide (link < linkCount), "link", link)
    | .linkRetrainComplete link _ _ => some (decide (link < linkCount), "link", link)
    | .trainingComplete port _ _ _ _ => some (decide (port < 28), "Geanna port", port)
    | .trainingAttemptTimeout port => some (decide (port < 28), "Geanna port", port)
    | .laneFailure port _ => some (decide (port < 28), "Geanna port", port)
    | .neighbourDark port => some (decide (port < 28), "Geanna port", port)
    | .fnInput input _ => some (decide (input < 2), "FN line", input)
    | .fnStuck input => some (decide (input < 2), "FN line", input)
    | .prChange input _ _ _ => some (decide (input < 2), "PR line", input)
    | .perstInput port _ _ _ => some (decide (port < 2), "PCI Express port", port)
    | .perstDeassertion port => some (decide (port < 2), "PCI Express port", port)
    | .linkDownTimeout port _ => some (decide (port < 2), "PCI Express port", port)
    | .dataLinkDown port _ => some (decide (port < 2), "PCI Express port", port)
    | .pcieLinkUp port _ _ _ => some (decide (port < 2), "PCI Express port", port)
    | .correctableThreshold port _ => some (decide (port < 2), "PCI Express port", port)
    | .pcieRetrainComplete port _ _ => some (decide (port < 2), "PCI Express port", port)
    | .configurationRequest port fn =>
      some (if fn < 64 then (decide (port < 2), "PCI Express port", port) else (false, "function", fn))
    | .levelRise block => some (decide (block < 144), "block", block)
    | .levelFall block => some (decide (block < 144), "block", block)
    | .heatOff block _ => some (decide (block < 144), "block", block)
    | .heatReturn block => some (decide (block < 144), "block", block)
    | .setPointStep block _ => some (decide (block < 144), "block", block)
    | .phaseFailure block _ _ => some (decide (block < 144), "block", block)
    | .targetStep block _ => some (decide (block < 144), "block", block)
    | .shortDeclared block _ _ _ => some (decide (block < 144), "block", block)
    | .blockDrainComplete block => some (decide (block < 144), "block", block)
    | .idleOff block => some (decide (block < 144), "block", block)
    | .wakeComplete block _ _ => some (decide (block < 144), "block", block)
    | .stackErrorRate block _ => some (decide (block < 144), "block", block)
    | .stackRetrainComplete block _ => some (decide (block < 144), "block", block)
    | .converterFailure converter => some (decide (converter < 16), "converter", converter)
    | .sensorSuspect x => some (sensorExists x, "sensor", sensorKey x)
    | .hardwareTrip x => some (sensorExists x, "sensor", sensorKey x)
    | _ => none


end Sys2Proof.Machine
end

