-- ==== Sys2Proof/Certificates/Slice0/Obligations.lean ====
section
/-! DEFINITION. The statements for the provers. -/

open Sys2Proof Sys2Proof.Machine

/-- R83, R162: the elementwise functions whose result is exact or correctly rounded. -/
def Obligations.VecExactElementwise : Prop :=
  ∀ (s : State) (p : Nat) (at_ : CoreRef) (env : CoreEnv) (a : VecArgs), a.a ≠ noDesc →
    let ci := coreIndex at_
    let x := operand s ci a.a (vRows a) (vLen a)
    let y := operand s ci a.b (vRows a) (vLen a)
    let z := operand s ci a.c (vRows a) (vLen a)
    let done (t : State) (f : Nat → Nat → FV) : Prop :=
      Issued s t ci .vector (!a.async) ∧
        Stored 0 s t ci (descOf (coreOf s ci) a.dst) (vLen a) (grid (vRows a) (vLen a) (fun r j => rF32 (f r j)))
    (Issues s p at_ env (.vec .copy a) → ∃ t, exec (.copy at_ env a) s = .next t ∧ done t (fun r j => x r j)) ∧
    (Issues s p at_ env (.vec .add a) → ∃ t, exec (.add at_ env a) s = .next t ∧
      done t (fun r j => FV.add (x r j) (y r j))) ∧
    (Issues s p at_ env (.vec .sub a) → ∃ t, exec (.sub at_ env a) s = .next t ∧
      done t (fun r j => FV.sub (x r j) (y r j))) ∧
    (Issues s p at_ env (.vec .mul a) → ∃ t, exec (.mul at_ env a) s = .next t ∧
      done t (fun r j => FV.mul (x r j) (y r j))) ∧
    (Issues s p at_ env (.vec .fma a) → ∃ t, exec (.fma at_ env a) s = .next t ∧
      done t (fun r j => FV.add (FV.mul (x r j) (y r j)) (z r j))) ∧
    (Issues s p at_ env (.vec .max a) → ∃ t, exec (.max at_ env a) s = .next t ∧
      done t (fun r j => FV.maxV (x r j) (y r j))) ∧
    (Issues s p at_ env (.vec .min a) → ∃ t, exec (.min at_ env a) s = .next t ∧
      done t (fun r j => FV.minV (x r j) (y r j))) ∧
    (Issues s p at_ env (.vec .scale a) → ∃ t, exec (.scale at_ env a) s = .next t ∧
      done t (fun r j => FV.mul (x r j) (decBF16 a.imm)))

/-- R83, R162: the elementwise functions whose result the manual bounds. -/
def Obligations.VecBoundedElementwise : Prop :=
  ∀ (s : State) (p : Nat) (at_ : CoreRef) (env : CoreEnv) (a : VecArgs), a.a ≠ noDesc →
    let ci := coreIndex at_
    let x := operand s ci a.a (vRows a) (vLen a)
    let done (t : State) (P : FV → FV → Prop) : Prop :=
      Issued s t ci .vector (!a.async) ∧
        ∃ rows, GridOf (vRows a) (vLen a) (fun r j v => P (x r j) v) rows ∧
          Stored 0 s t ci (descOf (coreOf s ci) a.dst) (vLen a) rows
    (Issues s p at_ env (.vec .exp a) → ∃ t, exec (.exp at_ env a) s = .next t ∧ done t (fun x v =>
      (x.isNaN = true → v = x) ∧ (x = .inf false → v = .inf false) ∧ (x = .inf true → v = FV.zero) ∧
      (x.isFinite = true → FV.lt (.fin false 8872 0) (FV.mul x (.fin false 100 0)) = true → v = .inf false) ∧
      (x.isFinite = true → FV.lt (.fin false 8872 0) (FV.mul x (.fin false 100 0)) = false → Within fxExp 22 0 x v))) ∧
    (Issues s p at_ env (.vec .recip a) → ∃ t, exec (.recip at_ env a) s = .next t ∧ done t (fun x v =>
      (x.isNaN = true → v = x) ∧ (∀ b, x = .inf b → v = .fin b 0 0) ∧ (∀ b e, x = .fin b 0 e → v = .inf b) ∧
      (x.isFinite = true → x.isZero = false → Within (fun y => fxDiv fxOne y) 22 0 x v))) ∧
    (Issues s p at_ env (.vec .rsqrt a) → ∃ t, exec (.rsqrt at_ env a) s = .next t ∧ done t (fun x v =>
      (x.isNaN = true → v = x) ∧ (x = .inf false → v = FV.zero) ∧ (x = .inf true → v.isNaN = true) ∧
      (∀ b e, x = .fin b 0 e → v = .inf b) ∧ (∀ m e, x = .fin true (m + 1) e → v.isNaN = true) ∧
      (∀ m e, x = .fin false (m + 1) e → Within (fun y => fxDiv fxOne (fxSqrt y)) 22 0 x v))) ∧
    (Issues s p at_ env (.vec .silu a) → ∃ t, exec (.silu at_ env a) s = .next t ∧ done t (fun x v =>
      (x.isNaN = true → v = x) ∧ (x = .inf false → v = .inf false) ∧
      (x.isFinite = true → Within fxSilu 21 (fxEps 30) x v))) ∧
    (Issues s p at_ env (.vec .gelu a) → ∃ t, exec (.gelu at_ env a) s = .next t ∧ done t (fun x v =>
      (x.isNaN = true → v = x) ∧ (x = .inf false → v = .inf false) ∧
      (x.isFinite = true → Within fxGelu 21 (fxEps 30) x v))) ∧
    (Issues s p at_ env (.vec .sigmoid a) → ∃ t, exec (.sigmoid at_ env a) s = .next t ∧ done t (fun x v =>
      (x.isNaN = true → v = x) ∧ (x = .inf false → v = FV.ofInt 1) ∧ (x = .inf true → v = FV.zero) ∧
      (x.isFinite = true → Within fxSigmoid 22 (fxEps 23) x v))) ∧
    (Issues s p at_ env (.vec .tanh a) → ∃ t, exec (.tanh at_ env a) s = .next t ∧ done t (fun x v =>
      (x.isNaN = true → v = x) ∧ (∀ b, x = .inf b → v = .fin b 1 0) ∧
      (x.isFinite = true → Within fxTanh 22 (fxEps 23) x v)))

/-- R83, R156, R162. -/
def Obligations.VecReductionsAndTopk : Prop :=
  (∀ (s : State) (p : Nat) (at_ : CoreRef) (env : CoreEnv) (a : VecArgs), a.a ≠ noDesc →
      let ci := coreIndex at_
      let row := operandRow s ci a.a (vRows a) (vLen a)
      let done (t : State) (P : List FV → FV → Prop) : Prop :=
        Issued s t ci .vector (!a.async) ∧
          ∃ rows, GridOf (vRows a) 1 (fun r _ v => P (row r) v) rows ∧
            Stored 0 s t ci (descOf (coreOf s ci) a.dst) 1 rows
      (Issues s p at_ env (.vec .sum a) → ∃ t, exec (.sum at_ env a) s = .next t ∧
        done t (fun l v => Bounded v (sumFV l) (sumTol l))) ∧
      (Issues s p at_ env (.vec .maxr a) → ∃ t, exec (.maxr at_ env a) s = .next t ∧
        done t (fun l v => v = l.tail.foldl FV.maxV (l.headD FV.zero))) ∧
      (Issues s p at_ env (.vec .sumsq a) → ∃ t, exec (.sumsq at_ env a) s = .next t ∧
        done t (fun l v => Bounded v (sumFV (squares l)) (sumTol (squares l))))) ∧
  (∀ (s : State) (p : Nat) (at_ : CoreRef) (env : CoreEnv) (a : VecArgs), a.a ≠ noDesc →
      let ci := coreIndex at_
      let c := coreOf s ci
      let da := descOf c a.a
      let f := dFmt da
      let n := areaNat s ci da (extent da (vRows a) (vLen a))
      let e := precisionOf s ci (a.param.toNat % 64)
      (Issues s p at_ env (.vec .dequant a) → a.b ≠ noDesc →
        let scales := readArea s ci (descOf c a.b) (scaleBytes f e (vRows a) (vLen a))
        ∃ t, exec (.dequant at_ env a) s = .next t ∧ Issued s t ci .vector (!a.async) ∧
          Stored 0 s t ci (descOf c a.dst) (vLen a) (grid (vRows a) (vLen a) (fun r j =>
            let sc := scaleAt f e scales (vLen a) r j
            if sc.2 then FV.nan false
            else rF32 (FV.mul (decElem f (bitsAt n (rowBit da (vLen a) r + j * f.bits) f.bits)).1 sc.1)))) ∧
      (Issues s p at_ env (.vec .topk a) → ∃ t, exec (.topk at_ env a) s = .next t ∧
        Issued s t ci .vector (!a.async) ∧
          t.scratch = (writeRawRows s ci (descOf c a.dst) (a.param.toNat * 8) ((List.range (vRows a)).map (fun r =>
            (topIndices a.param.toNat (operandRow s ci a.a (vRows a) (vLen a) r)).flatMap (fun x =>
              natLe (encF32 x.1).toNat 4 ++ natLe x.2 4)))).scratch))

/-- R83, R162: the functions of whole rows. -/
def Obligations.VecRowFunctions : Prop :=
  ∀ (s : State) (p : Nat) (at_ : CoreRef) (env : CoreEnv) (a : VecArgs), a.a ≠ noDesc → a.b ≠ noDesc →
    let ci := coreIndex at_
    let len : Int := (vLen a : Nat)
    let row := operandRow s ci a.a (vRows a) (vLen a)
    let gain := operandRow s ci a.b 1 (vLen a) 0
    let bias := operandRow s ci a.c 1 (vLen a) 0
    let angles := operandRow s ci a.b (vRows a) (vLen a / 2)
    let done (t : State) (P : Nat → Nat → FV → Prop) : Prop :=
      Issued s t ci .vector (!a.async) ∧
        ∃ rows, GridOf (vRows a) (vLen a) P rows ∧ Stored 0 s t ci (descOf (coreOf s ci) a.dst) (vLen a) rows
    let norm (remove : Bool) (bias : List FV) (r j : Nat) (v : FV) : Prop :=
      NormOf remove (decBF16 a.imm) (row r) gain bias j v
    (Issues s p at_ env (.vec .rmsnorm a) → ∃ t, exec (.rmsnorm at_ env a) s = .next t ∧ done t (norm false [])) ∧
    (Issues s p at_ env (.vec .layernorm a) → a.c ≠ noDesc → ∃ t, exec (.layernorm at_ env a) s = .next t ∧
      done t (norm true bias)) ∧
    (Issues s p at_ env (.vec .softmax a) → ∃ t, exec (.softmax at_ env a) s = .next t ∧ done t (fun r j v =>
      let ref := getAt 0 (softmaxRef (row r)) j
      if (row r).all (fun x => x.isFinite || decide (x = FV.inf true)) && (row r).any FV.isFinite then
        Near v ref (ref / 2 ^ 21 + len * (fxEps 24 : Nat))
      else v.isNaN = true)) ∧
    (Issues s p at_ env (.vec .rope a) → ∃ t, exec (.rope at_ env a) s = .next t ∧ done t (fun r j v =>
      let even := getAt FV.zero (row r) (j / 2 * 2)
      let odd := getAt FV.zero (row r) (j / 2 * 2 + 1)
      let th := getAt FV.zero (angles r) (j / 2)
      (even.isFinite = true → odd.isFinite = true → th.isFinite = true →
        Near v (ropeRef (row r) (angles r) j) ((((fxOf even).natAbs + (fxOf odd).natAbs : Nat) : Int) / 2 ^ 22)) ∧
      (th.isFinite = false → v.isNaN = true)))

/-- R154 to R158: QUANT. -/
def Obligations.VecQuant : Prop :=
  ∀ (s : State) (p : Nat) (at_ : CoreRef) (env : CoreEnv) (a : VecArgs), a.a ≠ noDesc →
    Issues s p at_ env (.vec .quant a) →
    let ci := coreIndex at_
    let c := coreOf s ci
    let k := vLen a
    let e := precisionOf s ci (a.param.toNat % 64)
    let f := dFmt (descOf c a.dst)
    ∃ (t : State) (qs : List QuantRow), exec (.quant at_ env a) s = .next t ∧ Issued s t ci .vector (!a.async) ∧
      Pointwise (fun r q => QuantOf f e (staticList s ci (a.param.toNat % 64)) (operandRow s ci a.a (vRows a) k r)
        (if a.b = noDesc then [] else operandRow s ci a.b (vRows a) k r) q) (List.range (vRows a)) qs ∧
      let s1 := writeRows s ci (descOf c a.dst) k (qs.map (·.codes))
      let s2 := if pFeedback e = 0 ∨ a.b = noDesc then s1
        else writeRows s1 ci (descOf c a.b) k (nearestCodes (dFmt (descOf c a.b)) (qs.map (·.residual)))
      let s3 := if a.c = noDesc then s2 else writeArea s2 ci (descOf c a.c) (quantArea f k qs)
      t.scratch = (writeRows s3 ci (descOf c a.a) k (nearestCodes (dFmt (descOf c a.a)) (qs.map (·.back)))).scratch

/-- R85, R86, R164, R166: OUTLIER and both forms of CHECK. -/
def Obligations.VecOutlierCheck : Prop :=
  ∀ (s : State) (p : Nat) (at_ : CoreRef) (env : CoreEnv) (a : VecArgs),
    let ci := coreIndex at_
    let c := coreOf s ci
    let n := vLen a
    let e := precisionOf s ci (a.param.toNat % 64)
    (Issues s p at_ env (.vec .outlier a) → a.b ≠ noDesc → a.dst ≠ noDesc →
      let used := Nat.min (vRows a) a.param.toNat
      let list := readArea s ci (descOf c a.a) (4 * used)
      let acts := (List.range used).map (fun i => decBF16 (BitVec.ofNat 16 (fieldLe list (4 * i + 2) 2)))
      ∃ t rows, exec (.outlier at_ env a) s = .next t ∧ Issued s t ci .vector (!a.async) ∧
        Stored 0 s t ci (descOf c a.dst) n rows ∧ GridOf 1 n (fun _ j v =>
          let x := dotExact acts ((List.range used).map (fun i => operand s ci a.b used n i j))
          let prev := operand s ci a.dst 1 n 0 j
          Bounded v (FV.add prev x.1) (accTol (used + 1) (FV.add x.2 prev.abs))) rows) ∧
    (Issues s p at_ env (.vec .check a) → a.param.toNat / 64 ≠ 31 →
      let x := (checkTile (advance s ci) ci a e).1
      ∃ t, exec (.check at_ env a) s = .next t ∧ Issued s t ci .vector (!a.async) ∧
        (coreOf t ci).checker = x.miss ∧ (coreOf t ci).missTile = (if x.miss then some c.pos else c.missTile) ∧
        (x.miss = false → (coreOf t ci).skip = vRows a - 1) ∧
        Stored 0 s t ci (descOf c a.dst) 1 [[x.deviation]]) ∧
    (Passes s p at_ →
      inForce s p K.numCheckerMode = 0 ∨
        a.param.toNat / 64 ≠ 31 ∧ a.param.toNat / 64 ≠ (partOf s p).lap % (pCandidates e + 1) →
      let t := updCore s ci (fun c => { c.past (streamed s ci) with skip := vRows a - 1 })
      exec (.check at_ env a) s = .next t ∧ exec (.guardCheck at_ env a) s = .next t) ∧
    (Issues s p at_ env (.vec .check a) → a.param.toNat / 64 = 31 →
      ∃ t, exec (.guardCheck at_ env a) s = .next t ∧ Issued s t ci .vector (!a.async) ∧ t.scratch = s.scratch ∧
        (coreOf t ci).skip =
          if inForce s p K.numCheckerMode = 1 ∧ c.widenIn.contains (pWiden e) = true then 0 else vRows a - 1)

/-- R77, R78, R145, R161: MMA. -/
def Obligations.MmaResult : Prop :=
  ∀ (s : State) (p : Nat) (at_ : CoreRef) (env : CoreEnv) (a : MmaArgs), a.out ≠ noDesc →
    Issues s p at_ env (.mma a) →
    let ci := coreIndex at_
    let c := coreOf s ci
    let fa := dFmt (descOf c a.a)
    let fw := dFmt (descOf c a.w)
    let m := a.m.toNat
    let k := a.k.toNat
    let n := a.n.toNat
    let scales := if a.scale = noDesc then []
      else readArea s ci (descOf c a.scale) (aScales fa m k + wScales fw k n)
    let rows := (mmaRows s ci (descOf c a.a) scales m k).1
    let cols := (mmaCols s ci (descOf c a.w) (scales.drop (aScales fa m k)) k n).1
    ∃ t out, exec (.mma at_ env a) s = .next t ∧ Issued s t ci .matrix (!a.async) ∧
      Stored a.rounding.toNat s t ci (descOf c a.out) n out ∧ GridOf m n (fun r j v =>
        let x := dotExact (getAt [] rows r) (getAt [] cols j)
        let prev := operand s ci a.out m n r j
        if fa.integer && fw.integer then v = if a.accumulate then rF32 (FV.add prev (rF32 x.1)) else x.1
        else
          let terms := accTerms (fa.blockScaled || fw.blockScaled) (getAt [] rows r) (getAt [] cols j)
          if a.accumulate then Accumulated (k + 1) (FV.add x.2 prev.abs) (prev :: terms) v
          else Accumulated k x.2 terms v) out

/-- R113, R118, R124: ARR_MVM; a scale parity error or a canary that fails comes after the result. -/
def Obligations.ArrMvmResult : Prop :=
  ∀ (s : State) (p : Nat) (at_ : CoreRef) (env : CoreEnv) (a : ArrMvmArgs), a.out ≠ noDesc →
    Issues s p at_ env (.arrMvm a) →
    let ci := coreIndex at_
    let c := coreOf s ci
    let d := descOf c a.inp
    let f := dFmt d
    let m := a.m.toNat
    let k := mvmK a
    let n := weightsPerRow a.wfmt.toNat
    let num := areaNat s ci d (extent d m k)
    let gpr := mvmGroups a
    let scb := readArea s ci (descOf c a.scale) (2 * m * gpr)
    let row (r : Nat) := mvmRow s s.free ci a (inputMult f) r ((rowCodes d num k r).map (inputInt f))
      ((List.range gpr).map (fun g => decBF16 (BitVec.ofNat 16 (fieldLe scb (2 * (r * gpr + g)) 2)))) true
    (∀ ch, chainIn s ci a = true → chainNumber s ci a.firstArray.toNat a.count.toNat = some ch →
      0 < a.count.toNat → (∀ x ∈ chainArrays s ci ch, (arrOf s x).wfmt = a.wfmt.toNat) →
      ∃ t out, exec (.arrMvm at_ env a) s = .next t ∧ Issued s t ci .array (!a.async) ∧
        (coreOf t ci).skip = a.fbSkip.toNat ∧ Stored 0 s t ci (descOf c a.out) n out ∧ GridOf m n (fun r j v =>
          let x := getAt [] (row r).terms j
          let prev := operand s ci a.out m n r j
          if a.accumulate then Bounded v (FV.add prev (sumFV x)) (accTol (k + 1) (FV.add (sumAbs x) prev.abs))
          else Bounded v (sumFV x) (accTol k (sumAbs x))) out) ∧
    (chainIn s ci a = false → exec (.arrMvm at_ env a) s =
      .next (bump (updCore s ci (fun c => c.past (streamed s ci))) (K.statFallbacks p)))

/-- R120, R121, R123, R135: ARR_WRITE. -/
def Obligations.ArrWriteResult : Prop :=
  ∀ (s : State) (p : Nat) (at_ : CoreRef) (env : CoreEnv) (a : ArrWriteArgs), Issues s p at_ env (.arrWrite a) →
    let ci := coreIndex at_
    let c := coreOf s ci
    let ai := ci * 32 + a.array.toNat
    let d := descOf c a.src
    let n := a.rows.toNat + 1
    let bytes (i : Nat) := slice (readArea s ci d (64 * n)) (64 * i) 64
    ((arrOf s ai).state ≠ .retired →
      ∃ t, exec (.arrWrite at_ env a) s = .next t ∧ Issued s t ci .array (!a.async) ∧ t.scratch = s.scratch ∧
        (env.cells = [] ∨ a.verify = false → (arrOf t ai).wfmt = wfmtOf (dFmt d) ∧ (arrOf t ai).persist = a.persist ∧
        (arrOf t ai).repair = (if a.persist then some a.repair else none) ∧
        (∀ k, k ≠ ai → arrOf t k = arrOf s k) ∧
        (∀ r, r < a.firstRow.toNat ∨ a.firstRow.toNat + n ≤ r → arrRow (arrOf t ai) r = arrRow (arrOf s ai) r) ∧
        ∀ i, i < n → arrRow (arrOf t ai) (a.firstRow.toNat + i) =
          if c.poison.contains (granAddr ci d false i) then List.replicate 64 0
          else if dFmt d = .ternary then (cleanTernary (bytes i)).1 else bytes i)) ∧
    ((arrOf s ai).state = .retired → ∃ t, exec (.arrWrite at_ env a) s = .next t ∧ Issued s t ci .array (!a.async) ∧
      t.arrays = s.arrays ∧ t.scratch = s.scratch ∧
      odGet t K.arrFallbackDroppedWrites =
        Nat.min (odGet s K.arrFallbackDroppedWrites + 1) (objTop K.arrFallbackDroppedWrites))

/-- R179 to R184, R206: ATTN. -/
def Obligations.AttnResults : Prop :=
  ∀ (s : State) (p : Nat) (at_ : CoreRef) (env : CoreEnv) (a : AttnArgs) (bad : List (Nat × Nat)),
    let ci := coreIndex at_
    let c := coreOf s ci
    let lanes := (laneEntries s ci a).filter (laneTaken a)
    let fetched := (fetchLanes (advance s ci) p ci a bad lanes).1
    let u := (fetchLanes (advance s ci) p ci a bad lanes).2
    let rows := attnRows u ci a
    let query (r : Nat) := rowOf (readRows u ci (descOf c a.q) rows.length (attnDim a)).1 r
    let merged := attnRows s ci a
    let records := readArea s ci (descOf c a.q) (merged.length * (a.parts.toNat + 1) * (attnDim a + 2) * 4)
    let word (r k i : Nat) := decF32 (BitVec.ofNat 32
      (fieldLe records ((((r * (a.parts.toNat + 1) + k) * (attnDim a + 2)) + i) * 4) 4))
    (∀ pages, Issues s p at_ env (.attn 0 a) → a.split = true ∨ (∀ l ∈ lanes, l.block ≤ 8192) →
      fetched = .inl pages → ∃ t out, exec (.attnFull at_ env a bad) s = .next t ∧ Issued s t ci .matrix (!a.async) ∧
        Pointwise (fun (e : (LaneEntry × Nat) × Nat) (x : List FV × List Byte) =>
          AttnRowOf ci a (query e.2) (pagesOf pages e.1.1) e.1.1 e.1.2 x) rows.zipIdx out ∧
        let staged := stagePages s ci a (pages.flatMap (·.2))
        ∃ rest, Stored 0 (if (∀ l ∈ lanes, l.block ≤ 8192) ∨ a.work = noDesc then staged
          else writeArea staged ci (descOf c a.work) (out.flatMap (·.2) ++ rest)) t ci (descOf c a.out) (attnDim a)
            (out.map (·.1)) ∧
          rest.length = 64 * areaGranules (descOf c a.work) - (out.flatMap (·.2)).length) ∧
    (∀ pages, Issues s p at_ env (.attn 1 a) → fetched = .inl pages →
      ∃ t out, exec (.attnPartial at_ env a bad) s = .next t ∧ Issued s t ci .matrix (!a.async) ∧
        Pointwise (fun (e : (LaneEntry × Nat) × Nat) (w : List W32) =>
          ∃ v, w = (partialRow v ci a (query e.2) (pagesOf pages e.1.1) e.1.2).1) rows.zipIdx out ∧
        t.scratch = (writeRawRows (stagePages s ci a (pages.flatMap (·.2))) ci (descOf c a.out) ((attnDim a + 2) * 4)
          (out.map (fun r => r.flatMap (fun w => natLe w.toNat 4)))).scratch) ∧
    (Issues s p at_ env (.attn 2 a) → ∃ t out, exec (.attnMerge at_ env a) s = .next t ∧
      Issued s t ci .matrix (!a.async) ∧ Stored 0 s t ci (descOf c a.out) (attnDim a) out ∧
        GridOf merged.length (attnDim a) (fun r i v => MergeOf a ((List.range (a.parts.toNat + 1)).map (fun k =>
          (List.range (attnDim a + 2)).map (word r k))) i v) out)

/-- R25, R71, R76, R92, R97, R101. -/
def Obligations.ControlCommands : Prop :=
  ∀ (s : State) (p : Nat) (at_ : CoreRef) (env : CoreEnv),
    let ci := coreIndex at_
    let c := coreOf s ci
    let long := streamed s ci
    (Issues s p at_ env .nop → exec (.nop at_ env) s = .next (updCore s ci (fun c => c.past long))) ∧
    (∀ m, Issues s p at_ env (.fence m) → exec (.fence at_ env m) s = .next (updCore s ci (fun c => c.past long))) ∧
    (∀ k n, Issues s p at_ env (.dmaWait k n) →
      exec (.dmaWait at_ env k n) s = .next (updCore s ci (fun c => c.past long))) ∧
    (∀ a, Issues s p at_ env (.desc a) → exec (.desc at_ env a) s =
      .next (updCore s ci (fun c => { c.past long with descs := kvSet 0 c.descs a.index.toNat a.desc }))) ∧
    (∀ mask, Issues s p at_ env (.bankPower false mask) → ∃ t, exec (.bankPowerOff at_ env mask) s = .next t ∧
      (coreOf t ci).pos = c.pos + 1 ∧ ∀ b, bankOf (coreOf t ci) b =
        if mask.getLsbD b = true ∧ (bankOf c b).mode = .scratch ∧ (bankOf c b).power ≠ .off
        then { bankOf c b with power := .pendingOff } else bankOf c b) ∧
    (∀ mask, Issues s p at_ env (.bankPower true mask) → ∃ t, exec (.bankPowerOn at_ env mask) s = .next t ∧
      (coreOf t ci).pos = c.pos + 1 ∧ ∀ b, bankOf (coreOf t ci) b =
        if mask.getLsbD b = true ∧ (bankOf c b).mode = .scratch ∧
          ((bankOf c b).power = .off ∨ (bankOf c b).power = .pendingOff)
        then { bankOf c b with power := .poweringUp } else bankOf c b) ∧
    (Issues s p at_ env .cinval → ∃ t, exec (.cinval at_ env) s = .next t ∧ Issued s t ci .dma true ∧
      (coreOf t ci).lines = [] ∧ (coreOf t ci).plru = [] ∧ t.scratch = s.scratch)

/-- R30, R32, R46, R75, R166. -/
def Obligations.HurdleCommands : Prop :=
  ∀ (s : State) (p : Nat) (at_ : CoreRef) (env : CoreEnv) (a : HurdleArgs),
    let ci := coreIndex at_
    let c := coreOf s ci
    let pt := partOf s p
    let h := a.hurdle.toNat
    let arrives (form : BitVec 2) (i : Instr) : Prop := Issues s p at_ env (.hurdle form a) →
      (h = pt.hurdle → ∃ t, exec i s = .next t ∧ (coreOf t ci).pos = c.pos + 1 ∧ (coreOf t ci).arrived = some h ∧
        (coreOf t ci).arrival = some a ∧ (coreOf t ci).hold = (if form = 0 then .hurdle h else .none) ∧
        (coreOf t ci).widenSent = c.widenOut ∧ (coreOf t ci).widenOut = [] ∧
        (coreOf t ci).sentReplay = (a.checkpoint && c.replayReq) ∧
        (coreOf t ci).replayReq = (!a.checkpoint && c.replayReq) ∧
        (partOf t p).arrived = insertNat ci pt.arrived ∧ (partOf t p).lastLate = ci ∧ (partOf t p).hurdle = pt.hurdle ∧
        ∀ k, k ≠ ci → coreOf t k = coreOf s k) ∧
      (h ≠ pt.hurdle → pt.fault = none → ∃ t, exec i s = .next t ∧
        (partOf t p).fault = some (0x0001, ci / 16) ∧ (partOf t p).arrived = pt.arrived ∧ (coreOf t ci).pos = c.pos + 1)
    arrives 0 (.hurdleArriveWait at_ env a) ∧ arrives 1 (.hurdleArrive at_ env a) ∧
    (Issues s p at_ env (.hurdle 2 a) → exec (.hurdleWait at_ env a) s = .next (updCore s ci (fun c =>
      if c.clearedSplit = some h then { c.past (streamed s ci) with clearedSplit := none }
      else { c.past (streamed s ci) with hold := .hurdle h })))

/-- R99 to R101, R103, R190, R193, R217, R278, R298, R299. -/
def Obligations.DmaCopies : Prop :=
  ∀ (s : State) (p : Nat) (at_ : CoreRef) (env : CoreEnv),
    let ci := coreIndex at_
    let c := coreOf s ci
    let u := advance s ci
    let dst (i : BitVec 6) := scratchDst ci (descOf c i) (areaSize (descOf c i))
    let load (a : DmaStackArgs) (data : List Byte) : Transfer :=
      { id := 0, kind := .stackRead, counter := a.counter.toNat, sync := !a.async, dst := dst a.loc, data }
    let src (i : BitVec 6) := sourceArea s ci env (descOf c i)
    let marked (l : List (Gran × List Byte × Bool)) : List Nat := (l.filter (fun e => e.2.2)).map (fun e => e.1.addr)
    let store (a : DmaStackArgs) (l : List (Gran × List Byte × Bool)) : Transfer :=
      { id := 0, kind := .stackWrite, counter := a.counter.toNat, sync := !a.async, dst := l.map (·.1)
        data := l.flatMap (fun e => e.2.1), poisoned := marked l, tentative := a.tentative }
    let addrs (l : List (Gran × List Byte × Bool)) : List (Option Nat) := l.map (fun e => some e.1.addr)
    let edge (a : DmaEdgeArgs) (kind : XferKind) (d : List Gran) (data : List Byte) : Transfer :=
      { id := 0, kind, counter := a.counter.toNat, sync := !a.async, dst := d, data
        channel := a.channel.toNat, offset := a.granule.toNat }
    let poison (x : Transfer) (at_ n : Nat) : Transfer :=
      { x with poisoned := poisonDst x.dst (badIdx (fun i => s.stackPoison.contains (at_ + 64 * i)) (List.range n)) }
    let starts (i : Instr) (w : State) (inward : Bool) (far : List Nat) (x : Transfer) (P : State → Prop) : Prop :=
      cutOff w (ci / 16) inward far = false →
        ∃ t, exec i s = .next t ∧ Starts s t p ci w.stack (routed w p ci far x) ∧ P t
    (∀ a b g, a.remote = .phys b g → Issues s p at_ env (.dmaLoad a) → b.toNat ∈ (partOf s p).blocks →
      (g.toNat + areaSize (descOf c a.loc)) * 64 ≤ stackBytes →
      let n := areaSize (descOf c a.loc)
      starts (.dmaCopyStackToScratch at_ env a) s true (farBlock s ci b.toNat n)
        (poison (load a (memReadN s.stack (physAddr b.toNat g.toNat) (64 * n))) (physAddr b.toNat g.toNat) n)
        (fun _ => True)) ∧
    (∀ a x v r w, a.remote = .session x v → Issues s p at_ env (.dmaLoad a) → sessionHere s p x.toNat = true →
      sessionRead u p ci x.toNat (v.toNat * 64) (areaSize (descOf c a.loc)) = (r, none, w) → w.parts = s.parts →
      w.cores = u.cores →
      starts (.dmaCopyStackToScratch at_ env a) w true (farAddrs w ci (r.2.map (·.2))) { load a r.1 with
        poisoned := poisonDst (dst a.loc) (badIdx (fun e => e.1) r.2), session := some x.toNat
        stackAt := r.2.zipIdx.filterMap (fun e => e.1.2.map (fun y => (e.2, y))) } (fun _ => True)) ∧
    (∀ a h g, a.remote = .set h g → Issues s p at_ env (.dmaLoad a) →
      let n := areaSize (descOf c a.loc)
      (∀ l, handleOf s p h.toNat = .lane l 0xFFFF → ∃ t, exec (.dmaCopyStackToScratch at_ env a) s = .next t ∧
        Starts s t p ci s.stack (load a (List.replicate (64 * n) 0)) ∧
        (p < 48 → odGet t (K.statAdapterZeroReads p) = counted s (K.statAdapterZeroReads p))) ∧
      ∀ set via, (handleOf s p h.toNat = .slot set ∧ via = none) ∨
          (∃ l, handleOf s p h.toNat = .lane l set ∧ set ≠ 0xFFFF ∧ via = some l) →
        let x := { load a [] with
          viaLane := via, sources := (List.range n).map (fun i => (i, set, (g.toNat + i) / 1024)) }
        let bad := badIdx (fun i => match pieceAt s set (64 * (g.toNat + i)) with
          | .at_ x => s.stackPoison.contains x
          | _ => false) (List.range n)
        let begins (x : Transfer) : Prop := starts (.dmaCopyStackToScratch at_ env a) s true
          (farSet s ci set g.toNat n) x (fun _ => True)
        (∀ y, setRead s set (64 * g.toNat) n = .at_ y → begins { x with
          data := (readSet s set (64 * g.toNat) n).getD [], poisoned := poisonDst (dst a.loc) bad }) ∧
        (setRead s set (64 * g.toNat) n = .held → begins { x with ready := false, heldSet := some (set, g.toNat) })) ∧
    (∀ a b g, a.remote = .phys b g → Issues s p at_ env (.dmaStore a) → b.toNat ∈ (partOf s p).blocks →
      (g.toNat + (src a.loc).length) * 64 ≤ stackBytes → regionFrames s b.toNat * 65536 ≤ g.toNat * 64 →
      let l := (src a.loc).zipIdx.map (fun e => ({ addr := physAddr b.toNat g.toNat + 64 * e.2 }, e.1))
      starts (.dmaCopyScratchToStack at_ env a) s false (farAddrs s ci (addrs l)) (store a l) (fun _ => True)) ∧
    (∀ a x v l w, a.remote = .session x v → Issues s p at_ env (.dmaStore a) → sessionHere s p x.toNat = true →
      sessionWrite u p ci x.toNat (v.toNat * 64) a.tentative (src a.loc) = (l, none, w) → w.parts = s.parts →
      w.cores = u.cores →
      starts (.dmaCopyScratchToStack at_ env a) w false (farAddrs w ci (addrs l))
        { store a l with session := some x.toNat } (fun _ => True)) ∧
    (∀ a, Issues s p at_ env (.dmaCore a) → (partOf s p).holds a.cluster.toNat = true → a.cluster.toNat < 864 →
      a.core.toNat < (clusterOf s a.cluster.toNat).presented →
      let dest := a.cluster.toNat * 16 + a.core.toNat
      let d := scratchDst dest (descOf (coreOf s dest) a.desc) (src a.loc).length
      let l := d.zip (src a.loc)
      starts (.dmaCopyScratchToCore at_ env a) s false (List.replicate l.length a.cluster.toNat) {
        id := 0, kind := .coreWrite, counter := a.counter.toNat, sync := !a.async, dst := d
        data := l.flatMap (fun e => e.2.1), target := dest, poisoned := marked l } (fun _ => True)) ∧
    (∀ a, Issues s p at_ env (.dmaEdgeIn a) →
      let e := channelOf s p a.channel.toNat
      let n := areaSize (descOf c a.loc)
      let from_ := frameAddr (fieldLe e 8 1) (fieldLe e 9 4) + 64 * a.granule.toNat
      a.granule.toNat + n ≤ fieldLe e 4 4 →
      (fieldLe e 0 1 = 1 → starts (.dmaCopyEdgeToScratch at_ env a) s true (farPorts e n)
        (edge a .edgeRead (dst a.loc) []) (fun t => t.out = s.out ++
          [.hostRead (fieldLe e 1 1) (fieldLe e 8 8 + 64 * a.granule.toNat) (64 * n)])) ∧
      (fieldLe e 0 1 = 2 → starts (.dmaCopyEdgeToScratch at_ env a) s true (farBlock s ci (fieldLe e 8 1) n)
        (poison (edge a .edgeRead (dst a.loc) (memReadN s.stack from_ (64 * n))) from_ n) (fun _ => True))) ∧
    (∀ a, Issues s p at_ env (.dmaEdgeOut a) →
      let e := channelOf s p a.channel.toNat
      let g := a.granule.toNat
      let n := (src a.loc).length
      let data := (src a.loc).flatMap (·.1)
      (fieldLe e 0 1 = 1 → g + n ≤ fieldLe e 4 4 → starts (.dmaCopyScratchToEdge at_ env a) s false (farPorts e n)
        (edge a .edgeWrite [] data) (fun t => t.out = s.out ++
          [.hostWrite (fieldLe e 1 1) (fieldLe e 8 8 + 64 * g) data])) ∧
      (fieldLe e 0 1 = 2 → starts (.dmaCopyScratchToEdge at_ env a) s false (farPorts e n)
        (edge a .edgeWrite [] data) (fun t => t.out = s.out ++ [.fabricWrite (fieldLe e 1 1) (fieldLe e 2 1)
            (fieldLe e 3 1) g data (badIdx (fun x => x.2) (src a.loc))] ∧
          (p < 48 → odGet t (K.statFabricBytesOut p) = counted s (K.statFabricBytesOut p) (64 * n)))))

/-- R94 to R96, R106, R217, R278. -/
def Obligations.Gathers : Prop :=
  ∀ (s : State) (p : Nat) (at_ : CoreRef) (env : CoreEnv) (a : GatherArgs), Issues s p at_ env (.gather a) →
    let ci := coreIndex at_
    let c := coreOf s ci
    let rb := a.rowBytes.toNat
    let n := a.count.toNat
    let list := readArea s ci (descOf c a.idx) (4 * n)
    let offs := (List.range n).map (fun i => 64 * placeGranule a.table + fieldLe list (4 * i) 4 * rb)
    let parts := offs.zipIdx.flatMap (fun e => rowParts (spaceKey s p a.table) e.1 rb (e.2 * rb) (rb / 128 + 2))
    let x : Transfer := {
      id := 0, kind := .gather, counter := a.counter.toNat, sync := !a.async
      dst := scratchDst ci (descOf c a.dst) (ceilDiv (n * rb) 64), data := List.replicate (n * rb) 0
      viaLane := placeLane s p a.table, sources := gatherSources s p a offs }
    let set (w : Nat × Nat × Nat × Nat) : Nat := cacheSet c.cacheBanks (lineAddr w.1)
    let hits := parts.filterMap (fun w => (findWay c w.1).map (fun way => (w, way)))
    let misses := parts.filter (fun w => (findWay c w.1).isNone)
    let y : Transfer := { x with
      wants := misses, ready := misses.isEmpty
      data := hits.foldl (fun d h => spliceBytes d h.1.2.2.2
        (memReadN s.scratch (slotAddr ci c.cacheBanks (set h.1) h.2 + h.1.2.1) h.1.2.2.1)) x.data }
    let touched : Core := { c with plru := hits.foldl (fun m h =>
      kvSet 0 m (set h.1) (touchTree (kvGet 0 m (set h.1)) h.2)) c.plru }
    let far := farLines s ci x.dst.length misses
    (zeroTable s p a.table = true → ∃ t, exec (.cgather at_ env a) s = .next t ∧ Starts s t p ci s.stack x ∧
      (p < 48 → odGet t (K.statAdapterZeroReads p) = counted s (K.statAdapterZeroReads p) n)) ∧
    (zeroTable s p a.table = false → (∀ o ∈ offs, o + rb ≤ tableLimit s p a.table) → env.tags = [] →
      (∀ w ∈ misses, lineSource s w.1 ≠ .lost) → cutOff s (ci / 16) true far = false →
      ∃ t, exec (.cgather at_ env a) s = .next t ∧
        coreOf t ci = fetchMore (touched.started (streamed s ci) (xferCause s p x) (routed s p ci far y)) ∧
        (p < 48 → odGet t (K.statCacheHits p) = countedEach s (K.statCacheHits p) hits.length ∧
          odGet t (K.statCacheMisses p) =
            countedEach s (K.statCacheMisses p) ((coreOf t ci).fetching.length - c.fetching.length)) ∧
        t.scratch = s.scratch ∧ t.stack = s.stack ∧ t.parts = s.parts ∧ ∀ k, k ≠ ci → coreOf t k = coreOf s k)

/-- R65 to R67, R88, R92, R105. -/
def Obligations.CoreEvents : Prop :=
  ∀ (s : State) (at_ : CoreRef), coreExists s at_ = true →
    let ci := coreIndex at_
    let c := coreOf s ci
    let gone (t : State) (b : Nat) (power : BankPower) : Prop :=
      (∀ k, bankOf (coreOf t ci) k = if k = b then { bankOf c b with power } else bankOf c k) ∧
      (∀ a, memRead t.scratch a =
        if scratchAddr ci b 0 ≤ a ∧ a < scratchAddr ci b 0 + 65536 then 0 else memRead s.scratch a) ∧
      ∀ a, a ∈ (coreOf t ci).poison ↔ a ∈ c.poison ∧ (a < scratchAddr ci b 0 ∨ scratchAddr ci b 0 + 65536 ≤ a)
    (∀ e parity n, c.queue e = n + 1 → ∃ t, exec (.engineCommandComplete at_ e parity) s = .next (goOn s t ci) ∧
      (∀ f, (coreOf t ci).queue f = if f = e then n else c.queue f) ∧
      (coreOf t ci).progParity = c.progParity + (if parity then 1 else 0) ∧
      (coreOf t ci).hold = (match c.hold with
        | .engine f left => if f ≠ e then .engine f left else if left ≤ 1 then .none else .engine f (left - 1)
        | x => x) ∧
      ∀ k, k ≠ ci → coreOf t k = coreOf s k) ∧
    (∀ parity, exec (.streamedCommandArrival at_ parity) s = .next (goOn s (updCore s ci (fun c => { c with
      ahead := Nat.min 4096 (c.ahead + 1), progParity := c.progParity + (if parity then 1 else 0) })) ci)) ∧
    (∀ b, b < 32 → (bankOf c b).power = .poweringUp →
      ∃ t, exec (.bankPowerUpComplete at_ b) s = .next (goOn s t ci) ∧ gone t b .on) ∧
    (∀ b, b < 32 → (bankOf c b).power = .pendingOff → bankIncoming s ci b = 0 →
      ∃ t, exec (.bankSwitchOff at_ b) s = .next (goOn s t ci) ∧ gone t b .off) ∧
    (∀ b, b < 32 → bankIncoming s ci b ≠ 0 → exec (.bankSwitchOff at_ b) s = .next (goOn s s ci))

/-- R95, R97, R98, R101, R103 to R106, R206. -/
def Obligations.TransferCompletion : Prop :=
  ∀ (s : State), s.Canonical →
    (∀ at_, coreExists s at_ = true →
      let ci := coreIndex at_
      let c := coreOf s ci
      (∀ i x data fin, c.transfers[i]? = some x → x.ready = true → awaitsBank s x = false → fin.refused = false →
        ∃ t, exec (.dmaTransferComplete at_ i fin data) s = .next (goOnAll (goOn s t ci) (goOn s t ci)) ∧
          ((∀ y ∈ x.sources, y.1 ∉ fin.bad) → (∀ g ∈ x.dst, x.kind.toScratch = true → powerAt s g.addr ≠ .off) →
            (x.kind = .edgeRead → fieldLe (channelOf s ((partAt s (ci / 16)).getD 0) x.channel) 0 1 ≠ 1) →
            (coreOf t ci).transfers = c.transfers.filter (fun y => y.id ≠ x.id) ∧
            kvGet 0 (coreOf t ci).counters x.counter = kvGet 0 c.counters x.counter - 1 ∧
            (coreOf t ci).hold = (if c.hold = .transfer x.id then .none else c.hold) ∧
            (x.kind.toScratch = true → t.scratch = landed s.scratch (x.dst.zip (granList x.data)) ∧ t.stack = s.stack ∧
              (∀ j g, x.dst[j]? = some g → (g ∈ (x.dst.zip (granList x.data)).map (·.1) ∧ g.addr ∈ x.poisoned) ∨
                (j ∈ fin.bad ∧ x.kind ≠ .coreWrite) → g.addr ∈ (coreOf t (g.addr / 2 ^ 21)).poison)) ∧
            (x.kind = .stackWrite → t.scratch = s.scratch ∧
              let l := x.dst.zip (granList x.data)
              let stale (e : Gran × List Byte) : Bool := e.1.gen.any (fun g => !(genOk s e.1.addr g))
              t.stack = landed s.stack (l.filter (fun e => !(stale e))) ∧
              (∀ e ∈ l, stale e = false → e.1.addr ∈ x.poisoned → e.1.addr ∈ t.stackPoison) ∧
              ∀ p, p < 48 → partAt s (ci / 16) = some p → odGet t (K.statTagMismatches p) =
                countedEach s (K.statTagMismatches p) (l.filter stale).length))) ∧
      (∀ i key p x, c.fetching[i]? = some key → partAt s (ci / 16) = some p → lineSource s key = .at_ x →
        let set := cacheSet c.cacheBanks (lineAddr key)
        (∃ t, exec (.cacheFill at_ i false) s = .next (goOn s t ci) ∧ key ∉ (coreOf t ci).fetching ∧
          (∀ (j : Nat) (y : Transfer), c.transfers[j]? = some y → ∃ z : Transfer, (coreOf t ci).transfers[j]? = some z ∧
            z.wants = y.wants.filter (fun w => w.1 != key) ∧
            (z.ready = if y.wants.any (fun w => w.1 == key) then z.wants.isEmpty else y.ready) ∧
            z.data = (y.wants.filter (fun w => w.1 == key)).foldl (fun d w =>
              spliceBytes d w.2.2.2 (slice (memReadN s.stack x 128) w.2.1 w.2.2.1)) y.data) ∧
          if linePoison s x = [] ∧ lineCurrent s p key = true then ∃ way, way < 4 ∧
            (∀ k, kvGet none (coreOf t ci).lines k =
              if k = set * 4 + way then some (lineTag key) else kvGet none c.lines k) ∧
            t.scratch = memWriteN s.scratch (slotAddr ci c.cacheBanks set way) (memReadN s.stack x 128)
          else (coreOf t ci).lines = c.lines ∧ t.scratch = s.scratch) ∧
        ∃ t, exec (.cacheFill at_ i true) s = .next (goOn s t ci) ∧ (coreOf t ci).fetching = c.fetching ∧
          (coreOf t ci).transfers = c.transfers ∧ (coreOf t ci).cacheParity = c.cacheParity + 1 ∧
          t.scratch = s.scratch ∧ (p < 48 → odGet t (K.statCacheMisses p) = counted s (K.statCacheMisses p)))) ∧
    (∀ tgt us, targetExists s tgt = true → us < 50 → exec (.lateWrite tgt us) s = .next s) ∧
    (∀ tgt us, targetExists s tgt = true → 50 ≤ us → IsLate s tgt → ∃ t, exec (.lateWrite tgt us) s = .next t ∧
      (∀ p, p < 48 → ((∃ ci, partAt s (ci / 16) = some p ∧ Sends s tgt ci) →
          odGet t (K.statLateWrites p) = counted s (K.statLateWrites p)) ∧
        ((¬ ∃ ci, partAt s (ci / 16) = some p ∧ Sends s tgt ci) →
          odGet t (K.statLateWrites p) = odGet s (K.statLateWrites p))) ∧
      match tgt with
      | .bank a b => bankOf (coreOf t (coreIndex a)) b = { bankOf (coreOf s (coreIndex a)) b with power := .on }
      | _ => True)

/-- R28, R30, R32, R38, R39, R44, R45, R47, R48, R91, R343. The cluster that REPLAY_LIMIT names is the model's choice
(log entry 169). -/
def Obligations.HurdleClears : Prop :=
  ∀ (s : State) (p : Nat) (tm : ClearTimes), p < 48 → (partOf s p).runs = true → (partOf s p).fault = none →
    mayClear s p = true →
    let pt := partOf s p
    let h := pt.hurdle
    let origin := pt.oy * 24 + pt.ox
    let remote := jobHurdle s p h && !(jobRoot s p)
    let again := if remote then pt.jobRepeat else anyReplay s p || pt.jobReplays.contains h
    let replay := if remote then pt.jobReplay else anyReplay s p || pt.sampleReplay || pt.jobReplays.contains h
    let full := decide (inForce s p (K.partReplayLimit p) ≤ pt.replays)
    let goes (t : State) : Prop := exec (.hurdleClear p tm) s = .next (noteArrivals s (resumeAll t p) p)
    let released (t : State) (c : Nat) : Prop := (coreOf t c).arrived = none ∧ (coreOf t c).pos = (coreOf s c).pos ∧
      (coreOf t c).hold = (if (coreOf s c).hold = .hurdle h then .none else (coreOf s c).hold)
    let begins (t : State) (c : Nat) : Prop := (coreOf t c).segPos = (coreOf s c).arrivedAt ∧
      (coreOf t c).rngSaved = (coreOf s c).rngArrived
    (h ≠ 0 → hurdleKind s p = (false, false) → ∃ t, goes t ∧ (partOf t p).hurdle = h + 1 ∧ (partOf t p).phase = h ∧
      (partOf t p).arrived = [] ∧ (partOf t p).segHurdle = pt.segHurdle ∧ ∀ c ∈ partCores s p, released t c) ∧
    (h = 0 → (hurdleKind s p).2 = false → ∃ t, goes t ∧ (partOf t p).hurdle = 1 ∧ (partOf t p).phase = 0 ∧
      (partOf t p).arrived = [] ∧ (partOf t p).segHurdle = 1 ∧ (partOf t p).inLap = true ∧
      (partOf t p).copies = lapInputs s p ∧
      t.scratch = (writeInputs (updPart s p (fun x => { x with copies := lapInputs s p })) p).scratch ∧
      ∀ c ∈ partCores s p, released t c ∧ begins t c ∧ (coreOf t c).parityWords = []) ∧
    (h ≠ 0 → hurdleKind s p = (true, false) → again = false → ∃ t, goes t ∧ (partOf t p).hurdle = h + 1 ∧
      (partOf t p).phase = h ∧ (partOf t p).arrived = [] ∧ (partOf t p).segHurdle = h + 1 ∧
      (partOf t p).repeating = false ∧ ∀ c ∈ partCores s p, released t c ∧ begins t c) ∧
    (h ≠ 0 → hurdleKind s p = (true, false) → again = true → full = false → ∃ t, goes t ∧
      (partOf t p).hurdle = pt.segHurdle ∧ (partOf t p).arrived = [] ∧ (partOf t p).replays = pt.replays + 1 ∧
      (partOf t p).repeating = true ∧ t.scratch = (writeInputs s p).scratch ∧
      ∀ c ∈ partCores s p, (coreOf t c).pos = (coreOf s c).segPos ∧ (coreOf t c).hold = .none ∧
        (coreOf t c).waiting = [] ∧ (coreOf t c).replayReq = false ∧ (coreOf t c).rng = (coreOf s c).rngSaved) ∧
    (h ≠ 0 → hurdleKind s p = (true, false) → again = true → full = true → ∃ t, goes t ∧
      (partOf t p).fault = some (0x0003, origin)) ∧
    ((hurdleKind s p).2 = true → ∃ t, exec (.hurdleClear p tm) s = .next t ∧
      (partOf t p).verdict = some (if replay then .replay else if namedSessions s p = [] then .commit else .abort) ∧
      (partOf t p).aborts = namedSessions s p ∧ (partOf t p).hurdle = h ∧ (partOf t p).arrived = [] ∧
      (replay = true → if full then (partOf t p).fault = some (0x0003, origin)
        else (partOf t p).fault = none ∧ (partOf t p).replays = pt.replays + 1))

/-- R11, R34, R38, R40, R42, R63, R91, R126. The fault's cluster where every local one has arrived is the model's choice
(log entry 170). -/
def Obligations.BatonsAndTimeouts : Prop :=
  (∀ (s : State) (p : Nat) (tm : BatonTimes), p < 48 → (partOf s p).runs = true → (partOf s p).fault = none →
      let pt := partOf s p
      (pt.verdict = some .replay → ∃ t, exec (.baton p tm) s = .next (afterBaton s t p) ∧
        (partOf t p).lap = pt.lap + 1 ∧ (partOf t p).workLap = pt.workLap ∧ (partOf t p).rerun = true ∧
        (partOf t p).verdict = none ∧ (partOf t p).hurdle = pt.segHurdle ∧ (partOf t p).arrived = [] ∧
        t.scratch = (writeInputs s p).scratch ∧
        ∀ c ∈ partCores s p, (coreOf t c).pos = (coreOf s c).segPos ∧ (coreOf t c).hold = .none ∧
          (coreOf t c).waiting = [] ∧ (coreOf t c).parityWords = []) ∧
      (∀ v, pt.verdict = some v → v ≠ .replay → ∃ t, exec (.baton p tm) s = .next (afterBaton s t p) ∧
        (partOf t p).lap = pt.lap + 1 ∧ (partOf t p).workLap = pt.lap + 1 ∧
        (partOf t p).turns = pt.turns + 1 ∧ (partOf t p).rerun = false ∧ (partOf t p).replays = 0 ∧
        (partOf t p).verdict = none ∧ (partOf t p).hurdle = 0 ∧ (partOf t p).arrived = [] ∧
        (partOf t p).inLap = false ∧
        (pt.lanes = [] → pt.aborts = [] → fencedSessions s p = [] → openOf s p = [] → pt.flip = none →
          (∀ c ∈ s.commits, p ∉ c.parts) →
          (odGet t (K.statLapsCommitted p) = if v = .commit then counted s (K.statLapsCommitted p)
            else odGet s (K.statLapsCommitted p)) ∧
          (odGet t (K.statLapsAborted p) = if v = .abort then counted s (K.statLapsAborted p)
            else odGet s (K.statLapsAborted p))) ∧
        ∀ c ∈ partCores s p, (coreOf t c).pos = 0 ∧ (coreOf t c).segPos = 0 ∧ (coreOf t c).hold = .none ∧
          (coreOf t c).replayReq = false ∧ (coreOf t c).aborts = [])) ∧
  (∀ (s : State) (p : Nat), p < 48 → (partOf s p).runs = true → (partOf s p).fault = none → (partOf s p).arrived ≠ [] →
      (partOf s p).timerHolds = 0 → (partOf s p).verdict = none →
      ∃ t, exec (.hurdleTimeout p) s = .next t ∧
        (partOf t p).fault = some (0x0002, (missingClusters s p).headD ((partOf s p).oy * 24 + (partOf s p).ox)) ∧
        domGet t (K.statMissingMap p) = clusterMap (missingClusters s p))

/-- R12, R38, R240, R241, R245, R247, R264, R320, R464. -/
def Obligations.RecordsAndPosts : Prop :=
  (∀ (s : State) (sess ns replays cadence : Nat) (r : TokRec) (rest : List TokRec), sess < 4096 →
    let x := sessOf s sess
    x.records = r :: rest → r.mirror = false → portHeld s x.port = false →
    (mirroredRing s x.openRing && x.mirrored && s.pair.fence) = false →
    ∃ t, exec (.tokenRecordRelease sess ns replays cadence) s = .next (drainOn t) ∧
      t.out = s.out ++ [.hostWrite x.port (x.tokenBase + 16 * (x.tokW % 2 ^ x.tokenLog2)) (tokenBytes x x.tokW r)] ∧
      (sessOf t sess).records = rest ∧ (sessOf t sess).tokW = x.tokW + 1) ∧
  (∀ (s : State) (ring : Nat) (c : Compl) (rest : List Compl), ring < 32768 →
    let q := compOf s ring
    let size := 2 ^ q.sizeLog2
    let port := (fnOfComp s ring).getD 0 / 64
    q.ready = c :: rest → ringDist size q.head (q.written % size) < size - 1 → recordsOut s c = true → inOrder s ring c = true →
    portHeld s port = false → mirroredRing s c.sq = false → ∃ t, exec (.completionPost ring) s = .next t ∧
      (∃ more, t.out = s.out ++ .hostWrite port (q.base + 32 * (q.written % size))
        (complBytes c (phaseOf q.written size)) :: more ∧ more.length ≤ 1) ∧
      (compOf t ring).ready = rest ∧ (compOf t ring).written = q.written + 1) ∧
  (∀ (s : State) (sess : Nat) (samples : List SampleIn) (drafts : List Nat) (parity : Bool) (i : Nat) (l : Lane)
      (g : SessCmd), sess < 4096 →
    let x := sessOf s sess
    let k := if l.kind = .prefill then 0 else x.drafts.length
    laneWith s x.part sess = some (i, l) → x.running = some g → l.samples = true → (partOf s x.part).inLap = true →
    x.state = .active → x.shadow = false → sess ∉ (partOf s x.part).cutSessions → samples.length = k + 1 →
    ∃ t, exec (.sampling sess samples drafts parity) s = .next t ∧ t.free = s.free + samples.length ∧
      (sessOf t sess).sampled = samples.zipIdx.map (fun e => (sampleOne (sampleEnv x g
        (l.p0 + (if l.kind = .prefill then l.block else 1)) k e.2) (s.free + e.2) e.1.logits).sample) ∧
      (sessOf t sess).nextDrafts = drafts.take (odGet s (K.strMaxDraft x.part)) ∧
      (parity = true → (partOf t x.part).sampleReplay = true))

/-- R128, R129, R130, R131, R133, R135, R137. That a rewrite counts once for its chain is the model's choice (log entry
179). -/
def Obligations.ArrayEvents : Prop :=
  ∀ (s : State) (a : CoreRef) (chain : Nat), coreExists s a = true → chain < 8 →
    let ci := coreIndex a
    let key := ci * 8 + chain
    let arrs := chainArrays s ci chain
    let gov := (clusterOf s (ci / 16)).govTemp
    let queue := (clusterOf s (ci / 16)).calQueue
    let drifted := decide (∃ i ∈ arrs, (gov - (arrOf s i).calTemp).natAbs > 80)
    (∃ t, exec (.rangeMonitorWindowEnd a chain) s = .next t ∧ onlyChanges [.chains] s t ∧
      chainOf t key = (if odGet s K.arrMonitorWindow ≤ (chainOf s key).seen
        then { chainOf s key with outside := 0, seen := 0 } else chainOf s key) ∧
      ∀ k, k ≠ key → chainOf t k = chainOf s k) ∧
    (∀ array column, array < 32 → column < 512 → ∃ t, exec (.fullScaleWindowEnd a array column) s = .next t ∧
      onlyChanges [.arrays] s t ∧ (∀ k, k ≠ ci * 32 + array → arrOf t k = arrOf s k) ∧
      (arrOf t (ci * 32 + array)).rows = (arrOf s (ci * 32 + array)).rows ∧
      (arrOf t (ci * 32 + array)).state = (arrOf s (ci * 32 + array)).state ∧
      ∀ c, kvGet 0 (arrOf t (ci * 32 + array)).fullScale c =
        if c = column ∧ 4096 ≤ (arrOf s (ci * 32 + array)).converted then 0
        else kvGet 0 (arrOf s (ci * 32 + array)).fullScale c) ∧
    ((chainOf s key).queued = false → (∃ i ∈ arrs, (arrOf s i).state = .ready) →
      ∃ t, exec (.calIntervalExpiry a chain) s = .next t ∧ onlyChanges [.arrays, .chains, .clusters] s t ∧
        (chainOf t key).queued = true ∧
        (clusterOf t (ci / 16)).calQueue = (if drifted then key :: queue else queue ++ [key]) ∧
        (∀ i ∈ arrs, (arrOf s i).state = .ready → (arrOf t i).state = .calPending) ∧
        ∀ i ∈ arrs, (arrOf s i).state ≠ .ready → (arrOf t i).state = (arrOf s i).state) ∧
    ((chainOf s key).queued = true → ∃ t, exec (.calIntervalExpiry a chain) s = .next t ∧
      onlyChanges [.clusters] s t ∧ (clusterOf t (ci / 16)).calQueue =
        if drifted ∧ key ∈ queue then key :: queue.filter (· ≠ key) else queue) ∧
    (∀ trims, arrs ≠ [] → (∀ i ∈ arrs, ((arrOf s i).state = .calibrating ∧ (arrOf s i).passed = false) ∨
          ((arrOf s i).state = .suspect ∧ (arrOf s i).checking = true ∧
            ((arrOf s i).persist = true → matchesRepair s i = true))) →
      ∃ t, exec (.calibrationComplete a chain trims []) s = .next t ∧ onlyChanges [.od, .arrays, .chains] s t ∧
        (∀ (n i : Nat), arrs[n]? = some i → (arrOf t i).state = .calibrating ∧ (arrOf t i).passed = true ∧
          (arrOf t i).trims = (getAt [] trims n).map (· % 64) ∧ (arrOf t i).stale = false ∧
          (arrOf t i).calTemp = (clusterOf s (i / 512)).govTemp ∧ (arrOf t i).rows = (arrOf s i).rows) ∧
        (chainOf t key).queued = false ∧ (chainOf t key).alarms = 0 ∧ (chainOf t key).calLap = lapAt s ci ∧
        odGet t K.arrCalibrations = counted s K.arrCalibrations) ∧
    (arrs ≠ [] → (∀ i ∈ arrs, (arrOf s i).state = .writing ∧ repairOf s i ≠ some .lost ∧ repairOf s i ≠ some .held) →
      ∃ t, exec (.rewriteComplete a chain []) s = .next t ∧ onlyChanges [.od, .arrays] s t ∧
        (∀ i ∈ arrs, (arrOf t i).state = .calibrating ∧ (arrOf t i).passed = false ∧
          ∀ src, repairOf s i = some (.bytes src) → (arrOf t i).rows = (fillArray (arrOf s i) src).rows) ∧
        odGet t K.arrRewrites = counted s K.arrRewrites)

/-- R64, R128, R137, R172, R476. -/
def Obligations.ArrayCommands : Prop :=
  ∀ (s : State) (rq : Rq),
    (Accepts s rq K.numClear 1 → ∃ t, exec (.precisionClear rq 1) s = .next t ∧ Accepted s t rq K.numClear [.od] ∧
      (∀ sub, 2 ≤ sub → sub ≤ 12 → odGet t (0x7100 * 256 + sub) = 0) ∧
      ∀ k, k / 256 ≠ 0x7100 → odGet t k = odGet s k) ∧
    (∀ p, p < 48 → Accepts s rq (K.statClear p) 1 → ∃ t, exec (.lapStatisticsClear rq p 1) s = .next t ∧
      Accepted s t rq (K.statClear p) [.od, .parts] ∧
      (∀ sub, 1 ≤ sub → sub ≤ 14 → odGet t ((0x4100 + p) * 256 + sub) = 0) ∧
      ∀ k, k / 256 ≠ 0x4100 + p → odGet t k = odGet s k) ∧
    (Accepts s rq K.arrCalibrateAll 1 → ∃ t, exec (.calibrateAll rq 1) s = .next t ∧
      Accepted s t rq K.arrCalibrateAll [.arrays, .chains, .clusters] ∧
      ∀ p, (partOf s p).loaded = true → ∀ cl ∈ (partOf s p).clusters, ∀ c ∈ clusterChains s cl,
        (chainOf t (c.1 * 8 + c.2)).queued = true ∨ ∀ i ∈ chainArrays s c.1 c.2, (arrOf t i).state ≠ .ready) ∧
    (Accepts s rq K.numClear 0 → ∃ t, exec (.precisionClear rq 0) s = .next t ∧ Accepted s t rq K.numClear []) ∧
    (Accepts s rq K.arrCalibrateAll 0 → ∃ t, exec (.calibrateAll rq 0) s = .next t ∧
      Accepted s t rq K.arrCalibrateAll []) ∧
    (∀ p, p < 48 → Accepts s rq (K.statClear p) 0 → ∃ t, exec (.lapStatisticsClear rq p 0) s = .next t ∧
      Accepted s t rq (K.statClear p) [])

/-- R238, R459. -/
def Obligations.RingContexts : Prop :=
  ∀ (s : State) (fn ring : Nat), fn < 128 →
    let q := subOf s ring
    let c := compOf s ring
    let mine := inRange (subRange s fn) ring
    let mineC := inRange (compRange s fn) ring
    (∀ off bytes, ring < 32768 → off + bytes.length ≤ 32 → bytes ≠ [] → mine = true → q.enable = false → q.ctx.length = 32 →
      let new := contextBytes q.ctx off bytes [12, 16, 17]
      subCtxOk s fn new (touches off bytes.length) = true →
      ∃ t, exec (.ringContextWrite fn (0x100000 + 32 * ring + off) bytes) s = .next t ∧ onlyChanges [.subRings] s t ∧
        subOf t ring = { q with ctx := new } ∧ ∀ r, r ≠ ring → subOf t r = subOf s r) ∧
    (∀ off bytes, ring < 32768 → off + bytes.length ≤ 32 → bytes ≠ [] → mineC = true → c.enable = false → c.ctx.length = 32 →
      let new := contextBytes c.ctx off bytes [14, 16, 17]
      compCtxOk fn new (touches off bytes.length) = true →
      ∃ t, exec (.ringContextWrite fn (0x200000 + 32 * ring + off) bytes) s = .next t ∧ onlyChanges [.compRings] s t ∧
        compOf t ring = { c with ctx := new } ∧ ∀ r, r ≠ ring → compOf t r = compOf s r) ∧
    (∀ off bytes, ring < 32768 → off + bytes.length ≤ 32 → bytes ≠ [] → mine = false ∨ q.enable = true →
      ∃ t, exec (.ringContextWrite fn (0x100000 + 32 * ring + off) bytes) s = .next t ∧ onlyChanges [.od, .fns] s t ∧
        RingErred s t fn) ∧
    (mine = true → moduleReady s = true → q.enable = false → subCtxOk s fn q.ctx (fun _ _ => true) = true →
      ∃ t, exec (.ringEnable fn .submission ring) s = .next t ∧ onlyChanges [.subRings] s t ∧
        let u := subOf t ring
        let moved := fieldLe q.ctx 0 8 ≠ q.base ∨ fieldLe q.ctx 8 1 ≠ q.sizeLog2
        u.enable = true ∧ u.base = fieldLe q.ctx 0 8 ∧ u.sizeLog2 = fieldLe q.ctx 8 1 ∧ u.priority = fieldLe q.ctx 9 1 ∧
        u.cq = fieldLe q.ctx 10 2 ∧ (moved → u.fetch = 0 ∧ u.tail = 0) ∧ (¬ moved → u.fetch = q.fetch ∧ u.tail = q.tail)) ∧
    (mineC = true → moduleReady s = true → c.enable = false → compCtxOk fn c.ctx (fun _ _ => true) = true →
      ∃ t, exec (.ringEnable fn .completion ring) s = .next t ∧ onlyChanges [.compRings] s t ∧
        let u := compOf t ring
        let moved := fieldLe c.ctx 0 8 ≠ c.base ∨ fieldLe c.ctx 8 1 ≠ c.sizeLog2
        u.enable = true ∧ u.base = fieldLe c.ctx 0 8 ∧ u.sizeLog2 = fieldLe c.ctx 8 1 ∧
        u.coalesceCount = fieldLe c.ctx 9 1 ∧ u.coalesceTime = fieldLe c.ctx 10 2 ∧ u.vector = fieldLe c.ctx 12 2 ∧
        (moved → u.written = 0 ∧ u.head = 0) ∧ (¬ moved → u.written = c.written ∧ u.head = c.head)) ∧
    (mine = true → subCtxOk s fn q.ctx (fun _ _ => true) = false → ∃ t, exec (.ringEnable fn .submission ring) s = .next t ∧
      onlyChanges [.od, .fns] s t ∧ RingErred s t fn) ∧
    (mine = true → ∃ t, exec (.ringDisable fn .submission ring) s = .next t ∧ onlyChanges [.subRings] s t ∧
      subOf t ring = { q with enable := false }) ∧
    (mineC = true → compInUse s ring = false → ∃ t, exec (.ringDisable fn .completion ring) s = .next t ∧
      onlyChanges [.compRings] s t ∧ compOf t ring = { c with enable := false }) ∧
    (mineC = true → compInUse s ring = true → ∃ t, exec (.ringDisable fn .completion ring) s = .next t ∧
      onlyChanges [.od, .fns] s t ∧ RingErred s t fn)

/-- R239, R241, R266, R457. -/
def Obligations.Doorbells : Prop :=
  ∀ (s : State) (fn i : Nat) (d : Doorbell), fn < 128 →
    let q := subOf s i
    let c := compOf s i
    let x := sessOf s i
    let v := d.value.toNat
    (inRange (subRange s fn) i = true → doorbellOk d (2 ^ q.sizeLog2) = true →
      ringDist (2 ^ q.sizeLog2) q.fetch q.tail ≤ ringDist (2 ^ q.sizeLog2) q.fetch v →
      ∃ t, exec (.submissionDoorbell fn i d) s = .next t ∧ onlyChanges [.subRings] s t ∧ subOf t i = { q with tail := v }) ∧
    (inRange (subRange s fn) i = true → doorbellOk d (2 ^ q.sizeLog2) = true →
      ringDist (2 ^ q.sizeLog2) q.fetch v < ringDist (2 ^ q.sizeLog2) q.fetch q.tail →
      ∃ t, exec (.submissionDoorbell fn i d) s = .next t ∧ onlyChanges [.subRings, .fns, .od, .recorder] s t ∧
        subOf t i = { q with enable := false } ∧ RingErred s t fn) ∧
    (inRange (compRange s fn) i = true → doorbellOk d (2 ^ c.sizeLog2) = true →
      ringDist (2 ^ c.sizeLog2) c.head v ≤ ringDist (2 ^ c.sizeLog2) c.head (c.written % 2 ^ c.sizeLog2) →
      ∃ t, exec (.completionDoorbell fn i d) s = .next t ∧ onlyChanges [.compRings] s t ∧ compOf t i = { c with head := v }) ∧
    (inRange (compRange s fn) i = true → doorbellOk d (2 ^ c.sizeLog2) = true →
      ringDist (2 ^ c.sizeLog2) c.head (c.written % 2 ^ c.sizeLog2) < ringDist (2 ^ c.sizeLog2) c.head v →
      ∃ t, exec (.completionDoorbell fn i d) s = .next t ∧ onlyChanges [.fns, .od, .recorder] s t ∧ RingErred s t fn) ∧
    (inRange (sessRange s fn) i = true → doorbellOk d (2 ^ x.tokenLog2) = true → x.state ≠ .free →
      ringDist (2 ^ x.tokenLog2) x.tokHead v ≤ ringDist (2 ^ x.tokenLog2) x.tokHead (x.tokW % 2 ^ x.tokenLog2) →
      ∃ t, exec (.tokenRingDoorbell fn i d) s = .next t ∧ onlyChanges [.sessions] s t ∧ sessOf t i = { x with tokHead := v }) ∧
    (∀ b, inRange (sessRange s fn) i = true → doorbellOk d (2 ^ x.bitmapLog2) = true → x.state ≠ .free →
      x.bitmapBase = some b → x.shadow = false → ∃ t, exec (.bitmapDoorbell fn i d) s = .next t ∧ onlyChanges [.out] s t ∧
        .hostRead x.port (b + v * slotBytes s x) (slotBytes s x) ∈ t.out) ∧
    (doorbellOk d (2 ^ q.sizeLog2) = false → ∃ t, exec (.submissionDoorbell fn i d) s = .next t ∧
      onlyChanges [.fns, .od] s t ∧ RingErred s t fn) ∧
    (doorbellOk d (2 ^ c.sizeLog2) = false → ∃ t, exec (.completionDoorbell fn i d) s = .next t ∧
      onlyChanges [.fns, .od] s t ∧ RingErred s t fn) ∧
    (doorbellOk d (2 ^ x.tokenLog2) = false → ∃ t, exec (.tokenRingDoorbell fn i d) s = .next t ∧
      onlyChanges [.fns, .od] s t ∧ RingErred s t fn)

/-- R238, R240, R243, R245, R248, R253, R254, R264. -/
def Obligations.FetchesAndHostReads : Prop :=
  (∀ (s : State) (ring : Nat), ring < 32768 →
      let q := subOf s ring
      let next := (q.fetch + 1) % 2 ^ q.sizeLog2
      (∀ e : List Byte, nextRing s = some ring → mirroredRing s ring = false → e.length = 64 → knownOpcode (fieldLe e 0 1) = true →
        ∃ t, exec (.submissionEntryFetch ring (some e)) s = .next t ∧
          onlyChanges [.subRings, .served0, .served1] s t ∧
          subOf t ring = { q with
            fetch := next, outstanding := q.outstanding + 1, dispatch := q.dispatch ++ [e]
            fetchOrder := q.fetchOrder ++ [nextFetch s] } ∧
          (if q.priority = 1 then t.served1 = ring else t.served0 = ring)) ∧
      (∀ e : List Byte, nextRing s = some ring → mirroredRing s ring = false → e.length = 64 → knownOpcode (fieldLe e 0 1) = false →
        ∃ t, exec (.submissionEntryFetch ring (some e)) s = .next t ∧
          onlyChanges [.subRings, .compRings, .served0, .served1] s t ∧
          subOf t ring = { q with fetch := next } ∧
          (compOf t q.cq).ready = (compOf s q.cq).ready ++ [{
            tag := fieldLe e 2 2, opcode := fieldLe e 0 1, status := 0x01, sq := ring, sqHead := next, session := 0xFFFF
            flags := 0, result := [], place := nextPlace s }]) ∧
      (nextRing s = some ring → ∃ t, exec (.submissionEntryFetch ring none) s = .next t ∧
        onlyChanges [.subRings, .served0, .served1, .od, .fns, .recorder] s t ∧
        subOf t ring = { q with enable := false } ∧
        odGet t K.pcieHostReadErrors = counted s K.pcieHostReadErrors) ∧
      (∀ fn, (compOf s ring).uncoalesced ≠ 0 → fnOfComp s ring = some fn → ∃ t, exec (.coalesceTimeout ring) s = .next t ∧
        onlyChanges [.compRings, .out] s t ∧ (compOf t ring).uncoalesced = 0 ∧
        t.out = s.out ++ [.msix fn (compOf s ring).vector])) ∧
  (∀ (s : State) (sess : Nat), sess < 4096 →
      let x := sessOf s sess
      x.state ≠ .free →
      (∀ i l (tokens : List W32), laneWith s x.part sess = some (i, l) → l.kind = .prefill → x.blockRead = false →
        (∀ k ∈ tokens, k.toNat < odGet s (K.strVocabulary x.part)) →
        ∃ t, exec (.hostReadComplete sess (.prompt tokens false)) s = .next t ∧ onlyChanges [.sessions, .parts] s t ∧
          (partOf t x.part).lanes = (partOf s x.part).lanes ∧ (sessOf t sess).blockRead = true ∧
          (x.holdAfter = false → (sessOf t sess).block = x.block ++ tokens.map (·.toNat) ∧ (sessOf t sess).holdNext = none) ∧
          (x.holdAfter = true → (sessOf t sess).block = x.block ++ (tokens.map (·.toNat)).dropLast ∧
            (sessOf t sess).holdNext = (tokens.map (·.toNat)).getLast?)) ∧
      (∀ i l (tokens : List W32), laneWith s x.part sess = some (i, l) → l.kind = .prefill → x.blockRead = false →
        ∃ t, exec (.hostReadComplete sess (.prompt tokens true)) s = .next t ∧
          odGet t K.pcieHostReadErrors = counted s K.pcieHostReadErrors ∧
          (kvGet noLane (partOf t x.part).lanes i).kind = .idle) ∧
      (∀ (g : SessCmd) (bias : List (W32 × W16)), x.cmds = [g] → g.opcode = 3 → fieldLe g.bytes 40 2 ≠ 0 → g.biasRead = false →
        ∃ t, exec (.hostReadComplete sess (.bias (some bias))) s = .next t ∧ onlyChanges [.sessions] s t ∧
          (sessOf t sess).cmds = [{ g with bias := bias.map (fun e => (e.1.toNat, e.2)), biasRead := true }]))

/-- R242, R244, R245, R248, R249, R250, R252, R255, R272, R310. -/
def Obligations.SessionOpens : Prop :=
  ∀ (s : State) (ring : Nat) (e : List Byte) (rest : List (List Byte)),
    let fn := ringFn s ring
    let id := eSess e
    let p := ePart e
    let cls := fieldLe e 17 1
    let adapter := fieldLe e 18 2
    let refused (t : State) (st : Nat) : Prop := exec (.sessionOpen ring) s = .next t ∧
      onlyChanges [.subRings, .compRings] s t ∧ Completed s t ring e rest st
    (Front s ring 1 e rest → openOk e = true → ((fieldLe e 20 1).testBit 0 = true → mirrorCheck s ring p = none) →
      openChecks s fn id p cls adapter = none → ∃ t, exec (.sessionOpen ring) s = .next t ∧
        onlyChanges [.sessions, .subRings, .compRings] s t ∧ (∀ i, i ≠ id → sessOf t i = sessOf s i) ∧
        Completed s t ring e rest 0x00 (natLe (homeDieFor s p) 1) ∧
        let x := sessOf t id
        x.state = .idle ∧ x.cls = cls ∧ x.part = p ∧ x.fn = fn ∧ x.homeDie = homeDieFor s p ∧ x.openRing = ring ∧
        x.mirrored = (fieldLe e 20 1).testBit 0 ∧ x.tokenBase = fieldLe e 8 8 ∧ x.tokenLog2 = fieldLe e 16 1 ∧
        x.adapter = (if adapter = 0xFFFF then none else some adapter) ∧ x.len = 0 ∧ x.cmds = [] ∧ x.tokW = 0 ∧
        x.root = []) ∧
    (Front s ring 1 e rest → openOk e = false → ∃ t, refused t 0x02) ∧
    (Front s ring 1 e rest → openOk e = true → (fieldLe e 20 1).testBit 0 = false →
      (inRange (sessRange s fn) id = false → ∃ t, refused t 0x07) ∧
      (inRange (sessRange s fn) id = true → (sessOf s id).state ≠ .free → ∃ t, refused t 0x04) ∧
      (inRange (sessRange s fn) id = true → (sessOf s id).state = .free → (partOf s p).state ≠ .running →
        ∃ t, refused t 0x09) ∧
      (inRange (sessRange s fn) id = true → (sessOf s id).state = .free → (partOf s p).state = .running →
        classPermitted s fn cls = false → ∃ t, refused t 0x08)) ∧
    (Front s ring 4 e rest → Names s ring e (forkOk e) → paged (sessOf s id) = false →
      let x := sessOf s id
      let child := fieldLe e 8 2
      let ccls := if fieldLe e 10 1 = 0xFF then x.cls else fieldLe e 10 1
      (x.mirrored = true → mirrorCheck s ring x.part = none) → openChecks s fn child x.part ccls 0xFFFF = none →
      child ≠ id → ∃ t, exec (.fork ring) s = .next t ∧ onlyChanges [.sessions, .subRings] s t ∧
        Dispatched s t ring rest ∧ (sessOf t id).cmds = x.cmds ++
          [{ ring, tag := eTag e, opcode := 4, bytes := e, order := (subOf s ring).fetchOrder.headD 0 }] ∧
        (sessOf t child).state = .idle ∧ (sessOf t child).parent = some id ∧ (sessOf t child).cls = ccls ∧
        (sessOf t child).part = x.part ∧ (sessOf t child).adapter = x.adapter)

/-- R203, R248, R250, R251, R253, R254, R256, R265, R268. -/
def Obligations.SessionCommands : Prop :=
  ∀ (s : State) (ring : Nat) (e : List Byte) (rest : List (List Byte)),
    let id := eSess e
    let x := sessOf s id
    let cmd (op used : Nat) : SessCmd := {
      ring, tag := eTag e, opcode := op, bytes := e, consumed := used, order := (subOf s ring).fetchOrder.headD 0 }
    let joined (t : State) (op : Nat) : Prop := Dispatched s t ring rest ∧ (sessOf t id).cmds = x.cmds ++ [cmd op 0]
    let waiting := (s.pair.unacked.filter (fun m => match m.2 with
      | .entry r _ => r == ring
      | .completion _ _ _ _ => false)).length
    let refused (t : State) (st : Nat) : Prop :=
      onlyChanges [.subRings, .compRings] s t ∧ Completed s t ring e rest st
    (Front s ring 2 e rest → Names s ring e (promptOk e) → paged x = false → x.shadowUsed < fieldLe e 16 4 →
      (∀ c ∈ x.cmds, c.isPrompt = true → 0 < c.left) →
      (positionsOf s id + fieldLe e 16 4 ≤ kvMax s x.part + x.shadowUsed → ∃ t, exec (.promptAppend ring) s = .next t ∧
        Dispatched s t ring rest ∧ (sessOf t id).cmds = x.cmds ++ [cmd 2 x.shadowUsed] ∧
        (sessOf t id).state = .active ∧ onlyChanges [.parts, .sessions, .subRings] s t) ∧
      (kvMax s x.part + x.shadowUsed < positionsOf s id + fieldLe e 16 4 →
        ∃ t, exec (.promptAppend ring) s = .next t ∧ refused t 0x0C)) ∧
    (∀ random : W64, Front s ring 3 e rest → Names s ring e (generateOk e (odGet s (K.strMaxDraft x.part))) →
      paged x = false → ((fieldLe e 43 1).testBit 0 = true → x.bitmapBase ≠ none) →
      (0 < x.len ∨ 0 < x.pendingPositions ∨ x.parent ≠ none) → x.len + (if x.pending.isSome then 1 else 0) < kvMax s x.part →
      ∃ t c, exec (.generate ring random) s = .next t ∧ Dispatched s t ring rest ∧ (sessOf t id).cmds = x.cmds ++ [c] ∧
        c.ring = ring ∧ c.tag = eTag e ∧ c.opcode = 3 ∧ c.bytes = e ∧ c.order = (subOf s ring).fetchOrder.headD 0 ∧
        onlyChanges [.parts, .sessions, .subRings, .out] s t ∧
        c.seed = (if fieldLe e 24 8 = 0 then random else BitVec.ofNat 64 (fieldLe e 24 8)) ∧
        (sessOf t id).state = .active ∧
        (fieldLe e 40 2 ≠ 0 → .hostRead x.port (fieldLe e 32 8) (8 * fieldLe e 40 2) ∈ t.out)) ∧
    (Front s ring 5 e rest → plainOk e = true → namesSession s ring id = none → ∃ t, exec (.cancel ring) s = .next t ∧
      (sessOf t id).cancel = some (ring, eTag e) ∧ (sessOf t id).shown = .ending ∧
      (pagingCmd x = none → onlyChanges [.sessions, .subRings] s t ∧ Dispatched s t ring rest ∧
        (sessOf t id).cmds = x.cmds ∧ (sessOf t id).state = x.state)) ∧
    (Front s ring 6 e rest → Names s ring e (plainOk e) → ∃ t, exec (.close ring) s = .next t ∧
      (∃ l, (sessOf t id).cmds = l ++ [cmd 6 0]) ∧
      (pagingCmd x = none → joined t 6 ∧ onlyChanges [.sessions, .subRings] s t)) ∧
    (Front s ring 6 e rest → plainOk e = true → namesSession s ring id = none → closing x = true →
      ∃ t, exec (.close ring) s = .next t ∧ refused t 0x05) ∧
    (Front s ring 0x10 e rest → Names s ring e (plainOk e) → x.mirrored = false →
      ((paged x = false ∧ willEvict x = false) ∨ ∃ c ∈ x.cmds, c.opcode = 0x11) →
      ∃ t, exec (.kvEvict ring) s = .next t ∧ joined t 0x10 ∧ onlyChanges [.sessions, .subRings] s t) ∧
    (Front s ring 0x10 e rest → plainOk e = true → namesSession s ring id = none → x.mirrored = true →
      ∃ t, exec (.kvEvict ring) s = .next t ∧ refused t 0x05) ∧
    (Front s ring 0x11 e rest → Names s ring e (plainOk e) → (paged x = true ∨ willEvict x = true) →
      (∀ c ∈ x.cmds, c.opcode ≠ 0x11) → ∃ t, exec (.kvRestore ring) s = .next t ∧ joined t 0x11 ∧
        onlyChanges [.sessions, .subRings] s t) ∧
    (Front s ring 0x11 e rest → plainOk e = true → namesSession s ring id = none → paged x = false → willEvict x = false →
      ∃ t, exec (.kvRestore ring) s = .next t ∧ refused t 0x05) ∧
    (Front s ring 6 e rest → plainOk e = true → inRange (sessRange s (ringFn s ring)) id = true → x.state = .free →
      ∃ t, exec (.close ring) s = .next t ∧ refused t 0x03) ∧
    (Front s ring 6 e rest → plainOk e = true → inRange (sessRange s (ringFn s ring)) id = true → x.state = .ending →
      x.closed = true → x.fn = ringFn s ring → ∃ t, exec (.close ring) s = .next t ∧ refused t 0x05) ∧
    (Front s ring 0x30 e rest → plainOk e = true → eSess e = 0 →
      ((subOf s ring).outstanding ≤ (subOf s ring).dispatch.length + waiting →
        ∃ t, exec (.barrier ring) s = .next t ∧ refused t 0x00) ∧
      ((subOf s ring).dispatch.length + waiting < (subOf s ring).outstanding → exec (.barrier ring) s = .next s))

/-- R219, R220, R221, R226, R227, R228, R230, R248. -/
def Obligations.WeightCommands : Prop :=
  ∀ (s : State) (ring : Nat) (e : List Byte) (rest : List (List Byte)),
    let set := fieldLe e 8 2
    let fn := ringFn s ring
    let p := ePart e
    let fset := fieldLe e 10 2
    (Front s ring 0x20 e rest → stageOk e = true → (wsetOf s set).state = .empty → ∃ t, exec (.weightStage ring) s = .next t ∧
      onlyChanges [.sets, .subRings, .out] s t ∧ Dispatched s t ring rest ∧ (wsetOf t set).state = .verifying ∧
      (wsetOf t set).owner = fn ∧ (wsetOf t set).addr = fieldLe e 16 8 ∧ (wsetOf t set).length = fieldLe e 24 8 ∧
      (wsetOf t set).retained = (fieldLe e 10 1).testBit 0 ∧ (wsetOf t set).relaySource = (fieldLe e 10 1).testBit 1 ∧
      t.out = s.out ++ [.hostRead (fn / 64) (fieldLe e 16 8) 256]) ∧
    (Front s ring 0x20 e rest → stageOk e = true → (wsetOf s set).state ≠ .empty → ∃ t, exec (.weightStage ring) s = .next t ∧
      onlyChanges [.subRings, .compRings] s t ∧ Completed s t ring e rest 0x18 (natLe set 2)) ∧
    (Front s ring 0x21 e rest → flipOk e = true → flipChecks s p (fieldLe e 8 1) fset = none → jobOf s p = 0 →
      (mirroredOf s p = [] ∨ mirroring s = false) → ∃ t, exec (.weightFlip ring) s = .next t ∧ onlyChanges [.od, .parts, .subRings] s t ∧
        Dispatched s t ring rest ∧ odGet t (K.partFlipPending p) = fset ∧
        ∃ f, (partOf t p).flip = some f ∧ f.slot = fieldLe e 8 1 ∧ f.set = fset ∧ f.policy = fieldLe e 9 1 ∧
          f.origin = some (ring, eTag e) ∧ f.go = true ∧ f.gap = false) ∧
    (Front s ring 0x21 e rest → flipOk e = true → flipChecks s p (fieldLe e 8 1) fset = none → jobOf s p ≠ 0 →
      ∃ t, exec (.weightFlip ring) s = .next t ∧ Dispatched s t ring rest ∧ odGet t (K.partFlipPending p) = fset ∧
        .jobMessage (jobOf s p) (odGet s K.meshMarkCount) (.flip (fieldLe e 8 1) fset (fieldLe e 9 1) 0) ∈ t.out ∧
        ∃ f, (partOf t p).flip = some f ∧ f.slot = fieldLe e 8 1 ∧ f.set = fset ∧ f.policy = fieldLe e 9 1 ∧
          f.go = false) ∧
    (Front s ring 0x21 e rest → flipOk e = true → (partOf s p).state ≠ .running → ∃ t, exec (.weightFlip ring) s = .next t ∧
      onlyChanges [.subRings, .compRings] s t ∧ Completed s t ring e rest 0x09) ∧
    (Front s ring 0x21 e rest → flipOk e = true → (partOf s p).state = .running → (wsetOf s fset).state ≠ .loaded →
      ∃ t, exec (.weightFlip ring) s = .next t ∧ onlyChanges [.subRings, .compRings] s t ∧
        Completed s t ring e rest 0x15)

/-- R203, R204, R250, R251, R266, R268, R269, R276. -/
def Obligations.SessionEnds : Prop :=
  ∀ (s : State) (i : Nat), i < 4096 →
    let x := sessOf s i
    (x.cancel ≠ none ∨ x.hostLost = true → x.waveSent = false → x.state ≠ .free → (x.state = .ending → x.hostLost = true) →
      byWave s i = true → ∃ t, exec (.abortWave i) s = .next t ∧ (sessOf t i).waveSent = true ∧ (sessOf t i).root = [] ∧
        i ∈ (partOf t x.part).cutSessions ∧ (sessOf t i).state = x.state) ∧
    (x.waveSent = true → x.twinAbort = false → x.hostLost = false → x.cancel ≠ none → x.state ≠ .free → x.state ≠ .ending →
      ∃ t, exec (.abortWaveAcknowledged i) s = .next t ∧ (sessOf t i).state = .ending ∧ (sessOf t i).cmds = [] ∧
        (sessOf t i).cancel = none ∧ (sessOf t i).root = []) ∧
    (x.waveSent = true → x.twinAbort = false → x.hostLost = true →
      ∃ t, exec (.abortWaveAcknowledged i) s = .next t ∧ (sessOf t i).state = .free) ∧
    (∀ rq : Rq, Accepts s rq K.sessEndSession i → x.shown ≠ .free → x.shown ≠ .ending →
      ∃ t, exec (.endSession rq i) s = .next t ∧
        Accepted s t rq K.sessEndSession [.od, .clusters, .frames, .parts, .sessions, .subRings, .compRings] ∧
        (sessOf t i).state = .ending ∧ (sessOf t i).cmds = [] ∧ (sessOf t i).root = []) ∧
    (x.state = .evicting → ∃ t, exec (.kvEvictTransferComplete i true) s = .next t ∧ (sessOf t i).state = .evicted) ∧
    (x.state = .evicting → ∃ t, exec (.kvEvictTransferComplete i false) s = .next t ∧ (sessOf t i).slots = [] ∧
      (sessOf t i).image = []) ∧
    (x.state = .restoring → ∃ t, exec (.kvRestoreTransferComplete i .ok) s = .next t ∧
      ((sessOf t i).state = .idle ∨ (sessOf t i).state = .active) ∧ (sessOf t i).slots = [] ∧ (sessOf t i).image = []) ∧
    (x.state = .restoring → ∃ t, exec (.kvRestoreTransferComplete i .hostError) s = .next t ∧ (sessOf t i).state = .evicted) ∧
    (x.state = .restoring → ∃ t, exec (.kvRestoreTransferComplete i .digestMismatch) s = .next t ∧
      (sessOf t i).state = .ending) ∧
    (∀ slot b, x.state ≠ .free → x.state ≠ .ending → x.bitmapBase ≠ none → x.shadow = false →
      ∃ t, exec (.bitmapSlotRead i slot (some b)) s = .next t ∧ onlyChanges [.sessions] s t ∧
        kvGet [] (sessOf t i).bitmaps (slot % 2 ^ x.bitmapLog2) = b ∧ (sessOf t i).state = x.state) ∧
    (∀ slot, x.state ≠ .free → x.state ≠ .ending → x.bitmapBase ≠ none → x.shadow = false →
      ∃ t, exec (.bitmapSlotRead i slot none) s = .next t ∧
        odGet t K.pcieHostReadErrors = counted s K.pcieHostReadErrors)

/-- R209, R210, R211, R214, R219, R220, R221, R248. -/
def Obligations.WeightStaging : Prop :=
  ∀ (s : State) (set : Nat), s.Canonical → set < 4096 →
    let w := wsetOf s set
    (∀ h : BundleHead, w.state = .verifying → w.head = none → w.relayedIn = false →
      let kind := hField h 6 1
      (hField h 16 8 ≤ imageLimit → headerGood h = true →
        (kind = 0 → w.owner % 64 = 0 ∧ duplicateOf s set (measure h) = none) →
        ∃ t, exec (.stageHeaderRead set (some h)) s = .next t ∧ onlyChanges [.sets] s t ∧
          wsetOf t set = { w with
            head := some h, kind, shapeId := hField h 8 8, imageBytes := hField h 16 8, pieces := hField h 16 8 / 65536
            measurement := measure h, owner := if kind = 1 then w.owner else 0xFF }) ∧
      (imageLimit < hField h 16 8 → ∃ t, exec (.stageHeaderRead set (some h)) s = .next t ∧ wsetOf t set = {} ∧
        StageEnds s t set 0x16 set) ∧
      (hField h 16 8 ≤ imageLimit → headerGood h = false → ∃ t, exec (.stageHeaderRead set (some h)) s = .next t ∧
        wsetOf t set = {} ∧ StageEnds s t set 0x19 set) ∧
      (∀ other, hField h 16 8 ≤ imageLimit → headerGood h = true → kind = 0 → w.owner % 64 = 0 →
        duplicateOf s set (measure h) = some other → ∃ t, exec (.stageHeaderRead set (some h)) s = .next t ∧
        wsetOf t set = {} ∧ StageEnds s t set 0x17 other)) ∧
    (w.state = .verifying → w.head = none → w.relayedIn = false → ∃ t, exec (.stageHeaderRead set none) s = .next t ∧
      wsetOf t set = {} ∧ StageEnds s t set 0x12 set ∧ odGet t K.pcieHostReadErrors = counted s K.pcieHostReadErrors) ∧
    (∀ h : BundleHead, w.state = .verifying → w.head = some h → w.relayedIn = false →
      let single := w.kind = 0 → duplicateOf s set w.measurement = none
      (∀ u, setKeyOk s h = true → single → reserveSet s set = some u →
        ∃ t, exec (.signatureVerified set true) s = .next t ∧
          (wsetOf t set).state = .loading ∧ (wsetOf t set).chunk = 0 ∧ (wsetOf t set).table = (wsetOf u set).table ∧
          .hostRead w.port (w.addr + imageOffset h) (Nat.min 16777216 w.imageBytes) ∈ t.out) ∧
      (setKeyOk s h = true → single → reserveSet s set = none → ∃ t, exec (.signatureVerified set true) s = .next t ∧
        wsetOf t set = {} ∧ StageEnds s t set 0x1A set) ∧
      ∀ ok, ok = false ∨ setKeyOk s h = false → ∃ t, exec (.signatureVerified set ok) s = .next t ∧ wsetOf t set = {} ∧
        StageEnds s t set 0x19 set ∧ odGet t K.secSignatureFailures = counted s K.secSignatureFailures) ∧
    (∀ chunk data, w.state = .loading → w.relayedIn = false → w.reread = [] → nextChunk w = some chunk →
      (∀ c, (coreOf s c).waiting = []) →
      (chunkGood w chunk data = true → (chunk + 1) * 16777216 < w.imageBytes →
        ∃ t, exec (.weightChunkRead set chunk (.bytes data)) s = .next t ∧ (wsetOf t set).state = .loading ∧
          (wsetOf t set).chunk = chunk + 1 ∧ (wsetOf t set).again = false) ∧
      (chunkGood w chunk data = true → w.imageBytes ≤ (chunk + 1) * 16777216 → w.ownerLost = false →
        ∃ t, exec (.weightChunkRead set chunk (.bytes data)) s = .next t ∧ (wsetOf t set).state = .loaded ∧
          StageEnds s t set 0x00 set ∧ (wsetOf t set).stage = none) ∧
      (chunkGood w chunk data = false → w.again = false → ∃ t, exec (.weightChunkRead set chunk (.bytes data)) s = .next t ∧
        wsetOf t set = { w with again := true }) ∧
      (chunkGood w chunk data = false → w.again = true → ∃ t, exec (.weightChunkRead set chunk (.bytes data)) s = .next t ∧
        (wsetOf t set).state = .wiping ∧ StageEnds s t set 0x1B set) ∧
      ∃ t, exec (.weightChunkRead set chunk .hostError) s = .next t ∧ (wsetOf t set).state = .wiping ∧
        StageEnds s t set 0x12 set)

/-- R221, R223, R224, R225, R227, R229, R232, R246. -/
def Obligations.RelaysAndFlips : Prop :=
  (∀ (s : State) (set dir : Nat), set < 4096 → dir < 7 →
      let w := wsetOf s set
      (∀ h, let again := hField h 6 1 = 0 ∧ (duplicateOf s set (measure h)).isSome = true
        let usable := w.state = .empty ∧ headerGood h = true ∧ hField h 16 8 ≤ imageLimit ∧ ¬again
        (usable → ∃ t, exec (.relayHeader set dir h.toBundleBody h.signature) s = .next t ∧
          wsetOf t set = { w with
            state := .verifying, relayedIn := true, owner := 0xFF, head := some h, kind := hField h 6 1
            shapeId := hField h 8 8, imageBytes := hField h 16 8, pieces := hField h 16 8 / 65536
            measurement := measure h } ∧
          (relayDirs s (some dir) ≠ [] → .relayHeader set h (relayDirs s (some dir)) ∈ t.out)) ∧
        (¬usable → ∃ t x, exec (.relayHeader set dir h.toBundleBody h.signature) s = .next t ∧ transitOf t set = some x ∧ x.head = h ∧
          x.chunk = 0 ∧ odGet t K.relayRelaysRefused = counted s K.relayRelaysRefused ∧ wsetOf t set = w)) ∧
      (∀ h, w.state = .verifying → w.relayedIn = true → w.head = some h → w.early = [] →
        let single := w.kind = 0 → duplicateOf s set w.measurement = none
        (∀ u, setKeyOk s h = true → single → reserveSet s set = some u →
          ∃ t, exec (.signatureVerified set true) s = .next t ∧ (wsetOf t set).state = .loading ∧
            (wsetOf t set).relayedIn = true ∧ (wsetOf t set).table = (wsetOf u set).table) ∧
        (∀ ok, ok = false ∨ setKeyOk s h = false ∨ ¬single ∨ reserveSet s set = none →
          ∃ t x, exec (.signatureVerified set ok) s = .next t ∧ wsetOf t set = {} ∧ transitOf t set = some x ∧ x.head = h)) ∧
      (∀ x data, transitOf s set = some x → headerGood x.head = true →
        let good := chunkGood { imageBytes := hField x.head 16 8, head := some x.head } x.chunk data
        (good = true → ∃ t, exec (.relayChunk set dir x.chunk data) s = .next t ∧
          onlyChanges [.od, .out, .stack, .frames, .transits] s t ∧
          transitOf t set = (if hField x.head 24 4 ≤ x.chunk + 1 then none
            else some { x with chunk := x.chunk + 1, again := false }) ∧
          odGet t K.relayChunksReceived = counted s K.relayChunksReceived ∧
          (relayDirs s (some dir) ≠ [] → .relayChunk set x.chunk data (relayDirs s (some dir)) ∈ t.out)) ∧
        (good = false → ∃ t, exec (.relayChunk set dir x.chunk data) s = .next t ∧
          transitOf t set = (if x.again then none else some { x with again := true }) ∧
          odGet t K.relayChunksRejected = counted s K.relayChunksRejected ∧
          t.out = s.out ++ if x.again then [] else [.relayAgain set x.chunk])) ∧
      (∀ chunk data, transitOf s set = none → w.state = .verifying → w.relayedIn = true →
        ∃ t, exec (.relayChunk set dir chunk data) s = .next t ∧ onlyChanges [.sets] s t ∧
          wsetOf t set = { w with early := w.early ++ [(dir, chunk, data)] }) ∧
      (∀ chunk data, transitOf s set = none → w.state = .loading → w.relayedIn = true → nextChunk w = some chunk →
        (chunkGood w chunk data = true → w.reread = [] → (chunk + 1) * 16777216 < w.imageBytes →
          ∃ t, exec (.relayChunk set dir chunk data) s = .next t ∧ (wsetOf t set).chunk = chunk + 1 ∧
            (wsetOf t set).state = .loading ∧ (wsetOf t set).again = false) ∧
        (chunkGood w chunk data = false → w.again = false → ∃ t, exec (.relayChunk set dir chunk data) s = .next t ∧
          onlyChanges [.od, .sets, .out] s t ∧ wsetOf t set = { w with again := true } ∧
          t.out = s.out ++ [.relayAgain set chunk] ∧ odGet t K.relayChunksRejected = counted s K.relayChunksRejected) ∧
        (chunkGood w chunk data = false → w.again = true → ∃ t, exec (.relayChunk set dir chunk data) s = .next t ∧
          (wsetOf t set).state = .wiping ∧ t.out = s.out)) ∧
      (∃ t, exec (.relayTimeout set) s = .next t ∧ transitOf t set = none ∧
        (w.state = .loading → w.relayedIn = true → (wsetOf t set).state = .wiping) ∧
        (w.state = .verifying → w.relayedIn = true → wsetOf t set = {}) ∧
        (w.relayedIn = false → onlyChanges [.transits, .stack, .frames] s t))) ∧
  (∀ (s : State) (p : Nat) (f : Flip), p < 48 → (partOf s p).flip = some f →
      (f.prepared = false → ∃ t g, exec (.flipPrepareComplete p) s = .next t ∧ onlyChanges [.parts, .out] s t ∧
        (partOf t p).flip = some g ∧ g.prepared = true ∧ g.slot = f.slot ∧ g.set = f.set ∧ g.gap = f.gap ∧
        (f.origin ≠ none → f.toTwin = false → f.fromTwin = false → jobOf s p = 0 → g.go = true)) ∧
      (∀ ns cells, f.gap = true → (∀ c, (coreOf s c).waiting = []) →
        (gapHeld s p f.slot = true → exec (.flipGapComplete p { ns, cells }) s = .next s) ∧
        ((partOf s p).fault = none → cells = [] →
          (∀ e ∈ gapArrays s p f.slot, ∃ l, readPlace s p e.2 (repairGranules (arrOf s e.1).wfmt) = .bytes l) →
          ∃ t, exec (.flipGapComplete p { ns, cells }) s = .next t ∧ (partOf t p).flip = none ∧
            odGet t (K.partFlipPending p) = 0xFFFF ∧
            (∀ e ∈ gapArrays s p f.slot, ∀ l, readPlace s p e.2 (repairGranules (arrOf s e.1).wfmt) = .bytes l →
              arrOf t e.1 = fillArray (arrOf s e.1) l) ∧
            ∀ ring tag, f.origin = some (ring, tag) →
              (compOf t (subOf s ring).cq).ready = (compOf s (subOf s ring).cq).ready ++ [{
                tag, opcode := 0x21, status := 0x00, sq := ring, sqHead := (subOf s ring).fetch, session := 0xFFFF, flags := 0
                result := natLe f.lap 6, place := nextPlace s }])))

/-- R210, R215, R219, R221, R231, R232, R233, R473, R476. -/
def Obligations.WeightSets : Prop :=
  ∀ (s : State) (set : Nat), set < 4096 →
    let w := wsetOf s set
    (∀ rq : Rq, Accepts s rq K.wtUnload set →
      let refused (t : State) (detail : Nat) : Prop := exec (.weightUnload rq set) s = .next t ∧
        Answered s t rq 0x02 (K.wtUnload / 256) (K.wtUnload % 256) 0x06 [] [] detail
      let done (t : State) : Prop := exec (.weightUnload rq set) s = .next t ∧
        .swReply rq.session rq.seq { op := 0x02, status := 0, index := K.wtUnload / 256, sub := K.wtUnload % 256 } ∈ t.out
      ((w.state = .loaded ∨ w.state = .damaged) → bindCount s set = 0 → ∃ t, done t ∧ (wsetOf t set).state = .wiping) ∧
      ((w.state = .loaded ∨ w.state = .damaged) → bindCount s set ≠ 0 → ∃ t, refused t 0x18) ∧
      ((w.state = .empty ∨ w.state = .wiping) → ∃ t, refused t 0) ∧
      (w.state = .loading → ∃ t, done t ∧ (wsetOf t set).state = .wiping ∧ StageEnds s t set 0x0B set) ∧
      (w.state = .verifying → ∃ t, done t ∧ (wsetOf t set).state = .empty ∧ StageEnds s t set 0x0B set)) ∧
    (∀ rq : Rq, Accepts s rq K.wtReleaseHost set → ∃ t, exec (.releaseHost rq set) s = .next t ∧
      Accepted s t rq K.wtReleaseHost [.sets] ∧ wsetOf t set = { w with retained := false } ∧
      ∀ i, i ≠ set → wsetOf t i = wsetOf s i) ∧
    (w.state = .wiping → (∀ c, (coreOf s c).waiting = []) → ∃ t, exec (.setWipeComplete set) s = .next t ∧
      (wsetOf t set).state = .empty ∧ (wsetOf t set).table = [] ∧
      ∀ e ∈ placedPieces w, ∀ i, i < 65536 → memRead t.stack (pBlock e.2 * 2 ^ 37 + pFrame e.2 * 65536 + i) = 0) ∧
    (∀ piece, (w.state = .loaded ∨ w.state = .damaged) → kvGet 0 w.quarantine piece ≠ 0 →
      (∀ c, (coreOf s c).waiting = []) →
      let rest := (repairSources s w).filter (fun x => decide (kvGet 0 w.asked piece + 1 ≤ x))
      (∀ data b, chunkGood w (piece / 256) data = true → chooseBlock s (preferred w piece) (fun _ => false) = some b →
        ∃ t, exec (.pieceRefetchComplete set piece (.bytes data)) s = .next t ∧ (wsetOf t set).state = w.state ∧
          kvGet 0 (wsetOf t set).table piece = pieceEntry b (takeRegion s b).1 ∧
          kvGet 0 (wsetOf t set).quarantine piece = 0) ∧
      (∀ x, rest.head? = some x → ∃ t, exec (.pieceRefetchComplete set piece .noSource) s = .next t ∧
        onlyChanges [.sets, .out] s t ∧ wsetOf t set = { w with asked := kvSet 0 w.asked piece x } ∧
        t.out = s.out ++ [.refetch set piece x]) ∧
      (∀ fin, (fin = .noSource ∧ rest = []) ∨ (∃ data, fin = .bytes data ∧ chunkGood w (piece / 256) data = false) →
        ∃ t, exec (.pieceRefetchComplete set piece fin) s = .next t ∧ (wsetOf t set).state = .damaged ∧
          pL (kvGet 0 (wsetOf t set).table piece) = true ∧ kvGet 0 (wsetOf t set).quarantine piece = 0))

/-- R282, R287, R288, R289, R290, R291, R294, R400, R401, R422. -/
def Obligations.PortsAndFailures : Prop :=
  (∀ (s : State) (i : Nat), i < 28 →
      let x := geannaOf s i
      let others (t : State) : Prop := ∀ k, k ≠ i → geannaOf t k = geannaOf s k
      let trains (t : State) : Prop := (geannaOf t i).state = .training ∧ (geannaOf t i).attempts = 0 ∧ others t ∧
        (geannaOf t i).trainings = Nat.min (x.trainings + 1) (2 ^ 32 - 1)
      (∀ lanes nid pos ns, x.state = .training → 4 ≤ lanes → lanes ≤ 8 → (portDir i = 6 ∨ pos = expectedPos s (portDir i)) →
        ∃ t, exec (.trainingComplete i lanes nid pos ns) s = .next t ∧ others t ∧
          (geannaOf t i).state = (if lanes = 8 then .up8 else if 6 ≤ lanes then .up6 else .up4) ∧
          (geannaOf t i).lanes = lanes ∧ (geannaOf t i).neighbourId = nid ∧ (geannaOf t i).delayNs = ns) ∧
      (∀ lanes nid pos ns, x.state = .training → 4 ≤ lanes → portDir i < 6 → pos ≠ expectedPos s (portDir i) →
        ∃ t, exec (.trainingComplete i lanes nid pos ns) s = .next t ∧ others t ∧ (geannaOf t i).state = .miscabled) ∧
      (∀ lanes nid pos ns, x.state = .training → lanes < 4 → x.attempts < 2 →
        ∃ t, exec (.trainingComplete i lanes nid pos ns) s = .next t ∧ onlyChanges [.fabric] s t ∧ others t ∧
          geannaOf t i = { x with attempts := x.attempts + 1 }) ∧
      (x.state = .training → x.attempts < 2 → ∃ t, exec (.trainingAttemptTimeout i) s = .next t ∧ onlyChanges [.fabric] s t ∧
        others t ∧ geannaOf t i = { x with attempts := x.attempts + 1 }) ∧
      (x.state = .training → 2 ≤ x.attempts → ∃ t, exec (.trainingAttemptTimeout i) s = .next t ∧ others t ∧
        (geannaOf t i).state = .failed) ∧
      (portUp x.state = true →
        (∃ t, exec (.laneFailure i .retry) s = .next t ∧ onlyChanges [.od, .fabric] s t ∧ others t ∧
          odGet t K.fabFlitRetries = counted s K.fabFlitRetries ∧ (geannaOf t i).state = x.state) ∧
        (∃ t, exec (.laneFailure i .eightRetries) s = .next t ∧ trains t) ∧
        (∃ t, exec (.laneFailure i .lane) s = .next t ∧ trains t) ∧
        ∃ t, exec (.neighbourDark i) s = .next t ∧ trains t) ∧
      (∀ rq : Rq, Accepts s rq K.fabRetrain i → portEnabled s i = true → x.state ≠ .training →
        ∃ t, exec (.portRetrain rq i) s = .next t ∧ trains t ∧ Accepted s t rq K.fabRetrain
          [.od, .clusters, .frames, .parts, .sessions, .subRings, .compRings, .recorder, .plant, .fabric])) ∧
  (∀ (s : State) (lost : List (Nat × Nat × Nat)), s.Canonical →
      (∀ l, l < linkCount → (linkOf s l).failed = false → ∃ t, exec (.linkFailure l lost) s = .next t ∧
        (linkOf t l).failed = true ∧ (linkOf t l).retraining = false ∧ (∀ k, k ≠ l → linkOf t k = linkOf s k) ∧
        odGet t K.hlthReplaceRequest / 2 ^ 9 % 2 = 1 ∧
        (lost = [] → ∀ ci p, partAt s (ci / 16) = some p → (coreOf t ci).transfers = (coreOf s ci).transfers.map (fun x =>
          { x with packets := x.packets.map (reroute t p) }))) ∧
      (∀ l, l < linkCount → (linkOf s l).failed = true → exec (.linkFailure l lost) s = .next s) ∧
      (∀ cl network, cl < 864 → cl ∉ s.fabric.routers → ∃ t, exec (.routerFailure cl network lost) s = .next t ∧
        cl ∈ t.fabric.routers ∧ (network = 0 → cl ∈ t.fabric.bulkDown) ∧
        odGet t K.hlthReplaceRequest / 2 ^ 9 % 2 = 1 ∧ odGet t K.hlthReplaceRequest / 2 ^ 6 % 2 = 1 ∧
        ∀ p, partAt s cl = some p → (partOf s p).runs = true → (partOf s p).fault = none →
          (partOf t p).fault = some (0x000D, cl)) ∧
      (∀ cl network, cl < 864 → cl ∈ s.fabric.routers → exec (.routerFailure cl network lost) s = .next s))

/-- R292, R293, R296, R298, R299, R300, R301. -/
def Obligations.JobMessages : Prop :=
  ∀ (s : State) (job : Nat), s.Canonical →
    (∀ mark member k, partsOfJob s job = [] → ∃ t, exec (.jobSynchronizationMessage job mark member k) s = .next t ∧
      onlyChanges [.od] s t ∧ odGet t K.fabForeignFrames = counted s K.fabForeignFrames) ∧
    (∀ code, partsOfJob s job = [] → ∃ t, exec (.jobFaultMessage job code) s = .next t ∧ onlyChanges [.od] s t ∧
      odGet t K.fabForeignFrames = counted s K.fabForeignFrames) ∧
    (partsOfJob s job = [] → ∃ t, exec (.alignmentMessage job) s = .next t ∧ onlyChanges [.od] s t ∧
      odGet t K.fabForeignFrames = counted s K.fabForeignFrames) ∧
    (partsOfJob s job ≠ [] → ∃ t, exec (.alignmentMessage job) s = .next t ∧ onlyChanges [.plant] s t ∧
      t.plant.alignDue = true) ∧
    (∀ p, partsOfJob s job = [p] → (partOf s p).fault = none →
      let pt := partOf s p
      let here := pt.oy * 24 + pt.ox
      (∀ code, ∃ t, exec (.jobFaultMessage job code) s = .next t ∧ onlyChanges [.parts] s t ∧
        (partOf t p).fault = some (0x8000 + code % 0x8000, here)) ∧
      (∀ mark member k, k ≠ .foreign → mark ≠ odGet s K.meshMarkCount →
        ∃ t, exec (.jobSynchronizationMessage job mark member k) s = .next t ∧ onlyChanges [.parts] s t ∧
          (partOf t p).fault = some (0x0010, here)) ∧
      (∀ member h replay aborts, jobRoot s p = true → ∃ t,
        exec (.jobSynchronizationMessage job (odGet s K.meshMarkCount) member (.arrival h replay aborts)) s = .next t ∧
          (h * 4096 + member) ∈ (partOf t p).jobArrived ∧ (replay = true → h ∈ (partOf t p).jobReplays) ∧
          ∀ a ∈ aborts, a.1 ∈ (partOf t p).aborts ∧ (sessOf t a.1).abortStatus ≠ none) ∧
      (∀ member repeat_ mark lanes, jobRoot s p = false → pt.hurdle ≠ 0 → ∃ t,
        exec (.jobSynchronizationMessage job (odGet s K.meshMarkCount) member (.clear pt.hurdle repeat_ mark lanes)) s =
          .next t ∧ onlyChanges [.parts] s t ∧ partOf t p = { pt with jobClear := true, jobRepeat := repeat_ }) ∧
      (∀ member replay aborts, jobRoot s p = false → ∃ t,
        exec (.jobSynchronizationMessage job (odGet s K.meshMarkCount) member (.verdict replay aborts)) s = .next t ∧
          onlyChanges [.parts] s t ∧ (partOf t p).jobClear = true ∧ (partOf t p).jobReplay = replay) ∧
      (∀ member up, ∃ t, exec (.jobSynchronizationMessage job (odGet s K.meshMarkCount) member (.suspend up)) s = .next t ∧
        onlyChanges [.parts] s t ∧ partOf t p = { pt with timerHolds := if up then pt.timerHolds + 1 else pt.timerHolds - 1 }) ∧
      (∀ member sess, ∃ t, exec (.jobSynchronizationMessage job (odGet s K.meshMarkCount) member (.wave sess)) s = .next t ∧
        sess ∈ (partOf t p).cutSessions ∧ (sessOf t sess).root = [])) ∧
    (∀ p ch granule (data : List Byte) poisoned, p < 48 → jobOf s p ≠ 0 → (partOf s p).runs = true →
      let e := channelOf s p ch
      let n := ceilDiv data.length 64
      let addr := fieldLe e 8 1 * 2 ^ 37 + fieldLe e 9 4 * 65536 + 64 * granule
      fieldLe e 0 1 = 2 →
      (granule + n ≤ fieldLe e 4 4 → ∃ t, exec (.fabricWriteArrival p ch granule { bytes := data, poisoned }) s = .next t ∧
        onlyChanges [.od, .stack, .stackPoison] s t ∧ (∀ i, i < data.length → memRead t.stack (addr + i) = getAt 0 data i) ∧
        (∀ a, a < addr ∨ addr + data.length ≤ a → memRead t.stack a = memRead s.stack a) ∧
        (∀ i, i < n → (addr + 64 * i ∈ t.stackPoison ↔ i ∈ poisoned)) ∧
        odGet t (K.statFabricBytesIn p) = counted s (K.statFabricBytesIn p) data.length) ∧
      (fieldLe e 4 4 < granule + n → exec (.fabricWriteArrival p ch granule { bytes := data, poisoned }) s = .next s)) ∧
    (∀ p ch granule data poisoned, p < 48 → jobOf s p = 0 → ∃ t, exec (.fabricWriteArrival p ch granule { bytes := data, poisoned }) s = .next t ∧
      onlyChanges [.od] s t ∧ odGet t K.fabForeignFrames = counted s K.fabForeignFrames)

/-- R301, R370, R371, R372, R373, R378, R379, R380. -/
def Obligations.MeshEvents : Prop :=
  ∀ (s : State),
    let present := odGet s K.meshReferencePresent = 1
    (∀ us, meshState s = 1 → us < 2 ^ 32 → s.plant.heldBringUp = none → ∃ t, exec (.meshLock us) s = .next t ∧
      meshState t = (if present then 2 else 3) ∧ odGet t K.meshLockTime = us) ∧
    (∀ us f, meshState s = 1 → s.plant.heldBringUp = some f → odGet s K.devBringUpState = 4 → f.stacksLost = [] →
      lostStacks s ≤ 24 → ∃ t, exec (.meshLock us) s = .next t ∧ moduleReady t = true ∧ t.plant.heldBringUp = none ∧
        t.plant.resetting = false) ∧
    (meshState s = 1 → odGet s K.devBringUpState = 4 → ∃ t, exec .meshBringUpTimeout s = .next t ∧
      odGet t K.devBringUpState = 9 ∧ odGet t K.devBringUpFailure = 3 ∧ odGet t K.hlthHealthState = 2) ∧
    (meshState s = 1 → ∃ t, exec .lockTimeout s = .next t ∧ onlyChanges [.od, .recorder] s t ∧ meshState t = 1) ∧
    (∃ t, exec (.referenceAbsent .glitch) s = .next t ∧ onlyChanges [.od] s t ∧
      odGet t K.meshRefGlitches = counted s K.meshRefGlitches) ∧
    (∃ t, exec (.referenceAbsent .offFrequency) s = .next t ∧ onlyChanges [.od, .plant] s t ∧
      odGet t K.meshReferencePresent = 0 ∧ meshState t = (if meshState s = 2 then 3 else meshState s)) ∧
    (∃ t, exec (.referenceAbsent .noEdge) s = .next t ∧ odGet t K.meshReferencePresent = 0 ∧
      meshState t = (if meshState s = 2 then 3 else meshState s) ∧ (s.plant.refArmed = true → odGet t K.meshRefStuck = 1)) ∧
    (∃ t, exec (.referenceAbsent .chatter) s = .next t ∧ odGet t K.meshReferencePresent = 0 ∧
      meshState t = (if meshState s = 2 then 3 else meshState s) ∧ chattering t .rackReference = true) ∧
    (chattering s .rackReference = false → ∃ t, exec .referenceRestored s = .next t ∧ onlyChanges [.od, .plant] s t ∧
      odGet t K.meshReferencePresent = 1 ∧ t.plant.refArmed = true ∧ t.plant.slewing = decide (meshState s = 3)) ∧
    (∀ mark, s.plant.slewing = true → meshState s = 3 → mark < 2 ^ 48 → ∃ t, exec (.slewComplete mark) s = .next t ∧
      onlyChanges [.od, .plant] s t ∧ meshState t = 2 ∧ odGet t K.meshMarkCount = mark ∧ t.plant.slewing = false) ∧
    (∀ cl, cl < 864 → (meshState s = 2 ∨ meshState s = 3) → (oscConnected s).contains cl = true →
      ∃ t, exec (.oscillatorUnlock cl) s = .next t ∧ meshState t = 1) ∧
    (meshState s = 2 → s.plant.alignDue = false → s.plant.alignSend = [] → ∃ t, exec .rackMark s = .next t ∧
      onlyChanges [.od, .plant] s t ∧ odGet t K.meshMarkCount = (odGet s K.meshMarkCount + 1) % 2 ^ 48) ∧
    (meshState s = 2 → s.plant.alignDue = true → ∃ t, exec .rackMark s = .next t ∧ odGet t K.meshMarkCount = 0 ∧
      (∀ j ∈ s.plant.alignSend, .jobAlign j ∈ t.out)) ∧
    (∀ k, meshState s = 2 → ∃ t, exec (.marker (1024 * k)) s = .next t ∧ onlyChanges [.plant] s t ∧ t.plant.markerRun = 0) ∧
    (∀ off, meshState s = 2 → off % 1024 ≠ 0 → (s.plant.markerRun < 2 ∨ s.plant.markerAt ≠ off % 1024) →
      ∃ t, exec (.marker off) s = .next t ∧ onlyChanges [.plant] s t ∧ t.plant.markerAt = off % 1024) ∧
    (∀ off, meshState s = 2 → off % 1024 ≠ 0 → s.plant.markerRun = 2 → s.plant.markerAt = off % 1024 →
      ∃ t, exec (.marker off) s = .next t ∧ odGet t K.meshMarkCount = (odGet s K.meshMarkCount + 1) % 2 ^ 48 ∧
        odGet t K.meshMarkSlips = counted s K.meshMarkSlips)

/-- R314, R315, R318, R320, R321, R326, R327, R328. -/
def Obligations.PairFrames : Prop :=
  ∀ (s : State) (f : FrameIn),
    (∀ n st, f.viaBus = true → ∃ t, exec (.heartbeat f n st) s = .next t ∧ t.pair.busUp = true ∧
      (pairState s = 3 → thahaUp s = true → pairState t = 2) ∧ (pairState s ≠ 3 → pairState s ≠ 2 → pairState t = pairState s)) ∧
    (∀ n st, f.viaBus = false → exec (.heartbeat f n st) s = .next s) ∧
    (∃ t, exec .busPathDown s = .next t ∧ t.pair.busUp = false ∧ (pairState s = 2 → pairState t = 3) ∧
      odGet t K.pairBusFrameRetries = counted s K.pairBusFrameRetries 16) ∧
    (s.plant.powered = true → s.plant.powerFail = false → s.plant.resetting = false →
      ∃ t, exec .heartbeatSend s = .next t ∧ onlyChanges [.pair, .out] s t ∧
        t.pair.beatSeq = (s.pair.beatSeq + 1) % 65536 ∧
        t.out = s.out ++ [.pairFrame (frameBits 1 (s.pair.beatSeq + pairState s * 65536))]) ∧
    (∀ code, ∃ t, exec (.reservedFrameCode { f with secondCopy := false } code) s = .next t ∧ onlyChanges [.od, .recorder] s t) ∧
    (f.secondCopy = true → ∀ n p set b c ns w, p < 48 → n < 4096 →
      exec (.mirrorAck f p n ns) s = .next s ∧ exec (.shadowAck f n) s = .next s ∧ exec (.abortFrame f n) s = .next s ∧
      exec (.abortDone f n) s = .next s ∧ exec (.handover f n b) s = .next s ∧ exec (.flipFrame f p set b c) s = .next s ∧
      exec (.attachFrame f n w) s = .next s ∧ exec (.detachFrame f) s = .next s ∧
      exec (.reservedFrameCode f n) s = .next s)

/-- R310, R320, R321, R323, R328. -/
def Obligations.PairMirroring : Prop :=
  ∀ (s : State) (f : FrameIn), f.secondCopy = false →
    (∀ p lapLow ns, p < 48 → (partOf s p).runs = true → pairState s ≠ 4 → (∀ c, (coreOf s c).waiting = []) →
      ∃ t, exec (.mirrorAck f p lapLow ns) s = .next t ∧ onlyChanges [.od, .sessions] s t ∧
        ∀ i ∈ openOf s p, (sessOf t i).records = (sessOf s i).records.map (fun r =>
          if r.lap % 2 ^ 42 = lapLow then { r with mirror := false } else r)) ∧
    (∀ p lap, p < 48 → (partOf s p).runs = true → pairState s ≠ 4 → odGet s K.pairMirrorLossPolicy = 1 →
      ∃ t, exec (.mirrorAckTimeout p lap) s = .next t ∧ onlyChanges [.od, .sessions, .recorder] s t ∧
        ∀ i ∈ openOf s p, ((sessOf s i).records.any (fun r => r.mirror && r.lap == lap)) = true →
          (sessOf t i).mirrored = false ∧ ∀ r ∈ (sessOf t i).records, r.mirror = false) ∧
    (∀ seq ring bytes, pairState s ≠ 4 → s.pair.unacked.find? (fun m => m.1 == seq) = some (seq, .entry ring bytes) →
      knownOpcode (fieldLe bytes 0 1) = true → ∃ t, exec (.shadowAck f seq) s = .next t ∧
        onlyChanges [.subRings, .pair] s t ∧
        subOf t ring = { subOf s ring with
          dispatch := (subOf s ring).dispatch ++ [bytes], fetchOrder := (subOf s ring).fetchOrder ++ [nextFetch s] } ∧
        t.pair.unacked = s.pair.unacked.filter (fun x => x.1 != seq)) ∧
    (∀ i, i < 4096 → (sessOf s i).shadow = true →
      (∃ t, exec (.abortFrame f i) s = .next t ∧ sessOf t i = {} ∧ t.out = s.out ++ [.pairFrame (frameBits 5 i)]) ∧
      (∀ va data a gen u, data.length = 64 →
        translate s (sessOf s i).part (streamCluster s (sessOf s i).part (bitsOf va 47 29)) i va true false = (.phys a gen, u) →
        ∃ t, exec (.mirrorEntry i va data) s = .next t ∧ t.stack = memWriteN u.stack a data) ∧
      (∀ p lap (m : MirrorSession), p < 48 → m.session = i → m.ended = false → (sessOf s i).mirrorFailed = false →
        (sessOf s i).state ≠ .free →
        ∃ t, exec (.mirrorVerdict p lap .commit [m]) s = .next t ∧ (sessOf t i).len = m.len ∧
          (sessOf t i).tokW = (sessOf s i).tokW + m.records.length ∧ (sessOf t i).shadow = true ∧
          .pairFrame (frameBits 2 (p + lap % 2 ^ 42 * 2 ^ 6)) ∈ t.out)) ∧
    (∀ i va data, i < 4096 → (sessOf s i).shadow = false → exec (.mirrorEntry i va data) s = .next s) ∧
    (∀ p lap l, p < 48 → exec (.mirrorVerdict p lap .replay l) s = .next s) ∧
    (∀ i, i < 4096 → ∃ t, exec (.abortDone f i) s = .next t ∧ onlyChanges [.sessions] s t ∧
      sessOf t i = { sessOf s i with twinAbort := false }) ∧
    (∀ seq ring (bytes : List Byte), bytes.length = 64 → ∃ t, exec (.shadowMessage seq (.entry ring bytes)) s = .next t ∧
      onlyChanges [.subRings, .pair, .out] s t ∧ t.pair.entries = s.pair.entries ++ [(ring, bytes)] ∧
      (subOf t ring).fetch = ((subOf s ring).fetch + 1) % 2 ^ (subOf s ring).sizeLog2 ∧
      t.out = s.out ++ [.pairFrame (frameBits 3 seq)]) ∧
    (∀ seq ring slot phase bytes, ∃ t, exec (.shadowMessage seq (.completion ring slot phase bytes)) s = .next t ∧
      (compOf t ring).written = (compOf s ring).written + 1 ∧ (ring, slot, phase, bytes) ∈ t.pair.lastComps ∧
      .pairFrame (frameBits 3 seq) ∈ t.out)

/-- R309, R318, R325, R326, R327, R328, R476. -/
def Obligations.PairAttach : Prop :=
  ∀ (s : State) (rq : Rq) (f : FrameIn) (tw : TwinInfo), f.secondCopy = false →
    (Accepts s rq K.pairAttach 1 → pairState s = 0 → attachCheck s tw = 0 → ∃ t, exec (.attach rq 1 tw.toTwinConfig tw.parts) s = .next t ∧
      Accepted s t rq K.pairAttach [.od, .recorder, .pair] ∧ pairState t = 1 ∧ t.pair.twin = tw ∧
      .pairFrame (frameBits 8 1) ∈ t.out) ∧
    (Accepts s rq K.pairAttach 1 → pairState s = 0 → attachCheck s tw ≠ 0 → ∃ t, exec (.attach rq 1 tw.toTwinConfig tw.parts) s = .next t ∧
      Accepted s t rq K.pairAttach [.od] ∧ pairState t = 0 ∧ odGet t K.pairAttachResult = attachCheck s tw) ∧
    (Accepts s rq K.pairAttach 1 → pairState s ≠ 0 → ∃ t, exec (.attach rq 1 tw.toTwinConfig tw.parts) s = .next t ∧
      Answered s t rq 0x02 (K.pairAttach / 256) (K.pairAttach % 256) 0x06 [] []) ∧
    (∀ r, pairState s = 0 → s.pair.fence = false → attachCheck s tw = 0 → ∃ t, exec (.attachFrame f 1 ⟨r, tw⟩) s = .next t ∧
      pairState t = 1 ∧ t.pair.twin = tw ∧ .pairFrame (frameBits 8 2) ∈ t.out) ∧
    (∀ r, pairState s = 0 → s.pair.fence = false → attachCheck s tw ≠ 0 → ∃ t, exec (.attachFrame f 1 ⟨r, tw⟩) s = .next t ∧
      onlyChanges [.od, .out] s t ∧ pairState t = 0 ∧ odGet t K.pairAttachResult = attachCheck s tw ∧
      t.out = s.out ++ [.pairFrame (frameBits 8 (2 + attachCheck s tw * 16))]) ∧
    (∀ r, pairState s ≠ 0 ∨ s.pair.fence = true → ∃ t, exec (.attachFrame f 1 ⟨r, tw⟩) s = .next t ∧ onlyChanges [.out] s t ∧
      t.out = s.out ++ [.pairFrame (frameBits 8 98)]) ∧
    (pairState s = 1 → s.pair.busUp = true → thahaUp s = true →
      (∃ t, exec (.attachFrame f 2 ⟨0, tw⟩) s = .next t ∧ pairState t = 2 ∧ odGet t K.pairAttachResult = 0 ∧
        .pairFrame (frameBits 8 3) ∈ t.out) ∧
      ∃ t, exec (.attachFrame f 3 ⟨0, tw⟩) s = .next t ∧ pairState t = 2 ∧ odGet t K.pairAttachResult = 0) ∧
    (∀ step r, pairState s = 1 → step ≠ 1 → r ≠ 0 → ∃ t, exec (.attachFrame f step ⟨r, tw⟩) s = .next t ∧
      onlyChanges [.od, .recorder] s t ∧ pairState t = 0 ∧ odGet t K.pairAttachResult = r) ∧
    (Accepts s rq K.pairDrain 1 → mirroring s = true → ∃ t, exec (.drain rq 1) s = .next t ∧
      Accepted s t rq K.pairDrain [.od, .recorder, .pair] ∧ (s.pair.owned ≠ [] → pairState t = 4) ∧
      ((∀ e ∈ s.parts, e.2.runs = true → mirroredOf s e.1 = []) → s.pair.unacked = [] →
        (∀ i ∈ ownedMirrored s, hasUnacked (sessOf s i) = false) →
        ∀ ring ∈ s.pair.owned, ring ∈ t.pair.handing ∧
          (ring ∉ s.pair.handing → .pairFrame (frameBits 6 ring) ∈ t.out))) ∧
    (Accepts s rq K.pairDrain 1 → mirroring s = false → ∃ t, exec (.drain rq 1) s = .next t ∧
      Answered s t rq 0x02 (K.pairDrain / 256) (K.pairDrain % 256) 0x06 [] []) ∧
    (Accepts s rq K.pairDetach 1 → (mirroring s = true ∨ pairState s = 5 ∨ pairState s = 6) → ∃ t, exec (.detach rq 1) s = .next t ∧
      Accepted s t rq K.pairDetach [.od, .clusters, .frames, .sessions, .subRings, .compRings, .recorder, .pair] ∧
      pairState t = 0 ∧ (∀ ring, ownsRing t ring = true) ∧ t.pair.entries = [] ∧
      (mirroring s = true → .pairFrame (frameBits 9 0) ∈ t.out)) ∧
    (Accepts s rq K.pairDetach 1 → (pairState s = 0 ∨ pairState s = 1 ∨ pairState s = 7) → ∃ t,
      exec (.detach rq 1) s = .next t ∧ Accepted s t rq K.pairDetach []) ∧
    (mirroring s = true → ∃ t, exec (.detachFrame f) s = .next t ∧ pairState t = 0 ∧ t.pair.twin = {} ∧
      ∀ ring, ownsRing t ring = true) ∧
    (mirroring s = false → exec (.detachFrame f) s = .next s) ∧
    (∀ ring, ring < 32768 → mirroring s = true → domBit s K.pairMirroredRings ring = true →
      ∃ t, exec (.handover f ring false) s = .next t ∧ ring ∈ t.pair.owned ∧
        .pairFrame (frameBits 6 (ring + 2 ^ 15)) ∈ t.out) ∧
    (∀ ring, ring < 32768 → ring ∈ s.pair.handing → ∃ t, exec (.handover f ring true) s = .next t ∧
      ring ∉ t.pair.owned ∧ (subOf t ring).dispatch = []) ∧
    (∀ p set, p < 48 → mirrorPart s p = none → ∃ t, exec (.flipFrame f p set false false) s = .next t ∧
      onlyChanges [.out] s t ∧ t.out = s.out ++ [.pairFrame (frameBits 7 (p + set * 2 ^ 6 + 2 ^ 19))]) ∧
    (∀ p fl, p < 48 → (partOf s p).flip = some fl → fl.toTwin = true →
      ∃ t, exec (.flipFrame f p fl.set false true) s = .next t ∧ (partOf t p).flip = none)

/-- R316, R317, R318, R319, R323, R420, R421, R422. -/
def Obligations.PairLoss : Prop :=
  ∀ (s : State) (us : Nat),
    let takeable := odGet s K.pairTakeoverEnable ≠ 0 ∧ s.pair.prHigh = false
    let replaced (t : State) : Prop := odGet t K.hlthReplaceRequest / 2 ^ 11 % 2 = 1
    (mirroring s = true → takeable → side s = 0 → ∃ t, exec (.heartbeatTimeout us) s = .next t ∧ pairState t = 5 ∧
      .driveFence ∈ t.out ∧ replaced t) ∧
    (mirroring s = true → takeable → side s ≠ 0 → ∃ t, exec (.heartbeatTimeout us) s = .next t ∧ onlyChanges [.sessions, .pair] s t ∧
      t.pair.waiting = true) ∧
    (mirroring s = true → ¬ takeable → ∃ t, exec (.heartbeatTimeout us) s = .next t ∧ pairState t = 6 ∧ replaced t) ∧
    (pairState s = 1 → ∃ t, exec (.heartbeatTimeout us) s = .next t ∧ pairState t = 0 ∧ odGet t K.pairAttachResult = 1) ∧
    (s.pair.waiting = true → s.pair.fence = false → ∃ t, exec (.takeoverWaitExpiry us) s = .next t ∧ pairState t = 5 ∧
      .driveFence ∈ t.out ∧ t.pair.waiting = false) ∧
    (s.pair.waiting = true → s.pair.fence = true → ∃ t, exec (.takeoverWaitExpiry us) s = .next t ∧ onlyChanges [.pair] s t ∧
      t.pair.waiting = false) ∧
    (∀ input ns, input < 2 → (pairState s = 0 ∨ input ≠ side s) →
      (50 ≤ ns → ns ≤ 10000 → s.pair.fence = false → ∃ t, exec (.fnInput input ns) s = .next t ∧ t.pair.fence = true ∧
        (pairState s ≠ 0 → pairState t = 7 ∧ t.pair.owned = []) ∧ (pairState s = 0 → onlyChanges [.pair] s t)) ∧
      (ns < 50 → ∃ t, exec (.fnInput input ns) s = .next t ∧ onlyChanges [.od] s t ∧
        odGet t K.pairShortPulses = counted s K.pairShortPulses) ∧
      (10000 < ns → exec (.fnInput input ns) s = .next s)) ∧
    (∀ input, input < 2 → (odGet s K.pairStuckInputs).testBit input = false → ∃ t, exec (.fnStuck input) s = .next t ∧
      (odGet t K.pairStuckInputs).testBit input = true ∧ replaced t) ∧
    (∀ input, input < 2 → (odGet s K.pairStuckInputs).testBit input = true → exec (.fnStuck input) s = .next s) ∧
    (∀ input level, input < 2 →
      let line : Input := if input = 0 then .pr0 else .pr1
      (chattering s line = false → input = side s → ∃ t, exec (.prChange input level true false) s = .next t ∧
        onlyChanges [.pair] s t ∧ t.pair.prHigh = level) ∧
      (chattering s line = false → ∃ t, exec (.prChange input level false false) s = .next t ∧ onlyChanges [.od] s t ∧
        odGet t K.pairShortPulses = counted s K.pairShortPulses) ∧
      (chattering s line = true → input = side s → ∃ t, exec (.prChange input level true false) s = .next t ∧
        onlyChanges [.pair] s t ∧ t.pair.prHigh = s.pair.prHigh ∧ t.pair.prLevel = level) ∧
      ∀ steady, ∃ t, exec (.prChange input level steady true) s = .next t ∧ chattering t line = true ∧
        t.pair.prHigh = (if input = side s then true else s.pair.prHigh))

/-- R332, R333, R335, R337, R339, R341, R342, R346, R347. -/
def Obligations.PowerSupply : Prop :=
  ∀ (s : State) (b : Nat), b < 144 →
    let x := blkOf s b
    let goal := 10 * targetMv s b
    let top := 10 * odGet s K.gradeCoreRailCeiling
    let replaced (t : State) (bit : Nat) : Prop := odGet t K.hlthReplaceRequest / 2 ^ bit % 2 = 1
    (∀ mv, coreOn x = true → 10 * mv < goal → x.setPoint + 25 ≤ top → ∃ t, exec (.setPointStep b mv) s = .next t ∧
      onlyChanges [.blocks] s t ∧ blkOf t b = { x with setPoint := x.setPoint + 25 }) ∧
    (∀ mv, coreOn x = true → 10 * mv < goal → top < x.setPoint + 25 → ∃ t, exec (.setPointStep b mv) s = .next t ∧
      onlyChanges [.od, .blocks] s t ∧ blkOf t b = { x with setPoint := top } ∧
      odGet t K.gradeCeilingClamps = counted s K.gradeCeilingClamps) ∧
    (∀ mv, coreOn x = true → goal + 25 ≤ 10 * mv → ∃ t, exec (.setPointStep b mv) s = .next t ∧
      onlyChanges [.blocks] s t ∧ blkOf t b = { x with setPoint := Nat.max 5500 (x.setPoint - 25) }) ∧
    (∀ mv, (coreOn x = false ∨ (goal ≤ 10 * mv ∧ 10 * mv < goal + 25)) → exec (.setPointStep b mv) s = .next s) ∧
    (∀ i, i < 16 → (odGet s K.pwrConvertersFailed).testBit i = false → ∃ t, exec (.converterFailure i) s = .next t ∧
      onlyChanges [.od, .recorder, .yield, .plant] s t ∧ workingConverters t + 1 = workingConverters s ∧ replaced t 3) ∧
    (∀ i, i < 16 → (odGet s K.pwrConvertersFailed).testBit i = true → exec (.converterFailure i) s = .next s) ∧
    (∀ d ph, ph < domainPhases d → ph ∉ failedPhases x d → x.mainOpen = false → x.transitOpen = false →
      let n := (failedPhases x d).length + 1
      let off := (d = .core ∧ 3 ≤ n) ∨ (n = 2 ∧ (d = .array ∨ d = .sram ∨ d = .stackQ ∨ d = .stackP))
      (d = .transit → n = 3 → ∃ t, exec (.phaseFailure b d ph) s = .next t ∧ (blkOf t b).transitOpen = true ∧
        (∀ cl ∈ blockClusters b, cl ∈ t.fabric.routers) ∧ 2 ∈ failedPhases (blkOf t (backfeed b)) .transit) ∧
      (¬ off → ¬(d = .transit ∧ n = 3) → ∃ t, exec (.phaseFailure b d ph) s = .next t ∧ onlyChanges [.od, .recorder, .blocks, .plant] s t ∧
        ph ∈ failedPhases (blkOf t b) d ∧ odGet t K.pwrPhaseFailures = counted s K.pwrPhaseFailures ∧ replaced t 4 ∧
        (blkOf t b).capped = (x.capped || (decide (d = .core) && decide (n = 2)))) ∧
      (off → x.run = .on → x.drain = none → ∃ t, exec (.phaseFailure b d ph) s = .next t ∧
        (blkOf t b).drain = some .supply ∧ ∀ cl ∈ blockClusters b, (clusterOf t cl).tokens = [0, 0, 0, 0])) ∧
    (∀ w, x.capped = true → capW s < w → 550 < targetMv s b → ∃ t, exec (.targetStep b w) s = .next t ∧
      onlyChanges [.blocks] s t ∧ blkOf t b = { x with capDrop := x.capDrop + 10 }) ∧
    (∀ w, (x.capped = false ∨ w ≤ capW s ∨ targetMv s b ≤ 550) → exec (.targetStep b w) s = .next s) ∧
    (∀ r : ConnReading, r.block = b → r.judged = true → r.group < 12 → kvGet 0 x.connState r.group ≠ 2 →
      (2000 < r.permille → 8 ≤ r.group → ∃ t, exec (.connectorCheck [r]) s = .next t ∧ replaced t 5 ∧
        kvGet 0 (blkOf t b).connState r.group = 2 ∧ (blkOf t b).capped = true) ∧
      (2000 < r.permille → r.group < 8 → r.group ∉ failedPhases x .core → (failedPhases x .core).length < 2 → x.mainOpen = false →
        ∃ t, exec (.connectorCheck [r]) s = .next t ∧ replaced t 5 ∧ kvGet 0 (blkOf t b).connState r.group = 2 ∧
          r.group ∈ failedPhases (blkOf t b) .core) ∧
      (1300 < r.permille → r.permille ≤ 2000 → kvGet 0 x.connState r.group = 0 →
        ∃ t, exec (.connectorCheck [r]) s = .next t ∧
          kvGet 0 (blkOf t b).connRun r.group = kvGet 0 x.connRun r.group + 1 ∧
          kvGet 0 (blkOf t b).connState r.group = if kvGet 0 x.connRun r.group + 1 < 10 then 0 else 1) ∧
      (r.permille ≤ 1300 → ∃ t, exec (.connectorCheck [r]) s = .next t ∧ onlyChanges [.blocks] s t ∧
        blkOf t b = { x with connRun := kvSet 0 x.connRun r.group 0 })) ∧
    (∀ mv w j l net, ∃ t, exec (.currentReport mv w j ⟨l, net⟩) s = .next t ∧ onlyChanges [.od, .plant, .fabric] s t ∧
      odGet t K.netVc1WaitTime = (if net.vc1WaitNs = 0 then odGet s K.netVc1WaitTime
        else counted s K.netVc1WaitTime net.vc1WaitNs) ∧
      odGet t K.pairBusFrameRetries = (if net.busRetries = 0 then odGet s K.pairBusFrameRetries
        else counted s K.pairBusFrameRetries net.busRetries) ∧
      odGet t K.pwrReportTick = counted s K.pwrReportTick ∧ odGet t K.pwrEnergy = counted s K.pwrEnergy j ∧
      odGet t K.pwrInputPower = Nat.min w (objTop K.pwrInputPower) ∧
      odGet t K.pwrInputVoltage = Nat.min mv (objTop K.pwrInputVoltage)) ∧
    (∀ w, governorLimit s < w → odGet s K.pwrGovernorDerate < derateTop s → ∃ t, exec (.governorStep w) s = .next t ∧
      odGet t K.pwrGovernorDerate = odGet s K.pwrGovernorDerate + 10 ∧ t.plant.governorAvg = w) ∧
    (∀ w, governorLimit s < w → derateTop s ≤ odGet s K.pwrGovernorDerate → ∃ t, exec (.governorStep w) s = .next t ∧
      odGet t K.pwrGovernorDerate = odGet s K.pwrGovernorDerate ∧
      (odGet s K.pwrGovernorHalved = 0 → odGet t K.pwrGovernorHalved = 1)) ∧
    (∀ w, 100 * w ≤ 95 * governorLimit s → odGet s K.pwrGovernorHalved = 1 → ∃ t, exec (.governorStep w) s = .next t ∧
      odGet t K.pwrGovernorHalved = 0) ∧
    (∀ w, 100 * w ≤ 95 * governorLimit s → 0 < odGet s K.pwrGovernorDerate → ∃ t, exec (.governorRaise w) s = .next t ∧
      odGet t K.pwrGovernorDerate = odGet s K.pwrGovernorDerate - 10) ∧
    (∀ w, 95 * governorLimit s < 100 * w → ∃ t, exec (.governorRaise w) s = .next t ∧ onlyChanges [.plant] s t ∧
      t.plant.governorAvg = w)

/-- R338, R339, R340, R344, R348, R349, R350. -/
def Obligations.PowerSwitching : Prop :=
  ∀ (s : State) (b : Nat), b < 144 →
    let x := blkOf s b
    (∀ d l, x.mainOpen = false → ∃ t, exec (.shortDeclared b .main d l) s = .next t ∧
      (blkOf t b).mainOpen = true ∧ ((blkOf t b).stack = .off ∨ (blkOf t b).stack = .lost) ∧
      (∀ cl ∈ blockClusters b, (clusterOf t cl).tokens = [0, 0, 0, 0]) ∧
      (∀ a, a / 2 ^ 37 = b → memRead t.stack a = 0) ∧ (∀ a, a / 2 ^ 37 ≠ b → memRead t.stack a = memRead s.stack a) ∧
      (∃ e ∈ yieldAll t, e.type = 9 ∧ e.location = b ∧ e.unit = 1) ∧
      odGet t K.hlthReplaceRequest / 2 ^ 6 % 2 = 1) ∧
    (∀ d l p, x.mainOpen = false → partOfBlock s b = some p → (partOf s p).runs = true → (partOf s p).fault = none →
      ∃ t, exec (.shortDeclared b .main d l) s = .next t ∧ (partOf t p).fault = some (0x0011, (blockClusters b).headD 0)) ∧
    (∀ d l, x.mainOpen = true → exec (.shortDeclared b .main d l) s = .next s) ∧
    (∀ d l, x.transitOpen = false → ∃ t, exec (.shortDeclared b .transit d l) s = .next t ∧
      (blkOf t b).transitOpen = true ∧ (∀ cl ∈ blockClusters b, cl ∈ t.fabric.routers) ∧
      t.stack = s.stack ∧ t.scratch = s.scratch) ∧
    (∀ d l, x.transitOpen = true → exec (.shortDeclared b .transit d l) s = .next s) ∧
    (blockIncoming s b ≠ 0 → exec (.blockDrainComplete b) s = .next s) ∧
    (blockIncoming s b = 0 → x.drain = some .supply → ∃ t, exec (.blockDrainComplete b) s = .next t ∧
      onlyChanges [.stack, .stackPoison, .blocks] s t ∧ (blkOf t b).run = .supplyOff ∧ (blkOf t b).drain = none ∧
      ∀ a, a / 2 ^ 37 = b → memRead t.stack a = 0) ∧
    (blockIncoming s b = 0 → x.drain = some .idle → ∃ t, exec (.blockDrainComplete b) s = .next t ∧
      onlyChanges [.stack, .stackPoison, .blocks] s t ∧ (blkOf t b).run = .idleOff ∧ (blkOf t b).drain = none ∧
      (stackNeeded s b = true → t.stack = s.stack)) ∧
    (blockIncoming s b = 0 → x.drain = some .heat → x.drainStack = false → ∃ t, exec (.blockDrainComplete b) s = .next t ∧
      onlyChanges [.od, .recorder, .blocks] s t ∧ blkOf t b = { x with drain := none, run := .heatOff } ∧
      odGet t K.heatHeatOffs = counted s K.heatHeatOffs) ∧
    (odGet s K.pwrIdleOffDelay ≠ 0 → partOfBlock s b = none → x.run = .on → x.drain = none →
      ∃ t, exec (.idleOff b) s = .next t ∧ onlyChanges [.stack, .stackPoison, .blocks] s t ∧
        (blockIncoming s b = 0 → (blkOf t b).run = .idleOff) ∧
        (blockIncoming s b ≠ 0 → blkOf t b = { x with drain := some .idle })) ∧
    (odGet s K.pwrIdleOffDelay = 0 ∨ partOfBlock s b ≠ none ∨ x.run ≠ .on ∨ x.drain ≠ none → exec (.idleOff b) s = .next s) ∧
    ((∀ c, (coreOf s c).waiting = []) → s.Canonical → ∃ t, exec .creditRefill s = .next t ∧ ∀ cl f, f < 4 →
      let c := clusterOf s cl
      getAt 0 (clusterOf t cl).credit f =
        Nat.min (getAt 0 c.credit f + getAt 0 c.tokens f * 15625) (4 * (getAt 0 c.tokens f * 15625))) ∧
    (∀ c f, x.run = .waking → x.wakeDue = false → ∃ t, exec (.wakeComplete b c f) s = .next t ∧ (blkOf t b).run = .on ∧
      ((∀ p, (partOf s p).state ≠ .loading) → odGet t K.pacerWakes = counted s K.pacerWakes ∧
        ∀ cl ∈ blockClusters b, ∀ a, a / 2 ^ 25 = cl → memRead t.scratch a = 0)) ∧
    (∀ c f, x.run ≠ .waking → exec (.wakeComplete b c f) s = .next s) ∧
    (∀ c, s.plant.powered = true → s.plant.powerFail = false → ∃ t, exec (.powerFail c) s = .next t ∧
      t.plant.powered = false ∧ t.plant.powerFail = true ∧ t.parts = [] ∧ t.sessions = [] ∧ t.subRings = [] ∧
      t.compRings = [] ∧ t.sets = [] ∧ t.scratch = [] ∧ t.stack = [] ∧ t.recorder.accepting = false ∧
      t.recorder.flushing = some t.recorder.lastSeq ∧ odGet t K.devResetCause = 1)

/-- R358, R359, R360, R361, R362, R364, R366, R367, R375. -/
def Obligations.HeatThrottling : Prop :=
  ∀ (s : State) (b : Nat), b < 144 →
    let x := blkOf s b
    let replaced (t : State) (bit : Nat) : Prop := odGet t K.hlthReplaceRequest / 2 ^ bit % 2 = 1
    let hotBy (stack : Bool) : Prop := if stack then ∃ v, blockStack s b = some v ∧ thresholdOf s K.heatStackThresholds 4 ≤ v
      else ∃ v, blockJunction s b = some v ∧ thresholdOf s K.heatJunctionThresholds 4 ≤ v
    (∀ r v, sensorExists r = true →
      let y := sensorOf s (sensorKey r)
      let bad : Prop := v < -200 ∨ 1500 < v ∨ (y.seen = true ∧ 200 < (v - y.value).natAbs)
      ∃ t, exec (.sensorRead [⟨r, some v⟩]) s = .next t ∧
        (let z := sensorOf t (sensorKey r)
         z.value = v ∧ z.seen = true ∧ (z.failed = true ↔ bad) ∧ z.suspect = y.suspect) ∧
        (bad → y.failed = false → replaced t 8 ∧ ∃ e ∈ yieldAll t, e.type = 0x0C ∧ e.value = 2) ∧
        ∀ cl ∈ blockClusters (sensorBlock r), ∀ w, clusterReading t cl = some w → (clusterOf t cl).govTemp = w) ∧
    (∀ r, sensorExists r = true → ∃ t, exec (.sensorRead [⟨r, none⟩]) s = .next t ∧
      (sensorOf t (sensorKey r)).failed = true ∧ (sensorOf t (sensorKey r)).value = (sensorOf s (sensorKey r)).value) ∧
    (∀ r, sensorExists r = true →
      let k := sensorKey (lowerOf s r)
      let apart := (sensorOf s (k / 2 * 2)).apart
      (apart = true → (sensorOf s k).suspect = false → ∃ t, exec (.sensorSuspect r) s = .next t ∧
        onlyChanges [.od, .recorder, .yield, .sensors, .plant] s t ∧ (sensorOf t k).suspect = true ∧ replaced t 8 ∧
        odGet t K.heatSensorsSuspect = counted s K.heatSensorsSuspect) ∧
      (apart = false → exec (.sensorSuspect r) s = .next s)) ∧
    (x.level < calledLevel s b → ∃ t, exec (.levelRise b) s = .next t ∧ onlyChanges [.od, .recorder, .sessions, .blocks] s t ∧
      blkOf t b = { x with level := x.level + 1 }) ∧
    (calledLevel s b ≤ x.level → exec (.levelRise b) s = .next s) ∧
    (levelFloor s b < x.level →
      (∀ v, blockJunction s b = some v → v < thresholdOf s K.heatJunctionThresholds (x.level - 1) - 10 * odGet s K.heatHysteresis) →
      (∀ v, blockStack s b = some v → v < thresholdOf s K.heatStackThresholds (x.level - 1) - 10 * odGet s K.heatHysteresis) →
      ∃ t, exec (.levelFall b) s = .next t ∧ onlyChanges [.od, .recorder, .sessions, .blocks] s t ∧
        blkOf t b = { x with level := x.level - 1 }) ∧
    ((x.level ≤ levelFloor s b ∨ (∃ v, blockJunction s b = some v ∧
        thresholdOf s K.heatJunctionThresholds (x.level - 1) - 10 * odGet s K.heatHysteresis ≤ v) ∨
        ∃ v, blockStack s b = some v ∧ thresholdOf s K.heatStackThresholds (x.level - 1) - 10 * odGet s K.heatHysteresis ≤ v) →
      exec (.levelFall b) s = .next s) ∧
    (∀ byStack, x.level = 4 → hotBy byStack → x.run = .on → x.drain = none → ∃ t, exec (.heatOff b byStack) s = .next t ∧
      onlyChanges [.od, .clusters, .parts, .recorder, .blocks] s t ∧
      blkOf t b = { x with drain := some .heat, drainStack := byStack, wakeDue := false } ∧
      (∀ cl ∈ blockClusters b, (clusterOf t cl).tokens = [0, 0, 0, 0]) ∧
      ∀ p, partOfBlock s b = some p → (partOf s p).runs = true → (partOf s p).fault = none →
        (partOf t p).fault = some (0x0012, (blockClusters b).headD 0)) ∧
    (∀ byStack, x.level = 4 → hotBy byStack → x.run = .waking → x.drain = none → x.wakeDue = false →
      ∃ t, exec (.heatOff b byStack) s = .next t ∧ (blkOf t b).run = .heatOff ∧
        (byStack = true → (blkOf t b).stack ≠ .trained ∧ ∀ a, a / 2 ^ 37 = b → memRead t.stack a = 0)) ∧
    (∀ byStack, (x.level ≠ 4 ∨ ¬ hotBy byStack) → exec (.heatOff b byStack) s = .next s) ∧
    (x.run = .heatOff → s.plant.shutdown = false → s.plant.stopActive = false →
      (∃ v, blockJunction s b = some v ∧ v < thresholdOf s K.heatJunctionThresholds 0 - 10 * odGet s K.heatHysteresis) →
      (∃ v, blockStack s b = some v ∧ v < thresholdOf s K.heatStackThresholds 0 - 10 * odGet s K.heatHysteresis) →
      ∃ t, exec (.heatReturn b) s = .next t ∧ onlyChanges [.od, .recorder, .blocks, .plant] s t ∧ (blkOf t b).level = 2 ∧
        (dieWaking s b = false → (blkOf t b).run = .waking) ∧
        (dieWaking s b = true → (blkOf t b).run = .idleOff ∧ (blkOf t b).wakeDue = true)) ∧
    (x.run ≠ .heatOff → exec (.heatReturn b) s = .next s) ∧
    (∀ r, sensorExists r = true → sensorBlock r = b → (sensorOf s (sensorKey r)).failed = false → x.mainOpen = false →
      ∃ t, exec (.hardwareTrip r) s = .next t ∧ (blkOf t b).mainOpen = true ∧
        (∃ e ∈ yieldAll t, e.type = 9 ∧ e.location = b ∧ e.unit = 3) ∧ ∀ a, a / 2 ^ 37 = b → memRead t.stack a = 0) ∧
    (∀ r, sensorExists r = true → (sensorOf s (sensorKey r)).failed = true → exec (.hardwareTrip r) s = .next s)

/-- R368, R369, R418, R419, R420. -/
def Obligations.CoolantAndInterlocks : Prop :=
  ∀ (s : State),
    let cool := odGet s K.coolCoolantState
    let bit (t : State) (n : Nat) : Bool := (odGet t K.hlthInputStatus).testBit n
    let faulted (t : State) (code : Nat) : Prop := ∀ p, (partOf s p).runs = true → (partOf s p).fault = none →
      (partOf t p).fault = some (code, (partOf s p).oy * 24 + (partOf s p).ox)
    (∀ flow inlet outlet,
      let row := coolantRow s flow inlet outlet
      let calls := if s.plant.coolFloor then Nat.max 3 row else row
      (calls ≤ cool → ∃ t, exec (.coolantCheck flow inlet outlet) s = .next t ∧ onlyChanges [.od, .plant] s t ∧
        odGet t K.coolCoolantState = cool ∧ t.plant.coolRow = row ∧ odGet t K.coolInletTemp = i16 inlet ∧
        odGet t K.coolOutletTemp = i16 outlet) ∧
      (cool < calls → calls < 4 → ∃ t, exec (.coolantCheck flow inlet outlet) s = .next t ∧
        onlyChanges [.od, .plant, .recorder] s t ∧ odGet t K.coolCoolantState = calls ∧ t.plant.coolRow = row ∧
        odGet t K.coolCoolantEvents = counted s K.coolCoolantEvents) ∧
      (cool < calls → calls = 4 → s.plant.shutdown = false → ∃ t, exec (.coolantCheck flow inlet outlet) s = .next t ∧
        t.plant.shutdown = true ∧ t.plant.coolHold = true ∧ faulted t 0x0013 ∧
        t.recorder.flushing = some t.recorder.lastSeq)) ∧
    (s.plant.heldBringUp = none → s.plant.shutdown = false → coolantCalls s < cool → ∃ t, exec .coolantStateFall s = .next t ∧
      onlyChanges [.od, .recorder] s t ∧ odGet t K.coolCoolantState = cool - 1) ∧
    (s.plant.heldBringUp = none → s.plant.shutdown = false → cool ≤ coolantCalls s → exec .coolantStateFall s = .next s) ∧
    (s.plant.heldBringUp = none → s.plant.shutdown = true → ∃ t, exec .coolantStateFall s = .next t ∧ onlyChanges [.plant] s t ∧
      t.plant.shutdown = true ∧ t.plant.coolHold = (s.plant.coolHold && s.plant.coolRow != 0)) ∧
    (∀ ns a o, ns < 50 → ∃ t, exec (.ilkCoolNInput ns a o) s = .next t ∧ exec (.ilkStopNInput ns a o) s = .next t ∧
      onlyChanges [.od] s t ∧ odGet t K.hlthInterlockGlitches = counted s K.hlthInterlockGlitches) ∧
    (∀ ns, 50 ≤ ns → s.plant.coolRow < 4 → ∃ t, exec (.ilkCoolNInput ns true false) s = .next t ∧
      onlyChanges [.od, .recorder, .plant] s t ∧ bit t 16 = true ∧ t.plant.coolFloor = true ∧
      odGet t K.coolCoolantState = Nat.max cool 3) ∧
    (∀ ns, 50 ≤ ns → chattering s .ilkCool = false → ∃ t, exec (.ilkCoolNInput ns false false) s = .next t ∧
      onlyChanges [.od] s t ∧ bit t 16 = false) ∧
    (∀ ns a, 50 ≤ ns → s.plant.coolRow < 4 → ∃ t, exec (.ilkCoolNInput ns a true) s = .next t ∧ chattering t .ilkCool = true ∧
      t.plant.coolFloor = true) ∧
    (∀ ns, 50 ≤ ns → s.plant.stopActive = false → ∃ t, exec (.ilkStopNInput ns true false) s = .next t ∧
      t.plant.stopActive = true ∧ faulted t 0x0015 ∧ t.recorder.flushing = some t.recorder.lastSeq ∧
      ∀ b, b < 144 → (blkOf s b).run = .on → (blkOf s b).drain = none → (blkOf s b).wakeDue = false →
        (blkOf t b).drain = some .heat ∧ (blkOf t b).stopOff = true) ∧
    (∀ ns, 50 ≤ ns → s.plant.stopActive = true → ∃ t, exec (.ilkStopNInput ns true false) s = .next t ∧
      onlyChanges [.od] s t ∧ bit t 17 = true) ∧
    (bit s 16 = false → chattering s .ilkCool = false → ∃ t, exec (.interlockRelease false) s = .next t ∧
      onlyChanges [.plant] s t ∧ t.plant = { s.plant with coolFloor := false }) ∧
    (bit s 16 = true → exec (.interlockRelease false) s = .next s) ∧
    (bit s 17 = false → chattering s .ilkStop = false → s.plant.stopActive = true → ∃ t, exec (.interlockRelease true) s = .next t ∧
      onlyChanges [.plant, .blocks] s t ∧ t.plant = { s.plant with stopActive := false } ∧
      ∀ b, b < 144 → (blkOf t b).run = if (blkOf s b).stopOff = true ∧ (blkOf s b).run = .heatOff ∧ s.plant.shutdown = false
        then .idleOff else (blkOf s b).run) ∧
    (bit s 17 = true → exec (.interlockRelease true) s = .next s) ∧
    (bit s 16 = true → bit s 4 = false → ∃ t, exec .ilkCoolNStuck s = .next t ∧ onlyChanges [.od, .recorder, .plant] s t ∧
      bit t 4 = true ∧ odGet t K.hlthReplaceRequest / 2 ^ 12 % 2 = 1) ∧
    ((bit s 16 = false ∨ bit s 4 = true) → exec .ilkCoolNStuck s = .next s) ∧
    (∀ i n, chatterBit i = some n → ∃ t, exec (.chatterClear i) s = .next t ∧
      onlyChanges [.od, .blocks, .plant, .pair] s t ∧ bit t n = false ∧
      (bit s n = false → t = s) ∧
      (bit s n = true →
        (i = .rackReference → odGet t K.meshReferencePresent = 1) ∧
        (i = .ilkCool → bit s 16 = false → t.plant.coolFloor = false) ∧
        (i = .ilkStop → bit s 17 = false → t.plant.stopActive = false) ∧
        ((i = .pr0 ∧ side s = 0) ∨ (i = .pr1 ∧ side s = 1) → t.pair.prHigh = s.pair.prLevel))) ∧
    (∀ p, p < 2 → ∃ t, exec (.chatterClear (if p = 0 then .perst0 else .perst1)) s = .next t ∧
      onlyChanges [.od, .recorder, .pcie] s t ∧ (portOf t p).chatter = false)

/-- R379, R380, R389, R390, R405, R436. -/
def Obligations.Resets : Prop :=
  ∀ (s : State) (rq : Rq),
    let up := s.plant.powered = true ∧ s.plant.powerFail = false
    let base := (List.range 144).foldl (fun n b => n + Config.baseDraw b) 0
    let restarted (t : State) (cause : Nat) : Prop :=
      t.parts = [] ∧ t.sessions = [] ∧ t.subRings = [] ∧ t.compRings = [] ∧ t.sets = [] ∧ t.cores = [] ∧ t.mgmt = [] ∧
      t.scratch = s.scratch ∧ t.stack = s.stack ∧ t.plant.resetting = true ∧ odGet t K.devResetCause = cause ∧
      odGet t K.devBringUpState = 0 ∧ t.recorder.accepting = false ∧ t.recorder.flushing = some t.recorder.lastSeq
    let failedFor (t : State) (reason : Nat) : Prop := odGet t K.devBringUpState = 9 ∧ odGet t K.devBringUpFailure = reason ∧
      odGet t K.hlthHealthState = 2 ∧ t.plant.resetting = false
    (Accepts s rq K.devModuleReset 1 → up → s.plant.resetting = false → ∃ t, exec (.moduleReset rq 1) s = .next t ∧
      restarted t 2 ∧ OkReply t rq 0x02 K.devModuleReset) ∧
    (Accepts s rq K.devModuleReset 0 → s.plant.resetDue = none → ∃ t, exec (.moduleReset rq 0) s = .next t ∧
      Accepted s t rq K.devModuleReset []) ∧
    (∀ ns, up → s.plant.resetting = false → 50 ≤ ns → chattering s .mrst = false →
      ∃ t, exec (.mrstNInput ns false) s = .next t ∧ restarted t 3) ∧
    (∀ ns, s.plant.powered = true → 50 ≤ ns → chattering s .mrst = false → ∃ t, exec (.mrstNInput ns true) s = .next t ∧
      onlyChanges [.od, .recorder, .plant] s t ∧ chattering t .mrst = true) ∧
    (∀ ns o, s.plant.powered = true → ns < 50 → ∃ t, exec (.mrstNInput ns o) s = .next t ∧ onlyChanges [.od] s t ∧
      odGet t K.devResetGlitches = counted s K.devResetGlitches) ∧
    (∀ ns o, s.plant.powered = true → 50 ≤ ns → chattering s .mrst = true → exec (.mrstNInput ns o) s = .next s) ∧
    (odGet s K.devResetInputStuck ≠ 1 → ∃ t, exec .mrstNStuck s = .next t ∧ onlyChanges [.od, .recorder, .plant] s t ∧
      odGet t K.devResetInputStuck = 1 ∧ inputBit t 3 = true) ∧
    (odGet s K.devResetInputStuck = 1 → exec .mrstNStuck s = .next s) ∧
    (up → s.plant.resetting = false → ∃ t, exec .watchdog s = .next t ∧ restarted t 4) ∧
    (up → s.plant.resetting = true → ∃ t, exec .watchdog s = .next t ∧ onlyChanges [.od, .recorder] s t) ∧
    (∀ ms lost f, s.plant.resetting = true → odGet s K.devBringUpState = 0 → s.plant.heldBringUp = none →
      ∃ t, exec (.resetWipeComplete ms lost f) s = .next t ∧ t.scratch = [] ∧
        (f.slotOk0 = false → f.slotOk1 = false → (f.mpFailA && f.mpFailB) = false → failedFor t 2)) ∧
    (∀ ms lost f, s.plant.resetting = false → exec (.resetWipeComplete ms lost f) s = .next s) ∧
    (s.plant.powered = true → ∀ f, exec (.resetRelease f) s = .next s) ∧
    (∀ f : BringUp, s.plant.powered = false → s.stored = [] → s.security.transition = none → (f.mpFailA && f.mpFailB) = false →
      let working := ((List.range 16).filter (fun i => !(f.convertersFailed.contains i))).length
      ∃ t, exec (.resetRelease f) s = .next t ∧ t.scratch = [] ∧ t.plant.powered = true ∧
        (working * 200000 < base * 121 → failedFor t 1) ∧
        (base * 121 ≤ working * 200000 → lifecycle s ≠ lcDisposed → s.security.activate = none →
          odGet s K.devFirmwareSlot = 0 → f.slotOk0 = true → s.security.slot0.valid = true →
          odGet s K.secFwFuseVersion ≤ s.security.slot0.version →
          t.plant.heldBringUp = some f ∧ odGet t K.devBringUpState = 4 ∧ meshState t = 1 ∧
            odGet t K.meshReferencePresent = if f.reference then 1 else 0))

/-- R37, R61, R391, R400, R402. -/
def Obligations.PartitionEnds : Prop :=
  ∀ (s : State) (rq : Rq) (p : Nat), p < 48 → s.security.transition = none →
    let pt := partOf s p
    let stopped (t : State) : Prop := (partOf t p).verdict = none ∧
      ∀ c ∈ partCores s p, (coreOf t c).waiting = [] ∧ (coreOf t c).hold = .none
    (Accepts s rq (K.partPartitionReset p) 1 → pt.runs = true → ∃ t, exec (.partitionReset rq p 1) s = .next t ∧
      (partOf t p).state = .resetting ∧ stopped t ∧ t.scratch = s.scratch ∧ t.stack = s.stack ∧
      OkReply t rq 0x02 (K.partPartitionReset p)) ∧
    (Accepts s rq (K.partPartitionReset p) 1 → pt.state = .loading → ∃ t, exec (.partitionReset rq p 1) s = .next t ∧
      Accepted s t rq (K.partPartitionReset p) [.od, .parts, .recorder] ∧ odGet t (K.partLoadResult p) = pt.oldResult ∧
      partOf t p = { pt with state := .resetting, wiping := true, heldLoad := none }) ∧
    (Accepts s rq (K.partPartitionReset p) 1 → pt.state = .faulted → ∃ t, exec (.partitionReset rq p 1) s = .next t ∧
      Accepted s t rq (K.partPartitionReset p) []) ∧
    (Accepts s rq (K.partPartitionReset p) 1 → (pt.state = .empty ∨ pt.state = .resetting) →
      ∃ t, exec (.partitionReset rq p 1) s = .next t ∧
        Answered s t rq 0x02 (K.partPartitionReset p / 256) (K.partPartitionReset p % 256) 0x06 [] []) ∧
    (∀ code cl, pt.fault = some (code, cl) → pt.state ≠ .faulted → s.commits = [] →
      ∃ t, exec (.partitionFault p none) s = .next t ∧ (partOf t p).state = .faulted ∧ stopped t ∧
        odGet t (K.partLastFault p) = code ∧ odGet t (K.partFaultCluster p) = cl ∧
        (∀ cl ∈ pt.clusters, (clusterOf t cl).fenced = true) ∧ t.scratch = s.scratch) ∧
    (∀ c : CoreRef, pt.runs = true → pt.fault = none → pt.holds c.cluster = true → partAt s c.cluster = some p → s.commits = [] →
      ∃ t, exec (.partitionFault p (some c)) s = .next t ∧ (partOf t p).state = .faulted ∧
        odGet t (K.partLastFault p) = 0x0014 ∧ odGet t (K.partFaultCluster p) = c.cluster ∧
        ∃ e ∈ yieldAll t, e.type = 1 ∧ e.location = c.cluster ∧ e.value = 6) ∧
    (pt.fault = none → pairState s ≠ 4 → exec (.partitionFault p none) s = .next s) ∧
    (wipeDue s p = true → partIncoming s p = 0 → pt.state ≠ .draining → ∃ t, exec (.partitionWipeComplete p) s = .next t ∧
      (partOf t p).state = .empty ∧
      (∀ cl ∈ pt.clusters, ∀ a, a / 2 ^ 25 = cl → memRead t.scratch a = 0) ∧
      (∀ b ∈ pt.blocks, ∀ a, a / 2 ^ 37 = b → regionOf s b * 65536 ≤ a % 2 ^ 37 → a % 2 ^ 37 < framesPerStack * 65536 →
        memRead t.stack a = 0) ∧
      ∀ a, a / 2 ^ 25 ∉ pt.clusters → memRead t.scratch a = memRead s.scratch a) ∧
    ((wipeDue s p = false ∨ partIncoming s p ≠ 0) → exec (.partitionWipeComplete p) s = .next s)

/-- R36, R282, R392, R393, R394, R410, R411, R413, R422. -/
def Obligations.RetrainsAndTakeovers : Prop :=
  ∀ (s : State) (rq : Rq) (b l : Nat), b < 144 → l < linkCount → s.Canonical →
    let x := blkOf s b
    let y := linkOf s l
    let class0 := (stackUsers s b).any (hasClass0 s)
    let class0l := (linkOwner s l).toList.any (hasClass0 s)
    let begun (t : State) : Prop :=
      blkOf t b = { x with stack := .retraining, retrainDue := false, timersHeld := stackUsers s b } ∧
      ∀ q ∈ stackUsers s b, (partOf t q).timerHolds = (partOf s q).timerHolds + 1
    let linkBegun (t : State) : Prop := (linkOf t l).retraining = true ∧ (∀ k, k ≠ l → linkOf t k = linkOf s k) ∧
      (linkOf t l).timersHeld = linkUsers s l ∧ ∀ q ∈ linkUsers s l, (partOf t q).timerHolds = (partOf s q).timerHolds + 1
    (∀ rate, odGet s K.yldStackErrorRate < rate → x.stack = .trained →
      (class0 = false → dieRetraining s b = false → ∃ t, exec (.stackErrorRate b rate) s = .next t ∧
        onlyChanges [.parts, .blocks, .out] s t ∧ begun t) ∧
      (class0 = true → ∃ t, exec (.stackErrorRate b rate) s = .next t ∧ onlyChanges [.od, .recorder, .blocks] s t ∧
        blkOf t b = { x with stack := .held, retrainDue := true })) ∧
    (∀ rate, rate ≤ odGet s K.yldStackErrorRate → exec (.stackErrorRate b rate) s = .next s) ∧
    (Accepts s rq K.yldStackRetrain b → class0 = false → dieRetraining s b = false → x.stack = .trained →
      ∃ t, exec (.stackRetrain rq b) s = .next t ∧ Accepted s t rq K.yldStackRetrain [.parts, .blocks] ∧ begun t) ∧
    (Accepts s rq K.yldStackRetrain b → class0 = true → ∃ t, exec (.stackRetrain rq b) s = .next t ∧
      Answered s t rq 0x02 (K.yldStackRetrain / 256) (K.yldStackRetrain % 256) 0x06 [] []) ∧
    (x.stack = .retraining → x.retrainDue = false → (∀ p, (partOf s p).state ≠ .loading) →
      ∀ lanes,
      (∃ t, exec (.stackRetrainComplete b (some lanes)) s = .next t ∧ (blkOf t b).stack = .trained ∧ t.scratch = s.scratch ∧
        t.stack = s.stack ∧ odGet t K.yldRetrains = counted s K.yldRetrains ∧
        ∀ lane ∈ lanes, ∃ e ∈ yieldAll t, e.type = 0x0A ∧ e.location = b ∧ e.index = lane) ∧
      ∃ t, exec (.stackRetrainComplete b none) s = .next t ∧ (blkOf t b).stack = .lost ∧
        ∃ e ∈ yieldAll t, e.type = 0x0B ∧ e.location = b) ∧
    (x.stack ≠ .retraining → x.timersHeld = [] → ∀ lanes, exec (.stackRetrainComplete b lanes) s = .next s) ∧
    (stitched l = true → y.failed = false → y.retraining = false → class0l = false →
      (∃ t, exec (.linkRetryRate l) s = .next t ∧ onlyChanges [.od, .cores, .parts, .recorder, .plant, .fabric, .out] s t ∧ linkBegun t) ∧
      (Accepts s rq K.yldLinkRetrain l → ∃ t, exec (.linkRetrain rq l) s = .next t ∧
        Accepted s t rq K.yldLinkRetrain [.od, .cores, .parts, .recorder, .plant, .fabric] ∧ linkBegun t)) ∧
    (class0l = true → Accepts s rq K.yldLinkRetrain l → ∃ t, exec (.linkRetrain rq l) s = .next t ∧
      Answered s t rq 0x02 (K.yldLinkRetrain / 256) (K.yldLinkRetrain % 256) 0x06 [] []) ∧
    (stitched l = false ∨ y.failed = true ∨ y.retraining = true → exec (.linkRetryRate l) s = .next s) ∧
    (y.retraining = true → y.failed = false →
      (boundSpares s l 0 ≤ 64 → boundSpares s l 1 ≤ 64 →
        (∀ w, boundSpares s l 0 < 64 → ∃ t, exec (.linkRetrainComplete l [w] []) s = .next t ∧
          (linkOf t l).retraining = false ∧ (linkOf t l).wires = y.wires ++ [(w, boundSpares s l 0)] ∧
          odGet t K.netSeamSparesLeft = odGet s K.netSeamSparesLeft - 1 ∧ odGet t K.yldRetrains = counted s K.yldRetrains) ∧
        (∀ w, boundSpares s l 1 < 64 → ∃ t, exec (.linkRetrainComplete l [] [w]) s = .next t ∧
          (linkOf t l).retraining = false ∧ (linkOf t l).wires = y.wires ++ [(65536 + w, boundSpares s l 1)] ∧
          odGet t K.netSeamSparesLeft = odGet s K.netSeamSparesLeft - 1 ∧ odGet t K.yldRetrains = counted s K.yldRetrains) ∧
        ∃ t, exec (.linkRetrainComplete l [] []) s = .next t ∧ onlyChanges [.od, .parts, .fabric, .out] s t ∧
          linkOf t l = { y with retraining := false, timersHeld := [] }) ∧
      ∀ ws vs, (64 < boundSpares s l 0 + ws.length ∨ 64 < boundSpares s l 1 + vs.length) →
        ∃ t, exec (.linkRetrainComplete l ws vs) s = .next t ∧ (linkOf t l).failed = true ∧
        (linkOf t l).retraining = false ∧ odGet t K.hlthReplaceRequest / 2 ^ 9 % 2 = 1) ∧
    (y.retraining = false → ∀ ws vs, exec (.linkRetrainComplete l ws vs) s = .next s) ∧
    (let first := decide (odGet s K.devPrimaryMp = 1)
     ∀ us, odGet s K.devPrimaryMp < 2 → preparing s = none → mpIsUp s first = true →
      ∃ t, exec (.mpHeartbeatTimeout us) s = .next t ∧ exec (.mpSelfCheckFail us) s = .next t ∧ mpIsUp t first = false ∧
        (∀ i, (mgmtOf t i).isOpen = false) ∧ odGet t K.hlthReplaceRequest / 2 ^ 10 % 2 = 1 ∧
        (mpIsUp s (!first) = true → odGet t K.devPrimaryMp = 1 - odGet s K.devPrimaryMp ∧
          odGet t K.hlthMpTakeovers = counted s K.hlthMpTakeovers ∧ t.recorder.flushing = some t.recorder.lastSeq) ∧
        (mpIsUp s (!first) = false → odGet t K.devPrimaryMp = odGet s K.devPrimaryMp)) ∧
    (∀ us, mpIsUp s (decide (odGet s K.devPrimaryMp = 1)) = false → exec (.mpHeartbeatTimeout us) s = .next s)

/-- R427, R429, R431, R432, R435, R436, R437. -/
def Obligations.RecorderSlots : Prop :=
  ∀ (s : State) (e : Event) (rq : Rq) (slot : Nat),
    let r := s.recorder
    let count := r.pendingCount e.code e.location
    let suppressed := !(neverSuppressed e.code) && r.inWindow e.code e.location
    let record (n code : Nat) (payload : List Byte) : RecSlot := { bytes := recordBytes n { code, source := .recorder, payload } 0 }
    let tally := natLe r.firstSeq 8 ++ natLe r.lastSeq 8 ++ natLe (odGet s K.recEventsDropped) 8
    let cleared : Recorder := { r with
      firstSeq := r.lastSeq + 1, slots := [record (r.lastSeq + 1) 0xB003 tally], flash := [], clearing := false
      ceiling := if r.lastSeq + 1 ≥ r.ceiling then r.ceiling + 2 ^ 20 else r.ceiling }
    (r.accepting = true → suppressed = false → r.slots.length + 2 < logSlots → ∃ t, exec (.eventRecord .hardware e) s = .next t ∧
      onlyChanges [.recorder] s t ∧ t.recorder.slots = r.slots ++ [{ bytes := recordBytes r.nextSeq e count }] ∧
      t.recorder.firstSeq = r.firstSeq ∧
      (neverSuppressed e.code = false → odGet s K.recSuppressWindow ≠ 0 →
        t.recorder.inWindow e.code e.location = true ∧ t.recorder.pendingCount e.code e.location = 0)) ∧
    (r.accepting = true → suppressed = true → ∃ t, exec (.eventRecord .hardware e) s = .next t ∧
      onlyChanges [.od, .recorder] s t ∧ t.recorder.slots = r.slots ∧ odGet t K.recSuppressed = counted s K.recSuppressed ∧
      t.recorder.pendingCount e.code e.location = count + 1) ∧
    (r.accepting = false → exec (.eventRecord .hardware e) s = .next s) ∧
    (∀ b, r.accepting = true → suppressed = false → r.slots.length + 2 < logSlots →
      ∃ t, exec (.eventRecord (.reserve b) e) s = .next t ∧ onlyChanges [.recorder] s t ∧
        t.recorder.slots = r.slots ++ [{ reserved := some b }] ∧ t.recorder.lastSeq = r.lastSeq) ∧
    ((slotReserved r slot).isSome = true → ∃ t, exec (.eventRecord (.commit slot) e) s = .next t ∧ onlyChanges [.recorder] s t ∧
      t.recorder.slots = r.slots.set slot { bytes := recordBytes (r.firstSeq + slot) e count }) ∧
    (slotReserved r slot = none → exec (.eventRecord (.commit slot) e) s = .next s ∧ exec (.gapTimeout slot) s = .next s) ∧
    (∀ b, slotReserved r slot = some b → ∃ t, exec (.gapTimeout slot) s = .next t ∧ onlyChanges [.od, .recorder] s t ∧
      odGet t K.recGaps = counted s K.recGaps ∧ t.recorder = { r with
        slots := r.slots.set slot (record (r.firstSeq + slot) 0xB002 [if b then 1 else 0]) }) ∧
    (∀ code loc, r.inWindow code loc = true → ∃ t, exec (.suppressWindowEnd code loc) s = .next t ∧ onlyChanges [.recorder] s t ∧
      t.recorder.inWindow code loc = false ∧ t.recorder.pendingCount code loc = r.pendingCount code loc ∧
      t.recorder.slots = r.slots) ∧
    (∀ code loc, r.inWindow code loc = false → exec (.suppressWindowEnd code loc) s = .next s) ∧
    (Accepts s rq K.recClear 1 → r.flushing = none → ∃ t, exec (.recorderClear rq 1) s = .next t ∧
      Accepted s t rq K.recClear [.od, .recorder] ∧ t.recorder = cleared ∧ odGet t K.recEventsDropped = 0) ∧
    (Accepts s rq K.recClear 1 → r.flushing ≠ none → ∃ t, exec (.recorderClear rq 1) s = .next t ∧
      Accepted s t rq K.recClear [.recorder] ∧ t.recorder = { r with clearing := true }) ∧
    (Accepts s rq K.recFlushNow 1 → ∃ t, exec (.flushNow rq 1) s = .next t ∧
      Accepted s t rq K.recFlushNow [.recorder] ∧ t.recorder = { r with flushing := some r.lastSeq }) ∧
    (∀ us n, r.flushing = some n → r.clearing = false → ∃ t, exec (.flushComplete (.done us)) s = .next t ∧
      onlyChanges [.od, .recorder] s t ∧ odGet t K.recFlushes = counted s K.recFlushes ∧
      t.recorder = { r with flash := mirrorLog r n, flushedSeq := n, flushing := none }) ∧
    (∀ seq n, r.flushing = some n → r.clearing = false → ∃ t, exec (.flushComplete (.failed seq)) s = .next t ∧
      onlyChanges [.recorder] s t ∧ t.recorder.flushedSeq = Nat.min n (seq - 1) ∧ t.recorder.flushing = none) ∧
    (∀ fin, r.flushing = none → exec (.flushComplete fin) s = .next s)

/-- R434. -/
def Obligations.FullLog : Prop :=
  ∀ (s : State) (e : Event) (b : Bool),
    let r := s.recorder
    let stages : List EventStage := [.hardware, .reserve b]
    let full := recordBytes (r.firstSeq + 1048575) { code := 0xB004, source := .recorder } 0
    r.accepting = true →
    (neverSuppressed e.code = true ∨ r.inWindow e.code e.location = false →
      (r.slots.length + 2 = 1048576 → ∀ st ∈ stages, ∃ t x, exec (.eventRecord st e) s = .next t ∧ onlyChanges [.recorder] s t ∧
        t.recorder.firstSeq = r.firstSeq ∧ t.recorder.slots = r.slots ++ [x, { bytes := full }]) ∧
      (1048576 ≤ r.slots.length → ∀ st ∈ stages, ∃ t, exec (.eventRecord st e) s = .next t ∧ onlyChanges [.od] s t ∧
        odGet t K.recEventsDropped = counted s K.recEventsDropped)) ∧
    (neverSuppressed e.code = false → r.inWindow e.code e.location = true → 1048576 ≤ r.slots.length →
      ∀ st ∈ stages, ∃ t, exec (.eventRecord st e) s = .next t ∧ onlyChanges [.od, .recorder] s t ∧
        t.recorder.slots = r.slots ∧ odGet t K.recEventsDropped = odGet s K.recEventsDropped ∧
        odGet t K.recSuppressed = counted s K.recSuppressed ∧
        t.recorder.pendingCount e.code e.location = r.pendingCount e.code e.location + 1)

/-- R440, R442, R443, R444, R445, R446, R447, R449, R450, R470, R472, R483. -/
def Obligations.Security : Prop :=
  ∀ (s : State) (rq : Rq) (tr : Transport) (i : Nat),
    let m := mgmtOf s i
    let other := slotAt s (idleSlot s)
    let open_ := (s.mgmt.filter (fun e => e.2.live)).length
    (∀ nonce, AcceptsWhole s rq K.secAttest nonce → ∃ t, exec (.attest rq nonce) s = .next t ∧
      Answered s t rq 0x06 (K.secAttest / 256) (K.secAttest % 256) 0 [] [.security, .free] ∧
      t.security.report = reportBody s nonce ++ padTo 4627 (Config.identitySignature s.free (sha3 (reportBody s nonce))) ∧
      t.security = { s.security with report := t.security.report }) ∧
    (Executes s rq → permitted s (mgmtOf s rq.session) K.secLcChallenge (.read 0 64) = true →
      ∃ t data, exec (.lcChallenge rq) s = .next t ∧ Answered s t rq 0x06 0xC000 8 0 data [.security, .free] ∧
        t.security = { s.security with challenge := some (drawBytes s 8).1 }) ∧
    (∀ token ok target, AcceptsWhole s rq K.secLcRequest token → tokenAsks s token ok = some target →
      s.security.transition = none → (∀ c ∈ s.commits, c.phase ≠ .switching) → s.plant.powered = true → s.plant.powerFail = false →
      s.plant.resetting = false → target.1 ≠ lifecycle s → ∃ t, exec (.lcRequest rq token ok) s = .next t ∧
        OkReply t rq 0x06 K.secLcRequest ∧ lifecycle t = target.1 ∧ odGet t K.devResetCause = 5 ∧
        t.security.transition = some target ∧ t.parts = [] ∧ t.sessions = [] ∧ t.plant.resetting = true) ∧
    (∀ token ok, AcceptsWhole s rq K.secLcRequest token → tokenAsks s token ok = none → s.security.transition = none →
      ∃ t, exec (.lcRequest rq token ok) s = .next t ∧
        Answered s t rq 0x06 (K.secLcRequest / 256) (K.secLcRequest % 256) swState [] []) ∧
    (∀ g : FwImage, AcceptsWhole s rq K.secFwImage g.bytes → s.plant.resetDue = none → inRecovery s = false →
      let good := imageSigned s g = true ∧ odGet s K.secFwFuseVersion ≤ g.version ∧ g.version ≤ 64
      ∃ t, exec (.fwImage rq g) s = .next t ∧ Answered s t rq 0x06 (K.secFwImage / 256) (K.secFwImage % 256) 0 [] [.od, .security] ∧
        (good → slotAt t (idleSlot s) = { valid := true, version := g.version, measurement := g.measurement }) ∧
        (¬ good → slotAt t (idleSlot s) = { valid := false }) ∧
        odGet t K.secSignatureFailures = if imageSigned s g then odGet s K.secSignatureFailures else counted s K.secSignatureFailures) ∧
    (∀ slot, Accepts s rq K.secFwActivate slot → ∃ t, exec (.fwActivate rq slot) s = .next t ∧
      Accepted s t rq K.secFwActivate [.security] ∧ t.security = { s.security with activate := some slot }) ∧
    (Accepts s rq K.secAdvanceSecurityVersion 1 →
      (other.valid = false ∨ odGet s K.secFwSecurityVersion ≤ other.version → ∃ t, exec (.advanceSecurityVersion rq 1) s = .next t ∧
        Accepted s t rq K.secAdvanceSecurityVersion [.od] ∧
        odGet t K.secFwFuseVersion = Nat.max (odGet s K.secFwFuseVersion) (odGet s K.secFwSecurityVersion)) ∧
      (other.valid = true → other.version < odGet s K.secFwSecurityVersion → ∃ t, exec (.advanceSecurityVersion rq 1) s = .next t ∧
        Answered s t rq 0x02 (K.secAdvanceSecurityVersion / 256) (K.secAdvanceSecurityVersion % 256) swState [] [])) ∧
    (∀ h nonce kem keyId, served s tr = true →
      (mpUp s = true → open_ < odGet s K.mgmtMaxSessions →
        (∀ u, handshakeUsage s keyId = some u → ∃ t, exec (.handshakeOrder1 tr h nonce kem keyId true false) s = .next t ∧
          onlyChanges [.mgmt, .nextMgmt, .fns, .out, .free] s t ∧ t.nextMgmt = s.nextMgmt + 1 ∧
          mgmtOf t s.nextMgmt = { live := true, transport := tr, usage := u, claim := claimCase s, balhel := decide (lifecycle s = lcReturn) }) ∧
        (handshakeUsage s keyId = none → ∃ t, exec (.handshakeOrder1 tr h nonce kem keyId true false) s = .next t ∧
          onlyChanges [.od, .fns, .out] s t ∧ odGet t K.secAuthFailures = counted s K.secAuthFailures ∧
          .swRefusal tr swAuth ∈ t.out)) ∧
      (mpUp s = false → ∃ t, exec (.handshakeOrder1 tr h nonce kem keyId true false) s = .next t ∧
        onlyChanges [.od, .fns, .out] s t ∧ .swRefusal tr swNotReady ∈ t.out) ∧
      (∀ o, mpUp s = true → (o = true ∨ odGet s K.mgmtMaxSessions ≤ open_) →
        ∃ t, exec (.handshakeOrder1 tr h nonce kem keyId true o) s = .next t ∧ onlyChanges [.od, .fns, .out] s t ∧
          .swRefusal tr swBusy ∈ t.out ∧ odGet t K.mgmtRefusals = counted s K.mgmtRefusals) ∧
      ∀ o, exec (.handshakeOrder1 tr h nonce kem keyId false o) s = .next s) ∧
    (∀ signed ok, m.live = true → m.isOpen = false → mpUp s = true →
      let good := (m.claim = true ∧ claimCase s = true) ∨ (m.claim = false ∧ signed = true ∧ ok = true)
      (m.transport = tr → good → ∃ t, exec (.handshakeOrder3 tr i signed ok true) s = .next t ∧
        onlyChanges [.od, .mgmt, .fns] s t ∧ mgmtOf t i = { m with isOpen := true } ∧
        odGet t K.mgmtHandshakes = counted s K.mgmtHandshakes) ∧
      (m.transport = tr → ¬ good → ∃ t, exec (.handshakeOrder3 tr i signed ok true) s = .next t ∧
        onlyChanges [.od, .mgmt, .fns, .out] s t ∧ mgmtOf t i = {} ∧ odGet t K.secAuthFailures = counted s K.secAuthFailures) ∧
      (m.transport ≠ tr → ∃ t, exec (.handshakeOrder3 tr i signed ok true) s = .next t ∧ onlyChanges [.od] s t ∧
        odGet t K.mgmtDroppedDatagrams = counted s K.mgmtDroppedDatagrams)) ∧
    (m.live = true → m.isOpen = false → ∃ t, exec (.handshakeTimeout i) s = .next t ∧ onlyChanges [.mgmt, .fns] s t ∧
      mgmtOf t i = {}) ∧
    (m.live = false ∨ m.isOpen = true → exec (.handshakeTimeout i) s = .next s)

/-- R471, R472, R474, R475, R476, R477, R478, R481, R482, R483. -/
def Obligations.SwiuthRequests : Prop :=
  ∀ (s : State) (rq : Rq) (index sub : Nat),
    let i := rq.session
    let m := mgmtOf s i
    let k := index * 256 + sub
    let s1 := executing s rq
    let m1 := mgmtOf s1 i
    let others (t : State) : Prop := ∀ j, j ≠ i → mgmtOf t j = mgmtOf s j
    let soFar := (writtenSoFar m k).getD []
    (∀ o, Executes s rq → findObject index sub = .ok o → sub ≠ 0 → permitted s m k (.read 0 0) = true → o.access ≠ .wo →
      o.access ≠ .cmd → ∃ t, exec (.read rq index sub) s = .next t ∧
        Answered s t rq 0x01 index sub 0 (if o.type = .domain then natLe (objValue s1 m1 o k).length 4 else objValue s1 m1 o k) []) ∧
    (∀ e, Executes s rq → findObject index sub = .error e → ∃ t, exec (.read rq index sub) s = .next t ∧
      Answered s t rq 0x01 index sub e [] []) ∧
    (∀ o, Executes s rq → findObject index sub = .ok o → permitted s m k (.read 0 0) = false →
      ∃ t, exec (.read rq index sub) s = .next t ∧ Answered s t rq 0x01 index sub swPermission [] []) ∧
    (∀ o v, Executes s rq → findObject index sub = .ok o → permitted s m k (.write v) = true →
      moduleReady s = true → o.access = .rw → o.type ≠ .domain →
      let st := scalarStatus s o k v
      (st = 0 → ownRule s o k (leNat v) = true → k ≠ K.recReadSlot → k ≠ K.hlthSpareCoreThreshold → k ≠ K.hlthSpareArrayThreshold →
        ∃ t, exec (.write rq index sub v) s = .next t ∧ Answered s t rq 0x02 index sub 0 [] [.od] ∧ odGet t k = leNat v) ∧
      (st ≠ 0 → ∃ t, exec (.write rq index sub v) s = .next t ∧ Answered s t rq 0x02 index sub st [] []) ∧
      (st = 0 → ownRule s o k (leNat v) = false → ∃ t, exec (.write rq index sub v) s = .next t ∧
        Answered s t rq 0x02 index sub swState [] [])) ∧
    (∀ r, mpUp s = true → served s m.transport = true → m.isOpen = true → rq.tagOk = true → inWindow m rq.seq = false →
      m.kept.find? (fun e => e.1 == rq.seq) = some (rq.seq, r) → ∃ t, exec (.read rq index sub) s = .next t ∧
        onlyChanges [.mgmt, .fns, .out] s t ∧ .swReply i rq.seq r ∈ t.out ∧ others t) ∧
    (mpUp s = true → served s m.transport = true → m.isOpen = true →
      (rq.tagOk = false ∨ (inWindow m rq.seq = false ∧ m.kept.find? (fun e => e.1 == rq.seq) = none)) →
      ∃ t, exec (.read rq index sub) s = .next t ∧ onlyChanges [.od, .fns] s t ∧
        odGet t K.mgmtReplayDrops = counted s K.mgmtReplayDrops) ∧
    (∀ op, mpUp s = true → served s m.transport = true → m.isOpen = true → rq.tagOk = true → inWindow m rq.seq = true →
      (rq.inFlightFull = true → ∃ t, exec (.unknownOpRequest rq op) s = .next t ∧ Answered s t rq op 0 0 swBusy [] []) ∧
      (rq.inFlightFull = false → rq.overRate = true → ∃ t, exec (.unknownOpRequest rq op) s = .next t ∧
        Answered s t rq op 0 0 swRate [] [])) ∧
    (∀ op, Executes s rq → ∃ t, exec (.unknownOpRequest rq op) s = .next t ∧ Answered s t rq op 0 0 swBadOp [] []) ∧
    (∀ o off len, Executes s rq → findObject index sub = .ok o → permitted s m k (.read off len) = true → o.type = .domain →
      o.access ≠ .wo → o.access ≠ .cmd → len ≤ segmentMax m.transport → k ≠ K.secLcChallenge → freezes k = false →
      (∀ e ∈ m.frozen, e.1 ≠ k) → ∃ t, exec (.segmentRead rq index sub off len) s = .next t ∧
        Answered s t rq 0x06 index sub 0 (natLe off 4 ++ natLe (objValue s1 m1 o k).length 4 ++ slice (objValue s1 m1 o k) off len) []) ∧
    (∀ o bytes, Executes s rq → findObject index sub = .ok o → permitted s m k (.write (soFar ++ bytes)) = true → moduleReady s = true →
      o.type = .domain → o.access = .rw → bytes.length ≤ segmentMax m.transport → (soFar ++ bytes).length ≤ o.size →
      ownRule s o k 0 = true → Lasts s rq →
      (∃ t, exec (.segmentWrite rq index sub soFar.length bytes false false) s = .next t ∧
        Answered s t rq 0x06 index sub 0 [] [] ∧ writtenSoFar (mgmtOf t i) k = some (soFar ++ bytes) ∧ others t) ∧
      (domainLength o k (soFar ++ bytes).length = true → wholeInRange s o k (soFar ++ bytes) = true →
        ∃ t, exec (.segmentWrite rq index sub soFar.length bytes true false) s = .next t ∧
          Answered s t rq 0x06 index sub 0 [] [.dom] ∧ domGet t k = soFar ++ bytes ∧ writtenSoFar (mgmtOf t i) k = none) ∧
      ∀ off, off ≠ soFar.length → ∃ t, exec (.segmentWrite rq index sub off bytes false false) s = .next t ∧
        Answered s t rq 0x06 index sub swSegmentOrder [] [] ∧ writtenSoFar (mgmtOf t i) k = none) ∧
    (∃ t, exec (.segmentAbandon i index sub) s = .next t ∧ onlyChanges [.mgmt] s t ∧ writtenSoFar (mgmtOf t i) k = none ∧ others t) ∧
    (∀ o period, Executes s rq → findObject index sub = .ok o → permitted s m k (.read 0 0) = true → o.access ≠ .wo →
      o.access ≠ .cmd → Lasts s rq →
      let rest := m.subs.filter (fun e => e.1 != k)
      (period = 0xFFFFFFFF → ∃ t, exec (.subscribe rq index sub period) s = .next t ∧
        Answered s t rq 0x07 index sub 0 [] [] ∧ (mgmtOf t i).subs = rest) ∧
      (period ≠ 0xFFFFFFFF → rest.length < 16 → ∃ t, exec (.subscribe rq index sub period) s = .next t ∧
        Answered s t rq 0x07 index sub 0 [] [] ∧
        (mgmtOf t i).subs = rest ++ [(k, if period = 0 then 0 else Nat.max period (periodFloor m.transport))]) ∧
      (period ≠ 0xFFFFFFFF → 16 ≤ rest.length → ∃ t, exec (.subscribe rq index sub period) s = .next t ∧
        Answered s t rq 0x07 index sub swTooLarge [] [] ∧ (mgmtOf t i).subs = m.subs)) ∧
    (∀ o, findObject index sub = .ok o → m.isOpen = true → mpUp s = true → (∃ e ∈ m.subs, e.1 = k) →
      (∃ t data, exec (.notify i index sub false) s = .next t ∧ onlyChanges [.mgmt, .fns, .out, .free] s t ∧
        .swNotify i (m.notified + 1) index sub data ∈ t.out) ∧
      ∃ t, exec (.notify i index sub true) s = .next t ∧ onlyChanges [.od] s t ∧
        odGet t K.mgmtNotifyDrops = counted s K.mgmtNotifyDrops) ∧
    (∃ t, exec (.swiuthClose i) s = .next t ∧ onlyChanges [.mgmt, .fns] s t ∧ mgmtOf t i = {} ∧ others t) ∧
    (m.live = true → ∃ t, exec (.idleTimeout i) s = .next t ∧ exec (.managementSessionExpiry i) s = .next t ∧
      onlyChanges [.mgmt, .fns, .out] s t ∧ mgmtOf t i = {} ∧ others t ∧ t.out = s.out ++ [.swClose i]) ∧
    (m.live = false → exec (.idleTimeout i) s = .next s ∧ exec (.managementSessionExpiry i) s = .next s) ∧
    (let f := if index = 0x2100 then K.pwrReport else K.secAttestationReport
     ∃ t, exec (.reportFreezeExpiry i index) s = .next t ∧ onlyChanges [.mgmt] s t ∧ others t ∧
      mgmtOf t i = { m with frozen := m.frozen.filter (fun e => e.1 != f) }) ∧
    (∀ c, ∃ t, exec (.droppedDatagram c) s = .next t ∧ onlyChanges [.od] s t ∧
      odGet t K.mgmtDroppedDatagrams = counted s K.mgmtDroppedDatagrams)

/-- R479. -/
def Obligations.StagedSet : Prop :=
  ∀ (s : State) (rq : Rq) (index sub : Nat) (v : List Byte) (o : Obj),
    let i := rq.session
    let m := mgmtOf s i
    let k := index * 256 + sub
    let rest := m.staged.filter (fun e => e.1 != k)
    let soFar := (writtenSoFar m k).getD []
    let whole := soFar ++ v
    let others (t : State) : Prop := ∀ j, j ≠ i → (mgmtOf t j).staged = (mgmtOf s j).staged
    (Executes s rq → Lasts s rq → moduleReady s = true → findObject index sub = .ok o →
      permitted s m k (.write v) = true → o.access = .rws → o.type ≠ .domain → scalarStatus s o k v = 0 →
      (rest.length < 256 → ∃ t, exec (.stage rq index sub v) s = .next t ∧ others t ∧
        Answered s t rq 0x03 index sub 0 (natLe (rest.length + 1) 2) [] ∧ (mgmtOf t i).staged = rest ++ [(k, v)]) ∧
      (256 ≤ rest.length → ∃ t, exec (.stage rq index sub v) s = .next t ∧ others t ∧
        Answered s t rq 0x03 index sub swTooLarge [] [] ∧ (mgmtOf t i).staged = m.staged)) ∧
    (Executes s rq → Lasts s rq → moduleReady s = true → findObject index sub = .ok o →
      permitted s m k (.write whole) = true → o.access = .rws → o.type = .domain → v.length ≤ segmentMax m.transport →
      whole.length ≤ o.size → ownRule s o k 0 = true → domainLength o k whole.length = true → wholeInRange s o k whole = true →
      (rest.length < 256 → stagedBytes m k + whole.length ≤ 2 ^ 20 →
        ∃ t, exec (.segmentWrite rq index sub soFar.length v true true) s = .next t ∧ others t ∧
          Answered s t rq 0x06 index sub 0 (natLe (rest.length + 1) 2) [] ∧ (mgmtOf t i).staged = rest ++ [(k, whole)]) ∧
      (256 ≤ rest.length ∨ 2 ^ 20 < stagedBytes m k + whole.length →
        ∃ t, exec (.segmentWrite rq index sub soFar.length v true true) s = .next t ∧ others t ∧
          Answered s t rq 0x06 index sub swTooLarge [] [] ∧ (mgmtOf t i).staged = m.staged)) ∧
    (Executes s rq → Lasts s rq → setGate s m = 0 → ∃ t, exec (.abort rq) s = .next t ∧ others t ∧
      Answered s t rq 0x05 0 0 0 (natLe m.staged.length 2) [] ∧ (mgmtOf t i).staged = []) ∧
    (∃ t, exec (.swiuthClose i) s = .next t ∧ others t ∧ (mgmtOf t i).staged = []) ∧
    (m.live = true → ∃ t, exec (.idleTimeout i) s = .next t ∧ exec (.managementSessionExpiry i) s = .next t ∧ others t ∧
      (mgmtOf t i).staged = [])

/-- R50, R414, R415, R416, R425, R442, R474, R480. -/
def Obligations.Commits : Prop :=
  ∀ (s : State) (rq : Rq),
    let i := rq.session
    let m := mgmtOf s i
    let n := odGet s K.cfgNextEpoch
    let free := ∀ p, (partOf s p).heldLoad = none
    (Executes s rq → setGate s m = 0 → m.staged ≠ [] → s.commits.length < 4 →
      ((∀ e ∈ m.staged, e.1 ≠ K.secOperatorKeys) ∨ (m.claim = true ∧ domGet s K.secOperatorKeys = []) ∨ m.usage.testBit 1 = true) →
      ((∃ c ∈ s.commits, c.phase = .prepare) → ∃ t, exec (.commit rq) s = .next t ∧ onlyChanges [.od, .mgmt, .commits] s t ∧
        odGet t K.cfgNextEpoch = n + 1 ∧
        t.commits = s.commits ++ [{ epoch := n, values := m.staged, client := i, seq := rq.seq, phase := .waiting }]) ∧
      ((∀ c ∈ s.commits, c.phase = .switching ∧ c.epoch ≠ n) → ∃ t, exec (.commit rq) s = .next t ∧
        onlyChanges [.od, .mgmt, .commits] s t ∧ odGet t K.cfgNextEpoch = n + 1 ∧
        t.commits = s.commits ++ [{ epoch := n, values := m.staged, client := i, seq := rq.seq, phase := .prepare }])) ∧
    (Executes s rq → setGate s m = 0 → s.commits.length < 4 → (∃ e ∈ m.staged, e.1 = K.secOperatorKeys) →
      (m.claim = false ∨ domGet s K.secOperatorKeys ≠ []) → m.usage.testBit 1 = false → ∃ t, exec (.commit rq) s = .next t ∧
        Answered s t rq 0x04 0 0 swPermission [] []) ∧
    (Executes s rq → setGate s m = 0 → m.staged = [] → ∃ t, exec (.commit rq) s = .next t ∧
      Answered s t rq 0x04 0 0 swNotStaged [] []) ∧
    (Executes s rq → setGate s m = 0 → m.staged ≠ [] → 4 ≤ s.commits.length → ∃ t, exec (.commit rq) s = .next t ∧
      Answered s t rq 0x04 0 0 swCommitLimit [] []) ∧
    (∀ c, preparing s = some c → (s.commits.map (fun x => x.epoch)).Nodup → free →
      let parts := namedParts s c.values
      let rolled (t : State) (reason key part : Nat) : Prop :=
        t.stored = s.stored ∧ (∀ x ∈ t.commits, x.epoch ≠ c.epoch) ∧
        domGet t K.cfgLastCommit = commitBytes c.epoch 1 reason key part ∧ odGet t K.cfgRollbacks = counted s K.cfgRollbacks
      (faultyValue s c.values = none → ∃ t, exec .prepareComplete s = .next t ∧
        t.stored = c.values.foldl (fun l e => kvPut l e.1 e.2) s.stored ∧
        (parts = [] → (∀ x ∈ t.commits, x.epoch ≠ c.epoch) ∧ domGet t K.cfgLastCommit = commitBytes c.epoch 0 0 0 0xFF) ∧
        (parts ≠ [] → (∃ x ∈ t.commits, x.epoch = c.epoch ∧ x.phase = .switching ∧ x.parts = parts) ∧
          domGet t K.cfgLastCommit = commitBytes c.epoch 2 0 0 0xFF) ∧
        ∀ v, c.values = [(K.secFwCosignRequired, v)] → odGet t K.secFwCosignRequired = leNat v) ∧
      (∀ e, faultyValue s c.values = some e → ∃ t, exec .prepareComplete s = .next t ∧
        rolled t e.2 e.1 ((ownPart e.1).getD 0xFF)) ∧
      (∀ index sub p, ∃ t, exec (.prepareTimeout index sub p) s = .next t ∧ rolled t 6 (index * 256 + sub) p)) ∧
    (preparing s = none → exec .prepareComplete s = .next s ∧ ∀ index sub p, exec (.prepareTimeout index sub p) s = .next s)

/-- R454, R460, R462, R463, R464, R466, R467, R468. -/
def Obligations.PcieAndMailboxes : Prop :=
  ∀ (s : State) (rq : Rq) (port fn : Nat), port < 2 → fn < 128 → pairState s ≠ 4 →
    let x := portOf s port
    let y := fnOf s fn
    let limited (rate : Nat) : Nat := Nat.min rate (domField s K.pcieTargetRate port 1)
    let other (t : State) : Prop := ∀ q, q ≠ port → portOf t q = portOf s q
    let gone (t : State) (who : Nat → Prop) : Prop := ∀ i, (sessOf s i).shadow = false → (sessOf s i).mirrored = false →
      who (sessOf s i).fn → (sessOf t i).state = .free ∨ (sessOf t i).state = .ending
    (∀ ns o up, ns < 50 → ∃ t, exec (.perstInput port ns o up) s = .next t ∧ onlyChanges [.od] s t ∧
      odGet t K.pciePerstGlitches = counted s K.pciePerstGlitches) ∧
    (∀ ns up, 50 ≤ ns → ∃ t, exec (.perstInput port ns false up) s = .next t ∧ (portOf t port).asserted = true ∧
      (portOf t port).state = 4 ∧ (x.state ≠ 4 → x.state ≠ 5 → gone t (fun f => f / 64 = port))) ∧
    (x.asserted = true → ∃ t, exec (.perstDeassertion port) s = .next t ∧ onlyChanges [.od, .recorder, .pcie] s t ∧ other t ∧
      (portOf t port).asserted = false ∧ (odGet t K.pciePerstStatus).testBit (port + 2) = false ∧
      (x.chatter = false → 7 ≤ odGet s K.devBringUpState → (portOf t port).state = 1)) ∧
    (x.asserted = false → exec (.perstDeassertion port) s = .next s) ∧
    (∀ rate width flit, x.state = 1 → ∃ t, exec (.pcieLinkUp port rate width flit) s = .next t ∧
      onlyChanges [.od, .recorder, .pcie] s t ∧ other t ∧
      (16 ≤ limited rate → 4 ≤ width → portOf t port = { x with state := 2, rate := limited rate, width, flit }) ∧
      (limited rate < 16 ∨ width < 4 → portOf t port = { x with state := 0 })) ∧
    (∀ rate width flit, x.state = 5 → x.asserted = false → x.chatter = false → 7 ≤ odGet s K.devBringUpState →
      16 ≤ limited rate → 4 ≤ width → ∃ t, exec (.pcieLinkUp port rate width flit) s = .next t ∧
        onlyChanges [.od, .recorder, .pcie] s t ∧ other t ∧ portOf t port = { x with
          state := 2, linkDown := false, retrainDue := false, trainings := Nat.min (x.trainings + 1) (2 ^ 32 - 1)
          rate := limited rate, width, flit }) ∧
    (∀ rate width flit, x.state = 2 → x.linkDown = true → ∃ t, exec (.pcieLinkUp port rate width flit) s = .next t ∧
      onlyChanges [.pcie] s t ∧ portOf t port = { x with linkDown := false, rate := limited rate, width, flit }) ∧
    (∀ ns, (x.state = 2 ∨ x.state = 3) → ∃ t, exec (.dataLinkDown port ns) s = .next t ∧ onlyChanges [.od, .pcie] s t ∧
      portOf t port = { x with linkDown := true } ∧ odGet t K.pcieHeldWriteTime = counted s K.pcieHeldWriteTime ns) ∧
    (∀ up, x.linkDown = true → ∃ t, exec (.linkDownTimeout port up) s = .next t ∧ (portOf t port).state = 5 ∧
      gone t (fun f => f / 64 = port)) ∧
    (∀ up, x.linkDown = false → exec (.linkDownTimeout port up) s = .next s) ∧
    (∀ n, let z := { x with correctable := x.correctable + n }
      (n ≤ odGet s K.pcieCorrectableThreshold ∨ x.state ≠ 2 → ∃ t, exec (.correctableThreshold port n) s = .next t ∧
        onlyChanges [.pcie] s t ∧ other t ∧ portOf t port = z) ∧
      (odGet s K.pcieCorrectableThreshold < n → x.state = 2 → portClass0 s port = false →
        ∃ t, exec (.correctableThreshold port n) s = .next t ∧ other t ∧ portOf t port = { z with state := 3 }) ∧
      (odGet s K.pcieCorrectableThreshold < n → x.state = 2 → portClass0 s port = true →
        ∃ t, exec (.correctableThreshold port n) s = .next t ∧ other t ∧ portOf t port = { z with retrainDue := true })) ∧
    (Accepts s rq K.pcieRetrain port → portClass0 s port = false → ∃ t, exec (.pcieRetrain rq port) s = .next t ∧
      Accepted s t rq K.pcieRetrain [.od, .recorder, .pcie] ∧ other t ∧
      portOf t port = if x.state = 2 then { x with state := 3 } else x) ∧
    (Accepts s rq K.pcieRetrain port → portClass0 s port = true → ∃ t, exec (.pcieRetrain rq port) s = .next t ∧
      Answered s t rq 0x02 (K.pcieRetrain / 256) (K.pcieRetrain % 256) swState [] []) ∧
    (∀ ok ns, x.state = 3 → ∃ t, exec (.pcieRetrainComplete port ok ns) s = .next t ∧ onlyChanges [.od, .recorder, .pcie] s t ∧
      other t ∧ portOf t port = { x with state := 2, linkDown := x.linkDown || !ok } ∧
      odGet t K.pcieHeldWriteTime = counted s K.pcieHeldWriteTime ns) ∧
    (∀ ok ns, x.state ≠ 3 → exec (.pcieRetrainComplete port ok ns) s = .next s) ∧
    (∃ t, exec (.flr fn) s = .next t ∧ gone t (fun f => f = fn ∨ (fn % 64 = 0 ∧ f / 64 = fn / 64)) ∧
      ∀ e ∈ s.mgmt, e.2.transport = .mailbox fn → mgmtOf t e.1 = {}) ∧
    (∀ f, f < 64 → (x.state = 2 ∨ x.state = 3) → ∃ t, exec (.configurationRequest port f) s = .next t ∧
      onlyChanges [.fns, .out] s t ∧ t.out = s.out ++ [.configReply port f (decide (odGet s K.devBringUpState < 8))]) ∧
    (∀ f, f < 64 → x.state ≠ 2 → x.state ≠ 3 → exec (.configurationRequest port f) s = .next s) ∧
    (∀ f, 64 ≤ f → exec (.configurationRequest port f) s = .fault (.noSuchUnit "function" f)) ∧
    (∀ n, y.busy = false → 0 < n → n ≤ 16384 → ∃ t, exec (.mailboxRequest fn n) s = .next t ∧ onlyChanges [.fns] s t ∧
      fnOf t fn = { y with busy := true, requests := y.requests + 1 }) ∧
    (∀ n, y.busy = true ∨ n = 0 ∨ 16384 < n → ∃ t, exec (.mailboxRequest fn n) s = .next t ∧ onlyChanges [.fns] s t ∧
      fnOf t fn = { y with ignored := y.ignored + 1 }) ∧
    (∃ t, exec (.rspAck fn 1) s = .next t ∧ onlyChanges [.fns] s t ∧ fnOf t fn = { y with reply := [] }) ∧
    (∀ v, v ≠ 1 → exec (.rspAck fn v) s = .next s)

/-- R23, R338, R384, R489, R491, R492, R493, R512. -/
def Obligations.Loading : Prop :=
  ∀ (s : State) (rq : Rq) (p : Nat), p < 48 →
    let pt := partOf s p
    let fresh := resetObjects (executing s rq) p
    let refused (t : State) (k : Nat) : Prop := Answered s t rq 0x02 (k / 256) (k % 256) swState [] []
    (∀ g, Accepts s rq (K.partLoad p) 1 → pt.state = .empty → loadHeld s p = false →
      let c := loadCheck fresh p g
      let r := placingOf fresh p
      (c.1 = 0 → ∃ t, exec (.load rq p 1 g) s = .next t ∧ OkReply t rq 0x02 (K.partLoad p) ∧
        (let q := partOf t p
         q.state = .loading ∧ q.program = some g ∧ q.ox = r.ox ∧ q.oy = r.oy ∧ q.width = r.width ∧ q.height = r.height) ∧
        odGet t (K.partLoadResult p) = 0 ∧ ∀ q, q ≠ p → (partOf t q).state = (partOf s q).state) ∧
      (c.1 ≠ 0 → ∃ t, exec (.load rq p 1 g) s = .next t ∧ OkReply t rq 0x02 (K.partLoad p) ∧ partOf t p = {} ∧
        odGet t (K.partLoadResult p) = c.1 ∧ t.scratch = s.scratch ∧ t.stack = s.stack ∧ ∀ q, q ≠ p → partOf t q = partOf s q)) ∧
    (∀ g, Accepts s rq (K.partLoad p) 1 → pt.state = .empty → loadHeld s p = true → ∃ t, exec (.load rq p 1 g) s = .next t ∧
      Accepted s t rq (K.partLoad p) [.od, .dom, .parts] ∧ (partOf t p).state = .loading ∧ (partOf t p).heldLoad = some g) ∧
    (∀ g, Accepts s rq (K.partLoad p) 1 → pt.state ≠ .empty → ∃ t, exec (.load rq p 1 g) s = .next t ∧ refused t (K.partLoad p)) ∧
    (pt.state = .loading → pt.wiping = false → pt.written = true → blocksUp s p = true → ∀ faults, ∃ t, exec (.loadComplete ⟨p, faults⟩) s = .next t ∧
      (partOf t p).state = .running ∧ (partOf t p).lap = pt.lap ∧ t.scratch = s.scratch ∧ t.stack = s.stack) ∧
    (pt.state ≠ .loading ∨ pt.wiping = true ∨ pt.written = false ∨ blocksUp s p = false → ∀ faults, exec (.loadComplete ⟨p, faults⟩) s = .next s) ∧
    (Accepts s rq (K.partUnload p) 0 → pt.runs = true → ∃ t, exec (.unloadDrain rq p) s = .next t ∧
      Accepted s t rq (K.partUnload p) [.parts] ∧ partOf t p = { pt with state := .draining }) ∧
    (Accepts s rq (K.partUnload p) 0 → pt.runs = false → ∃ t, exec (.unloadDrain rq p) s = .next t ∧ refused t (K.partUnload p)) ∧
    (Accepts s rq (K.partUnload p) 1 → s.security.transition = none → pt.runs = true → ∃ t, exec (.unloadNow rq p) s = .next t ∧
      OkReply t rq 0x02 (K.partUnload p) ∧ (partOf t p).state = .resetting ∧ (partOf t p).verdict = none) ∧
    (Accepts s rq (K.partUnload p) 1 → s.security.transition = none → pt.runs = false → ∃ t, exec (.unloadNow rq p) s = .next t ∧
      refused t (K.partUnload p)) ∧
    (∀ b, Accepts s rq K.diagClearBlockEntry b →
      ((∃ e ∈ s.yield.entries, shortEntry b e = true) → ∃ t, exec (.clearBlockEntry rq b) s = .next t ∧
        Accepted s t rq K.diagClearBlockEntry [.yield] ∧ t.yield.generation = s.yield.generation + 1 ∧
        t.yield.entries = s.yield.entries.filter (fun e => !(shortEntry b e))) ∧
      ((∀ e ∈ s.yield.entries, shortEntry b e = false) → ∃ t, exec (.clearBlockEntry rq b) s = .next t ∧
        refused t K.diagClearBlockEntry))

/-- R31. -/
def Obligations.CheckpointArrival : Prop :=
  ∀ (s : State) (p : Nat) (at_ : CoreRef) (env : CoreEnv) (a : HurdleArgs) (wait : Bool),
    let ci := coreIndex at_
    let c := coreOf s ci
    let h := a.hurdle.toNat
    let i : Instr := if wait then .hurdleArriveWait at_ env a else .hurdleArrive at_ env a
    let w := waitingFor (.hurdle (if wait then 0 else 1) a) env
    s.Canonical → coreExists s at_ = true → partAt s (ci / 16) = some p → (partOf s p).runs = true → (partOf s p).hurdle = h →
    (streamed s ci = true → 0 < c.ahead) → env.parity = [] → env.conflicts = [] → c.skip = 0 → c.hold = .none →
    c.idle 7 = true →
    (c.waiting = [] → a.checkpoint = true → writesInFlight c ≠ 0 →
      exec i s = .next (updCore s ci (fun x => { x with waiting := [w], stall := holdCause s p ci w.cmd }))) ∧
    (c.waiting = [] → (a.checkpoint = false ∨ writesInFlight c = 0) → ∃ t, exec i s = .next t ∧
      (coreOf t ci).arrived = some h ∧ (partOf t p).arrived = insertNat ci (partOf s p).arrived) ∧
    (c.waiting = [w] → a.checkpoint = true → (∀ k, k ≠ ci → (coreOf s k).waiting = []) →
      ∀ (j : Nat) (x : Transfer) (fin : DmaEnd) (data : List Byte), c.transfers[j]? = some x → x.ready = true →
        (x.kind = .stackWrite ∨ x.kind = .coreWrite ∨ x.kind = .edgeWrite) → fin.refused = false → fin.bad = [] →
        awaitsBank s x = false → (∀ g ∈ x.dst, x.kind.toScratch = true → powerAt s g.addr ≠ .off) →
        let left := writesInFlight { c with transfers := c.transfers.filter (fun y => y.id ≠ x.id) }
        ∃ t, exec (.dmaTransferComplete at_ j fin data) s = .next t ∧
          (left ≠ 0 → (coreOf t ci).arrived = c.arrived ∧ (coreOf t ci).waiting = [w] ∧
            (partOf t p).arrived = (partOf s p).arrived) ∧
          (left = 0 → (coreOf t ci).arrived = some h ∧ (coreOf t ci).waiting = [] ∧
            (partOf t p).arrived = insertNat ci (partOf s p).arrived))

/-- Log entries 1 and 2: the model's choice. -/
def Obligations.StepTakesFront : Prop :=
  (∀ (s : State) (c : Instr) (rest : List Instr), s.pending = c :: rest →
      step s = exec c { s with pending := rest }) ∧
  (∀ (s : State) (c : Instr), step (s.withCommand c) = exec c s) ∧
  (∀ s : State, s.pending = [] → step s = .next s)

/-- Log entries 7, 8 and 10. -/
def Obligations.ResetState : Prop :=
  let s := State.reset
  s.Canonical ∧ s.pending = [] ∧ s.out = [] ∧ odGet s K.devBringUpState = 0 ∧ moduleReady s = false ∧
  (∀ p, (partOf s p).state = .empty ∧ (partOf s p).runs = false ∧ (partOf s p).program = none) ∧
  (∀ i, (sessOf s i).state = .free) ∧
  (∀ r, (subOf s r).enable = false ∧ (compOf s r).enable = false) ∧
  (∀ i, (wsetOf s i).state = .empty) ∧
  (∀ c, (coreOf s c).waiting = [] ∧ (coreOf s c).arrived = none ∧ (coreOf s c).transfers = []) ∧
  ∀ a, memRead s.scratch a = 0 ∧ memRead s.stack a = 0

/-- R9, R10, R473; log entry 6. -/
def Obligations.EveryCommand : Prop :=
  ∀ (i : Instr) (s : State),
    match namedUnit s i with
    | some (false, kind, n) => exec i s = .fault (.noSuchUnit kind n)
    | _ => ∃ t, exec i s = .next t ∧ onlyChanges (mayChange i) s t ∧ t.pending = s.pending

/-- R66, R71, R72, R87, R99. -/
def Obligations.LapCommandFrames : Prop :=
  ∀ (s t : State) (p : Nat) (i : Instr) (at_ : CoreRef) (w : Waiting),
    lapCommand i = some (at_, w) → WellFormed.cmd w.cmd = true → Issues s p at_ w.env w.cmd → exec i s = .next t →
    let ci := coreIndex at_
    onlyChanges (issueMay w.cmd) s t ∧
    (∀ addr, (∀ u ∈ cmdUses s ci w.cmd, u.write = true → ∀ g ∈ u.addrs ci, addr < g ∨ g + 64 ≤ addr) →
      memRead t.scratch addr = memRead s.scratch addr) ∧
    ((cmdCounter w.cmd).isSome = true → t.scratch = s.scratch)

/-- R69, R70, R71, R75 to R77, R82, R96, R99, R118, R120, R179. -/
def Obligations.DecodeEncode : Prop :=
  (∀ c : CoreCmd, WellFormed.cmd c = true → decodeCommand (encodeCommand c) = some c) ∧
  (∀ (w : CmdWord) (c : CoreCmd), decodeCommand w = some c → encodeCommand c = w ∧ WellFormed.cmd c = true)

/-- The canonical form of State is an invariant of the machine. -/
def Obligations.StepKeepsCanonical : Prop :=
  ∀ s t : State, s.Canonical → step s = .next t → t.Canonical
end

