-- ==== Sys2Proof/Laws/Keeps.lean ====
section
/-! SUPPORT. What the shared operations leave as it was, and that they keep every map in canonical form. `Keeps m s t`
says that t differs from s only in the parts whose bit is set in m, and is canonical if s is. -/

namespace Sys2Proof.Machine

theorem kvRising_tail {α : Type} {a : Nat × α} {m : KV α} (h : kvRising (a :: m) = true) : kvRising m = true := by
  cases m with
  | nil => rfl
  | cons b r =>
    obtain ⟨a1, a2⟩ := a
    obtain ⟨b1, b2⟩ := b
    simp only [kvRising, Bool.and_eq_true] at h
    exact h.2

/-- Every key of a rising map is above its head's. -/
theorem kvRising_head_lt {α : Type} {m : KV α} {a : Nat × α} (h : kvRising (a :: m) = true) :
    ∀ e ∈ m, a.1 < e.1 := by
  induction m generalizing a with
  | nil => simp
  | cons b r ih =>
    obtain ⟨a1, a2⟩ := a
    obtain ⟨b1, b2⟩ := b
    have h' := h
    simp only [kvRising, Bool.and_eq_true, decide_eq_true_eq] at h'
    intro e he
    rcases List.mem_cons.1 he with rfl | he
    · exact h'.1
    · exact Nat.lt_trans h'.1 (ih h'.2 e he)

theorem kvRising_cons {α : Type} {m : KV α} {a : Nat × α} (h : kvRising m = true) (hlt : ∀ e ∈ m, a.1 < e.1) :
    kvRising (a :: m) = true := by
  cases m with
  | nil => obtain ⟨_, _⟩ := a; rfl
  | cons b r =>
    obtain ⟨a1, a2⟩ := a
    obtain ⟨b1, b2⟩ := b
    simp only [kvRising, Bool.and_eq_true, decide_eq_true_eq]
    exact ⟨hlt _ (List.mem_cons_self ..), h⟩

theorem kvRising_filter {α : Type} (p : Nat × α → Bool) {m : KV α} (h : kvRising m = true) :
    kvRising (m.filter p) = true := by
  induction m with
  | nil => rfl
  | cons a r ih =>
    have hr := ih (kvRising_tail h)
    simp only [List.filter]
    split
    · refine kvRising_cons hr ?_
      intro e he
      exact kvRising_head_lt h e (List.mem_filter.1 he).1
    · exact hr

theorem mem_kvPut {α : Type} {m : KV α} {k : Nat} {v : α} {e : Nat × α} (h : e ∈ kvPut m k v) :
    e = (k, v) ∨ e ∈ m := by
  induction m with
  | nil => simpa [kvPut] using h
  | cons a r ih =>
    obtain ⟨a1, a2⟩ := a
    simp only [kvPut] at h
    split at h
    · simpa using h
    · split at h
      · rcases List.mem_cons.1 h with h | h
        · exact .inl h
        · exact .inr (List.mem_cons_of_mem _ h)
      · rcases List.mem_cons.1 h with h | h
        · exact .inr (h ▸ List.mem_cons_self ..)
        · rcases ih h with h | h
          · exact .inl h
          · exact .inr (List.mem_cons_of_mem _ h)

theorem kvRising_put {α : Type} {m : KV α} (k : Nat) (v : α) (h : kvRising m = true) : kvRising (kvPut m k v) = true := by
  induction m with
  | nil => rfl
  | cons a r ih =>
    have hr := kvRising_tail h
    have hlt := kvRising_head_lt h
    obtain ⟨a1, a2⟩ := a
    simp only [kvPut]
    split
    next hk =>
      refine kvRising_cons h ?_
      intro e he
      rcases List.mem_cons.1 he with rfl | he
      · exact hk
      · exact Nat.lt_trans hk (hlt e he)
    next hk =>
      split
      next he =>
        subst he
        exact kvRising_cons hr hlt
      next hne =>
        refine kvRising_cons (ih hr) ?_
        intro e he
        rcases mem_kvPut he with rfl | he
        · show a1 < k
          omega
        · exact hlt e he

/-- Writing a value keeps a map canonical, whatever its defaults. -/
theorem kvWfBy_set {α : Type} [DecidableEq α] {d : Nat → α} {m : KV α} (k : Nat) (v : α) (h : kvWfBy d m = true) :
    kvWfBy d (kvSet (d k) m k v) = true := by
  simp only [kvWfBy, Bool.and_eq_true, List.all_eq_true, decide_eq_true_eq] at h ⊢
  unfold kvSet
  split
  · exact ⟨kvRising_filter _ h.1, fun e he => h.2 e (List.mem_filter.1 he).1⟩
  next hv =>
    refine ⟨kvRising_put k v h.1, fun e he => ?_⟩
    rcases mem_kvPut he with rfl | he
    · exact hv
    · exact h.2 e he

theorem kvWf_eq {α : Type} [DecidableEq α] (d : α) (m : KV α) : kvWf d m = kvWfBy (fun _ => d) m := rfl

theorem kvWf_set {α : Type} [DecidableEq α] {d : α} {m : KV α} (k : Nat) (v : α) (h : kvWf d m = true) :
    kvWf d (kvSet d m k v) = true := kvWfBy_set (d := fun _ => d) k v h

theorem kvWfBy_filter {α : Type} [DecidableEq α] {d : Nat → α} {m : KV α} (p : Nat × α → Bool)
    (h : kvWfBy d m = true) : kvWfBy d (m.filter p) = true := by
  simp only [kvWfBy, Bool.and_eq_true, List.all_eq_true, decide_eq_true_eq] at h ⊢
  exact ⟨kvRising_filter _ h.1, fun e he => h.2 e (List.mem_filter.1 he).1⟩

theorem kvWf_filter {α : Type} [DecidableEq α] {d : α} {m : KV α} (p : Nat × α → Bool)
    (h : kvWf d m = true) : kvWf d (m.filter p) = true := kvWfBy_filter (d := fun _ => d) p h

theorem memWrite_wf {m : Memory} (a : Nat) (b : Byte) (h : Memory.wf m = true) : Memory.wf (memWrite m a b) = true :=
  kvWf_set a b h

theorem memWriteN_wf {m : Memory} (a : Nat) (bs : List Byte) (h : Memory.wf m = true) :
    Memory.wf (memWriteN m a bs) = true := by
  induction bs generalizing m a with
  | nil => exact h
  | cons b r ih => exact ih (a + 1) (memWrite_wf a b h)

theorem memZero_wf {m : Memory} (lo n : Nat) (h : Memory.wf m = true) : Memory.wf (memZero m lo n) = true :=
  kvWf_filter _ h

/-! ## The relation -/

/-- The bit of a part of the state. -/
def Field.bit : Field → Nat
  | .od => 0
  | .dom => 1
  | .scratch => 2
  | .stack => 3
  | .stackPoison => 4
  | .cores => 5
  | .clusters => 6
  | .arrays => 7
  | .chains => 8
  | .frames => 9
  | .parts => 10
  | .sessions => 11
  | .subRings => 12
  | .compRings => 13
  | .recorder => 14
  | .yield => 15
  | .sets => 16
  | .transits => 17
  | .blocks => 18
  | .sensors => 19
  | .plant => 20
  | .fabric => 21
  | .pair => 22
  | .pcie => 23
  | .fns => 24
  | .served0 => 25
  | .served1 => 26
  | .mgmt => 27
  | .nextMgmt => 28
  | .security => 29
  | .commits => 30
  | .stored => 31
  | .out => 32
  | .free => 33
  | .pending => 34

/-- `t` differs from `s` only in the parts of `m`, and is canonical if `s` is. -/
structure Keeps (m : Nat) (s t : State) : Prop where
  canon : s.Canonical → t.Canonical
  same : ∀ f : Field, m.testBit f.bit = false → f.same s t

theorem Field.same_rfl (f : Field) (s : State) : f.same s s := by cases f <;> rfl

theorem Field.same_trans {f : Field} {s t u : State} (h : f.same s t) (k : f.same t u) : f.same s u := by
  cases f <;> exact Eq.trans k h

theorem Keeps.rfl {m : Nat} {s : State} : Keeps m s s := ⟨id, fun f _ => f.same_rfl s⟩

theorem Keeps.mono {m n : Nat} {s t : State} (h : Keeps m s t) (hn : m ||| n = n) : Keeps n s t :=
  ⟨h.canon, fun f hf => h.same f (by
    have hh : (m ||| n).testBit f.bit = false := by rw [hn]; exact hf
    rw [Nat.testBit_or, Bool.or_eq_false_iff] at hh
    exact hh.1)⟩

theorem keeps_lor {k m n : Nat} (h1 : k ||| m = m) (h2 : m ||| n = n) : k ||| n = n := by
  rw [← h2, ← Nat.or_assoc, h1]

/-- One more operation that changes no more than `n`. -/
theorem Keeps.step {m n : Nat} {s t u : State} (h : Keeps n s t) (k : Keeps m t u) (hn : m ||| n = n) : Keeps n s u :=
  ⟨fun c => k.canon (h.canon c), fun f hf => Field.same_trans (h.same f hf) ((k.mono hn).same f hf)⟩

theorem Keeps.cut {n : Nat} {s : State} {P : Prop} (x : State) (hx : Keeps n s x) (hb : Keeps n s x → P) : P := hb hx

theorem keeps_ite {α : Type} {n : Nat} {s : State} {c : Prop} [Decidable c] {a b : α} (f : α → State)
    (ha : Keeps n s (f a)) (hb : Keeps n s (f b)) : Keeps n s (f (if c then a else b)) := by
  split
  · exact ha
  · exact hb

theorem keeps_foldl {α β : Type} {n : Nat} {s0 : State} (f : β → State) (g : β → α → β) (l : List α) {x : β}
    (h : Keeps n s0 (f x)) (hg : ∀ x a, Keeps n s0 (f x) → Keeps n s0 (f (g x a))) :
    Keeps n s0 (f (l.foldl g x)) := by
  induction l generalizing x with
  | nil => exact h
  | cons a r ih => exact ih (hg x a h)

theorem keeps_p1 {α : Type} {n : Nat} {s u : State} {x : State × α} {a : α} (h : x = (u, a)) (k : Keeps n s x.1) :
    Keeps n s u := by
  subst h
  exact k

theorem keeps_p2 {α : Type} {n : Nat} {s u : State} {x : α × State} {a : α} (h : x = (a, u)) (k : Keeps n s x.2) :
    Keeps n s u := by
  subst h
  exact k

theorem keeps_p22 {α β : Type} {n : Nat} {s u : State} {x : α × β × State} {a : α} {b : β} (h : x = (a, b, u))
    (k : Keeps n s x.2.2) : Keeps n s u := by
  subst h
  exact k

theorem keeps_eq {β : Type} {n : Nat} {s : State} {x y : β} (f : β → State) (k : Keeps n s (f x)) (h : x = y) :
    Keeps n s (f y) := h ▸ k

theorem keeps_getD {n : Nat} {s d : State} {o : Option State} (h : ∀ t, o = some t → Keeps n s t)
    (hd : Keeps n s d) : Keeps n s (o.getD d) := by
  cases o with
  | none => exact hd
  | some t => exact h t (Eq.refl _)

/-! ## Outcomes -/

theorem keeps_next {n : Nat} {s e t : State} (hk : Keeps n s e)
    (h : (Host.Outcome.next e : Result) = .next t) : Keeps n s t := by
  cases h
  exact hk

theorem keeps_ok {ε : Type} {n : Nat} {s e t : State} (hk : Keeps n s e)
    (h : (Except.ok e : Except ε State) = .ok t) : Keeps n s t := by
  cases h
  exact hk

theorem keeps_some {n : Nat} {s e t : State} (hk : Keeps n s e) (h : some e = some t) : Keeps n s t := by
  cases h
  exact hk

theorem keeps_at {n : Nat} {ok : Bool} {kind : String} {u : Nat} {s e t : State} (hk : Keeps n s e)
    (h : atUnit ok kind u e = .next t) : Keeps n s t := by
  unfold atUnit at h
  split at h
  · exact keeps_next hk h
  · cases h

/-! ## One part replaced -/

theorem keeps_od (s : State) (v) (hv : s.Canonical → kvWfBy objDefault v = true) : Keeps 1 s { s with od := v } :=
  ⟨fun c => { c with od := hv c }, fun f hf => by cases f <;> first | exact rfl | cases hf⟩

theorem keeps_dom (s : State) (v) (hv : s.Canonical → kvWfBy domDefault v = true) : Keeps 2 s { s with dom := v } :=
  ⟨fun c => { c with dom := hv c }, fun f hf => by cases f <;> first | exact rfl | cases hf⟩

theorem keeps_scratch (s : State) (v) (hv : s.Canonical → Memory.wf v = true) : Keeps 4 s { s with scratch := v } :=
  ⟨fun c => { c with scratch := hv c }, fun f hf => by cases f <;> first | exact rfl | cases hf⟩

theorem keeps_stack (s : State) (v) (hv : s.Canonical → Memory.wf v = true) : Keeps 8 s { s with stack := v } :=
  ⟨fun c => { c with stack := hv c }, fun f hf => by cases f <;> first | exact rfl | cases hf⟩

theorem keeps_stackPoison (s : State) (v) : Keeps 16 s { s with stackPoison := v } :=
  ⟨fun c => { c with }, fun f hf => by cases f <;> first | exact rfl | cases hf⟩

theorem keeps_cores (s : State) (v) (hv : s.Canonical → kvWf {} v = true) : Keeps 32 s { s with cores := v } :=
  ⟨fun c => { c with cores := hv c }, fun f hf => by cases f <;> first | exact rfl | cases hf⟩

theorem keeps_clusters (s : State) (v) (hv : s.Canonical → kvWf {} v = true) : Keeps 64 s { s with clusters := v } :=
  ⟨fun c => { c with clusters := hv c }, fun f hf => by cases f <;> first | exact rfl | cases hf⟩

theorem keeps_arrays (s : State) (v) (hv : s.Canonical → kvWf {} v = true) : Keeps 128 s { s with arrays := v } :=
  ⟨fun c => { c with arrays := hv c }, fun f hf => by cases f <;> first | exact rfl | cases hf⟩

theorem keeps_chains (s : State) (v) (hv : s.Canonical → kvWf {} v = true) : Keeps 256 s { s with chains := v } :=
  ⟨fun c => { c with chains := hv c }, fun f hf => by cases f <;> first | exact rfl | cases hf⟩

theorem keeps_frames (s : State) (v) (hv : s.Canonical → kvWf {} v = true) : Keeps 512 s { s with frames := v } :=
  ⟨fun c => { c with frames := hv c }, fun f hf => by cases f <;> first | exact rfl | cases hf⟩

theorem keeps_parts (s : State) (v) (hv : s.Canonical → kvWf {} v = true) : Keeps 1024 s { s with parts := v } :=
  ⟨fun c => { c with parts := hv c }, fun f hf => by cases f <;> first | exact rfl | cases hf⟩

theorem keeps_sessions (s : State) (v) (hv : s.Canonical → kvWf {} v = true) : Keeps 2048 s { s with sessions := v } :=
  ⟨fun c => { c with sessions := hv c }, fun f hf => by cases f <;> first | exact rfl | cases hf⟩

theorem keeps_subRings (s : State) (v) (hv : s.Canonical → kvWf {} v = true) : Keeps 4096 s { s with subRings := v } :=
  ⟨fun c => { c with subRings := hv c }, fun f hf => by cases f <;> first | exact rfl | cases hf⟩

theorem keeps_compRings (s : State) (v) (hv : s.Canonical → kvWf {} v = true) : Keeps 8192 s { s with compRings := v } :=
  ⟨fun c => { c with compRings := hv c }, fun f hf => by cases f <;> first | exact rfl | cases hf⟩

theorem keeps_recorder (s : State) (v) : Keeps 16384 s { s with recorder := v } :=
  ⟨fun c => { c with }, fun f hf => by cases f <;> first | exact rfl | cases hf⟩

theorem keeps_yield (s : State) (v) : Keeps 32768 s { s with yield := v } :=
  ⟨fun c => { c with }, fun f hf => by cases f <;> first | exact rfl | cases hf⟩

theorem keeps_sets (s : State) (v) (hv : s.Canonical → kvWf {} v = true) : Keeps 65536 s { s with sets := v } :=
  ⟨fun c => { c with sets := hv c }, fun f hf => by cases f <;> first | exact rfl | cases hf⟩

theorem keeps_transits (s : State) (v) : Keeps 131072 s { s with transits := v } :=
  ⟨fun c => { c with }, fun f hf => by cases f <;> first | exact rfl | cases hf⟩

theorem keeps_blocks (s : State) (v) (hv : s.Canonical → kvWf {} v = true) : Keeps 262144 s { s with blocks := v } :=
  ⟨fun c => { c with blocks := hv c }, fun f hf => by cases f <;> first | exact rfl | cases hf⟩

theorem keeps_sensors (s : State) (v) (hv : s.Canonical → kvWf {} v = true) : Keeps 524288 s { s with sensors := v } :=
  ⟨fun c => { c with sensors := hv c }, fun f hf => by cases f <;> first | exact rfl | cases hf⟩

theorem keeps_plant (s : State) (v) : Keeps 1048576 s { s with plant := v } :=
  ⟨fun c => { c with }, fun f hf => by cases f <;> first | exact rfl | cases hf⟩

theorem keeps_fabric (s : State) (v) : Keeps 2097152 s { s with fabric := v } :=
  ⟨fun c => { c with }, fun f hf => by cases f <;> first | exact rfl | cases hf⟩

theorem keeps_pair (s : State) (v) : Keeps 4194304 s { s with pair := v } :=
  ⟨fun c => { c with }, fun f hf => by cases f <;> first | exact rfl | cases hf⟩

theorem keeps_pcie (s : State) (v) (hv : s.Canonical → kvWf {} v = true) : Keeps 8388608 s { s with pcie := v } :=
  ⟨fun c => { c with pcie := hv c }, fun f hf => by cases f <;> first | exact rfl | cases hf⟩

theorem keeps_fns (s : State) (v) (hv : s.Canonical → kvWf {} v = true) : Keeps 16777216 s { s with fns := v } :=
  ⟨fun c => { c with fns := hv c }, fun f hf => by cases f <;> first | exact rfl | cases hf⟩

theorem keeps_served0 (s : State) (v) : Keeps 33554432 s { s with served0 := v } :=
  ⟨fun c => { c with }, fun f hf => by cases f <;> first | exact rfl | cases hf⟩

theorem keeps_served1 (s : State) (v) : Keeps 67108864 s { s with served1 := v } :=
  ⟨fun c => { c with }, fun f hf => by cases f <;> first | exact rfl | cases hf⟩

theorem keeps_mgmt (s : State) (v) (hv : s.Canonical → kvWf {} v = true) : Keeps 134217728 s { s with mgmt := v } :=
  ⟨fun c => { c with mgmt := hv c }, fun f hf => by cases f <;> first | exact rfl | cases hf⟩

theorem keeps_nextMgmt (s : State) (v) : Keeps 268435456 s { s with nextMgmt := v } :=
  ⟨fun c => { c with }, fun f hf => by cases f <;> first | exact rfl | cases hf⟩

theorem keeps_security (s : State) (v) : Keeps 536870912 s { s with security := v } :=
  ⟨fun c => { c with }, fun f hf => by cases f <;> first | exact rfl | cases hf⟩

theorem keeps_commits (s : State) (v) : Keeps 1073741824 s { s with commits := v } :=
  ⟨fun c => { c with }, fun f hf => by cases f <;> first | exact rfl | cases hf⟩

theorem keeps_stored (s : State) (v) : Keeps 2147483648 s { s with stored := v } :=
  ⟨fun c => { c with }, fun f hf => by cases f <;> first | exact rfl | cases hf⟩

theorem keeps_out (s : State) (v) : Keeps 4294967296 s { s with out := v } :=
  ⟨fun c => { c with }, fun f hf => by cases f <;> first | exact rfl | cases hf⟩

theorem keeps_free (s : State) (v) : Keeps 8589934592 s { s with free := v } :=
  ⟨fun c => { c with }, fun f hf => by cases f <;> first | exact rfl | cases hf⟩

theorem keeps_pending (s : State) (v) : Keeps 17179869184 s { s with pending := v } :=
  ⟨fun c => { c with }, fun f hf => by cases f <;> first | exact rfl | cases hf⟩

/-! ## Several parts replaced at once -/

theorem keeps_stack_stackPoison (s : State) (v0) (v1)
    (h0 : s.Canonical → Memory.wf v0 = true) :
    Keeps 24 s { s with stack := v0, stackPoison := v1 } :=
  ⟨fun c => { c with stack := h0 c },
    fun f hf => by cases f <;> first | exact rfl | cases hf⟩

theorem keeps_cores_chains (s : State) (v0) (v1)
    (h0 : s.Canonical → kvWf {} v0 = true)
    (h1 : s.Canonical → kvWf {} v1 = true) :
    Keeps 288 s { s with cores := v0, chains := v1 } :=
  ⟨fun c => { c with cores := h0 c, chains := h1 c },
    fun f hf => by cases f <;> first | exact rfl | cases hf⟩

theorem keeps_od_dom (s : State) (v0) (v1)
    (h0 : s.Canonical → kvWfBy objDefault v0 = true)
    (h1 : s.Canonical → kvWfBy domDefault v1 = true) :
    Keeps 3 s { s with od := v0, dom := v1 } :=
  ⟨fun c => { c with od := h0 c, dom := h1 c },
    fun f hf => by cases f <;> first | exact rfl | cases hf⟩

theorem keeps_plant_pair (s : State) (v0) (v1) :
    Keeps 5242880 s { s with plant := v0, pair := v1 } :=
  ⟨fun c => { c with  },
    fun f hf => by cases f <;> first | exact rfl | cases hf⟩

theorem keeps_recorder_stored (s : State) (v0) (v1) :
    Keeps 2147500032 s { s with recorder := v0, stored := v1 } :=
  ⟨fun c => { c with  },
    fun f hf => by cases f <;> first | exact rfl | cases hf⟩

end Sys2Proof.Machine
end

