-- ==== Sys2Proof/Laws/KeepsOps.lean ====
section
/-! SUPPORT. What the operations of Machine/Ops.lean leave as it was. -/

namespace Sys2Proof.Machine

theorem odSet_keeps {s k v} :
    Keeps 1 s (odSet s k v) := by
  delta odSet
  refine Keeps.step ?_ (keeps_od _ _ (fun c => kvWfBy_set _ _ c.od)) rfl
  exact Keeps.rfl

theorem odBit_keeps {s k bit v} :
    Keeps 1 s (odBit s k bit v) := by
  delta odBit
  extract_lets -merge -useContext -underBinder +onlyGivenNames x1
  try clear_value x1
  refine Keeps.step ?_ odSet_keeps rfl
  exact Keeps.rfl

theorem bump_keeps {s k n} :
    Keeps 1 s (bump s k n) := by
  delta bump
  refine Keeps.step ?_ odSet_keeps rfl
  exact Keeps.rfl

theorem odMax_keeps {s k v} :
    Keeps 1 s (odMax s k v) := by
  delta odMax
  refine Keeps.step ?_ odSet_keeps rfl
  exact Keeps.rfl

theorem odPut_keeps {s k v} :
    Keeps 1 s (odPut s k v) := by
  delta odPut
  refine Keeps.step ?_ odSet_keeps rfl
  exact Keeps.rfl

theorem domSet_keeps {s k v} :
    Keeps 2 s (domSet s k v) := by
  delta domSet
  refine Keeps.step ?_ (keeps_dom _ _ (fun c => kvWfBy_set _ _ c.dom)) rfl
  exact Keeps.rfl

theorem setCore_keeps {s i c} :
    Keeps 32 s (setCore s i c) := by
  delta setCore
  refine Keeps.step ?_ (keeps_cores _ _ (fun c => kvWf_set _ _ c.cores)) rfl
  exact Keeps.rfl

theorem updCore_keeps {s i f} :
    Keeps 32 s (updCore s i f) := by
  delta updCore
  refine Keeps.step ?_ setCore_keeps rfl
  exact Keeps.rfl

theorem setCluster_keeps {s i c} :
    Keeps 64 s (setCluster s i c) := by
  delta setCluster
  refine Keeps.step ?_ (keeps_clusters _ _ (fun c => kvWf_set _ _ c.clusters)) rfl
  exact Keeps.rfl

theorem updCluster_keeps {s i f} :
    Keeps 64 s (updCluster s i f) := by
  delta updCluster
  refine Keeps.step ?_ setCluster_keeps rfl
  exact Keeps.rfl

theorem setArr_keeps {s i a} :
    Keeps 128 s (setArr s i a) := by
  delta setArr
  refine Keeps.step ?_ (keeps_arrays _ _ (fun c => kvWf_set _ _ c.arrays)) rfl
  exact Keeps.rfl

theorem updArr_keeps {s i f} :
    Keeps 128 s (updArr s i f) := by
  delta updArr
  refine Keeps.step ?_ setArr_keeps rfl
  exact Keeps.rfl

theorem setChain_keeps {s i c} :
    Keeps 256 s (setChain s i c) := by
  delta setChain
  refine Keeps.step ?_ (keeps_chains _ _ (fun c => kvWf_set _ _ c.chains)) rfl
  exact Keeps.rfl

theorem updChain_keeps {s i f} :
    Keeps 256 s (updChain s i f) := by
  delta updChain
  refine Keeps.step ?_ setChain_keeps rfl
  exact Keeps.rfl

theorem setFrame_keeps {s i f} :
    Keeps 512 s (setFrame s i f) := by
  delta setFrame
  refine Keeps.step ?_ (keeps_frames _ _ (fun c => kvWf_set _ _ c.frames)) rfl
  exact Keeps.rfl

theorem updFrame_keeps {s i f} :
    Keeps 512 s (updFrame s i f) := by
  delta updFrame
  refine Keeps.step ?_ setFrame_keeps rfl
  exact Keeps.rfl

theorem setPart_keeps {s p x} :
    Keeps 1024 s (setPart s p x) := by
  delta setPart
  refine Keeps.step ?_ (keeps_parts _ _ (fun c => kvWf_set _ _ c.parts)) rfl
  exact Keeps.rfl

theorem updPart_keeps {s p f} :
    Keeps 1024 s (updPart s p f) := by
  delta updPart
  refine Keeps.step ?_ setPart_keeps rfl
  exact Keeps.rfl

theorem setSess_keeps {s i x} :
    Keeps 2048 s (setSess s i x) := by
  delta setSess
  refine Keeps.step ?_ (keeps_sessions _ _ (fun c => kvWf_set _ _ c.sessions)) rfl
  exact Keeps.rfl

theorem updSess_keeps {s i f} :
    Keeps 2048 s (updSess s i f) := by
  delta updSess
  refine Keeps.step ?_ setSess_keeps rfl
  exact Keeps.rfl

theorem setSub_keeps {s r x} :
    Keeps 4096 s (setSub s r x) := by
  delta setSub
  refine Keeps.step ?_ (keeps_subRings _ _ (fun c => kvWf_set _ _ c.subRings)) rfl
  exact Keeps.rfl

theorem updSub_keeps {s r f} :
    Keeps 4096 s (updSub s r f) := by
  delta updSub
  refine Keeps.step ?_ setSub_keeps rfl
  exact Keeps.rfl

theorem setComp_keeps {s r x} :
    Keeps 8192 s (setComp s r x) := by
  delta setComp
  refine Keeps.step ?_ (keeps_compRings _ _ (fun c => kvWf_set _ _ c.compRings)) rfl
  exact Keeps.rfl

theorem updComp_keeps {s r f} :
    Keeps 8192 s (updComp s r f) := by
  delta updComp
  refine Keeps.step ?_ setComp_keeps rfl
  exact Keeps.rfl

theorem setWset_keeps {s i x} :
    Keeps 65536 s (setWset s i x) := by
  delta setWset
  refine Keeps.step ?_ (keeps_sets _ _ (fun c => kvWf_set _ _ c.sets)) rfl
  exact Keeps.rfl

theorem updWset_keeps {s i f} :
    Keeps 65536 s (updWset s i f) := by
  delta updWset
  refine Keeps.step ?_ setWset_keeps rfl
  exact Keeps.rfl

theorem setBlk_keeps {s b x} :
    Keeps 262144 s (setBlk s b x) := by
  delta setBlk
  refine Keeps.step ?_ (keeps_blocks _ _ (fun c => kvWf_set _ _ c.blocks)) rfl
  exact Keeps.rfl

theorem updBlk_keeps {s b f} :
    Keeps 262144 s (updBlk s b f) := by
  delta updBlk
  refine Keeps.step ?_ setBlk_keeps rfl
  exact Keeps.rfl

theorem setSensor_keeps {s i x} :
    Keeps 524288 s (setSensor s i x) := by
  delta setSensor
  refine Keeps.step ?_ (keeps_sensors _ _ (fun c => kvWf_set _ _ c.sensors)) rfl
  exact Keeps.rfl

theorem updSensor_keeps {s i f} :
    Keeps 524288 s (updSensor s i f) := by
  delta updSensor
  refine Keeps.step ?_ setSensor_keeps rfl
  exact Keeps.rfl

theorem updPort_keeps {s i f} :
    Keeps 8388608 s (updPort s i f) := by
  delta updPort
  refine Keeps.step ?_ (keeps_pcie _ _ (fun c => kvWf_set _ _ c.pcie)) rfl
  exact Keeps.rfl

theorem updFn_keeps {s i f} :
    Keeps 16777216 s (updFn s i f) := by
  delta updFn
  refine Keeps.step ?_ (keeps_fns _ _ (fun c => kvWf_set _ _ c.fns)) rfl
  exact Keeps.rfl

theorem setMgmt_keeps {s i x} :
    Keeps 134217728 s (setMgmt s i x) := by
  delta setMgmt
  refine Keeps.step ?_ (keeps_mgmt _ _ (fun c => kvWf_set _ _ c.mgmt)) rfl
  exact Keeps.rfl

theorem updMgmt_keeps {s i f} :
    Keeps 134217728 s (updMgmt s i f) := by
  delta updMgmt
  refine Keeps.step ?_ setMgmt_keeps rfl
  exact Keeps.rfl

theorem emit_keeps {s m} :
    Keeps 4294967296 s (emit s m) := by
  delta emit
  refine Keeps.step ?_ (keeps_out _ _) rfl
  exact Keeps.rfl

theorem drawFree_keeps {s} :
    Keeps 8589934592 s (drawFree s).2 := by
  delta drawFree
  try dsimp -zeta only
  refine Keeps.step ?_ (keeps_free _ _) rfl
  exact Keeps.rfl


theorem atPart_keeps {p next t} (h : atPart p next = .next t) :
    Keeps 0 next t := by
  delta atPart at h
  refine keeps_at ?_ h
  exact Keeps.rfl

theorem atSess_keeps {i next t} (h : atSess i next = .next t) :
    Keeps 0 next t := by
  delta atSess at h
  refine keeps_at ?_ h
  exact Keeps.rfl

theorem atRing_keeps {r next t} (h : atRing r next = .next t) :
    Keeps 0 next t := by
  delta atRing at h
  refine keeps_at ?_ h
  exact Keeps.rfl

theorem atFn_keeps {f next t} (h : atFn f next = .next t) :
    Keeps 0 next t := by
  delta atFn at h
  refine keeps_at ?_ h
  exact Keeps.rfl

theorem atSet_keeps {i next t} (h : atSet i next = .next t) :
    Keeps 0 next t := by
  delta atSet at h
  refine keeps_at ?_ h
  exact Keeps.rfl

theorem atBlock_keeps {b next t} (h : atBlock b next = .next t) :
    Keeps 0 next t := by
  delta atBlock at h
  refine keeps_at ?_ h
  exact Keeps.rfl

theorem atCluster_keeps {c next t} (h : atCluster c next = .next t) :
    Keeps 0 next t := by
  delta atCluster at h
  refine keeps_at ?_ h
  exact Keeps.rfl

theorem forEach_keeps {α : Type} {n : Nat} {l : List α} {f : State → α → State} {s0 s : State} (h : Keeps n s0 s)
    (hf : ∀ s a, Keeps n s0 s → Keeps n s0 (f s a)) (_hn : 0 ||| n = n) : Keeps n s0 (forEach l f s) :=
  keeps_foldl (fun x => x) f l h hf

theorem recordOwn_keeps {s code payload} :
    Keeps 16384 s (recordOwn s code payload) := by
  delta recordOwn
  extract_lets -merge -useContext -underBinder +onlyGivenNames x1
  try clear_value x1
  refine keeps_ite (fun x => x) ?_ ?_
  · exact Keeps.rfl
  refine Keeps.step ?_ (keeps_recorder _ _) rfl
  exact Keeps.rfl

theorem recordEvent_keeps {s e} :
    Keeps 16385 s (recordEvent s e) := by
  delta recordEvent
  extract_lets -merge -useContext -underBinder +onlyGivenNames x1
  try clear_value x1
  refine keeps_ite (fun x => x) ?_ ?_
  · exact Keeps.rfl
  refine keeps_ite (fun x => x) ?_ ?_
  · refine Keeps.step ?_ bump_keeps rfl
    refine Keeps.step ?_ (keeps_recorder _ _) rfl
    exact Keeps.rfl
  refine keeps_ite (fun x => x) ?_ ?_
  · refine Keeps.step ?_ bump_keeps rfl
    exact Keeps.rfl
  extract_lets -merge -useContext -underBinder +onlyGivenNames x2
  try clear_value x2
  extract_lets -merge -useContext -underBinder +onlyGivenNames x3
  try clear_value x3
  refine Keeps.step ?_ (keeps_recorder _ _) rfl
  exact Keeps.rfl

theorem startFlush_keeps {s} :
    Keeps 16384 s (startFlush s) := by
  delta startFlush
  refine Keeps.step ?_ (keeps_recorder _ _) rfl
  exact Keeps.rfl

theorem replaceRequest_keeps {s bit urgency} :
    Keeps 1064961 s (replaceRequest s bit urgency) := by
  delta replaceRequest
  extract_lets -merge -useContext -underBinder +onlyGivenNames x1
  try clear_value x1
  extract_lets -merge -useContext -underBinder +onlyGivenNames x2
  try clear_value x2
  refine keeps_ite (fun x => x) ?_ ?_
  · exact Keeps.rfl
  extract_lets -merge -useContext -underBinder +onlyGivenNames x3
  refine Keeps.cut (n := 1064961) (s := s) x3 ?_ ?_
  · subst x3
    refine keeps_ite (fun x => x) ?_ ?_
    · exact Keeps.rfl
    refine Keeps.step ?_ odSet_keeps rfl
    exact Keeps.rfl
  intro _
  try clear_value x3
  extract_lets -merge -useContext -underBinder +onlyGivenNames x4
  skip
  extract_lets -merge -useContext -underBinder +onlyGivenNames x5
  refine Keeps.cut (n := 1064961) (s := s) x5 ?_ ?_
  · subst x5
    refine keeps_ite (fun x => x) ?_ ?_
    · assumption
    refine Keeps.step ?_ (keeps_plant _ _) rfl
    assumption
  intro _
  try clear_value x5
  extract_lets -merge -useContext -underBinder +onlyGivenNames x6
  refine Keeps.cut (n := 1064961) (s := s) x6 ?_ ?_
  · subst x6
    refine Keeps.step ?_ odSet_keeps rfl
    assumption
  intro _
  try clear_value x6
  extract_lets -merge -useContext -underBinder +onlyGivenNames x7
  refine Keeps.cut (n := 1064961) (s := s) x7 ?_ ?_
  · subst x7
    refine keeps_ite (fun x => x) ?_ ?_
    · assumption
    refine Keeps.step ?_ odSet_keeps rfl
    assumption
  intro _
  try clear_value x7
  extract_lets -merge -useContext -underBinder +onlyGivenNames x8
  refine Keeps.cut (n := 1064961) (s := s) x8 ?_ ?_
  · subst x8
    refine Keeps.step ?_ bump_keeps rfl
    assumption
  intro _
  try clear_value x8
  refine Keeps.step ?_ recordEvent_keeps rfl
  assumption

theorem raiseFault_keeps {s p code cluster} :
    Keeps 17409 s (raiseFault s p code cluster) := by
  delta raiseFault
  extract_lets -merge -useContext -underBinder +onlyGivenNames x1
  try clear_value x1
  refine keeps_ite (fun x => x) ?_ ?_
  · exact Keeps.rfl
  refine keeps_ite (fun x => x) ?_ ?_
  · refine Keeps.step ?_ setPart_keeps rfl
    exact Keeps.rfl
  extract_lets -merge -useContext -underBinder +onlyGivenNames x2
  refine Keeps.cut (n := 17409) (s := s) x2 ?_ ?_
  · subst x2
    refine Keeps.step ?_ setPart_keeps rfl
    exact Keeps.rfl
  intro _
  try clear_value x2
  refine Keeps.step ?_ recordEvent_keeps rfl
  assumption

end Sys2Proof.Machine
end

