-- ==== Sys2Proof/Laws/KeepsOperands.lean ====
section
/-! SUPPORT. What the operations of Machine/Operands.lean leave as it was. -/

namespace Sys2Proof.Machine

theorem writeGranule_keeps {s ci addr bytes} :
    Keeps 36 s (writeGranule s ci addr bytes) := by
  delta writeGranule
  extract_lets -merge -useContext -underBinder +onlyGivenNames x1
  refine Keeps.cut (n := 36) (s := s) x1 ?_ ?_
  · subst x1
    refine Keeps.step ?_ (keeps_scratch _ _ (fun c => memWriteN_wf _ _ c.scratch)) rfl
    exact Keeps.rfl
  intro _
  try clear_value x1
  extract_lets -merge -useContext -underBinder +onlyGivenNames x2
  try clear_value x2
  refine keeps_ite (fun x => x) ?_ ?_
  · refine Keeps.step ?_ setCore_keeps rfl
    assumption
  assumption

theorem writeArea_keeps {s ci d bytes} :
    Keeps 36 s (writeArea s ci d bytes) := by
  delta writeArea
  refine keeps_foldl (fun x => x) _ _ ?_ ?_
  · exact Keeps.rfl
  intro _ _ _
  refine Keeps.step ?_ writeGranule_keeps rfl
  assumption

theorem writeRows_keeps {s ci d cols rows} :
    Keeps 36 s (writeRows s ci d cols rows) := by
  delta writeRows
  extract_lets -merge -useContext -underBinder +onlyGivenNames x1
  try clear_value x1
  extract_lets -merge -useContext -underBinder +onlyGivenNames x2
  try clear_value x2
  extract_lets -merge -useContext -underBinder +onlyGivenNames x3
  try clear_value x3
  extract_lets -merge -useContext -underBinder +onlyGivenNames x4
  try clear_value x4
  extract_lets -merge -useContext -underBinder +onlyGivenNames x5
  try clear_value x5
  refine Keeps.step ?_ writeArea_keeps rfl
  exact Keeps.rfl

end Sys2Proof.Machine
end

