-- ==== Sys2Proof/Laws/KeepsFlags.lean ====
section
/-! SUPPORT. What the operations of Machine/Flags.lean leave as it was. -/

namespace Sys2Proof.Machine

theorem requestReplay_keeps {s ci} :
    Keeps 32 s (requestReplay s ci) := by
  delta requestReplay
  refine Keeps.step ?_ updCore_keeps rfl
  exact Keeps.rfl

theorem setAbort_keeps {s ci session} :
    Keeps 32 s (setAbort s ci session) := by
  delta setAbort
  refine Keeps.step ?_ updCore_keeps rfl
  exact Keeps.rfl

theorem recordCore_keeps {s p ci bank idx} :
    Keeps 16385 s (recordCore s p ci bank idx) := by
  delta recordCore
  refine Keeps.step ?_ recordEvent_keeps rfl
  exact Keeps.rfl

theorem parityError_keeps {s p ci idx word} :
    Keeps 17441 s (parityError s p ci idx word) := by
  delta parityError
  extract_lets -merge -useContext -underBinder +onlyGivenNames x1
  try clear_value x1
  extract_lets -merge -useContext -underBinder +onlyGivenNames x2
  refine Keeps.cut (n := 17441) (s := s) x2 ?_ ?_
  · subst x2
    refine Keeps.step ?_ requestReplay_keeps rfl
    exact Keeps.rfl
  intro _
  try clear_value x2
  extract_lets -merge -useContext -underBinder +onlyGivenNames x3
  refine Keeps.cut (n := 17441) (s := s) x3 ?_ ?_
  · subst x3
    refine Keeps.step ?_ updCore_keeps rfl
    assumption
  intro _
  try clear_value x3
  extract_lets -merge -useContext -underBinder +onlyGivenNames x4
  refine Keeps.cut (n := 17441) (s := s) x4 ?_ ?_
  · subst x4
    refine Keeps.step ?_ bump_keeps rfl
    assumption
  intro _
  try clear_value x4
  extract_lets -merge -useContext -underBinder +onlyGivenNames x5
  refine Keeps.cut (n := 17441) (s := s) x5 ?_ ?_
  · subst x5
    refine Keeps.step ?_ recordCore_keeps rfl
    assumption
  intro _
  try clear_value x5
  refine keeps_ite (fun x => x) ?_ ?_
  · refine Keeps.step ?_ raiseFault_keeps rfl
    assumption
  assumption

theorem parityErrors_keeps {s p ci idx env reads} :
    Keeps 17441 s (parityErrors s p ci idx env reads) := by
  delta parityErrors
  extract_lets -merge -useContext -underBinder +onlyGivenNames x1
  try clear_value x1
  extract_lets -merge -useContext -underBinder +onlyGivenNames x2
  try clear_value x2
  refine keeps_foldl (fun x => x) _ _ ?_ ?_
  · exact Keeps.rfl
  intro _ _ _
  refine Keeps.step ?_ parityError_keeps rfl
  assumption

theorem bankConflict_keeps {s p ci idx later x} :
    Keeps 17441 s (bankConflict s p ci idx later x) := by
  delta bankConflict
  extract_lets -merge -useContext -underBinder +onlyGivenNames x1
  try clear_value x1
  extract_lets -merge -useContext -underBinder +onlyGivenNames x2
  refine Keeps.cut (n := 17441) (s := s) x2 ?_ ?_
  · subst x2
    refine Keeps.step ?_ requestReplay_keeps rfl
    exact Keeps.rfl
  intro _
  try clear_value x2
  extract_lets -merge -useContext -underBinder +onlyGivenNames x3
  refine Keeps.cut (n := 17441) (s := s) x3 ?_ ?_
  · subst x3
    refine Keeps.step ?_ updCore_keeps rfl
    assumption
  intro _
  try clear_value x3
  extract_lets -merge -useContext -underBinder +onlyGivenNames x4
  refine Keeps.cut (n := 17441) (s := s) x4 ?_ ?_
  · subst x4
    refine Keeps.step ?_ bump_keeps rfl
    assumption
  intro _
  try clear_value x4
  extract_lets -merge -useContext -underBinder +onlyGivenNames x5
  refine Keeps.cut (n := 17441) (s := s) x5 ?_ ?_
  · subst x5
    refine Keeps.step ?_ recordCore_keeps rfl
    assumption
  intro _
  try clear_value x5
  refine keeps_ite (fun x => x) ?_ ?_
  · refine Keeps.step ?_ raiseFault_keeps rfl
    assumption
  assumption

theorem commandErrors_keeps {s p ci idx who env reads} :
    Keeps 17441 s (commandErrors s p ci idx who env reads) := by
  delta commandErrors
  refine keeps_foldl (fun x => x) _ _ ?_ ?_
  · refine Keeps.step ?_ parityErrors_keeps rfl
    exact Keeps.rfl
  intro _ _ _
  refine Keeps.step ?_ bankConflict_keeps rfl
  assumption

theorem countInvalid_keeps {s n} :
    Keeps 1 s (countInvalid s n) := by
  delta countInvalid
  refine keeps_ite (fun x => x) ?_ ?_
  · exact Keeps.rfl
  refine Keeps.step ?_ bump_keeps rfl
  exact Keeps.rfl

theorem countConv_keeps {s x} :
    Keeps 1 s (countConv s x) := by
  delta countConv
  extract_lets -merge -useContext -underBinder +onlyGivenNames x1
  refine Keeps.cut (n := 1) (s := s) x1 ?_ ?_
  · subst x1
    refine keeps_ite (fun x => x) ?_ ?_
    · exact Keeps.rfl
    refine Keeps.step ?_ bump_keeps rfl
    exact Keeps.rfl
  intro _
  try clear_value x1
  refine keeps_ite (fun x => x) ?_ ?_
  · assumption
  refine Keeps.step ?_ bump_keeps rfl
  assumption

theorem drawRng_keeps {s ci} :
    Keeps 32 s (drawRng s ci).2 := by
  delta drawRng
  extract_lets -merge -useContext -underBinder +onlyGivenNames x1
  try clear_value x1
  try dsimp -zeta only
  refine Keeps.step ?_ setCore_keeps rfl
  exact Keeps.rfl

theorem roundingOf_keeps {s ci mode} :
    Keeps 32 s (roundingOf s ci mode).2 := by
  delta roundingOf
  refine keeps_ite (fun (x : _ × State) => x.2) ?_ ?_
  · extract_lets -merge -useContext -underBinder +onlyGivenNames x1
    refine Keeps.cut (n := 32) (s := s) x1.2 ?_ ?_
    · subst x1
      refine Keeps.step ?_ drawRng_keeps rfl
      exact Keeps.rfl
    intro _
    try clear_value x1
    try dsimp -zeta only
    assumption
  refine keeps_ite (fun (x : _ × State) => x.2) ?_ ?_
  · try dsimp -zeta only
    exact Keeps.rfl
  try dsimp -zeta only
  exact Keeps.rfl

theorem convOne_keeps {s ci f mode v} :
    Keeps 33 s (convOne s ci f mode v).2 := by
  delta convOne
  extract_lets -merge -useContext -underBinder +onlyGivenNames x1
  refine Keeps.cut (n := 33) (s := s) x1.2 ?_ ?_
  · subst x1
    refine Keeps.step ?_ roundingOf_keeps rfl
    exact Keeps.rfl
  intro _
  try clear_value x1
  extract_lets -merge -useContext -underBinder +onlyGivenNames x2
  try clear_value x2
  try dsimp -zeta only
  refine Keeps.step ?_ countConv_keeps rfl
  assumption

theorem convRow_keeps {s ci f mode l} : Keeps 33 s (convRow s ci f mode l).2 := by
  induction l generalizing s with
  | nil => exact Keeps.rfl
  | cons v r ih =>
    unfold convRow
    exact Keeps.step convOne_keeps ih rfl

theorem storeRows_keeps {s ci d mode cols rows} :
    Keeps 37 s (storeRows s ci d mode cols rows) := by
  delta storeRows
  extract_lets -merge -useContext -underBinder +onlyGivenNames x1
  refine Keeps.cut (n := 37) (s := s) x1.2 ?_ ?_
  · subst x1
    refine keeps_foldl (fun (x : _ × State) => x.2) _ _ ?_ ?_
    · try dsimp -zeta only
      exact Keeps.rfl
    intro _ _ _
    extract_lets -merge -useContext -underBinder +onlyGivenNames x2
    refine Keeps.cut (n := 37) (s := s) x2.2 ?_ ?_
    · subst x2
      refine Keeps.step ?_ convRow_keeps rfl
      assumption
    intro _
    try clear_value x2
    try dsimp -zeta only
    assumption
  intro _
  try clear_value x1
  refine Keeps.step ?_ writeRows_keeps rfl
  assumption

theorem drawNear_keeps {s ref tol} :
    Keeps 8589934592 s (drawNear s ref tol).2 := by
  delta drawNear
  extract_lets -merge -useContext -underBinder +onlyGivenNames x1
  refine Keeps.cut (n := 8589934592) (s := s) x1.2 ?_ ?_
  · subst x1
    refine Keeps.step ?_ drawFree_keeps rfl
    exact Keeps.rfl
  intro _
  try clear_value x1
  try dsimp -zeta only
  assumption

theorem boundedResult_keeps {s ref tol} :
    Keeps 8589934592 s (boundedResult s ref tol).2 := by
  delta boundedResult
  refine keeps_ite (fun (x : _ × State) => x.2) ?_ ?_
  · refine Keeps.step ?_ drawNear_keeps rfl
    exact Keeps.rfl
  try dsimp -zeta only
  exact Keeps.rfl

end Sys2Proof.Machine
end

