-- ==== Sys2Proof/Laws/KeepsMatrix.lean ====
section
/-! SUPPORT. What the operations of Machine/Matrix.lean leave as it was. -/

namespace Sys2Proof.Machine

theorem accumulate_keeps {s k mag a} :
    Keeps 8589934592 s (accumulate s k mag a).2 := by
  delta accumulate
  split
  · try dsimp -zeta only
    exact Keeps.rfl
  refine Keeps.step ?_ boundedResult_keeps rfl
  exact Keeps.rfl

theorem mmaElem_keeps {s int scaled k a w prev} :
    Keeps 8589934592 s (mmaElem s int scaled k a w prev).2 := by
  delta mmaElem
  extract_lets -merge -useContext -underBinder +onlyGivenNames x1
  try clear_value x1
  split
  · try dsimp -zeta only
    exact Keeps.rfl
  · try dsimp -zeta only
    exact Keeps.rfl
  · refine Keeps.step ?_ accumulate_keeps rfl
    exact Keeps.rfl
  refine Keeps.step ?_ accumulate_keeps rfl
  exact Keeps.rfl

theorem mmaOut_keeps {s int scaled k rows cols prev} :
    Keeps 8589934592 s (mmaOut s int scaled k rows cols prev).2 := by
  delta mmaOut
  refine keeps_foldl (fun (x : _ × State) => x.2) _ _ ?_ ?_
  · try dsimp -zeta only
    exact Keeps.rfl
  intro _ _ _
  extract_lets -merge -useContext -underBinder +onlyGivenNames x1
  refine Keeps.cut (n := 8589934592) (s := s) x1.2 ?_ ?_
  · subst x1
    refine keeps_foldl (fun (x : _ × State) => x.2) _ _ ?_ ?_
    · try dsimp -zeta only
      assumption
    intro _ _ _
    extract_lets -merge -useContext -underBinder +onlyGivenNames x2
    try clear_value x2
    extract_lets -merge -useContext -underBinder +onlyGivenNames x3
    refine Keeps.cut (n := 8589934592) (s := s) x3.2 ?_ ?_
    · subst x3
      refine Keeps.step ?_ mmaElem_keeps rfl
      assumption
    intro _
    try clear_value x3
    try dsimp -zeta only
    assumption
  intro _
  try clear_value x1
  try dsimp -zeta only
  assumption

theorem effMma_keeps {s ci a} :
    Keeps 8589934629 s (effMma s ci a) := by
  delta effMma
  extract_lets -merge -useContext -underBinder +onlyGivenNames x1
  try clear_value x1
  extract_lets -merge -useContext -underBinder +onlyGivenNames x2
  try clear_value x2
  extract_lets -merge -useContext -underBinder +onlyGivenNames x3
  try clear_value x3
  extract_lets -merge -useContext -underBinder +onlyGivenNames x4
  try clear_value x4
  extract_lets -merge -useContext -underBinder +onlyGivenNames x5
  try clear_value x5
  extract_lets -merge -useContext -underBinder +onlyGivenNames x6
  try clear_value x6
  extract_lets -merge -useContext -underBinder +onlyGivenNames x7
  try clear_value x7
  extract_lets -merge -useContext -underBinder +onlyGivenNames x8
  try clear_value x8
  extract_lets -merge -useContext -underBinder +onlyGivenNames x9
  try clear_value x9
  extract_lets -merge -useContext -underBinder +onlyGivenNames x10
  try clear_value x10
  extract_lets -merge -useContext -underBinder +onlyGivenNames x11
  try clear_value x11
  extract_lets -merge -useContext -underBinder +onlyGivenNames x12
  try clear_value x12
  extract_lets -merge -useContext -underBinder +onlyGivenNames x13
  try clear_value x13
  extract_lets -merge -useContext -underBinder +onlyGivenNames x14
  try clear_value x14
  extract_lets -merge -useContext -underBinder +onlyGivenNames x15
  refine Keeps.cut (n := 8589934629) (s := s) x15 ?_ ?_
  · subst x15
    refine Keeps.step ?_ countInvalid_keeps rfl
    exact Keeps.rfl
  intro _
  try clear_value x15
  extract_lets -merge -useContext -underBinder +onlyGivenNames x16
  refine Keeps.cut (n := 8589934629) (s := s) x16.2 ?_ ?_
  · subst x16
    refine Keeps.step ?_ mmaOut_keeps rfl
    assumption
  intro _
  try clear_value x16
  refine Keeps.step ?_ storeRows_keeps rfl
  assumption

end Sys2Proof.Machine
end

