-- ==== Sys2Proof/Laws/KeepsVector.lean ====
section
/-! SUPPORT. What the operations of Machine/Vector.lean leave as it was. -/

namespace Sys2Proof.Machine

theorem vStore_keeps {s ci a cols rows} :
    Keeps 37 s (vStore s ci a cols rows) := by
  delta vStore
  refine Keeps.step ?_ storeRows_keeps rfl
  exact Keeps.rfl

theorem mapRows_keeps {n : Nat} {s0 : State} {f s l} (h : Keeps n s0 s)
    (hf : ∀ s i j v, Keeps n s0 s → Keeps n s0 (f s i j v).2) (_hn : 0 ||| n = n) :
    Keeps n s0 (mapRows f s l).2 := by
  delta mapRows
  refine keeps_foldl (fun (x : _ × State) => x.2) _ _ h ?_
  intro x a hx
  show Keeps n s0 (List.foldl _ (_, x.2) _).2
  refine keeps_foldl (fun (x : _ × State) => x.2) _ _ hx ?_
  intro y b hy
  exact hf _ _ _ _ hy

theorem elementwise_keeps {n : Nat} {s0 : State} {s ci a f} (h : Keeps n s0 s)
    (hf : ∀ s x y z, Keeps n s0 s → Keeps n s0 (f s x y z).2) (hn : 37 ||| n = n) :
    Keeps n s0 (elementwise s ci a f) := by
  delta elementwise
  refine Keeps.step ?_ (vStore_keeps.mono hn) (Nat.or_self n)
  refine mapRows_keeps ?_ (fun s _ _ _ k => hf _ _ _ _ k) (Nat.zero_or n)
  exact Keeps.step h (countInvalid_keeps.mono (keeps_lor rfl hn)) (Nat.or_self n)

theorem exactFn_keeps {f s x y z} :
    Keeps 0 s (exactFn f s x y z).2 := by
  delta exactFn
  try dsimp -zeta only
  exact Keeps.rfl

theorem boundedFn_keeps {ref relLog absTol special s x} :
    Keeps 8589934592 s (boundedFn ref relLog absTol special s x).2 := by
  delta boundedFn
  split
  · try dsimp -zeta only
    exact Keeps.rfl
  refine keeps_ite (fun (x : _ × State) => x.2) ?_ ?_
  · extract_lets -merge -useContext -underBinder +onlyGivenNames x1
    try clear_value x1
    refine Keeps.step ?_ drawNear_keeps rfl
    exact Keeps.rfl
  extract_lets -merge -useContext -underBinder +onlyGivenNames x2
  refine Keeps.cut (n := 8589934592) (s := s) x2.2 ?_ ?_
  · subst x2
    refine Keeps.step ?_ drawFree_keeps rfl
    exact Keeps.rfl
  intro _
  try clear_value x2
  try dsimp -zeta only
  assumption

theorem vecCopy_keeps {s ci a} :
    Keeps 37 s (vecCopy s ci a) := by
  delta vecCopy
  refine elementwise_keeps ?_ ?_ rfl
  · exact Keeps.rfl
  intro _ _ _ _ _
  refine Keeps.step ?_ exactFn_keeps rfl
  assumption

theorem vecAdd_keeps {s ci a} :
    Keeps 37 s (vecAdd s ci a) := by
  delta vecAdd
  refine elementwise_keeps ?_ ?_ rfl
  · exact Keeps.rfl
  intro _ _ _ _ _
  refine Keeps.step ?_ exactFn_keeps rfl
  assumption

theorem vecSub_keeps {s ci a} :
    Keeps 37 s (vecSub s ci a) := by
  delta vecSub
  refine elementwise_keeps ?_ ?_ rfl
  · exact Keeps.rfl
  intro _ _ _ _ _
  refine Keeps.step ?_ exactFn_keeps rfl
  assumption

theorem vecMul_keeps {s ci a} :
    Keeps 37 s (vecMul s ci a) := by
  delta vecMul
  refine elementwise_keeps ?_ ?_ rfl
  · exact Keeps.rfl
  intro _ _ _ _ _
  refine Keeps.step ?_ exactFn_keeps rfl
  assumption

theorem vecFma_keeps {s ci a} :
    Keeps 37 s (vecFma s ci a) := by
  delta vecFma
  refine elementwise_keeps ?_ ?_ rfl
  · exact Keeps.rfl
  intro _ _ _ _ _
  refine Keeps.step ?_ exactFn_keeps rfl
  assumption

theorem vecMax_keeps {s ci a} :
    Keeps 37 s (vecMax s ci a) := by
  delta vecMax
  refine elementwise_keeps ?_ ?_ rfl
  · exact Keeps.rfl
  intro _ _ _ _ _
  refine Keeps.step ?_ exactFn_keeps rfl
  assumption

theorem vecMin_keeps {s ci a} :
    Keeps 37 s (vecMin s ci a) := by
  delta vecMin
  refine elementwise_keeps ?_ ?_ rfl
  · exact Keeps.rfl
  intro _ _ _ _ _
  refine Keeps.step ?_ exactFn_keeps rfl
  assumption

theorem vecScale_keeps {s ci a} :
    Keeps 37 s (vecScale s ci a) := by
  delta vecScale
  refine elementwise_keeps ?_ ?_ rfl
  · exact Keeps.rfl
  intro _ _ _ _ _
  refine Keeps.step ?_ exactFn_keeps rfl
  assumption

theorem vecExp_keeps {s ci a} :
    Keeps 8589934629 s (vecExp s ci a) := by
  delta vecExp
  refine elementwise_keeps ?_ ?_ rfl
  · exact Keeps.rfl
  intro _ _ _ _ _
  refine Keeps.step ?_ boundedFn_keeps rfl
  assumption

theorem vecRecip_keeps {s ci a} :
    Keeps 8589934629 s (vecRecip s ci a) := by
  delta vecRecip
  refine elementwise_keeps ?_ ?_ rfl
  · exact Keeps.rfl
  intro _ _ _ _ _
  refine Keeps.step ?_ boundedFn_keeps rfl
  assumption

theorem vecRsqrt_keeps {s ci a} :
    Keeps 8589934629 s (vecRsqrt s ci a) := by
  delta vecRsqrt
  refine elementwise_keeps ?_ ?_ rfl
  · exact Keeps.rfl
  intro _ _ _ _ _
  refine Keeps.step ?_ boundedFn_keeps rfl
  assumption

theorem vecSilu_keeps {s ci a} :
    Keeps 8589934629 s (vecSilu s ci a) := by
  delta vecSilu
  refine elementwise_keeps ?_ ?_ rfl
  · exact Keeps.rfl
  intro _ _ _ _ _
  refine Keeps.step ?_ boundedFn_keeps rfl
  assumption

theorem vecGelu_keeps {s ci a} :
    Keeps 8589934629 s (vecGelu s ci a) := by
  delta vecGelu
  refine elementwise_keeps ?_ ?_ rfl
  · exact Keeps.rfl
  intro _ _ _ _ _
  refine Keeps.step ?_ boundedFn_keeps rfl
  assumption

theorem vecSigmoid_keeps {s ci a} :
    Keeps 8589934629 s (vecSigmoid s ci a) := by
  delta vecSigmoid
  refine elementwise_keeps ?_ ?_ rfl
  · exact Keeps.rfl
  intro _ _ _ _ _
  refine Keeps.step ?_ boundedFn_keeps rfl
  assumption

theorem vecTanh_keeps {s ci a} :
    Keeps 8589934629 s (vecTanh s ci a) := by
  delta vecTanh
  refine elementwise_keeps ?_ ?_ rfl
  · exact Keeps.rfl
  intro _ _ _ _ _
  refine Keeps.step ?_ boundedFn_keeps rfl
  assumption

theorem reduction_keeps {n : Nat} {s0 : State} {s ci a f} (h : Keeps n s0 s)
    (hf : ∀ s x, Keeps n s0 s → Keeps n s0 (f s x).2) (hn : 37 ||| n = n) :
    Keeps n s0 (reduction s ci a f) := by
  delta reduction
  refine Keeps.step ?_ (vStore_keeps.mono hn) (Nat.or_self n)
  refine keeps_foldl (fun (x : _ × State) => x.2) _ _ ?_ (fun _ _ k => hf _ _ k)
  exact Keeps.step h (countInvalid_keeps.mono (keeps_lor rfl hn)) (Nat.or_self n)

theorem vecSum_keeps {s ci a} :
    Keeps 8589934629 s (vecSum s ci a) := by
  delta vecSum
  refine reduction_keeps ?_ ?_ rfl
  · exact Keeps.rfl
  intro _ _ _
  refine Keeps.step ?_ boundedResult_keeps rfl
  assumption

theorem vecMaxr_keeps {s ci a} :
    Keeps 37 s (vecMaxr s ci a) := by
  delta vecMaxr
  refine reduction_keeps ?_ ?_ rfl
  · exact Keeps.rfl
  intro _ _ _
  try dsimp -zeta only
  assumption

theorem vecSumsq_keeps {s ci a} :
    Keeps 8589934629 s (vecSumsq s ci a) := by
  delta vecSumsq
  refine reduction_keeps ?_ ?_ rfl
  · exact Keeps.rfl
  intro _ _ _
  refine Keeps.step ?_ boundedResult_keeps rfl
  assumption

theorem rowwise_keeps {n : Nat} {s0 : State} {s ci a f} (h : Keeps n s0 s)
    (hf : ∀ s x y z, Keeps n s0 s → Keeps n s0 (f s x y z).2) (hn : 37 ||| n = n) :
    Keeps n s0 (rowwise s ci a f) := by
  delta rowwise
  refine Keeps.step ?_ (vStore_keeps.mono hn) (Nat.or_self n)
  refine keeps_foldl (fun (x : _ × State) => x.2) _ _ ?_ (fun _ _ k => hf _ _ _ _ k)
  exact Keeps.step h (countInvalid_keeps.mono (keeps_lor rfl hn)) (Nat.or_self n)

theorem mapSt_keeps {α β : Type} {n : Nat} {s0 : State} {f : State → α → β × State} {s l} (h : Keeps n s0 s)
    (hf : ∀ s x, Keeps n s0 s → Keeps n s0 (f s x).2) (_hn : 0 ||| n = n) :
    Keeps n s0 (mapSt f s l).2 := by
  delta mapSt
  refine keeps_foldl (fun (x : _ × State) => x.2) _ _ h ?_
  intro x a hx
  exact hf _ _ hx

theorem normRow_keeps {remove imm s row gain bias} :
    Keeps 8589934592 s (normRow remove imm s row gain bias).2 := by
  delta normRow
  extract_lets -merge -useContext -underBinder +onlyGivenNames x1
  try clear_value x1
  extract_lets -merge -useContext -underBinder +onlyGivenNames x2
  try clear_value x2
  extract_lets -merge -useContext -underBinder +onlyGivenNames x3
  try clear_value x3
  refine mapSt_keeps ?_ ?_ rfl
  · exact Keeps.rfl
  intro _ _ _
  extract_lets -merge -useContext -underBinder +onlyGivenNames x4
  try clear_value x4
  extract_lets -merge -useContext -underBinder +onlyGivenNames x5
  try clear_value x5
  refine keeps_ite (fun (x : _ × State) => x.2) ?_ ?_
  · refine Keeps.step ?_ drawNear_keeps rfl
    assumption
  try dsimp -zeta only
  assumption

theorem vecRmsnorm_keeps {s ci a} :
    Keeps 8589934629 s (vecRmsnorm s ci a) := by
  delta vecRmsnorm
  refine rowwise_keeps ?_ ?_ rfl
  · exact Keeps.rfl
  intro _ _ _ _ _
  refine Keeps.step ?_ normRow_keeps rfl
  assumption

theorem vecLayernorm_keeps {s ci a} :
    Keeps 8589934629 s (vecLayernorm s ci a) := by
  delta vecLayernorm
  refine rowwise_keeps ?_ ?_ rfl
  · exact Keeps.rfl
  intro _ _ _ _ _
  refine Keeps.step ?_ normRow_keeps rfl
  assumption

theorem vecSoftmax_keeps {s ci a} :
    Keeps 8589934629 s (vecSoftmax s ci a) := by
  delta vecSoftmax
  refine rowwise_keeps ?_ ?_ rfl
  · exact Keeps.rfl
  intro _ _ _ _ _
  refine keeps_ite (fun (x : _ × State) => x.2) ?_ ?_
  · refine mapSt_keeps ?_ ?_ rfl
    · assumption
    intro _ _ _
    refine Keeps.step ?_ drawNear_keeps rfl
    assumption
  try dsimp -zeta only
  assumption

theorem vecRope_keeps {s ci a} :
    Keeps 8589934629 s (vecRope s ci a) := by
  delta vecRope
  extract_lets -merge -useContext -underBinder +onlyGivenNames x1
  try clear_value x1
  extract_lets -merge -useContext -underBinder +onlyGivenNames x2
  try clear_value x2
  extract_lets -merge -useContext -underBinder +onlyGivenNames x3
  try clear_value x3
  extract_lets -merge -useContext -underBinder +onlyGivenNames x4
  refine Keeps.cut (n := 8589934629) (s := s) x4 ?_ ?_
  · subst x4
    refine Keeps.step ?_ countInvalid_keeps rfl
    exact Keeps.rfl
  intro _
  try clear_value x4
  extract_lets -merge -useContext -underBinder +onlyGivenNames x5
  refine Keeps.cut (n := 8589934629) (s := s) x5.2 ?_ ?_
  · subst x5
    refine mapSt_keeps ?_ ?_ rfl
    · assumption
    intro _ _ _
    refine mapSt_keeps ?_ ?_ rfl
    · assumption
    intro _ _ _
    extract_lets -merge -useContext -underBinder +onlyGivenNames x6
    try clear_value x6
    extract_lets -merge -useContext -underBinder +onlyGivenNames x7
    try clear_value x7
    extract_lets -merge -useContext -underBinder +onlyGivenNames x8
    try clear_value x8
    refine keeps_ite (fun (x : _ × State) => x.2) ?_ ?_
    · extract_lets -merge -useContext -underBinder +onlyGivenNames x9
      try clear_value x9
      extract_lets -merge -useContext -underBinder +onlyGivenNames x10
      try clear_value x10
      refine Keeps.step ?_ drawNear_keeps rfl
      assumption
    refine keeps_ite (fun (x : _ × State) => x.2) ?_ ?_
    · extract_lets -merge -useContext -underBinder +onlyGivenNames x11
      try clear_value x11
      try dsimp -zeta only
      assumption
    try dsimp -zeta only
    assumption
  intro _
  try clear_value x5
  refine Keeps.step ?_ vStore_keeps rfl
  assumption

theorem vecDequant_keeps {s ci a} :
    Keeps 37 s (vecDequant s ci a) := by
  delta vecDequant
  extract_lets -merge -useContext -underBinder +onlyGivenNames x1
  try clear_value x1
  extract_lets -merge -useContext -underBinder +onlyGivenNames x2
  try clear_value x2
  extract_lets -merge -useContext -underBinder +onlyGivenNames x3
  try clear_value x3
  extract_lets -merge -useContext -underBinder +onlyGivenNames x4
  try clear_value x4
  extract_lets -merge -useContext -underBinder +onlyGivenNames x5
  try clear_value x5
  extract_lets -merge -useContext -underBinder +onlyGivenNames x6
  try clear_value x6
  extract_lets -merge -useContext -underBinder +onlyGivenNames x7
  try clear_value x7
  extract_lets -merge -useContext -underBinder +onlyGivenNames x8
  try clear_value x8
  extract_lets -merge -useContext -underBinder +onlyGivenNames x9
  refine Keeps.cut (n := 37) (s := s) x9 ?_ ?_
  · subst x9
    refine Keeps.step ?_ countInvalid_keeps rfl
    exact Keeps.rfl
  intro _
  try clear_value x9
  refine Keeps.step ?_ vStore_keeps rfl
  assumption

theorem writeRawRows_keeps {s ci d len rows} :
    Keeps 36 s (writeRawRows s ci d len rows) := by
  delta writeRawRows
  extract_lets -merge -useContext -underBinder +onlyGivenNames x1
  try clear_value x1
  extract_lets -merge -useContext -underBinder +onlyGivenNames x2
  try clear_value x2
  extract_lets -merge -useContext -underBinder +onlyGivenNames x3
  try clear_value x3
  refine Keeps.step ?_ writeArea_keeps rfl
  exact Keeps.rfl

theorem vecTopk_keeps {s ci a} :
    Keeps 37 s (vecTopk s ci a) := by
  delta vecTopk
  extract_lets -merge -useContext -underBinder +onlyGivenNames x1
  try clear_value x1
  extract_lets -merge -useContext -underBinder +onlyGivenNames x2
  refine Keeps.cut (n := 37) (s := s) x2 ?_ ?_
  · subst x2
    refine Keeps.step ?_ countInvalid_keeps rfl
    exact Keeps.rfl
  intro _
  try clear_value x2
  extract_lets -merge -useContext -underBinder +onlyGivenNames x3
  try clear_value x3
  extract_lets -merge -useContext -underBinder +onlyGivenNames x4
  try clear_value x4
  refine Keeps.step ?_ writeRawRows_keeps rfl
  assumption

theorem quantRow_keeps {s ci f e static row res} :
    Keeps 33 s (quantRow s ci f e static row res).2 := by
  delta quantRow
  extract_lets -merge -useContext -underBinder +onlyGivenNames x1
  try clear_value x1
  extract_lets -merge -useContext -underBinder +onlyGivenNames x2
  try clear_value x2
  extract_lets -merge -useContext -underBinder +onlyGivenNames x3
  try clear_value x3
  extract_lets -merge -useContext -underBinder +onlyGivenNames x4
  refine Keeps.cut (n := 33) (s := s) x4 ?_ ?_
  · subst x4
    refine keeps_ite (fun x => x) ?_ ?_
    · exact Keeps.rfl
    refine Keeps.step ?_ bump_keeps rfl
    exact Keeps.rfl
  intro _
  try clear_value x4
  extract_lets -merge -useContext -underBinder +onlyGivenNames x5
  try clear_value x5
  extract_lets -merge -useContext -underBinder +onlyGivenNames x6
  refine Keeps.cut (n := 33) (s := s) x6 ?_ ?_
  · subst x6
    refine keeps_ite (fun x => x) ?_ ?_
    · assumption
    refine Keeps.step ?_ bump_keeps rfl
    assumption
  intro _
  try clear_value x6
  extract_lets -merge -useContext -underBinder +onlyGivenNames x7
  try clear_value x7
  extract_lets -merge -useContext -underBinder +onlyGivenNames x8
  try clear_value x8
  extract_lets -merge -useContext -underBinder +onlyGivenNames x9
  refine Keeps.cut (n := 33) (s := s) x9.2 ?_ ?_
  · subst x9
    refine mapSt_keeps ?_ ?_ rfl
    · assumption
    intro _ _ _
    extract_lets -merge -useContext -underBinder +onlyGivenNames x10
    try clear_value x10
    extract_lets -merge -useContext -underBinder +onlyGivenNames x11
    refine Keeps.cut (n := 33) (s := s) x11.2 ?_ ?_
    · subst x11
      refine mapSt_keeps ?_ ?_ rfl
      · assumption
      intro _ _ _
      refine Keeps.step ?_ convOne_keeps rfl
      assumption
    intro _
    try clear_value x11
    try dsimp -zeta only
    assumption
  intro _
  try clear_value x9
  extract_lets -merge -useContext -underBinder +onlyGivenNames x12
  try clear_value x12
  extract_lets -merge -useContext -underBinder +onlyGivenNames x13
  try clear_value x13
  extract_lets -merge -useContext -underBinder +onlyGivenNames x14
  try clear_value x14
  extract_lets -merge -useContext -underBinder +onlyGivenNames x15
  try clear_value x15
  try dsimp -zeta only
  assumption

theorem vecQuant_keeps {s ci a} :
    Keeps 37 s (vecQuant s ci a) := by
  delta vecQuant
  extract_lets -merge -useContext -underBinder +onlyGivenNames x1
  try clear_value x1
  extract_lets -merge -useContext -underBinder +onlyGivenNames x2
  try clear_value x2
  extract_lets -merge -useContext -underBinder +onlyGivenNames x3
  try clear_value x3
  extract_lets -merge -useContext -underBinder +onlyGivenNames x4
  try clear_value x4
  extract_lets -merge -useContext -underBinder +onlyGivenNames x5
  try clear_value x5
  extract_lets -merge -useContext -underBinder +onlyGivenNames x6
  try clear_value x6
  extract_lets -merge -useContext -underBinder +onlyGivenNames x7
  try clear_value x7
  extract_lets -merge -useContext -underBinder +onlyGivenNames x8
  try clear_value x8
  extract_lets -merge -useContext -underBinder +onlyGivenNames x9
  refine Keeps.cut (n := 37) (s := s) x9 ?_ ?_
  · subst x9
    refine Keeps.step ?_ countInvalid_keeps rfl
    exact Keeps.rfl
  intro _
  try clear_value x9
  extract_lets -merge -useContext -underBinder +onlyGivenNames x10
  try clear_value x10
  extract_lets -merge -useContext -underBinder +onlyGivenNames x11
  refine Keeps.cut (n := 37) (s := s) x11.2 ?_ ?_
  · subst x11
    refine mapSt_keeps ?_ ?_ rfl
    · assumption
    intro _ _ _
    refine Keeps.step ?_ quantRow_keeps rfl
    assumption
  intro _
  try clear_value x11
  extract_lets -merge -useContext -underBinder +onlyGivenNames x12
  refine Keeps.cut (n := 37) (s := s) x12 ?_ ?_
  · subst x12
    refine Keeps.step ?_ writeRows_keeps rfl
    assumption
  intro _
  try clear_value x12
  extract_lets -merge -useContext -underBinder +onlyGivenNames x13
  refine Keeps.cut (n := 37) (s := s) x13 ?_ ?_
  · subst x13
    refine keeps_ite (fun x => x) ?_ ?_
    · assumption
    refine Keeps.step ?_ storeRows_keeps rfl
    assumption
  intro _
  try clear_value x13
  extract_lets -merge -useContext -underBinder +onlyGivenNames x14
  try clear_value x14
  extract_lets -merge -useContext -underBinder +onlyGivenNames x15
  try clear_value x15
  extract_lets -merge -useContext -underBinder +onlyGivenNames x16
  try clear_value x16
  extract_lets -merge -useContext -underBinder +onlyGivenNames x17
  refine Keeps.cut (n := 37) (s := s) x17 ?_ ?_
  · subst x17
    refine keeps_ite (fun x => x) ?_ ?_
    · assumption
    refine Keeps.step ?_ writeArea_keeps rfl
    assumption
  intro _
  try clear_value x17
  refine Keeps.step ?_ storeRows_keeps rfl
  assumption

theorem vecOutlier_keeps {s ci a} :
    Keeps 8589934629 s (vecOutlier s ci a) := by
  delta vecOutlier
  extract_lets -merge -useContext -underBinder +onlyGivenNames x1
  try clear_value x1
  extract_lets -merge -useContext -underBinder +onlyGivenNames x2
  try clear_value x2
  extract_lets -merge -useContext -underBinder +onlyGivenNames x3
  try clear_value x3
  extract_lets -merge -useContext -underBinder +onlyGivenNames x4
  try clear_value x4
  extract_lets -merge -useContext -underBinder +onlyGivenNames x5
  try clear_value x5
  extract_lets -merge -useContext -underBinder +onlyGivenNames x6
  try clear_value x6
  extract_lets -merge -useContext -underBinder +onlyGivenNames x7
  try clear_value x7
  extract_lets -merge -useContext -underBinder +onlyGivenNames x8
  try clear_value x8
  extract_lets -merge -useContext -underBinder +onlyGivenNames x9
  try clear_value x9
  extract_lets -merge -useContext -underBinder +onlyGivenNames x10
  try clear_value x10
  extract_lets -merge -useContext -underBinder +onlyGivenNames x11
  refine Keeps.cut (n := 8589934629) (s := s) x11.2 ?_ ?_
  · subst x11
    refine mapSt_keeps ?_ ?_ rfl
    · exact Keeps.rfl
    intro _ _ _
    extract_lets -merge -useContext -underBinder +onlyGivenNames x12
    try clear_value x12
    extract_lets -merge -useContext -underBinder +onlyGivenNames x13
    try clear_value x13
    extract_lets -merge -useContext -underBinder +onlyGivenNames x14
    try clear_value x14
    refine Keeps.step ?_ boundedResult_keeps rfl
    assumption
  intro _
  try clear_value x11
  extract_lets -merge -useContext -underBinder +onlyGivenNames x15
  refine Keeps.cut (n := 8589934629) (s := s) x15 ?_ ?_
  · subst x15
    refine Keeps.step ?_ storeRows_keeps rfl
    assumption
  intro _
  try clear_value x15
  split
  · refine keeps_ite (fun x => x) ?_ ?_
    · refine Keeps.step ?_ bump_keeps rfl
      assumption
    assumption
  assumption

theorem checkColumn_keeps {s e v scales w ws result} :
    Keeps 8589934592 s (checkColumn s e v scales w ws result).2 := by
  delta checkColumn
  extract_lets -merge -useContext -underBinder +onlyGivenNames x1
  try clear_value x1
  extract_lets -merge -useContext -underBinder +onlyGivenNames x2
  try clear_value x2
  extract_lets -merge -useContext -underBinder +onlyGivenNames x3
  try clear_value x3
  extract_lets -merge -useContext -underBinder +onlyGivenNames x4
  try clear_value x4
  extract_lets -merge -useContext -underBinder +onlyGivenNames x5
  try clear_value x5
  extract_lets -merge -useContext -underBinder +onlyGivenNames x6
  try clear_value x6
  extract_lets -merge -useContext -underBinder +onlyGivenNames x7
  refine Keeps.cut (n := 8589934592) (s := s) x7.2 ?_ ?_
  · subst x7
    refine Keeps.step ?_ boundedResult_keeps rfl
    exact Keeps.rfl
  intro _
  try clear_value x7
  extract_lets -merge -useContext -underBinder +onlyGivenNames x8
  try clear_value x8
  try dsimp -zeta only
  assumption

theorem checkTile_keeps {s ci a e} :
    Keeps 8589934593 s (checkTile s ci a e).2 := by
  delta checkTile
  extract_lets -merge -useContext -underBinder +onlyGivenNames x1
  try clear_value x1
  extract_lets -merge -useContext -underBinder +onlyGivenNames x2
  try clear_value x2
  extract_lets -merge -useContext -underBinder +onlyGivenNames x3
  try clear_value x3
  extract_lets -merge -useContext -underBinder +onlyGivenNames x4
  try clear_value x4
  extract_lets -merge -useContext -underBinder +onlyGivenNames x5
  try clear_value x5
  extract_lets -merge -useContext -underBinder +onlyGivenNames x6
  try clear_value x6
  extract_lets -merge -useContext -underBinder +onlyGivenNames x7
  try clear_value x7
  extract_lets -merge -useContext -underBinder +onlyGivenNames x8
  try clear_value x8
  extract_lets -merge -useContext -underBinder +onlyGivenNames x9
  try clear_value x9
  extract_lets -merge -useContext -underBinder +onlyGivenNames x10
  refine Keeps.cut (n := 8589934593) (s := s) x10 ?_ ?_
  · subst x10
    refine Keeps.step ?_ countInvalid_keeps rfl
    exact Keeps.rfl
  intro _
  try clear_value x10
  extract_lets -merge -useContext -underBinder +onlyGivenNames x11
  refine Keeps.cut (n := 8589934593) (s := s) x11.2 ?_ ?_
  · subst x11
    refine mapSt_keeps ?_ ?_ rfl
    · assumption
    intro _ _ _
    extract_lets -merge -useContext -underBinder +onlyGivenNames x12
    try clear_value x12
    extract_lets -merge -useContext -underBinder +onlyGivenNames x13
    try clear_value x13
    refine Keeps.step ?_ checkColumn_keeps rfl
    assumption
  intro _
  try clear_value x11
  try dsimp -zeta only
  assumption

theorem skipBlock_keeps {s ci a} :
    Keeps 32 s (skipBlock s ci a) := by
  delta skipBlock
  refine Keeps.step ?_ updCore_keeps rfl
  exact Keeps.rfl

theorem countWiden_keeps {s level} :
    Keeps 1 s (countWiden s level) := by
  delta countWiden
  refine keeps_ite (fun x => x) ?_ ?_
  · refine Keeps.step ?_ bump_keeps rfl
    exact Keeps.rfl
  refine Keeps.step ?_ bump_keeps rfl
  exact Keeps.rfl

theorem checkMiss_keeps {s p ci a e ratio} :
    Keeps 16417 s (checkMiss s p ci a e ratio) := by
  delta checkMiss
  extract_lets -merge -useContext -underBinder +onlyGivenNames x1
  refine Keeps.cut (n := 16417) (s := s) x1 ?_ ?_
  · subst x1
    refine Keeps.step ?_ bump_keeps rfl
    exact Keeps.rfl
  intro _
  try clear_value x1
  refine keeps_ite (fun x => x) ?_ ?_
  · extract_lets -merge -useContext -underBinder +onlyGivenNames x2
    refine Keeps.cut (n := 16417) (s := s) x2 ?_ ?_
    · subst x2
      refine Keeps.step ?_ bump_keeps rfl
      assumption
    intro _
    try clear_value x2
    extract_lets -merge -useContext -underBinder +onlyGivenNames x3
    refine Keeps.cut (n := 16417) (s := s) x3 ?_ ?_
    · subst x3
      refine Keeps.step ?_ bump_keeps rfl
      assumption
    intro _
    try clear_value x3
    refine Keeps.step ?_ recordEvent_keeps rfl
    assumption
  refine keeps_ite (fun x => x) ?_ ?_
  · refine Keeps.step ?_ skipBlock_keeps rfl
    refine Keeps.step ?_ recordEvent_keeps rfl
    assumption
  extract_lets -merge -useContext -underBinder +onlyGivenNames x4
  refine Keeps.cut (n := 16417) (s := s) x4 ?_ ?_
  · subst x4
    refine Keeps.step ?_ bump_keeps rfl
    assumption
  intro _
  try clear_value x4
  refine keeps_ite (fun x => x) ?_ ?_
  · refine Keeps.step ?_ countWiden_keeps rfl
    assumption
  refine Keeps.step ?_ updCore_keeps rfl
  assumption

theorem vecCheck_keeps {s ci a} :
    Keeps 8589951013 s (vecCheck s ci a) := by
  delta vecCheck
  split
  · exact Keeps.rfl
  extract_lets -merge -useContext -underBinder +onlyGivenNames x1
  try clear_value x1
  extract_lets -merge -useContext -underBinder +onlyGivenNames x2
  refine Keeps.cut (n := 8589951013) (s := s) x2.2 ?_ ?_
  · subst x2
    refine Keeps.step ?_ checkTile_keeps rfl
    exact Keeps.rfl
  intro _
  try clear_value x2
  extract_lets -merge -useContext -underBinder +onlyGivenNames x3
  refine Keeps.cut (n := 8589951013) (s := s) x3 ?_ ?_
  · subst x3
    refine Keeps.step ?_ bump_keeps rfl
    assumption
  intro _
  try clear_value x3
  extract_lets -merge -useContext -underBinder +onlyGivenNames x4
  refine Keeps.cut (n := 8589951013) (s := s) x4 ?_ ?_
  · subst x4
    refine Keeps.step ?_ updCore_keeps rfl
    assumption
  intro _
  try clear_value x4
  extract_lets -merge -useContext -underBinder +onlyGivenNames x5
  refine Keeps.cut (n := 8589951013) (s := s) x5 ?_ ?_
  · subst x5
    refine keeps_ite (fun x => x) ?_ ?_
    · refine Keeps.step ?_ odSet_keeps rfl
      assumption
    assumption
  intro _
  try clear_value x5
  extract_lets -merge -useContext -underBinder +onlyGivenNames x6
  refine Keeps.cut (n := 8589951013) (s := s) x6 ?_ ?_
  · subst x6
    refine Keeps.step ?_ storeRows_keeps rfl
    assumption
  intro _
  try clear_value x6
  refine keeps_ite (fun x => x) ?_ ?_
  · refine Keeps.step ?_ checkMiss_keeps rfl
    assumption
  refine Keeps.step ?_ skipBlock_keeps rfl
  assumption

theorem vecGuard_keeps {s ci a} :
    Keeps 33 s (vecGuard s ci a) := by
  delta vecGuard
  extract_lets -merge -useContext -underBinder +onlyGivenNames x1
  try clear_value x1
  refine keeps_ite (fun x => x) ?_ ?_
  · refine keeps_ite (fun x => x) ?_ ?_
    · refine Keeps.step ?_ countWiden_keeps rfl
      exact Keeps.rfl
    exact Keeps.rfl
  refine Keeps.step ?_ skipBlock_keeps rfl
  exact Keeps.rfl

theorem effVec_keeps {s ci fn a} :
    Keeps 8589951013 s (effVec s ci fn a) := by
  delta effVec
  split
  · refine Keeps.step ?_ vecCopy_keeps rfl
    exact Keeps.rfl
  · refine Keeps.step ?_ vecAdd_keeps rfl
    exact Keeps.rfl
  · refine Keeps.step ?_ vecSub_keeps rfl
    exact Keeps.rfl
  · refine Keeps.step ?_ vecMul_keeps rfl
    exact Keeps.rfl
  · refine Keeps.step ?_ vecFma_keeps rfl
    exact Keeps.rfl
  · refine Keeps.step ?_ vecMax_keeps rfl
    exact Keeps.rfl
  · refine Keeps.step ?_ vecMin_keeps rfl
    exact Keeps.rfl
  · refine Keeps.step ?_ vecScale_keeps rfl
    exact Keeps.rfl
  · refine Keeps.step ?_ vecExp_keeps rfl
    exact Keeps.rfl
  · refine Keeps.step ?_ vecRecip_keeps rfl
    exact Keeps.rfl
  · refine Keeps.step ?_ vecRsqrt_keeps rfl
    exact Keeps.rfl
  · refine Keeps.step ?_ vecSilu_keeps rfl
    exact Keeps.rfl
  · refine Keeps.step ?_ vecGelu_keeps rfl
    exact Keeps.rfl
  · refine Keeps.step ?_ vecSigmoid_keeps rfl
    exact Keeps.rfl
  · refine Keeps.step ?_ vecTanh_keeps rfl
    exact Keeps.rfl
  · refine Keeps.step ?_ vecSum_keeps rfl
    exact Keeps.rfl
  · refine Keeps.step ?_ vecMaxr_keeps rfl
    exact Keeps.rfl
  · refine Keeps.step ?_ vecSumsq_keeps rfl
    exact Keeps.rfl
  · refine Keeps.step ?_ vecRmsnorm_keeps rfl
    exact Keeps.rfl
  · refine Keeps.step ?_ vecLayernorm_keeps rfl
    exact Keeps.rfl
  · refine Keeps.step ?_ vecSoftmax_keeps rfl
    exact Keeps.rfl
  · refine Keeps.step ?_ vecRope_keeps rfl
    exact Keeps.rfl
  · refine Keeps.step ?_ vecQuant_keeps rfl
    exact Keeps.rfl
  · refine Keeps.step ?_ vecDequant_keeps rfl
    exact Keeps.rfl
  · refine Keeps.step ?_ vecTopk_keeps rfl
    exact Keeps.rfl
  · refine Keeps.step ?_ vecOutlier_keeps rfl
    exact Keeps.rfl
  refine keeps_ite (fun x => x) ?_ ?_
  · refine Keeps.step ?_ vecGuard_keeps rfl
    exact Keeps.rfl
  refine Keeps.step ?_ vecCheck_keeps rfl
  exact Keeps.rfl

end Sys2Proof.Machine
end

