-- ==== Sys2Proof/Laws/KeepsRoutes.lean ====
section
/-! SUPPORT. What the operations of Machine/Routes.lean leave as it was. -/

namespace Sys2Proof.Machine

theorem updLink_keeps {s l f} :
    Keeps 2097152 s (updLink s l f) := by
  delta updLink
  refine Keeps.step ?_ (keeps_fabric _ _) rfl
  exact Keeps.rfl

theorem noteDetours_keeps {s ks} :
    Keeps 1064961 s (noteDetours s ks) := by
  delta noteDetours
  split
  · exact Keeps.rfl
  extract_lets -merge -useContext -underBinder +onlyGivenNames x1
  try clear_value x1
  extract_lets -merge -useContext -underBinder +onlyGivenNames x2
  try clear_value x2
  extract_lets -merge -useContext -underBinder +onlyGivenNames x3
  refine Keeps.cut (n := 1064961) (s := s) x3 ?_ ?_
  · subst x3
    refine Keeps.step ?_ bump_keeps rfl
    exact Keeps.rfl
  intro _
  try clear_value x3
  refine Keeps.step ?_ replaceRequest_keeps rfl
  refine Keeps.step ?_ recordEvent_keeps rfl
  assumption

theorem rerouteCore_keeps {s ci} :
    Keeps 1064993 s (rerouteCore s ci) := by
  delta rerouteCore
  split
  · exact Keeps.rfl
  extract_lets -merge -useContext -underBinder +onlyGivenNames x1
  try clear_value x1
  extract_lets -merge -useContext -underBinder +onlyGivenNames x2
  try clear_value x2
  refine Keeps.step ?_ noteDetours_keeps rfl
  refine Keeps.step ?_ updCore_keeps rfl
  exact Keeps.rfl

theorem rerouteAll_keeps {s} :
    Keeps 1064993 s (rerouteAll s) := by
  delta rerouteAll
  refine keeps_foldl (fun x => x) _ _ ?_ ?_
  · exact Keeps.rfl
  intro _ _ _
  refine Keeps.step ?_ rerouteCore_keeps rfl
  assumption

theorem losePacket_keeps {s x} :
    Keeps 32 s (losePacket s x) := by
  delta losePacket
  split
  · exact Keeps.rfl
  split
  · exact Keeps.rfl
  refine keeps_ite (fun x => x) ?_ ?_
  · exact Keeps.rfl
  refine Keeps.step ?_ updCore_keeps rfl
  exact Keeps.rfl

theorem divert_keeps {s lost} :
    Keeps 1064993 s (divert s lost) := by
  delta divert
  refine Keeps.step ?_ rerouteAll_keeps rfl
  refine keeps_foldl (fun x => x) _ _ ?_ ?_
  · exact Keeps.rfl
  intro _ _ _
  refine Keeps.step ?_ losePacket_keeps rfl
  assumption

end Sys2Proof.Machine
end

