-- ==== Sys2Proof/Laws/KeepsYield.lean ====
section
/-! SUPPORT. What the operations of Machine/Yield.lean leave as it was. -/

namespace Sys2Proof.Machine

theorem rebind_keeps {s cl} :
    Keeps 64 s (rebind s cl) := by
  delta rebind
  refine Keeps.step ?_ updCluster_keeps rfl
  exact Keeps.rfl

theorem addYield_keeps {s type location unit sub index value} :
    Keeps 1097729 s (addYield s type location unit sub index value) := by
  delta addYield
  extract_lets -merge -useContext -underBinder +onlyGivenNames x1
  try clear_value x1
  extract_lets -merge -useContext -underBinder +onlyGivenNames x2
  try clear_value x2
  refine keeps_ite (fun x => x) ?_ ?_
  · refine Keeps.step ?_ replaceRequest_keeps rfl
    refine Keeps.step ?_ bump_keeps rfl
    refine Keeps.step ?_ (keeps_yield _ _) rfl
    exact Keeps.rfl
  refine Keeps.step ?_ recordEvent_keeps rfl
  refine Keeps.step ?_ (keeps_yield _ _) rfl
  exact Keeps.rfl

end Sys2Proof.Machine
end

