-- ==== Sys2Proof/Laws/KeepsReset.lean ====
section
/-! SUPPORT. What the operations of Machine/Reset.lean leave as it was. -/

namespace Sys2Proof.Machine

theorem recordLast_keeps {s e} :
    Keeps 16385 s (recordLast s e) := by
  delta recordLast
  extract_lets -merge -useContext -underBinder +onlyGivenNames x1
  refine Keeps.cut (n := 16385) (s := s) x1 ?_ ?_
  · subst x1
    refine Keeps.step ?_ startFlush_keeps rfl
    refine Keeps.step ?_ recordEvent_keeps rfl
    exact Keeps.rfl
  intro _
  try clear_value x1
  refine Keeps.step ?_ (keeps_recorder _ _) rfl
  assumption

theorem trainPort_keeps {s i} :
    Keeps 8404993 s (trainPort s i) := by
  delta trainPort
  extract_lets -merge -useContext -underBinder +onlyGivenNames x1
  try clear_value x1
  refine keeps_ite (fun x => x) ?_ ?_
  · exact Keeps.rfl
  extract_lets -merge -useContext -underBinder +onlyGivenNames x2
  refine Keeps.cut (n := 8404993) (s := s) x2 ?_ ?_
  · subst x2
    refine Keeps.step ?_ recordEvent_keeps rfl
    exact Keeps.rfl
  intro _
  try clear_value x2
  refine Keeps.step ?_ updPort_keeps rfl
  assumption

theorem stopWork_keeps {s} :
    Keeps 1776500065 s (stopWork s) := by
  delta stopWork
  extract_lets -merge -useContext -underBinder +onlyGivenNames x1
  refine Keeps.cut (n := 1776500065) (s := s) x1 ?_ ?_
  · subst x1
    refine Keeps.step ?_ odSet_keeps rfl
    refine Keeps.step ?_ odSet_keeps rfl
    exact Keeps.rfl
  intro _
  try clear_value x1
  extract_lets -merge -useContext -underBinder +onlyGivenNames x2
  refine Keeps.cut (n := 1776500065) (s := s) x2 ?_ ?_
  · subst x2
    refine Keeps.step ?_ odSet_keeps rfl
    refine Keeps.step ?_ odSet_keeps rfl
    assumption
  intro _
  try clear_value x2
  extract_lets -merge -useContext -underBinder +onlyGivenNames x3
  refine Keeps.cut (n := 1776500065) (s := s) x3 ?_ ?_
  · subst x3
    refine Keeps.step ?_ updPort_keeps rfl
    refine Keeps.step ?_ updPort_keeps rfl
    assumption
  intro _
  try clear_value x3
  refine Keeps.step ?_ (Keeps.mk (m := 1776500065) (s := x3) ?_ ?_) rfl
  · assumption
  · intro c
    cases c
    constructor <;> first | rfl | assumption
  · intro f hf
    cases f <;> first | exact rfl | cases hf

theorem startReset_keeps {s cause} :
    Keeps 1777565025 s (startReset s cause) := by
  delta startReset
  extract_lets -merge -useContext -underBinder +onlyGivenNames x1
  try clear_value x1
  refine keeps_ite (fun x => x) ?_ ?_
  · exact Keeps.rfl
  refine keeps_ite (fun x => x) ?_ ?_
  · refine Keeps.step ?_ recordEvent_keeps rfl
    exact Keeps.rfl
  extract_lets -merge -useContext -underBinder +onlyGivenNames x2
  refine Keeps.cut (n := 1777565025) (s := s) x2 ?_ ?_
  · subst x2
    refine Keeps.step ?_ stopWork_keeps rfl
    refine Keeps.step ?_ recordLast_keeps rfl
    exact Keeps.rfl
  intro _
  try clear_value x2
  refine Keeps.step ?_ odSet_keeps rfl
  refine Keeps.step ?_ (keeps_plant _ _) rfl
  assumption

theorem takeReset_keeps {s} :
    Keeps 1777565025 s (takeReset s) := by
  delta takeReset
  split
  · exact Keeps.rfl
  refine Keeps.step ?_ startReset_keeps rfl
  refine Keeps.step ?_ (keeps_plant _ _) rfl
  exact Keeps.rfl

theorem beginTransition_keeps {s} :
    Keeps 1777565025 s (beginTransition s) := by
  delta beginTransition
  split
  · exact Keeps.rfl
  refine keeps_ite (fun x => x) ?_ ?_
  · exact Keeps.rfl
  refine Keeps.step ?_ startReset_keeps rfl
  refine Keeps.step ?_ odSet_keeps rfl
  exact Keeps.rfl

end Sys2Proof.Machine
end

