-- ==== Sys2Proof/Laws/KeepsBlocks.lean ====
section
/-! SUPPORT. What the operations of Machine/Blocks.lean leave as it was. -/

namespace Sys2Proof.Machine

theorem holdTimer_keeps {s p up} :
    Keeps 1024 s (holdTimer s p up) := by
  delta holdTimer
  refine Keeps.step ?_ updPart_keeps rfl
  exact Keeps.rfl

theorem holdTimers_keeps {s ps up} :
    Keeps 4294968320 s (holdTimers s ps up) := by
  delta holdTimers
  refine keeps_foldl (fun x => x) _ _ ?_ ?_
  · exact Keeps.rfl
  intro _ _ _
  extract_lets -merge -useContext -underBinder +onlyGivenNames x1
  try clear_value x1
  extract_lets -merge -useContext -underBinder +onlyGivenNames x2
  refine Keeps.cut (n := 4294968320) (s := s) x2 ?_ ?_
  · subst x2
    refine Keeps.step ?_ holdTimer_keeps rfl
    assumption
  intro _
  try clear_value x2
  refine keeps_ite (fun x => x) ?_ ?_
  · assumption
  refine Keeps.step ?_ emit_keeps rfl
  assumption

theorem beginRetrain_keeps {s b} :
    Keeps 4295230464 s (beginRetrain s b) := by
  delta beginRetrain
  extract_lets -merge -useContext -underBinder +onlyGivenNames x1
  try clear_value x1
  extract_lets -merge -useContext -underBinder +onlyGivenNames x2
  refine Keeps.cut (n := 4295230464) (s := s) x2 ?_ ?_
  · subst x2
    refine Keeps.step ?_ updBlk_keeps rfl
    exact Keeps.rfl
  intro _
  try clear_value x2
  refine Keeps.step ?_ holdTimers_keeps rfl
  assumption

theorem triggerRetrain_keeps {s b} :
    Keeps 4295246849 s (triggerRetrain s b) := by
  delta triggerRetrain
  extract_lets -merge -useContext -underBinder +onlyGivenNames x1
  try clear_value x1
  refine keeps_ite (fun x => x) ?_ ?_
  · exact Keeps.rfl
  refine keeps_ite (fun x => x) ?_ ?_
  · refine Keeps.step ?_ recordEvent_keeps rfl
    refine Keeps.step ?_ updBlk_keeps rfl
    exact Keeps.rfl
  refine keeps_ite (fun x => x) ?_ ?_
  · refine Keeps.step ?_ updBlk_keeps rfl
    exact Keeps.rfl
  refine Keeps.step ?_ beginRetrain_keeps rfl
  exact Keeps.rfl

theorem nextRetrain_keeps {s die} :
    Keeps 4295230464 s (nextRetrain s die) := by
  delta nextRetrain
  split
  · refine keeps_ite (fun x => x) ?_ ?_
    · exact Keeps.rfl
    refine Keeps.step ?_ beginRetrain_keeps rfl
    exact Keeps.rfl
  exact Keeps.rfl

theorem stackOn_keeps {s b} :
    Keeps 4295246849 s (stackOn s b) := by
  delta stackOn
  refine keeps_ite (fun x => x) ?_ ?_
  · refine Keeps.step ?_ triggerRetrain_keeps rfl
    refine Keeps.step ?_ updBlk_keeps rfl
    exact Keeps.rfl
  exact Keeps.rfl

theorem beginLinkRetrain_keeps {s l} :
    Keeps 4298130465 s (beginLinkRetrain s l) := by
  delta beginLinkRetrain
  extract_lets -merge -useContext -underBinder +onlyGivenNames x1
  try clear_value x1
  extract_lets -merge -useContext -underBinder +onlyGivenNames x2
  refine Keeps.cut (n := 4298130465) (s := s) x2 ?_ ?_
  · subst x2
    refine Keeps.step ?_ updLink_keeps rfl
    exact Keeps.rfl
  intro _
  try clear_value x2
  refine Keeps.step ?_ holdTimers_keeps rfl
  refine Keeps.step ?_ rerouteAll_keeps rfl
  assumption

theorem triggerLink_keeps {s l} :
    Keeps 4298130465 s (triggerLink s l) := by
  delta triggerLink
  extract_lets -merge -useContext -underBinder +onlyGivenNames x1
  try clear_value x1
  refine keeps_ite (fun x => x) ?_ ?_
  · exact Keeps.rfl
  refine keeps_ite (fun x => x) ?_ ?_
  · refine keeps_ite (fun x => x) ?_ ?_
    · exact Keeps.rfl
    refine Keeps.step ?_ recordEvent_keeps rfl
    refine Keeps.step ?_ updLink_keeps rfl
    exact Keeps.rfl
  refine Keeps.step ?_ beginLinkRetrain_keeps rfl
  exact Keeps.rfl

theorem nextLinks_keeps {s} :
    Keeps 4298130465 s (nextLinks s) := by
  delta nextLinks
  refine keeps_foldl (fun x => x) _ _ ?_ ?_
  · exact Keeps.rfl
  intro _ _ _
  refine keeps_ite (fun x => x) ?_ ?_
  · assumption
  refine Keeps.step ?_ beginLinkRetrain_keeps rfl
  assumption

theorem noteHeadroom_keeps {s die} :
    Keeps 1048576 s (noteHeadroom s die) := by
  delta noteHeadroom
  refine keeps_ite (fun x => x) ?_ ?_
  · refine Keeps.step ?_ (keeps_plant _ _) rfl
    exact Keeps.rfl
  exact Keeps.rfl

theorem requestWake_keeps {s b} :
    Keeps 1310720 s (requestWake s b) := by
  delta requestWake
  extract_lets -merge -useContext -underBinder +onlyGivenNames x1
  try clear_value x1
  refine keeps_ite (fun x => x) ?_ ?_
  · refine keeps_ite (fun x => x) ?_ ?_
    · refine Keeps.step ?_ setBlk_keeps rfl
      exact Keeps.rfl
    refine Keeps.step ?_ noteHeadroom_keeps rfl
    refine Keeps.step ?_ setBlk_keeps rfl
    exact Keeps.rfl
  exact Keeps.rfl

theorem nextWake_keeps {s die} :
    Keeps 1310720 s (nextWake s die) := by
  delta nextWake
  split
  · refine Keeps.step ?_ noteHeadroom_keeps rfl
    refine Keeps.step ?_ updBlk_keeps rfl
    exact Keeps.rfl
  exact Keeps.rfl

theorem recountYield_keeps {s} :
    Keeps 1064961 s (recountYield s) := by
  delta recountYield
  extract_lets -merge -useContext -underBinder +onlyGivenNames x1
  try clear_value x1
  extract_lets -merge -useContext -underBinder +onlyGivenNames x2
  try clear_value x2
  extract_lets -merge -useContext -underBinder +onlyGivenNames x3
  refine Keeps.cut (n := 1064961) (s := s) x3 ?_ ?_
  · subst x3
    refine Keeps.step ?_ odSet_keeps rfl
    exact Keeps.rfl
  intro _
  try clear_value x3
  extract_lets -merge -useContext -underBinder +onlyGivenNames x4
  refine Keeps.cut (n := 1064961) (s := s) x4 ?_ ?_
  · subst x4
    refine Keeps.step ?_ odSet_keeps rfl
    assumption
  intro _
  try clear_value x4
  extract_lets -merge -useContext -underBinder +onlyGivenNames x5
  refine Keeps.cut (n := 1064961) (s := s) x5 ?_ ?_
  · subst x5
    refine Keeps.step ?_ odSet_keeps rfl
    assumption
  intro _
  try clear_value x5
  extract_lets -merge -useContext -underBinder +onlyGivenNames x6
  try clear_value x6
  extract_lets -merge -useContext -underBinder +onlyGivenNames x7
  refine Keeps.cut (n := 1064961) (s := s) x7 ?_ ?_
  · subst x7
    refine Keeps.step ?_ odSet_keeps rfl
    assumption
  intro _
  try clear_value x7
  extract_lets -merge -useContext -underBinder +onlyGivenNames x8
  refine Keeps.cut (n := 1064961) (s := s) x8 ?_ ?_
  · subst x8
    refine Keeps.step ?_ odSet_keeps rfl
    assumption
  intro _
  try clear_value x8
  refine keeps_ite (fun x => x) ?_ ?_
  · refine Keeps.step ?_ replaceRequest_keeps rfl
    assumption
  assumption

end Sys2Proof.Machine
end

