-- ==== Sys2Proof/Laws/KeepsCommits.lean ====
section
/-! SUPPORT. What the operations of Machine/Commits.lean leave as it was. -/

namespace Sys2Proof.Machine

theorem setValue_keeps {s k v} :
    Keeps 3 s (setValue s k v) := by
  delta setValue
  refine keeps_ite (fun x => x) ?_ ?_
  · refine Keeps.step ?_ domSet_keeps rfl
    exact Keeps.rfl
  refine Keeps.step ?_ odSet_keeps rfl
  exact Keeps.rfl

theorem releaseRetrains_keeps {s p} :
    Keeps 4298392609 s (releaseRetrains s p) := by
  delta releaseRetrains
  refine Keeps.step ?_ nextLinks_keeps rfl
  refine keeps_foldl (fun x => x) _ _ ?_ ?_
  · exact Keeps.rfl
  intro _ _ _
  refine Keeps.step ?_ nextRetrain_keeps rfl
  assumption

theorem setTargets_keeps {s blocks v} :
    Keeps 2 s (setTargets s blocks v) := by
  delta setTargets
  refine keeps_foldl (fun x => x) _ _ ?_ ?_
  · exact Keeps.rfl
  intro _ _ _
  refine Keeps.step ?_ domSet_keeps rfl
  assumption

theorem switchValue_keeps {s p k v} :
    Keeps 4298392611 s (switchValue s p k v) := by
  delta switchValue
  refine keeps_ite (fun x => x) ?_ ?_
  · exact Keeps.rfl
  split
  · refine keeps_ite (fun x => x) ?_ ?_
    · exact Keeps.rfl
    extract_lets -merge -useContext -underBinder +onlyGivenNames x1
    refine Keeps.cut (n := 4298392611) (s := s) x1 ?_ ?_
    · subst x1
      refine Keeps.step ?_ setValue_keeps rfl
      refine Keeps.step ?_ updPart_keeps rfl
      exact Keeps.rfl
    intro _
    try clear_value x1
    refine keeps_ite (fun x => x) ?_ ?_
    · refine Keeps.step ?_ releaseRetrains_keeps rfl
      assumption
    assumption
  refine keeps_ite (fun x => x) ?_ ?_
  · refine Keeps.step ?_ setTargets_keeps rfl
    exact Keeps.rfl
  refine Keeps.step ?_ updPart_keeps rfl
  exact Keeps.rfl

theorem takeStored_keeps {s p blocks} :
    Keeps 3 s (takeStored s p blocks) := by
  delta takeStored
  refine keeps_foldl (fun x => x) _ _ ?_ ?_
  · exact Keeps.rfl
  intro _ _ _
  refine keeps_ite (fun x => x) ?_ ?_
  · refine Keeps.step ?_ setTargets_keeps rfl
    assumption
  refine keeps_ite (fun x => x) ?_ ?_
  · refine Keeps.step ?_ setValue_keeps rfl
    assumption
  assumption

theorem noteCommit_keeps {s bytes} :
    Keeps 16387 s (noteCommit s bytes) := by
  delta noteCommit
  refine Keeps.step ?_ recordEvent_keeps rfl
  refine Keeps.step ?_ domSet_keeps rfl
  exact Keeps.rfl

theorem countSwitching_keeps {s} :
    Keeps 1 s (countSwitching s) := by
  delta countSwitching
  refine Keeps.step ?_ odSet_keeps rfl
  exact Keeps.rfl

theorem settleShared_keeps {s k v} :
    Keeps 1027 s (settleShared s k v) := by
  delta settleShared
  refine keeps_ite (fun x => x) ?_ ?_
  · exact Keeps.rfl
  extract_lets -merge -useContext -underBinder +onlyGivenNames x1
  refine Keeps.cut (n := 1027) (s := s) x1 ?_ ?_
  · subst x1
    refine Keeps.step ?_ setValue_keeps rfl
    exact Keeps.rfl
  intro _
  try clear_value x1
  refine keeps_foldl (fun x => x) _ _ ?_ ?_
  · assumption
  intro _ _ _
  refine Keeps.step ?_ updPart_keeps rfl
  assumption

theorem finishCommit_keeps {s c} :
    Keeps 1073759235 s (finishCommit s c) := by
  delta finishCommit
  extract_lets -merge -useContext -underBinder +onlyGivenNames x1
  refine Keeps.cut (n := 1073759235) (s := s) x1 ?_ ?_
  · subst x1
    refine Keeps.step ?_ (keeps_commits _ _) rfl
    exact Keeps.rfl
  intro _
  try clear_value x1
  extract_lets -merge -useContext -underBinder +onlyGivenNames x2
  refine Keeps.cut (n := 1073759235) (s := s) x2 ?_ ?_
  · subst x2
    refine keeps_foldl (fun x => x) _ _ ?_ ?_
    · assumption
    intro _ _ _
    refine Keeps.step ?_ settleShared_keeps rfl
    assumption
  intro _
  try clear_value x2
  extract_lets -merge -useContext -underBinder +onlyGivenNames x3
  refine Keeps.cut (n := 1073759235) (s := s) x3 ?_ ?_
  · subst x3
    refine Keeps.step ?_ bump_keeps rfl
    assumption
  intro _
  try clear_value x3
  refine Keeps.step ?_ countSwitching_keeps rfl
  refine Keeps.step ?_ noteCommit_keeps rfl
  assumption

theorem leaveCommit_keeps {s p c} :
    Keeps 1073759235 s (leaveCommit s p c) := by
  delta leaveCommit
  extract_lets -merge -useContext -underBinder +onlyGivenNames x1
  try clear_value x1
  extract_lets -merge -useContext -underBinder +onlyGivenNames x2
  refine Keeps.cut (n := 1073759235) (s := s) x2 ?_ ?_
  · subst x2
    refine Keeps.step ?_ (keeps_commits _ _) rfl
    exact Keeps.rfl
  intro _
  try clear_value x2
  refine keeps_ite (fun x => x) ?_ ?_
  · refine Keeps.step ?_ finishCommit_keeps rfl
    assumption
  assumption

theorem switchEpoch_keeps {s p} :
    Keeps 5372134435 s (switchEpoch s p) := by
  delta switchEpoch
  split
  · exact Keeps.rfl
  refine keeps_ite (fun x => x) ?_ ?_
  · exact Keeps.rfl
  extract_lets -merge -useContext -underBinder +onlyGivenNames x1
  refine Keeps.cut (n := 5372134435) (s := s) x1 ?_ ?_
  · subst x1
    refine keeps_foldl (fun x => x) _ _ ?_ ?_
    · exact Keeps.rfl
    intro _ _ _
    refine Keeps.step ?_ switchValue_keeps rfl
    assumption
  intro _
  try clear_value x1
  refine Keeps.step ?_ leaveCommit_keeps rfl
  refine Keeps.step ?_ odSet_keeps rfl
  assumption

theorem leaveCommits_keeps {s p} :
    Keeps 1073759235 s (leaveCommits s p) := by
  delta leaveCommits
  extract_lets -merge -useContext -underBinder +onlyGivenNames x1
  try clear_value x1
  extract_lets -merge -useContext -underBinder +onlyGivenNames x2
  refine Keeps.cut (n := 1073759235) (s := s) x2 ?_ ?_
  · subst x2
    refine keeps_foldl (fun x => x) _ _ ?_ ?_
    · exact Keeps.rfl
    intro _ _ _
    extract_lets -merge -useContext -underBinder +onlyGivenNames x3
    refine Keeps.cut (n := 1073759235) (s := s) x3 ?_ ?_
    · subst x3
      refine keeps_ite (fun x => x) ?_ ?_
      · refine keeps_foldl (fun x => x) _ _ ?_ ?_
        · assumption
        intro _ _ _
        refine keeps_ite (fun x => x) ?_ ?_
        · refine Keeps.step ?_ setValue_keeps rfl
          assumption
        assumption
      assumption
    intro _
    try clear_value x3
    extract_lets -merge -useContext -underBinder +onlyGivenNames x4
    refine Keeps.cut (n := 1073759235) (s := s) x4 ?_ ?_
    · subst x4
      refine keeps_ite (fun x => x) ?_ ?_
      · refine Keeps.step ?_ recordEvent_keeps rfl
        assumption
      assumption
    intro _
    try clear_value x4
    refine Keeps.step ?_ leaveCommit_keeps rfl
    assumption
  intro _
  try clear_value x2
  refine Keeps.step ?_ updPart_keeps rfl
  assumption

end Sys2Proof.Machine
end

