-- ==== Sys2Proof/Laws/KeepsPieces.lean ====
section
/-! SUPPORT. What the operations of Machine/Pieces.lean leave as it was. -/

namespace Sys2Proof.Machine

theorem setSlot_keeps {s p i set} :
    Keeps 2 s (setSlot s p i set) := by
  delta setSlot
  refine Keeps.step ?_ domSet_keeps rfl
  exact Keeps.rfl

end Sys2Proof.Machine
end

