-- ==== Sys2Proof/Laws/KeepsArrays.lean ====
section
/-! SUPPORT. What the operations of Machine/Arrays.lean leave as it was. -/

namespace Sys2Proof.Machine

theorem noteChainsOff_keeps {s p cl} :
    Keeps 1 s (noteChainsOff s p cl) := by
  delta noteChainsOff
  refine Keeps.step ?_ odMax_keeps rfl
  exact Keeps.rfl

theorem arraysLeave_keeps {s p ci ch arrs} :
    Keeps 17537 s (arraysLeave s p ci ch arrs) := by
  delta arraysLeave
  extract_lets -merge -useContext -underBinder +onlyGivenNames x1
  try clear_value x1
  extract_lets -merge -useContext -underBinder +onlyGivenNames x2
  try clear_value x2
  extract_lets -merge -useContext -underBinder +onlyGivenNames x3
  refine Keeps.cut (n := 17537) (s := s) x3 ?_ ?_
  · subst x3
    refine keeps_foldl (fun x => x) _ _ ?_ ?_
    · exact Keeps.rfl
    intro _ _ _
    refine Keeps.step ?_ updArr_keeps rfl
    assumption
  intro _
  try clear_value x3
  extract_lets -merge -useContext -underBinder +onlyGivenNames x4
  refine Keeps.cut (n := 17537) (s := s) x4 ?_ ?_
  · subst x4
    refine Keeps.step ?_ noteChainsOff_keeps rfl
    assumption
  intro _
  try clear_value x4
  refine keeps_ite (fun x => x) ?_ ?_
  · refine Keeps.step ?_ raiseFault_keeps rfl
    assumption
  assumption

theorem leaveMask_keeps {s p ci ch} :
    Keeps 17537 s (leaveMask s p ci ch) := by
  delta leaveMask
  refine Keeps.step ?_ arraysLeave_keeps rfl
  exact Keeps.rfl

theorem arrayLeaves_keeps {s a} :
    Keeps 17537 s (arrayLeaves s a) := by
  delta arrayLeaves
  split
  · refine Keeps.step ?_ arraysLeave_keeps rfl
    exact Keeps.rfl
  refine Keeps.step ?_ updArr_keeps rfl
  exact Keeps.rfl

theorem queueCalibration_keeps {s ci ch} :
    Keeps 448 s (queueCalibration s ci ch) := by
  delta queueCalibration
  extract_lets -merge -useContext -underBinder +onlyGivenNames x1
  try clear_value x1
  extract_lets -merge -useContext -underBinder +onlyGivenNames x2
  try clear_value x2
  extract_lets -merge -useContext -underBinder +onlyGivenNames x3
  try clear_value x3
  extract_lets -merge -useContext -underBinder +onlyGivenNames x4
  try clear_value x4
  refine keeps_ite (fun x => x) ?_ ?_
  · refine Keeps.step ?_ updCluster_keeps rfl
    exact Keeps.rfl
  refine keeps_ite (fun x => x) ?_ ?_
  · exact Keeps.rfl
  extract_lets -merge -useContext -underBinder +onlyGivenNames x5
  refine Keeps.cut (n := 448) (s := s) x5 ?_ ?_
  · subst x5
    refine keeps_foldl (fun x => x) _ _ ?_ ?_
    · exact Keeps.rfl
    intro _ _ _
    refine Keeps.step ?_ updArr_keeps rfl
    assumption
  intro _
  try clear_value x5
  extract_lets -merge -useContext -underBinder +onlyGivenNames x6
  refine Keeps.cut (n := 448) (s := s) x6 ?_ ?_
  · subst x6
    refine Keeps.step ?_ updChain_keeps rfl
    assumption
  intro _
  try clear_value x6
  refine Keeps.step ?_ updCluster_keeps rfl
  assumption

theorem rewriteArraysOf_keeps {s ci ch arrs} :
    Keeps 192 s (rewriteArraysOf s ci ch arrs) := by
  delta rewriteArraysOf
  extract_lets -merge -useContext -underBinder +onlyGivenNames x1
  try clear_value x1
  extract_lets -merge -useContext -underBinder +onlyGivenNames x2
  refine Keeps.cut (n := 192) (s := s) x2 ?_ ?_
  · subst x2
    refine keeps_foldl (fun x => x) _ _ ?_ ?_
    · exact Keeps.rfl
    intro _ _ _
    refine Keeps.step ?_ updArr_keeps rfl
    assumption
  intro _
  try clear_value x2
  refine Keeps.step ?_ updCluster_keeps rfl
  assumption

theorem queueRewrite_keeps {s ci ch} :
    Keeps 192 s (queueRewrite s ci ch) := by
  delta queueRewrite
  extract_lets -merge -useContext -underBinder +onlyGivenNames x1
  try clear_value x1
  refine keeps_ite (fun x => x) ?_ ?_
  · exact Keeps.rfl
  refine Keeps.step ?_ rewriteArraysOf_keeps rfl
  exact Keeps.rfl

theorem recordArray_keeps {s p ci a dev} :
    Keeps 16385 s (recordArray s p ci a dev) := by
  delta recordArray
  refine Keeps.step ?_ recordEvent_keeps rfl
  exact Keeps.rfl

theorem monitorAlarm_keeps {s p ci ch} :
    Keeps 16833 s (monitorAlarm s p ci ch) := by
  delta monitorAlarm
  extract_lets -merge -useContext -underBinder +onlyGivenNames x1
  try clear_value x1
  extract_lets -merge -useContext -underBinder +onlyGivenNames x2
  refine Keeps.cut (n := 16833) (s := s) x2 ?_ ?_
  · subst x2
    refine Keeps.step ?_ bump_keeps rfl
    exact Keeps.rfl
  intro _
  try clear_value x2
  extract_lets -merge -useContext -underBinder +onlyGivenNames x3
  refine Keeps.cut (n := 16833) (s := s) x3 ?_ ?_
  · subst x3
    refine Keeps.step ?_ recordArray_keeps rfl
    assumption
  intro _
  try clear_value x3
  extract_lets -merge -useContext -underBinder +onlyGivenNames x4
  refine Keeps.cut (n := 16833) (s := s) x4 ?_ ?_
  · subst x4
    refine Keeps.step ?_ updChain_keeps rfl
    assumption
  intro _
  try clear_value x4
  extract_lets -merge -useContext -underBinder +onlyGivenNames x5
  try clear_value x5
  extract_lets -merge -useContext -underBinder +onlyGivenNames x6
  try clear_value x6
  refine Keeps.step ?_ queueCalibration_keeps rfl
  refine keeps_ite (fun x => x) ?_ ?_
  · refine Keeps.step ?_ queueRewrite_keeps rfl
    assumption
  assumption

theorem checkSpares_keeps {s} :
    Keeps 1064961 s (checkSpares s) := by
  delta checkSpares
  extract_lets -merge -useContext -underBinder +onlyGivenNames x1
  try clear_value x1
  extract_lets -merge -useContext -underBinder +onlyGivenNames x2
  try clear_value x2
  refine keeps_ite (fun x => x) ?_ ?_
  · refine Keeps.step ?_ replaceRequest_keeps rfl
    exact Keeps.rfl
  exact Keeps.rfl

theorem retireForGood_keeps {s a} :
    Keeps 1097857 s (retireForGood s a) := by
  delta retireForGood
  extract_lets -merge -useContext -underBinder +onlyGivenNames x1
  refine Keeps.cut (n := 1097857) (s := s) x1 ?_ ?_
  · subst x1
    refine Keeps.step ?_ addYield_keeps rfl
    exact Keeps.rfl
  intro _
  try clear_value x1
  extract_lets -merge -useContext -underBinder +onlyGivenNames x2
  refine Keeps.cut (n := 1097857) (s := s) x2 ?_ ?_
  · subst x2
    refine Keeps.step ?_ updArr_keeps rfl
    assumption
  intro _
  try clear_value x2
  extract_lets -merge -useContext -underBinder +onlyGivenNames x3
  refine Keeps.cut (n := 1097857) (s := s) x3 ?_ ?_
  · subst x3
    split
    · refine Keeps.step ?_ recordArray_keeps rfl
      assumption
    assumption
  intro _
  try clear_value x3
  refine Keeps.step ?_ replaceRequest_keeps rfl
  assumption

theorem writeFromSource_keeps {s a} :
    Keeps 1098945 s (writeFromSource s a) := by
  delta writeFromSource
  split
  · refine Keeps.step ?_ updArr_keeps rfl
    exact Keeps.rfl
  · refine Keeps.step ?_ retireForGood_keeps rfl
    refine Keeps.step ?_ arrayLeaves_keeps rfl
    exact Keeps.rfl
  · split
    · refine Keeps.step ?_ rewriteArraysOf_keeps rfl
      exact Keeps.rfl
    exact Keeps.rfl
  exact Keeps.rfl

theorem retireArray_keeps {s a} :
    Keeps 1098945 s (retireArray s a) := by
  delta retireArray
  extract_lets -merge -useContext -underBinder +onlyGivenNames x1
  try clear_value x1
  extract_lets -merge -useContext -underBinder +onlyGivenNames x2
  refine Keeps.cut (n := 1098945) (s := s) x2 ?_ ?_
  · subst x2
    refine Keeps.step ?_ arrayLeaves_keeps rfl
    exact Keeps.rfl
  intro _
  try clear_value x2
  extract_lets -merge -useContext -underBinder +onlyGivenNames x3
  refine Keeps.cut (n := 1098945) (s := s) x3 ?_ ?_
  · subst x3
    split
    · refine Keeps.step ?_ updArr_keeps rfl
      assumption
    assumption
  intro _
  try clear_value x3
  split
  · extract_lets -merge -useContext -underBinder +onlyGivenNames x4
    refine Keeps.cut (n := 1098945) (s := s) x4 ?_ ?_
    · subst x4
      refine Keeps.step ?_ addYield_keeps rfl
      assumption
    intro _
    try clear_value x4
    extract_lets -merge -useContext -underBinder +onlyGivenNames x5
    refine Keeps.cut (n := 1098945) (s := s) x5 ?_ ?_
    · subst x5
      refine Keeps.step ?_ setArr_keeps rfl
      assumption
    intro _
    try clear_value x5
    extract_lets -merge -useContext -underBinder +onlyGivenNames x6
    refine Keeps.cut (n := 1098945) (s := s) x6 ?_ ?_
    · subst x6
      refine Keeps.step ?_ bump_keeps rfl
      assumption
    intro _
    try clear_value x6
    refine keeps_ite (fun x => x) ?_ ?_
    · refine Keeps.step ?_ writeFromSource_keeps rfl
      assumption
    assumption
  refine Keeps.step ?_ retireForGood_keeps rfl
  assumption

theorem bindColumn_keeps {s a col} :
    Keeps 1098945 s (bindColumn s a col).2 := by
  delta bindColumn
  extract_lets -merge -useContext -underBinder +onlyGivenNames x1
  try clear_value x1
  extract_lets -merge -useContext -underBinder +onlyGivenNames x2
  try clear_value x2
  extract_lets -merge -useContext -underBinder +onlyGivenNames x3
  refine Keeps.cut (n := 1098945) (s := s) x3 ?_ ?_
  · subst x3
    refine Keeps.step ?_ addYield_keeps rfl
    exact Keeps.rfl
  intro _
  try clear_value x3
  refine keeps_ite (fun (x : _ × State) => x.2) ?_ ?_
  · extract_lets -merge -useContext -underBinder +onlyGivenNames x4
    refine Keeps.cut (n := 1098945) (s := s) x4 ?_ ?_
    · subst x4
      refine Keeps.step ?_ updArr_keeps rfl
      assumption
    intro _
    try clear_value x4
    try dsimp -zeta only
    refine Keeps.step ?_ checkSpares_keeps rfl
    refine Keeps.step ?_ odSet_keeps rfl
    assumption
  try dsimp -zeta only
  refine Keeps.step ?_ retireArray_keeps rfl
  assumption

theorem bindRow_keeps {s a row} :
    Keeps 1098945 s (bindRow s a row).2 := by
  delta bindRow
  extract_lets -merge -useContext -underBinder +onlyGivenNames x1
  try clear_value x1
  extract_lets -merge -useContext -underBinder +onlyGivenNames x2
  try clear_value x2
  extract_lets -merge -useContext -underBinder +onlyGivenNames x3
  refine Keeps.cut (n := 1098945) (s := s) x3 ?_ ?_
  · subst x3
    refine Keeps.step ?_ addYield_keeps rfl
    exact Keeps.rfl
  intro _
  try clear_value x3
  refine keeps_ite (fun (x : _ × State) => x.2) ?_ ?_
  · extract_lets -merge -useContext -underBinder +onlyGivenNames x4
    refine Keeps.cut (n := 1098945) (s := s) x4 ?_ ?_
    · subst x4
      refine Keeps.step ?_ updArr_keeps rfl
      assumption
    intro _
    try clear_value x4
    try dsimp -zeta only
    refine Keeps.step ?_ checkSpares_keeps rfl
    refine Keeps.step ?_ odSet_keeps rfl
    assumption
  try dsimp -zeta only
  refine Keeps.step ?_ retireArray_keeps rfl
  assumption

theorem bindAll_keeps {s a cols rows} :
    Keeps 1098945 s (bindAll s a cols rows).2 := by
  delta bindAll
  extract_lets -merge -useContext -underBinder +onlyGivenNames x1
  refine Keeps.cut (n := 1098945) (s := s) x1.2 ?_ ?_
  · subst x1
    refine keeps_foldl (fun (x : _ × State) => x.2) _ _ ?_ ?_
    · try dsimp -zeta only
      exact Keeps.rfl
    intro _ _ _
    refine keeps_ite (fun (x : _ × State) => x.2) ?_ ?_
    · refine Keeps.step ?_ bindColumn_keeps rfl
      assumption
    assumption
  intro _
  try clear_value x1
  refine keeps_foldl (fun (x : _ × State) => x.2) _ _ ?_ ?_
  · assumption
  intro _ _ _
  refine keeps_ite (fun (x : _ × State) => x.2) ?_ ?_
  · refine Keeps.step ?_ bindRow_keeps rfl
    assumption
  assumption

theorem bindSpares_keeps {s a cells} :
    Keeps 1098945 s (bindSpares s a cells) := by
  delta bindSpares
  extract_lets -merge -useContext -underBinder +onlyGivenNames x1
  try clear_value x1
  extract_lets -merge -useContext -underBinder +onlyGivenNames x2
  try clear_value x2
  extract_lets -merge -useContext -underBinder +onlyGivenNames x3
  try clear_value x3
  refine Keeps.step ?_ bindAll_keeps rfl
  exact Keeps.rfl

theorem effArrWrite_keeps {s ci env w} :
    Keeps 1098945 s (effArrWrite s ci env w) := by
  delta effArrWrite
  extract_lets -merge -useContext -underBinder +onlyGivenNames x1
  try clear_value x1
  extract_lets -merge -useContext -underBinder +onlyGivenNames x2
  try clear_value x2
  extract_lets -merge -useContext -underBinder +onlyGivenNames x3
  try clear_value x3
  refine keeps_ite (fun x => x) ?_ ?_
  · refine Keeps.step ?_ bump_keeps rfl
    exact Keeps.rfl
  extract_lets -merge -useContext -underBinder +onlyGivenNames x4
  try clear_value x4
  extract_lets -merge -useContext -underBinder +onlyGivenNames x5
  try clear_value x5
  extract_lets -merge -useContext -underBinder +onlyGivenNames x6
  try clear_value x6
  extract_lets -merge -useContext -underBinder +onlyGivenNames x7
  try clear_value x7
  extract_lets -merge -useContext -underBinder +onlyGivenNames x8
  try clear_value x8
  extract_lets -merge -useContext -underBinder +onlyGivenNames x9
  refine Keeps.cut (n := 1098945) (s := s) x9 ?_ ?_
  · subst x9
    refine Keeps.step ?_ countInvalid_keeps rfl
    exact Keeps.rfl
  intro _
  try clear_value x9
  extract_lets -merge -useContext -underBinder +onlyGivenNames x10
  try clear_value x10
  extract_lets -merge -useContext -underBinder +onlyGivenNames x11
  try clear_value x11
  extract_lets -merge -useContext -underBinder +onlyGivenNames x12
  try clear_value x12
  extract_lets -merge -useContext -underBinder +onlyGivenNames x13
  try clear_value x13
  extract_lets -merge -useContext -underBinder +onlyGivenNames x14
  refine Keeps.cut (n := 1098945) (s := s) x14 ?_ ?_
  · subst x14
    refine Keeps.step ?_ setArr_keeps rfl
    assumption
  intro _
  try clear_value x14
  refine keeps_ite (fun x => x) ?_ ?_
  · refine Keeps.step ?_ bindSpares_keeps rfl
    assumption
  assumption

theorem rangeMonitor_keeps {s p ci ch a outs} :
    Keeps 16833 s (rangeMonitor s p ci ch a outs) := by
  delta rangeMonitor
  refine keeps_ite (fun x => x) ?_ ?_
  · exact Keeps.rfl
  extract_lets -merge -useContext -underBinder +onlyGivenNames x1
  try clear_value x1
  extract_lets -merge -useContext -underBinder +onlyGivenNames x2
  try clear_value x2
  extract_lets -merge -useContext -underBinder +onlyGivenNames x3
  try clear_value x3
  refine keeps_foldl (fun x => x) _ _ ?_ ?_
  · refine Keeps.step ?_ setChain_keeps rfl
    exact Keeps.rfl
  intro _ _ _
  refine Keeps.step ?_ monitorAlarm_keeps rfl
  assumption

theorem fullScaleCount_keeps {s p ci ch convs} :
    Keeps 16833 s (fullScaleCount s p ci ch convs) := by
  delta fullScaleCount
  refine keeps_foldl (fun x => x) _ _ ?_ ?_
  · exact Keeps.rfl
  intro _ _ _
  extract_lets -merge -useContext -underBinder +onlyGivenNames x1
  try clear_value x1
  refine keeps_foldl (fun x => x) _ _ ?_ ?_
  · refine Keeps.step ?_ setArr_keeps rfl
    assumption
  intro _ _ _
  refine Keeps.step ?_ monitorAlarm_keeps rfl
  assumption

theorem canaryFails_keeps {s p ci ch col dev} :
    Keeps 1099233 s (canaryFails s p ci ch col dev) := by
  delta canaryFails
  extract_lets -merge -useContext -underBinder +onlyGivenNames x1
  refine Keeps.cut (n := 1099233) (s := s) x1 ?_ ?_
  · subst x1
    refine Keeps.step ?_ requestReplay_keeps rfl
    exact Keeps.rfl
  intro _
  try clear_value x1
  extract_lets -merge -useContext -underBinder +onlyGivenNames x2
  refine Keeps.cut (n := 1099233) (s := s) x2 ?_ ?_
  · subst x2
    refine Keeps.step ?_ leaveMask_keeps rfl
    assumption
  intro _
  try clear_value x2
  extract_lets -merge -useContext -underBinder +onlyGivenNames x3
  refine Keeps.cut (n := 1099233) (s := s) x3 ?_ ?_
  · subst x3
    refine Keeps.step ?_ bump_keeps rfl
    assumption
  intro _
  try clear_value x3
  extract_lets -merge -useContext -underBinder +onlyGivenNames x4
  refine Keeps.cut (n := 1099233) (s := s) x4 ?_ ?_
  · subst x4
    refine Keeps.step ?_ updChain_keeps rfl
    assumption
  intro _
  try clear_value x4
  extract_lets -merge -useContext -underBinder +onlyGivenNames x5
  refine Keeps.cut (n := 1099233) (s := s) x5 ?_ ?_
  · subst x5
    refine Keeps.step ?_ recordArray_keeps rfl
    assumption
  intro _
  try clear_value x5
  extract_lets -merge -useContext -underBinder +onlyGivenNames x6
  try clear_value x6
  refine keeps_foldl (fun x => x) _ _ ?_ ?_
  · assumption
  intro _ _ _
  extract_lets -merge -useContext -underBinder +onlyGivenNames x7
  try clear_value x7
  extract_lets -merge -useContext -underBinder +onlyGivenNames x8
  try clear_value x8
  refine keeps_ite (fun x => x) ?_ ?_
  · assumption
  refine keeps_ite (fun x => x) ?_ ?_
  · refine Keeps.step ?_ rewriteArraysOf_keeps rfl
    assumption
  refine keeps_ite (fun x => x) ?_ ?_
  · refine Keeps.step ?_ retireArray_keeps rfl
    assumption
  refine Keeps.step ?_ setArr_keeps rfl
  assumption

theorem canaryRow_keeps {s base p ci ch a f} :
    Keeps 1099233 s (canaryRow s base p ci ch a f) := by
  delta canaryRow
  refine keeps_ite (fun x => x) ?_ ?_
  · exact Keeps.rfl
  extract_lets -merge -useContext -underBinder +onlyGivenNames x1
  try clear_value x1
  extract_lets -merge -useContext -underBinder +onlyGivenNames x2
  try clear_value x2
  extract_lets -merge -useContext -underBinder +onlyGivenNames x3
  try clear_value x3
  extract_lets -merge -useContext -underBinder +onlyGivenNames x4
  try clear_value x4
  extract_lets -merge -useContext -underBinder +onlyGivenNames x5
  try clear_value x5
  extract_lets -merge -useContext -underBinder +onlyGivenNames x6
  try clear_value x6
  extract_lets -merge -useContext -underBinder +onlyGivenNames x7
  try clear_value x7
  extract_lets -merge -useContext -underBinder +onlyGivenNames x8
  refine Keeps.cut (n := 1099233) (s := s) x8 ?_ ?_
  · subst x8
    refine keeps_ite (fun x => x) ?_ ?_
    · refine Keeps.step ?_ countInvalid_keeps rfl
      exact Keeps.rfl
    exact Keeps.rfl
  intro _
  try clear_value x8
  extract_lets -merge -useContext -underBinder +onlyGivenNames x9
  try clear_value x9
  extract_lets -merge -useContext -underBinder +onlyGivenNames x10
  try clear_value x10
  extract_lets -merge -useContext -underBinder +onlyGivenNames x11
  try clear_value x11
  extract_lets -merge -useContext -underBinder +onlyGivenNames x12
  try clear_value x12
  extract_lets -merge -useContext -underBinder +onlyGivenNames x13
  try clear_value x13
  extract_lets -merge -useContext -underBinder +onlyGivenNames x14
  try clear_value x14
  extract_lets -merge -useContext -underBinder +onlyGivenNames x15
  try clear_value x15
  extract_lets -merge -useContext -underBinder +onlyGivenNames x16
  refine Keeps.cut (n := 1099233) (s := s) x16 ?_ ?_
  · subst x16
    refine Keeps.step ?_ fullScaleCount_keeps rfl
    assumption
  intro _
  try clear_value x16
  extract_lets -merge -useContext -underBinder +onlyGivenNames x17
  refine Keeps.cut (n := 1099233) (s := s) x17 ?_ ?_
  · subst x17
    refine keeps_ite (fun x => x) ?_ ?_
    · assumption
    refine Keeps.step ?_ bump_keeps rfl
    assumption
  intro _
  try clear_value x17
  refine keeps_ite (fun x => x) ?_ ?_
  · refine Keeps.step ?_ canaryFails_keeps rfl
    assumption
  assumption

theorem scaleParity_keeps {s p ci ch cells} :
    Keeps 17537 s (scaleParity s p ci ch cells) := by
  delta scaleParity
  refine keeps_foldl (fun x => x) _ _ ?_ ?_
  · exact Keeps.rfl
  intro _ _ _
  extract_lets -merge -useContext -underBinder +onlyGivenNames x1
  try clear_value x1
  refine keeps_ite (fun x => x) ?_ ?_
  · refine Keeps.step ?_ leaveMask_keeps rfl
    refine Keeps.step ?_ updArr_keeps rfl
    assumption
  assumption

theorem effArrMvm_keeps {s ci env a} :
    Keeps 8591033829 s (effArrMvm s ci env a) := by
  delta effArrMvm
  split
  · refine keeps_ite (fun x => x) ?_ ?_
    · refine Keeps.step ?_ raiseFault_keeps rfl
      exact Keeps.rfl
    extract_lets -merge -useContext -underBinder +onlyGivenNames x1
    try clear_value x1
    extract_lets -merge -useContext -underBinder +onlyGivenNames x2
    try clear_value x2
    extract_lets -merge -useContext -underBinder +onlyGivenNames x3
    try clear_value x3
    extract_lets -merge -useContext -underBinder +onlyGivenNames x4
    try clear_value x4
    extract_lets -merge -useContext -underBinder +onlyGivenNames x5
    try clear_value x5
    extract_lets -merge -useContext -underBinder +onlyGivenNames x6
    try clear_value x6
    extract_lets -merge -useContext -underBinder +onlyGivenNames x7
    try clear_value x7
    extract_lets -merge -useContext -underBinder +onlyGivenNames x8
    try clear_value x8
    extract_lets -merge -useContext -underBinder +onlyGivenNames x9
    try clear_value x9
    extract_lets -merge -useContext -underBinder +onlyGivenNames x10
    try clear_value x10
    extract_lets -merge -useContext -underBinder +onlyGivenNames x11
    try clear_value x11
    extract_lets -merge -useContext -underBinder +onlyGivenNames x12
    try clear_value x12
    extract_lets -merge -useContext -underBinder +onlyGivenNames x13
    try clear_value x13
    extract_lets -merge -useContext -underBinder +onlyGivenNames x14
    refine Keeps.cut (n := 8591033829) (s := s) x14 ?_ ?_
    · subst x14
      refine Keeps.step ?_ countInvalid_keeps rfl
      refine Keeps.step ?_ (keeps_free _ _) rfl
      exact Keeps.rfl
    intro _
    try clear_value x14
    extract_lets -merge -useContext -underBinder +onlyGivenNames x15
    try clear_value x15
    extract_lets -merge -useContext -underBinder +onlyGivenNames x16
    refine Keeps.cut (n := 8591033829) (s := s) x16.2 ?_ ?_
    · subst x16
      refine mapSt_keeps ?_ ?_ rfl
      · assumption
      intro _ _ _
      refine mapSt_keeps ?_ ?_ rfl
      · assumption
      intro _ _ _
      extract_lets -merge -useContext -underBinder +onlyGivenNames x17
      try clear_value x17
      split
      · refine Keeps.step ?_ boundedResult_keeps rfl
        assumption
      refine Keeps.step ?_ boundedResult_keeps rfl
      assumption
    intro _
    try clear_value x16
    extract_lets -merge -useContext -underBinder +onlyGivenNames x18
    refine Keeps.cut (n := 8591033829) (s := s) x18 ?_ ?_
    · subst x18
      refine Keeps.step ?_ storeRows_keeps rfl
      assumption
    intro _
    try clear_value x18
    extract_lets -merge -useContext -underBinder +onlyGivenNames x19
    try clear_value x19
    extract_lets -merge -useContext -underBinder +onlyGivenNames x20
    refine Keeps.cut (n := 8591033829) (s := s) x20 ?_ ?_
    · subst x20
      refine keeps_ite (fun x => x) ?_ ?_
      · assumption
      refine Keeps.step ?_ bump_keeps rfl
      assumption
    intro _
    try clear_value x20
    extract_lets -merge -useContext -underBinder +onlyGivenNames x21
    refine Keeps.cut (n := 8591033829) (s := s) x21 ?_ ?_
    · subst x21
      refine Keeps.step ?_ rangeMonitor_keeps rfl
      assumption
    intro _
    try clear_value x21
    extract_lets -merge -useContext -underBinder +onlyGivenNames x22
    refine Keeps.cut (n := 8591033829) (s := s) x22 ?_ ?_
    · subst x22
      refine Keeps.step ?_ fullScaleCount_keeps rfl
      assumption
    intro _
    try clear_value x22
    extract_lets -merge -useContext -underBinder +onlyGivenNames x23
    refine Keeps.cut (n := 8591033829) (s := s) x23 ?_ ?_
    · subst x23
      refine Keeps.step ?_ scaleParity_keeps rfl
      assumption
    intro _
    try clear_value x23
    refine Keeps.step ?_ canaryRow_keeps rfl
    assumption
  exact Keeps.rfl

theorem returnReady_keeps {s lap ci ch} :
    Keeps 128 s (returnReady s lap ci ch) := by
  delta returnReady
  refine keeps_foldl (fun x => x) _ _ ?_ ?_
  · exact Keeps.rfl
  intro _ _ _
  extract_lets -merge -useContext -underBinder +onlyGivenNames x1
  try clear_value x1
  refine keeps_ite (fun x => x) ?_ ?_
  · refine Keeps.step ?_ setArr_keeps rfl
    assumption
  assumption

theorem checkSuspects_keeps {s ci ch} :
    Keeps 128 s (checkSuspects s ci ch) := by
  delta checkSuspects
  refine keeps_foldl (fun x => x) _ _ ?_ ?_
  · exact Keeps.rfl
  intro _ _ _
  refine Keeps.step ?_ updArr_keeps rfl
  assumption

theorem startMaintenance_keeps {s cl} :
    Keeps 192 s (startMaintenance s cl) := by
  delta startMaintenance
  extract_lets -merge -useContext -underBinder +onlyGivenNames x1
  try clear_value x1
  extract_lets -merge -useContext -underBinder +onlyGivenNames x2
  refine Keeps.cut (n := 192) (s := s) x2 ?_ ?_
  · subst x2
    split
    · refine keeps_ite (fun x => x) ?_ ?_
      · extract_lets -merge -useContext -underBinder +onlyGivenNames x3
        refine Keeps.cut (n := 192) (s := s) x3 ?_ ?_
        · subst x3
          refine Keeps.step ?_ setCluster_keeps rfl
          exact Keeps.rfl
        intro _
        try clear_value x3
        refine keeps_foldl (fun x => x) _ _ ?_ ?_
        · assumption
        intro _ _ _
        refine Keeps.step ?_ updArr_keeps rfl
        assumption
      exact Keeps.rfl
    exact Keeps.rfl
  intro _
  try clear_value x2
  extract_lets -merge -useContext -underBinder +onlyGivenNames x4
  try clear_value x4
  split
  · refine keeps_ite (fun x => x) ?_ ?_
    · extract_lets -merge -useContext -underBinder +onlyGivenNames x5
      refine Keeps.cut (n := 192) (s := s) x5 ?_ ?_
      · subst x5
        refine Keeps.step ?_ setCluster_keeps rfl
        assumption
      intro _
      try clear_value x5
      refine keeps_foldl (fun x => x) _ _ ?_ ?_
      · assumption
      intro _ _ _
      refine Keeps.step ?_ updArr_keeps rfl
      assumption
    assumption
  assumption

theorem freezeMask_keeps {s ci ch} :
    Keeps 128 s (freezeMask s ci ch) := by
  delta freezeMask
  refine keeps_foldl (fun x => x) _ _ ?_ ?_
  · exact Keeps.rfl
  intro _ _ _
  refine Keeps.step ?_ updArr_keeps rfl
  assumption

theorem arraysHurdleZero_keeps {s p} :
    Keeps 17601 s (arraysHurdleZero s p) := by
  delta arraysHurdleZero
  extract_lets -merge -useContext -underBinder +onlyGivenNames x1
  try clear_value x1
  refine keeps_foldl (fun x => x) _ _ ?_ ?_
  · exact Keeps.rfl
  intro _ _ _
  extract_lets -merge -useContext -underBinder +onlyGivenNames x2
  try clear_value x2
  extract_lets -merge -useContext -underBinder +onlyGivenNames x3
  refine Keeps.cut (n := 17601) (s := s) x3 ?_ ?_
  · subst x3
    refine keeps_foldl (fun x => x) _ _ ?_ ?_
    · assumption
    intro _ _ _
    refine Keeps.step ?_ checkSuspects_keeps rfl
    refine Keeps.step ?_ returnReady_keeps rfl
    assumption
  intro _
  try clear_value x3
  extract_lets -merge -useContext -underBinder +onlyGivenNames x4
  refine Keeps.cut (n := 17601) (s := s) x4 ?_ ?_
  · subst x4
    refine Keeps.step ?_ startMaintenance_keeps rfl
    assumption
  intro _
  try clear_value x4
  extract_lets -merge -useContext -underBinder +onlyGivenNames x5
  refine Keeps.cut (n := 17601) (s := s) x5 ?_ ?_
  · subst x5
    refine keeps_foldl (fun x => x) _ _ ?_ ?_
    · assumption
    intro _ _ _
    refine Keeps.step ?_ freezeMask_keeps rfl
    assumption
  intro _
  try clear_value x5
  extract_lets -merge -useContext -underBinder +onlyGivenNames x6
  refine Keeps.cut (n := 17601) (s := s) x6 ?_ ?_
  · subst x6
    refine Keeps.step ?_ noteChainsOff_keeps rfl
    assumption
  intro _
  try clear_value x6
  refine keeps_ite (fun x => x) ?_ ?_
  · refine Keeps.step ?_ raiseFault_keeps rfl
    assumption
  assumption

theorem freeColumn_keeps {s a col} :
    Keeps 8589934720 s (freeColumn s a col) := by
  delta freeColumn
  extract_lets -merge -useContext -underBinder +onlyGivenNames x1
  refine Keeps.cut (n := 8589934720) (s := s) x1 ?_ ?_
  · subst x1
    refine Keeps.step ?_ (keeps_free _ _) rfl
    exact Keeps.rfl
  intro _
  try clear_value x1
  refine Keeps.step ?_ updArr_keeps rfl
  assumption

theorem replaceColumns_keeps {s a cols} :
    Keeps 8591033537 s (replaceColumns s a cols) := by
  delta replaceColumns
  extract_lets -merge -useContext -underBinder +onlyGivenNames x1
  refine Keeps.cut (n := 8591033537) (s := s) x1.2 ?_ ?_
  · subst x1
    refine Keeps.step ?_ bindAll_keeps rfl
    exact Keeps.rfl
  intro _
  try clear_value x1
  refine keeps_ite (fun x => x) ?_ ?_
  · assumption
  refine keeps_ite (fun x => x) ?_ ?_
  · refine Keeps.step ?_ writeFromSource_keeps rfl
    assumption
  refine keeps_foldl (fun x => x) _ _ ?_ ?_
  · assumption
  intro _ _ _
  refine Keeps.step ?_ freeColumn_keeps rfl
  assumption

theorem passCalibration_keeps {s a trims} :
    Keeps 128 s (passCalibration s a trims) := by
  delta passCalibration
  refine Keeps.step ?_ updArr_keeps rfl
  exact Keeps.rfl

theorem arrayCalibrated_keeps {s ci ch a trims bad} :
    Keeps 8591033537 s (arrayCalibrated s ci ch a trims bad) := by
  delta arrayCalibrated
  extract_lets -merge -useContext -underBinder +onlyGivenNames x1
  try clear_value x1
  refine keeps_ite (fun x => x) ?_ ?_
  · extract_lets -merge -useContext -underBinder +onlyGivenNames x2
    refine Keeps.cut (n := 8591033537) (s := s) x2 ?_ ?_
    · subst x2
      refine keeps_ite (fun x => x) ?_ ?_
      · exact Keeps.rfl
      refine Keeps.step ?_ bindAll_keeps rfl
      exact Keeps.rfl
    intro _
    try clear_value x2
    refine keeps_ite (fun x => x) ?_ ?_
    · assumption
    refine keeps_ite (fun x => x) ?_ ?_
    · refine Keeps.step ?_ rewriteArraysOf_keeps rfl
      assumption
    refine Keeps.step ?_ passCalibration_keeps rfl
    assumption
  refine keeps_ite (fun x => x) ?_ ?_
  · refine Keeps.step ?_ replaceColumns_keeps rfl
    exact Keeps.rfl
  refine Keeps.step ?_ passCalibration_keeps rfl
  exact Keeps.rfl

theorem calibrationDone_keeps {s ci ch trims failed} :
    Keeps 8591033793 s (calibrationDone s ci ch trims failed) := by
  delta calibrationDone
  extract_lets -merge -useContext -underBinder +onlyGivenNames x1
  try clear_value x1
  refine keeps_ite (fun x => x) ?_ ?_
  · exact Keeps.rfl
  extract_lets -merge -useContext -underBinder +onlyGivenNames x2
  try clear_value x2
  extract_lets -merge -useContext -underBinder +onlyGivenNames x3
  try clear_value x3
  extract_lets -merge -useContext -underBinder +onlyGivenNames x4
  refine Keeps.cut (n := 8591033793) (s := s) x4 ?_ ?_
  · subst x4
    refine keeps_foldl (fun x => x) _ _ ?_ ?_
    · exact Keeps.rfl
    intro _ _ _
    refine Keeps.step ?_ arrayCalibrated_keeps rfl
    assumption
  intro _
  try clear_value x4
  refine keeps_ite (fun x => x) ?_ ?_
  · assumption
  extract_lets -merge -useContext -underBinder +onlyGivenNames x5
  refine Keeps.cut (n := 8591033793) (s := s) x5 ?_ ?_
  · subst x5
    refine Keeps.step ?_ updChain_keeps rfl
    assumption
  intro _
  try clear_value x5
  refine Keeps.step ?_ bump_keeps rfl
  assumption

theorem rewriteDone_keeps {s ci ch mismatch} :
    Keeps 1098945 s (rewriteDone s ci ch mismatch) := by
  delta rewriteDone
  extract_lets -merge -useContext -underBinder +onlyGivenNames x1
  try clear_value x1
  refine keeps_ite (fun x => x) ?_ ?_
  · exact Keeps.rfl
  extract_lets -merge -useContext -underBinder +onlyGivenNames x2
  refine Keeps.cut (n := 1098945) (s := s) x2 ?_ ?_
  · subst x2
    refine keeps_foldl (fun x => x) _ _ ?_ ?_
    · exact Keeps.rfl
    intro _ _ _
    split
    · refine Keeps.step ?_ retireForGood_keeps rfl
      assumption
    extract_lets -merge -useContext -underBinder +onlyGivenNames x3
    refine Keeps.cut (n := 1098945) (s := s) x3 ?_ ?_
    · subst x3
      refine Keeps.step ?_ updArr_keeps rfl
      assumption
    intro _
    try clear_value x3
    refine Keeps.step ?_ bindSpares_keeps rfl
    assumption
  intro _
  try clear_value x2
  refine Keeps.step ?_ bump_keeps rfl
  assumption

end Sys2Proof.Machine
end

