-- ==== Sys2Proof/Laws/KeepsCompletions.lean ====
section
/-! SUPPORT. What the operations of Machine/Completions.lean leave as it was. -/

namespace Sys2Proof.Machine

theorem complete_keeps {s ring d} :
    Keeps 12288 s (complete s ring d) := by
  delta complete
  extract_lets -merge -useContext -underBinder +onlyGivenNames x1
  try clear_value x1
  extract_lets -merge -useContext -underBinder +onlyGivenNames x2
  try clear_value x2
  extract_lets -merge -useContext -underBinder +onlyGivenNames x3
  refine Keeps.cut (n := 12288) (s := s) x3 ?_ ?_
  · subst x3
    refine Keeps.step ?_ setSub_keeps rfl
    exact Keeps.rfl
  intro _
  try clear_value x3
  refine Keeps.step ?_ updComp_keeps rfl
  assumption

theorem completeUnsolicited_keeps {s ring session status records} :
    Keeps 8192 s (completeUnsolicited s ring session status records) := by
  delta completeUnsolicited
  extract_lets -merge -useContext -underBinder +onlyGivenNames x1
  try clear_value x1
  extract_lets -merge -useContext -underBinder +onlyGivenNames x2
  try clear_value x2
  refine Keeps.step ?_ updComp_keeps rfl
  exact Keeps.rfl

end Sys2Proof.Machine
end

