-- ==== Sys2Proof/Laws/KeepsWeights.lean ====
section
/-! SUPPORT. What the operations of Machine/Weights.lean leave as it was. -/

namespace Sys2Proof.Machine

theorem takeRegion_keeps {s b} :
    Keeps 4296295937 s (takeRegion s b).2 := by
  delta takeRegion
  extract_lets -merge -useContext -underBinder +onlyGivenNames x1
  try clear_value x1
  try dsimp -zeta only
  refine Keeps.step ?_ stackOn_keeps rfl
  refine Keeps.step ?_ requestWake_keeps rfl
  refine Keeps.step ?_ updFrame_keeps rfl
  exact Keeps.rfl

theorem freeRegion_keeps {s b f} :
    Keeps 512 s (freeRegion s b f) := by
  delta freeRegion
  refine Keeps.step ?_ updFrame_keeps rfl
  exact Keeps.rfl

theorem placePiece_keeps {s set piece t} (h : placePiece s set piece = some t) :
    Keeps 4296361473 s t := by
  delta placePiece at h
  extract_lets -merge -useContext -underBinder +onlyGivenNames x1 at h
  try clear_value x1
  extract_lets -merge -useContext -underBinder +onlyGivenNames x2 at h
  try clear_value x2
  split at h
  · cases h
  extract_lets -merge -useContext -underBinder +onlyGivenNames x3 at h
  refine Keeps.cut (n := 4296361473) (s := s) x3.2 ?_ ?_
  · subst x3
    refine Keeps.step ?_ takeRegion_keeps rfl
    exact Keeps.rfl
  intro _
  try clear_value x3
  refine keeps_some ?_ h
  refine Keeps.step ?_ updWset_keeps rfl
  assumption

theorem placePieces_keeps {s set l t} (h : placePieces s set l = some t) : Keeps 4296361473 s t := by
  induction l generalizing s with
  | nil =>
    cases h
    exact Keeps.rfl
  | cons x r ih =>
    unfold placePieces at h
    split at h
    · cases h
    next s' hs => exact Keeps.step (placePiece_keeps hs) (ih h) rfl

theorem takeFrames_keeps {s b n} : Keeps 4296295937 s (takeFrames s b n).2 := by
  induction n generalizing s with
  | zero => exact Keeps.rfl
  | succ n ih =>
    unfold takeFrames
    exact Keeps.step takeRegion_keeps ih rfl

theorem placeCopy_keeps {s set t} (h : placeCopy s set = some t) :
    Keeps 4296361473 s t := by
  delta placeCopy at h
  extract_lets -merge -useContext -underBinder +onlyGivenNames x1 at h
  try clear_value x1
  extract_lets -merge -useContext -underBinder +onlyGivenNames x2 at h
  try clear_value x2
  split at h
  · cases h
  extract_lets -merge -useContext -underBinder +onlyGivenNames x3 at h
  refine Keeps.cut (n := 4296361473) (s := s) x3.2 ?_ ?_
  · subst x3
    refine Keeps.step ?_ takeFrames_keeps rfl
    exact Keeps.rfl
  intro _
  try clear_value x3
  refine keeps_some ?_ h
  refine Keeps.step ?_ updWset_keeps rfl
  assumption

theorem releaseFrames_keeps {s set} :
    Keeps 66048 s (releaseFrames s set) := by
  delta releaseFrames
  extract_lets -merge -useContext -underBinder +onlyGivenNames x1
  try clear_value x1
  extract_lets -merge -useContext -underBinder +onlyGivenNames x2
  refine Keeps.cut (n := 66048) (s := s) x2 ?_ ?_
  · subst x2
    refine keeps_foldl (fun x => x) _ _ ?_ ?_
    · exact Keeps.rfl
    intro _ _ _
    refine Keeps.step ?_ freeRegion_keeps rfl
    assumption
  intro _
  try clear_value x2
  extract_lets -merge -useContext -underBinder +onlyGivenNames x3
  refine Keeps.cut (n := 66048) (s := s) x3 ?_ ?_
  · subst x3
    refine keeps_foldl (fun x => x) _ _ ?_ ?_
    · assumption
    intro _ _ _
    refine keeps_foldl (fun x => x) _ _ ?_ ?_
    · assumption
    intro _ _ _
    refine Keeps.step ?_ freeRegion_keeps rfl
    assumption
  intro _
  try clear_value x3
  refine Keeps.step ?_ updWset_keeps rfl
  assumption

theorem finishStage_keeps {s set status result} :
    Keeps 77824 s (finishStage s set status result) := by
  delta finishStage
  split
  · exact Keeps.rfl
  extract_lets -merge -useContext -underBinder +onlyGivenNames x1
  refine Keeps.cut (n := 77824) (s := s) x1 ?_ ?_
  · subst x1
    refine Keeps.step ?_ updWset_keeps rfl
    exact Keeps.rfl
  intro _
  try clear_value x1
  refine Keeps.step ?_ complete_keeps rfl
  assumption

theorem recordSet_keeps {s set status piece} :
    Keeps 16385 s (recordSet s set status piece) := by
  delta recordSet
  refine Keeps.step ?_ recordEvent_keeps rfl
  exact Keeps.rfl

theorem emptySet_keeps {s set} :
    Keeps 65536 s (emptySet s set) := by
  delta emptySet
  refine Keeps.step ?_ setWset_keeps rfl
  exact Keeps.rfl

theorem failVerify_keeps {s set status result} :
    Keeps 94721 s (failVerify s set status result) := by
  delta failVerify
  extract_lets -merge -useContext -underBinder +onlyGivenNames x1
  refine Keeps.cut (n := 94721) (s := s) x1 ?_ ?_
  · subst x1
    refine Keeps.step ?_ finishStage_keeps rfl
    refine Keeps.step ?_ recordSet_keeps rfl
    exact Keeps.rfl
  intro _
  try clear_value x1
  refine Keeps.step ?_ emptySet_keeps rfl
  refine Keeps.step ?_ releaseFrames_keeps rfl
  assumption

theorem startWipe_keeps {s set} :
    Keeps 65536 s (startWipe s set) := by
  delta startWipe
  refine Keeps.step ?_ updWset_keeps rfl
  exact Keeps.rfl

theorem failLoad_keeps {s set status} :
    Keeps 94209 s (failLoad s set status) := by
  delta failLoad
  refine Keeps.step ?_ startWipe_keeps rfl
  refine Keeps.step ?_ finishStage_keeps rfl
  refine Keeps.step ?_ recordSet_keeps rfl
  exact Keeps.rfl

theorem dropUnowned_keeps {s} :
    Keeps 65536 s (dropUnowned s) := by
  delta dropUnowned
  refine keeps_foldl (fun x => x) _ _ ?_ ?_
  · exact Keeps.rfl
  intro _ _ _
  refine keeps_ite (fun x => x) ?_ ?_
  · refine Keeps.step ?_ startWipe_keeps rfl
    assumption
  assumption

theorem forwardChunk_keeps {s set chunk data dir} :
    Keeps 4294967297 s (forwardChunk s set chunk data dir) := by
  delta forwardChunk
  extract_lets -merge -useContext -underBinder +onlyGivenNames x1
  try clear_value x1
  refine keeps_ite (fun x => x) ?_ ?_
  · exact Keeps.rfl
  refine Keeps.step ?_ bump_keeps rfl
  refine Keeps.step ?_ emit_keeps rfl
  exact Keeps.rfl

theorem takeHeader_keeps {s set h_} :
    Keeps 65536 s (takeHeader s set h_) := by
  delta takeHeader
  refine Keeps.step ?_ updWset_keeps rfl
  exact Keeps.rfl

theorem effStageHeader_keeps {s set head} :
    Keeps 94721 s (effStageHeader s set head) := by
  delta effStageHeader
  extract_lets -merge -useContext -underBinder +onlyGivenNames x1
  try clear_value x1
  refine keeps_ite (fun x => x) ?_ ?_
  · exact Keeps.rfl
  split
  · refine Keeps.step ?_ failVerify_keeps rfl
    refine Keeps.step ?_ bump_keeps rfl
    exact Keeps.rfl
  refine keeps_ite (fun x => x) ?_ ?_
  · refine Keeps.step ?_ failVerify_keeps rfl
    exact Keeps.rfl
  refine keeps_ite (fun x => x) ?_ ?_
  · refine Keeps.step ?_ failVerify_keeps rfl
    exact Keeps.rfl
  refine keeps_ite (fun x => x) ?_ ?_
  · refine Keeps.step ?_ failVerify_keeps rfl
    exact Keeps.rfl
  split
  · refine Keeps.step ?_ failVerify_keeps rfl
    exact Keeps.rfl
  refine Keeps.step ?_ takeHeader_keeps rfl
  exact Keeps.rfl

theorem reserveSet_keeps {s set t} (h : reserveSet s set = some t) :
    Keeps 4296361473 s t := by
  delta reserveSet at h
  split at h
  · cases h
  split at h
  · cases h
  refine Keeps.step ?_ (placeCopy_keeps h) rfl
  refine Keeps.step ?_ (placeCopy_keeps (by assumption)) rfl
  refine Keeps.step ?_ (placePieces_keeps (by assumption)) rfl
  exact Keeps.rfl

theorem askChunk_keeps {s set chunk} :
    Keeps 4294967296 s (askChunk s set chunk) := by
  delta askChunk
  extract_lets -merge -useContext -underBinder +onlyGivenNames x1
  try clear_value x1
  split
  · exact Keeps.rfl
  refine Keeps.step ?_ emit_keeps rfl
  exact Keeps.rfl

theorem writeChunk_keeps {s set chunk data} :
    Keeps 65544 s (writeChunk s set chunk data) := by
  delta writeChunk
  refine keeps_foldl (fun x => x) _ _ ?_ ?_
  · exact Keeps.rfl
  intro _ _ _
  extract_lets -merge -useContext -underBinder +onlyGivenNames x1
  try clear_value x1
  extract_lets -merge -useContext -underBinder +onlyGivenNames x2
  try clear_value x2
  extract_lets -merge -useContext -underBinder +onlyGivenNames x3
  try clear_value x3
  extract_lets -merge -useContext -underBinder +onlyGivenNames x4
  try clear_value x4
  extract_lets -merge -useContext -underBinder +onlyGivenNames x5
  refine Keeps.cut (n := 65544) (s := s) x5 ?_ ?_
  · subst x5
    refine Keeps.step ?_ (keeps_stack _ _ (fun c => memWriteN_wf _ _ c.stack)) rfl
    assumption
  intro _
  try clear_value x5
  refine Keeps.step ?_ updWset_keeps rfl
  assumption

theorem setLoaded_keeps {s set} :
    Keeps 94209 s (setLoaded s set) := by
  delta setLoaded
  extract_lets -merge -useContext -underBinder +onlyGivenNames x1
  refine Keeps.cut (n := 94209) (s := s) x1 ?_ ?_
  · subst x1
    refine Keeps.step ?_ updWset_keeps rfl
    exact Keeps.rfl
  intro _
  try clear_value x1
  refine Keeps.step ?_ dropUnowned_keeps rfl
  refine Keeps.step ?_ finishStage_keeps rfl
  refine Keeps.step ?_ recordSet_keeps rfl
  assumption

theorem effChunk_keeps {s set chunk data} :
    Keeps 4295061513 s (effChunk s set chunk data) := by
  delta effChunk
  extract_lets -merge -useContext -underBinder +onlyGivenNames x1
  try clear_value x1
  refine keeps_ite (fun x => x) ?_ ?_
  · exact Keeps.rfl
  split
  · refine Keeps.step ?_ failLoad_keeps rfl
    refine Keeps.step ?_ bump_keeps rfl
    exact Keeps.rfl
  refine keeps_ite (fun x => x) ?_ ?_
  · refine keeps_ite (fun x => x) ?_ ?_
    · refine Keeps.step ?_ failLoad_keeps rfl
      exact Keeps.rfl
    refine Keeps.step ?_ askChunk_keeps rfl
    refine Keeps.step ?_ updWset_keeps rfl
    exact Keeps.rfl
  extract_lets -merge -useContext -underBinder +onlyGivenNames x2
  refine Keeps.cut (n := 4295061513) (s := s) x2 ?_ ?_
  · subst x2
    refine Keeps.step ?_ writeChunk_keeps rfl
    exact Keeps.rfl
  intro _
  try clear_value x2
  extract_lets -merge -useContext -underBinder +onlyGivenNames x3
  refine Keeps.cut (n := 4295061513) (s := s) x3 ?_ ?_
  · subst x3
    refine keeps_ite (fun x => x) ?_ ?_
    · refine Keeps.step ?_ forwardChunk_keeps rfl
      assumption
    assumption
  intro _
  try clear_value x3
  extract_lets -merge -useContext -underBinder +onlyGivenNames x4
  refine Keeps.cut (n := 4295061513) (s := s) x4 ?_ ?_
  · subst x4
    refine Keeps.step ?_ updWset_keeps rfl
    assumption
  intro _
  try clear_value x4
  split
  · refine Keeps.step ?_ setLoaded_keeps rfl
    assumption
  refine Keeps.step ?_ askChunk_keeps rfl
  assumption

theorem endTransit_keeps {s set} :
    Keeps 131592 s (endTransit s set) := by
  delta endTransit
  split
  · exact Keeps.rfl
  extract_lets -merge -useContext -underBinder +onlyGivenNames x1
  refine Keeps.cut (n := 131592) (s := s) x1 ?_ ?_
  · subst x1
    refine Keeps.step ?_ (keeps_transits _ _) rfl
    exact Keeps.rfl
  intro _
  try clear_value x1
  refine keeps_foldl (fun x => x) _ _ ?_ ?_
  · assumption
  intro _ _ _
  refine Keeps.step ?_ freeRegion_keeps rfl
  refine Keeps.step ?_ (keeps_stack _ _ (fun c => memZero_wf _ _ c.stack)) rfl
  assumption

theorem refuseRelay_keeps {s set h_} :
    Keeps 4296427017 s (refuseRelay s set h_) := by
  delta refuseRelay
  extract_lets -merge -useContext -underBinder +onlyGivenNames x1
  refine Keeps.cut (n := 4296427017) (s := s) x1 ?_ ?_
  · subst x1
    refine Keeps.step ?_ endTransit_keeps rfl
    exact Keeps.rfl
  intro _
  try clear_value x1
  extract_lets -merge -useContext -underBinder +onlyGivenNames x2
  try clear_value x2
  extract_lets -merge -useContext -underBinder +onlyGivenNames x3
  refine Keeps.cut (n := 4296427017) (s := s) x3.2 ?_ ?_
  · subst x3
    split
    · try dsimp -zeta only
      assumption
    extract_lets -merge -useContext -underBinder +onlyGivenNames x4
    refine Keeps.cut (n := 4296427017) (s := s) x4.2 ?_ ?_
    · subst x4
      refine Keeps.step ?_ takeFrames_keeps rfl
      assumption
    intro _
    try clear_value x4
    try dsimp -zeta only
    assumption
  intro _
  try clear_value x3
  extract_lets -merge -useContext -underBinder +onlyGivenNames x5
  refine Keeps.cut (n := 4296427017) (s := s) x5 ?_ ?_
  · subst x5
    assumption
  intro _
  skip
  extract_lets -merge -useContext -underBinder +onlyGivenNames x6
  refine Keeps.cut (n := 4296427017) (s := s) x6 ?_ ?_
  · subst x6
    refine Keeps.step ?_ bump_keeps rfl
    refine Keeps.step ?_ (keeps_transits _ _) rfl
    assumption
  intro _
  try clear_value x6
  refine Keeps.step ?_ recordEvent_keeps rfl
  assumption

theorem effRelayHeader_keeps {s set dir h_} :
    Keeps 4296492553 s (effRelayHeader s set dir h_) := by
  delta effRelayHeader
  extract_lets -merge -useContext -underBinder +onlyGivenNames x1
  refine Keeps.cut (n := 4296492553) (s := s) x1 ?_ ?_
  · subst x1
    refine Keeps.step ?_ endTransit_keeps rfl
    exact Keeps.rfl
  intro _
  try clear_value x1
  extract_lets -merge -useContext -underBinder +onlyGivenNames x2
  try clear_value x2
  extract_lets -merge -useContext -underBinder +onlyGivenNames x3
  refine Keeps.cut (n := 4296492553) (s := s) x3 ?_ ?_
  · subst x3
    refine keeps_ite (fun x => x) ?_ ?_
    · assumption
    refine Keeps.step ?_ emit_keeps rfl
    assumption
  intro _
  try clear_value x3
  extract_lets -merge -useContext -underBinder +onlyGivenNames x4
  try clear_value x4
  refine keeps_ite (fun x => x) ?_ ?_
  · refine Keeps.step ?_ refuseRelay_keeps rfl
    assumption
  refine Keeps.step ?_ takeHeader_keeps rfl
  refine Keeps.step ?_ updWset_keeps rfl
  assumption

theorem bufferChunk_keeps {s t_ chunk d} :
    Keeps 8 s (bufferChunk s t_ chunk d) := by
  delta bufferChunk
  refine keeps_foldl (fun x => x) _ _ ?_ ?_
  · exact Keeps.rfl
  intro _ _ _
  refine Keeps.step ?_ (keeps_stack _ _ (fun c => memWriteN_wf _ _ c.stack)) rfl
  assumption

theorem transitChunk_keeps {s t_ dir chunk d} :
    Keeps 4295098889 s (transitChunk s t_ dir chunk d) := by
  delta transitChunk
  refine keeps_ite (fun x => x) ?_ ?_
  · exact Keeps.rfl
  extract_lets -merge -useContext -underBinder +onlyGivenNames x1
  refine Keeps.cut (n := 4295098889) (s := s) x1 ?_ ?_
  · subst x1
    refine Keeps.step ?_ bufferChunk_keeps rfl
    refine Keeps.step ?_ bump_keeps rfl
    exact Keeps.rfl
  intro _
  try clear_value x1
  extract_lets -merge -useContext -underBinder +onlyGivenNames x2
  subst x2
  try dsimp -zeta only
  refine keeps_ite (fun x => x) ?_ ?_
  · extract_lets -merge -useContext -underBinder +onlyGivenNames x3
    refine Keeps.cut (n := 4295098889) (s := s) x3 ?_ ?_
    · subst x3
      refine Keeps.step ?_ bump_keeps rfl
      assumption
    intro _
    try clear_value x3
    refine keeps_ite (fun x => x) ?_ ?_
    · refine Keeps.step ?_ endTransit_keeps rfl
      assumption
    refine Keeps.step ?_ emit_keeps rfl
    refine Keeps.step ?_ bump_keeps rfl
    refine Keeps.step ?_ (keeps_transits _ _) rfl
    assumption
  extract_lets -merge -useContext -underBinder +onlyGivenNames x4
  refine Keeps.cut (n := 4295098889) (s := s) x4 ?_ ?_
  · subst x4
    refine Keeps.step ?_ forwardChunk_keeps rfl
    refine Keeps.step ?_ (keeps_transits _ _) rfl
    assumption
  intro _
  try clear_value x4
  refine keeps_ite (fun x => x) ?_ ?_
  · refine Keeps.step ?_ endTransit_keeps rfl
    assumption
  assumption

theorem keptChunk_keeps {s set dir chunk d} :
    Keeps 4295061513 s (keptChunk s set dir chunk d) := by
  delta keptChunk
  extract_lets -merge -useContext -underBinder +onlyGivenNames x1
  try clear_value x1
  refine keeps_ite (fun x => x) ?_ ?_
  · exact Keeps.rfl
  extract_lets -merge -useContext -underBinder +onlyGivenNames x2
  refine Keeps.cut (n := 4295061513) (s := s) x2 ?_ ?_
  · subst x2
    refine Keeps.step ?_ bump_keeps rfl
    exact Keeps.rfl
  intro _
  try clear_value x2
  refine keeps_ite (fun x => x) ?_ ?_
  · extract_lets -merge -useContext -underBinder +onlyGivenNames x3
    refine Keeps.cut (n := 4295061513) (s := s) x3 ?_ ?_
    · subst x3
      refine Keeps.step ?_ bump_keeps rfl
      assumption
    intro _
    try clear_value x3
    refine keeps_ite (fun x => x) ?_ ?_
    · refine Keeps.step ?_ startWipe_keeps rfl
      refine Keeps.step ?_ recordSet_keeps rfl
      assumption
    refine Keeps.step ?_ emit_keeps rfl
    refine Keeps.step ?_ updWset_keeps rfl
    assumption
  extract_lets -merge -useContext -underBinder +onlyGivenNames x4
  refine Keeps.cut (n := 4295061513) (s := s) x4 ?_ ?_
  · subst x4
    refine Keeps.step ?_ forwardChunk_keeps rfl
    refine Keeps.step ?_ writeChunk_keeps rfl
    assumption
  intro _
  try clear_value x4
  extract_lets -merge -useContext -underBinder +onlyGivenNames x5
  refine Keeps.cut (n := 4295061513) (s := s) x5 ?_ ?_
  · subst x5
    refine Keeps.step ?_ updWset_keeps rfl
    assumption
  intro _
  try clear_value x5
  split
  · refine Keeps.step ?_ setLoaded_keeps rfl
    assumption
  assumption

theorem effRelayChunk_keeps {s set dir chunk d} :
    Keeps 4295193097 s (effRelayChunk s set dir chunk d) := by
  delta effRelayChunk
  split
  · refine Keeps.step ?_ transitChunk_keeps rfl
    exact Keeps.rfl
  refine keeps_ite (fun x => x) ?_ ?_
  · refine Keeps.step ?_ updWset_keeps rfl
    exact Keeps.rfl
  refine Keeps.step ?_ keptChunk_keeps rfl
  exact Keeps.rfl

theorem takeEarly_keeps {s set l} :
    Keeps 4295193097 s (takeEarly s set l) := by
  delta takeEarly
  refine keeps_foldl (fun x => x) _ _ ?_ ?_
  · exact Keeps.rfl
  intro _ _ _
  refine Keeps.step ?_ effRelayChunk_keeps rfl
  assumption

theorem effSignature_keeps {s set ok} :
    Keeps 4296504841 s (effSignature s set ok) := by
  delta effSignature
  extract_lets -merge -useContext -underBinder +onlyGivenNames x1
  try clear_value x1
  refine keeps_ite (fun x => x) ?_ ?_
  · exact Keeps.rfl
  split
  · exact Keeps.rfl
  extract_lets -merge -useContext -underBinder +onlyGivenNames x2
  subst x2
  try dsimp -zeta only
  refine keeps_ite (fun x => x) ?_ ?_
  · refine keeps_ite (fun x => x) ?_ ?_
    · refine Keeps.step ?_ takeEarly_keeps rfl
      refine Keeps.step ?_ refuseRelay_keeps rfl
      refine Keeps.step ?_ emptySet_keeps rfl
      refine Keeps.step ?_ bump_keeps rfl
      exact Keeps.rfl
    refine Keeps.step ?_ failVerify_keeps rfl
    refine Keeps.step ?_ bump_keeps rfl
    exact Keeps.rfl
  split
  · refine keeps_ite (fun x => x) ?_ ?_
    · refine Keeps.step ?_ takeEarly_keeps rfl
      refine Keeps.step ?_ refuseRelay_keeps rfl
      refine Keeps.step ?_ emptySet_keeps rfl
      exact Keeps.rfl
    refine Keeps.step ?_ failVerify_keeps rfl
    exact Keeps.rfl
  split
  · refine keeps_ite (fun x => x) ?_ ?_
    · refine Keeps.step ?_ takeEarly_keeps rfl
      refine Keeps.step ?_ refuseRelay_keeps rfl
      refine Keeps.step ?_ emptySet_keeps rfl
      exact Keeps.rfl
    refine Keeps.step ?_ failVerify_keeps rfl
    exact Keeps.rfl
  extract_lets -merge -useContext -underBinder +onlyGivenNames x3
  refine Keeps.cut (n := 4296504841) (s := s) x3 ?_ ?_
  · subst x3
    refine Keeps.step ?_ updWset_keeps rfl
    refine Keeps.step ?_ (reserveSet_keeps (by assumption)) rfl
    exact Keeps.rfl
  intro _
  try clear_value x3
  refine keeps_ite (fun x => x) ?_ ?_
  · refine Keeps.step ?_ takeEarly_keeps rfl
    assumption
  extract_lets -merge -useContext -underBinder +onlyGivenNames x4
  refine Keeps.cut (n := 4296504841) (s := s) x4 ?_ ?_
  · subst x4
    refine keeps_ite (fun x => x) ?_ ?_
    · refine Keeps.step ?_ emit_keeps rfl
      assumption
    assumption
  intro _
  try clear_value x4
  refine Keeps.step ?_ askChunk_keeps rfl
  assumption

theorem effRelayTimeout_keeps {s set} :
    Keeps 213513 s (effRelayTimeout s set) := by
  delta effRelayTimeout
  extract_lets -merge -useContext -underBinder +onlyGivenNames x1
  refine Keeps.cut (n := 213513) (s := s) x1 ?_ ?_
  · subst x1
    refine Keeps.step ?_ endTransit_keeps rfl
    exact Keeps.rfl
  intro _
  try clear_value x1
  extract_lets -merge -useContext -underBinder +onlyGivenNames x2
  try clear_value x2
  extract_lets -merge -useContext -underBinder +onlyGivenNames x3
  refine Keeps.cut (n := 213513) (s := s) x3 ?_ ?_
  · subst x3
    refine Keeps.step ?_ recordEvent_keeps rfl
    assumption
  intro _
  try clear_value x3
  refine keeps_ite (fun x => x) ?_ ?_
  · refine Keeps.step ?_ startWipe_keeps rfl
    assumption
  refine keeps_ite (fun x => x) ?_ ?_
  · refine Keeps.step ?_ emptySet_keeps rfl
    assumption
  assumption

theorem loseTransfer_keeps {s ci t_} :
    Keeps 8589954081 s (loseTransfer s ci t_) := by
  delta loseTransfer
  extract_lets -merge -useContext -underBinder +onlyGivenNames x1
  try clear_value x1
  extract_lets -merge -useContext -underBinder +onlyGivenNames x2
  try clear_value x2
  extract_lets -merge -useContext -underBinder +onlyGivenNames x3
  refine Keeps.cut (n := 8589954081) (s := s) x3 ?_ ?_
  · subst x3
    refine Keeps.step ?_ updCore_keeps rfl
    refine Keeps.step ?_ (keeps_free _ _) rfl
    exact Keeps.rfl
  intro _
  try clear_value x3
  split
  · extract_lets -merge -useContext -underBinder +onlyGivenNames x4
    try clear_value x4
    refine Keeps.step ?_ setAbort_keeps rfl
    refine Keeps.step ?_ updSess_keeps rfl
    assumption
  · refine Keeps.step ?_ raiseFault_keeps rfl
    assumption
  assumption

theorem retryHeld_keeps {s set} :
    Keeps 8589954081 s (retryHeld s set) := by
  delta retryHeld
  refine keeps_foldl (fun x => x) _ _ ?_ ?_
  · exact Keeps.rfl
  intro _ _ _
  refine keeps_foldl (fun x => x) _ _ ?_ ?_
  · assumption
  intro _ _ _
  split
  · refine keeps_ite (fun x => x) ?_ ?_
    · assumption
    split
    · assumption
    · extract_lets -merge -useContext -underBinder +onlyGivenNames x1
      try clear_value x1
      refine Keeps.step ?_ updCore_keeps rfl
      assumption
    refine Keeps.step ?_ loseTransfer_keeps rfl
    assumption
  assumption

theorem losePiece_keeps {s set piece} :
    Keeps 8590019617 s (losePiece s set piece) := by
  delta losePiece
  extract_lets -merge -useContext -underBinder +onlyGivenNames x1
  refine Keeps.cut (n := 8590019617) (s := s) x1 ?_ ?_
  · subst x1
    refine Keeps.step ?_ updWset_keeps rfl
    exact Keeps.rfl
  intro _
  try clear_value x1
  refine Keeps.step ?_ retryHeld_keeps rfl
  refine Keeps.step ?_ recordSet_keeps rfl
  refine Keeps.step ?_ bump_keeps rfl
  assumption

theorem askFrom_keeps {s set piece from_} :
    Keeps 12884986913 s (askFrom s set piece from_) := by
  delta askFrom
  split
  · refine Keeps.step ?_ losePiece_keeps rfl
    exact Keeps.rfl
  refine Keeps.step ?_ emit_keeps rfl
  refine Keeps.step ?_ updWset_keeps rfl
  exact Keeps.rfl

theorem askRefetch_keeps {s set piece} :
    Keeps 12884986913 s (askRefetch s set piece) := by
  delta askRefetch
  refine Keeps.step ?_ askFrom_keeps rfl
  exact Keeps.rfl

theorem quarantine_keeps {s set piece cause} :
    Keeps 12884986913 s (quarantine s set piece cause) := by
  delta quarantine
  extract_lets -merge -useContext -underBinder +onlyGivenNames x1
  try clear_value x1
  refine keeps_ite (fun x => x) ?_ ?_
  · exact Keeps.rfl
  refine Keeps.step ?_ askRefetch_keeps rfl
  refine Keeps.step ?_ updWset_keeps rfl
  exact Keeps.rfl

theorem effRefetch_keeps {s set piece fin} :
    Keeps 12886330921 s (effRefetch s set piece fin) := by
  delta effRefetch
  extract_lets -merge -useContext -underBinder +onlyGivenNames x1
  try clear_value x1
  extract_lets -merge -useContext -underBinder +onlyGivenNames x2
  try clear_value x2
  refine keeps_ite (fun x => x) ?_ ?_
  · exact Keeps.rfl
  split
  · refine Keeps.step ?_ askFrom_keeps rfl
    exact Keeps.rfl
  extract_lets -merge -useContext -underBinder +onlyGivenNames x3
  try clear_value x3
  refine keeps_ite (fun x => x) ?_ ?_
  · refine Keeps.step ?_ losePiece_keeps rfl
    exact Keeps.rfl
  extract_lets -merge -useContext -underBinder +onlyGivenNames x4
  try clear_value x4
  extract_lets -merge -useContext -underBinder +onlyGivenNames x5
  try clear_value x5
  split
  · refine Keeps.step ?_ recordSet_keeps rfl
    refine Keeps.step ?_ updWset_keeps rfl
    exact Keeps.rfl
  extract_lets -merge -useContext -underBinder +onlyGivenNames x6
  refine Keeps.cut (n := 12886330921) (s := s) x6.2 ?_ ?_
  · subst x6
    refine Keeps.step ?_ takeRegion_keeps rfl
    exact Keeps.rfl
  intro _
  try clear_value x6
  extract_lets -merge -useContext -underBinder +onlyGivenNames x7
  try clear_value x7
  extract_lets -merge -useContext -underBinder +onlyGivenNames x8
  refine Keeps.cut (n := 12886330921) (s := s) x8 ?_ ?_
  · subst x8
    assumption
  intro _
  skip
  extract_lets -merge -useContext -underBinder +onlyGivenNames x9
  refine Keeps.cut (n := 12886330921) (s := s) x9 ?_ ?_
  · subst x9
    refine Keeps.step ?_ (keeps_stack _ _ (fun c => memWriteN_wf _ _ c.stack)) rfl
    assumption
  intro _
  try clear_value x9
  extract_lets -merge -useContext -underBinder +onlyGivenNames x10
  refine Keeps.cut (n := 12886330921) (s := s) x10 ?_ ?_
  · subst x10
    refine Keeps.step ?_ updWset_keeps rfl
    assumption
  intro _
  try clear_value x10
  extract_lets -merge -useContext -underBinder +onlyGivenNames x11
  refine Keeps.cut (n := 12886330921) (s := s) x11 ?_ ?_
  · subst x11
    refine keeps_ite (fun x => x) ?_ ?_
    · refine Keeps.step ?_ addYield_keeps rfl
      refine Keeps.step ?_ updFrame_keeps rfl
      assumption
    refine Keeps.step ?_ freeRegion_keeps rfl
    assumption
  intro _
  try clear_value x11
  refine Keeps.step ?_ retryHeld_keeps rfl
  refine Keeps.step ?_ recordSet_keeps rfl
  refine Keeps.step ?_ bump_keeps rfl
  assumption

theorem retryUnplaced_keeps {s} :
    Keeps 12884986913 s (retryUnplaced s) := by
  delta retryUnplaced
  refine keeps_foldl (fun x => x) _ _ ?_ ?_
  · exact Keeps.rfl
  intro _ _ _
  refine keeps_foldl (fun x => x) _ _ ?_ ?_
  · assumption
  intro _ _ _
  refine Keeps.step ?_ askRefetch_keeps rfl
  refine Keeps.step ?_ updWset_keeps rfl
  assumption

theorem blockPiecesLost_keeps {s b} :
    Keeps 12886310433 s (blockPiecesLost s b) := by
  delta blockPiecesLost
  refine keeps_foldl (fun x => x) _ _ ?_ ?_
  · exact Keeps.rfl
  intro _ _ _
  extract_lets -merge -useContext -underBinder +onlyGivenNames x1
  try clear_value x1
  extract_lets -merge -useContext -underBinder +onlyGivenNames x2
  try clear_value x2
  extract_lets -merge -useContext -underBinder +onlyGivenNames x3
  refine Keeps.cut (n := 12886310433) (s := s) x3 ?_ ?_
  · subst x3
    refine Keeps.step ?_ updWset_keeps rfl
    assumption
  intro _
  try clear_value x3
  extract_lets -merge -useContext -underBinder +onlyGivenNames x4
  refine Keeps.cut (n := 12886310433) (s := s) x4 ?_ ?_
  · subst x4
    refine keeps_ite (fun x => x) ?_ ?_
    · refine keeps_getD ?_ ?_
      · intro _ h
        refine Keeps.step ?_ (placeCopy_keeps h) rfl
        assumption
      assumption
    assumption
  intro _
  try clear_value x4
  refine keeps_ite (fun x => x) ?_ ?_
  · assumption
  split
  · split
    · refine Keeps.step ?_ failLoad_keeps rfl
      assumption
    extract_lets -merge -useContext -underBinder +onlyGivenNames x5
    try clear_value x5
    refine Keeps.step ?_ updWset_keeps rfl
    refine Keeps.step ?_ (placePieces_keeps (by assumption)) rfl
    assumption
  · refine keeps_foldl (fun x => x) _ _ ?_ ?_
    · assumption
    intro _ _ _
    refine Keeps.step ?_ quarantine_keeps rfl
    assumption
  · refine keeps_foldl (fun x => x) _ _ ?_ ?_
    · assumption
    intro _ _ _
    refine Keeps.step ?_ quarantine_keeps rfl
    assumption
  assumption

theorem unloadSet_keeps {s set t} (h : unloadSet s set = .ok t) :
    Keeps 12884999713 s t := by
  delta unloadSet at h
  extract_lets -merge -useContext -underBinder +onlyGivenNames x1 at h
  try clear_value x1
  split at h
  · cases h
  · cases h
  · refine keeps_ok ?_ h
    refine Keeps.step ?_ retryUnplaced_keeps rfl
    refine Keeps.step ?_ failVerify_keeps rfl
    exact Keeps.rfl
  · refine keeps_ok ?_ h
    refine Keeps.step ?_ failLoad_keeps rfl
    exact Keeps.rfl
  · split at h
    · refine keeps_ok ?_ h
      refine Keeps.step ?_ startWipe_keeps rfl
      exact Keeps.rfl
    cases h
  split at h
  · refine keeps_ok ?_ h
    refine Keeps.step ?_ startWipe_keeps rfl
    exact Keeps.rfl
  cases h

theorem effSetWipe_keeps {s set} :
    Keeps 12884987433 s (effSetWipe s set) := by
  delta effSetWipe
  extract_lets -merge -useContext -underBinder +onlyGivenNames x1
  try clear_value x1
  refine keeps_ite (fun x => x) ?_ ?_
  · exact Keeps.rfl
  extract_lets -merge -useContext -underBinder +onlyGivenNames x2
  refine Keeps.cut (n := 12884987433) (s := s) x2 ?_ ?_
  · subst x2
    refine keeps_foldl (fun x => x) _ _ ?_ ?_
    · exact Keeps.rfl
    intro _ _ _
    refine Keeps.step ?_ (keeps_stack _ _ (fun c => memZero_wf _ _ c.stack)) rfl
    assumption
  intro _
  try clear_value x2
  refine Keeps.step ?_ retryUnplaced_keeps rfl
  refine Keeps.step ?_ emptySet_keeps rfl
  refine Keeps.step ?_ releaseFrames_keeps rfl
  assumption

end Sys2Proof.Machine
end

