-- ==== Sys2Proof/Laws/KeepsPaging.lean ====
section
/-! SUPPORT. What the operations of Machine/Paging.lean leave as it was. -/

namespace Sys2Proof.Machine

theorem writeEntry_keeps {s table idx e} :
    Keeps 8 s (writeEntry s table idx e) := by
  delta writeEntry
  refine Keeps.step ?_ (keeps_stack _ _ (fun c => memWriteN_wf _ _ c.stack)) rfl
  exact Keeps.rfl

theorem pickFrame_keeps {s b} :
    Keeps 8589934592 s (pickFrame s b).2 := by
  delta pickFrame
  extract_lets -merge -useContext -underBinder +onlyGivenNames x1
  try clear_value x1
  extract_lets -merge -useContext -underBinder +onlyGivenNames x2
  refine Keeps.cut (n := 8589934592) (s := s) x2.2 ?_ ?_
  · subst x2
    refine Keeps.step ?_ drawFree_keeps rfl
    exact Keeps.rfl
  intro _
  try clear_value x2
  extract_lets -merge -useContext -underBinder +onlyGivenNames x3
  try clear_value x3
  extract_lets -merge -useContext -underBinder +onlyGivenNames x4
  try clear_value x4
  refine keeps_ite (fun (x : _ × State) => x.2) ?_ ?_
  · try dsimp -zeta only
    assumption
  try dsimp -zeta only
  assumption

theorem takeFrame_keeps {s b f} :
    Keeps 512 s (takeFrame s b f) := by
  delta takeFrame
  refine Keeps.step ?_ updFrame_keeps rfl
  exact Keeps.rfl

theorem drawFrame_keeps {s p b cls} :
    Keeps 8589935105 s (drawFrame s p b cls).2 := by
  delta drawFrame
  extract_lets -merge -useContext -underBinder +onlyGivenNames x1
  try clear_value x1
  refine keeps_ite (fun (x : _ × State) => x.2) ?_ ?_
  · try dsimp -zeta only
    exact Keeps.rfl
  extract_lets -merge -useContext -underBinder +onlyGivenNames x2
  refine Keeps.cut (n := 8589935105) (s := s) x2.2 ?_ ?_
  · subst x2
    refine Keeps.step ?_ pickFrame_keeps rfl
    exact Keeps.rfl
  intro _
  try clear_value x2
  try dsimp -zeta only
  refine Keeps.step ?_ bump_keeps rfl
  refine Keeps.step ?_ takeFrame_keeps rfl
  assumption

theorem drawTable_keeps {s p b cls} :
    Keeps 8589935113 s (drawTable s p b cls).2 := by
  delta drawTable
  split
  · try dsimp -zeta only
    refine Keeps.step ?_ (keeps_stack _ _ (fun c => memZero_wf _ _ c.stack)) rfl
    refine Keeps.step ?_ (keeps_p2 (by assumption) drawFrame_keeps) rfl
    exact Keeps.rfl
  try dsimp -zeta only
  refine Keeps.step ?_ (keeps_p2 (by assumption) drawFrame_keeps) rfl
  exact Keeps.rfl

theorem dropFrame_keeps {s b f} :
    Keeps 512 s (dropFrame s b f) := by
  delta dropFrame
  refine Keeps.step ?_ updFrame_keeps rfl
  exact Keeps.rfl

theorem tlbDropSession_keeps {s p sess} :
    Keeps 64 s (tlbDropSession s p sess) := by
  delta tlbDropSession
  refine keeps_foldl (fun x => x) _ _ ?_ ?_
  · exact Keeps.rfl
  intro _ _ _
  refine Keeps.step ?_ updCluster_keeps rfl
  assumption

theorem tlbDropEntry_keeps {s p key} :
    Keeps 64 s (tlbDropEntry s p key) := by
  delta tlbDropEntry
  refine keeps_foldl (fun x => x) _ _ ?_ ?_
  · exact Keeps.rfl
  intro _ _ _
  refine Keeps.step ?_ updCluster_keeps rfl
  assumption

theorem tlbInsert_keeps {s cl key entry ptrKey ptr} :
    Keeps 8589934656 s (tlbInsert s cl key entry ptrKey ptr) := by
  delta tlbInsert
  extract_lets -merge -useContext -underBinder +onlyGivenNames x1
  refine Keeps.cut (n := 8589934656) (s := s) x1.2 ?_ ?_
  · subst x1
    refine Keeps.step ?_ drawFree_keeps rfl
    exact Keeps.rfl
  intro _
  try clear_value x1
  refine Keeps.step ?_ updCluster_keeps rfl
  assumption

theorem needTable_keeps {s p cl cls write} :
    Keeps 8589935113 s (needTable s p cl cls write).2 := by
  delta needTable
  refine keeps_ite (fun (x : _ × State) => x.2) ?_ ?_
  · refine Keeps.step ?_ drawTable_keeps rfl
    exact Keeps.rfl
  try dsimp -zeta only
  exact Keeps.rfl

theorem addLease_keeps {s p cl sess va} :
    Keeps 64 s (addLease s p cl sess va) := by
  delta addLease
  refine Keeps.step ?_ updCluster_keeps rfl
  exact Keeps.rfl

theorem leafTable_keeps {s p cl sess va write} :
    Keeps 8589937161 s (leafTable s p cl sess va write).2 := by
  delta leafTable
  extract_lets -merge -useContext -underBinder +onlyGivenNames x1
  try clear_value x1
  extract_lets -merge -useContext -underBinder +onlyGivenNames x2
  try clear_value x2
  extract_lets -merge -useContext -underBinder +onlyGivenNames x3
  try clear_value x3
  extract_lets -merge -useContext -underBinder +onlyGivenNames x4
  refine Keeps.cut (n := 8589937161) (s := s) x4.2 ?_ ?_
  · subst x4
    refine keeps_ite (fun (x : _ × State) => x.2) ?_ ?_
    · try dsimp -zeta only
      exact Keeps.rfl
    split
    · try dsimp -zeta only
      refine Keeps.step ?_ updSess_keeps rfl
      refine Keeps.step ?_ (keeps_p2 (by assumption) needTable_keeps) rfl
      exact Keeps.rfl
    try dsimp -zeta only
    refine Keeps.step ?_ (keeps_p2 (by assumption) needTable_keeps) rfl
    exact Keeps.rfl
  intro _
  try clear_value x4
  split
  · try dsimp -zeta only
    assumption
  extract_lets -merge -useContext -underBinder +onlyGivenNames x5
  try clear_value x5
  refine keeps_ite (fun (x : _ × State) => x.2) ?_ ?_
  · try dsimp -zeta only
    assumption
  refine keeps_ite (fun (x : _ × State) => x.2) ?_ ?_
  · try dsimp -zeta only
    assumption
  split
  · try dsimp -zeta only
    refine Keeps.step ?_ writeEntry_keeps rfl
    refine Keeps.step ?_ (keeps_p2 (by assumption) needTable_keeps) rfl
    assumption
  try dsimp -zeta only
  refine Keeps.step ?_ (keeps_p2 (by assumption) needTable_keeps) rfl
  assumption

theorem copyOnWrite_keeps {s p sess table idx e} :
    Keeps 8589935113 s (copyOnWrite s p sess table idx e).2 := by
  delta copyOnWrite
  extract_lets -merge -useContext -underBinder +onlyGivenNames x1
  try clear_value x1
  extract_lets -merge -useContext -underBinder +onlyGivenNames x2
  try clear_value x2
  refine keeps_ite (fun (x : _ × State) => x.2) ?_ ?_
  · extract_lets -merge -useContext -underBinder +onlyGivenNames x3
    try clear_value x3
    try dsimp -zeta only
    refine Keeps.step ?_ writeEntry_keeps rfl
    exact Keeps.rfl
  split
  · try dsimp -zeta only
    refine Keeps.step ?_ (keeps_p2 (by assumption) drawFrame_keeps) rfl
    exact Keeps.rfl
  extract_lets -merge -useContext -underBinder +onlyGivenNames x4
  try clear_value x4
  extract_lets -merge -useContext -underBinder +onlyGivenNames x5
  refine Keeps.cut (n := 8589935113) (s := s) x5 ?_ ?_
  · subst x5
    refine Keeps.step ?_ (keeps_stack _ _ (fun c => memWriteN_wf _ _ c.stack)) rfl
    refine Keeps.step ?_ (keeps_p2 (by assumption) drawFrame_keeps) rfl
    exact Keeps.rfl
  intro _
  try clear_value x5
  extract_lets -merge -useContext -underBinder +onlyGivenNames x6
  refine Keeps.cut (n := 8589935113) (s := s) x6 ?_ ?_
  · subst x6
    refine Keeps.step ?_ dropFrame_keeps rfl
    assumption
  intro _
  try clear_value x6
  extract_lets -merge -useContext -underBinder +onlyGivenNames x7
  refine Keeps.cut (n := 8589935113) (s := s) x7 ?_ ?_
  · subst x7
    refine Keeps.step ?_ bump_keeps rfl
    assumption
  intro _
  try clear_value x7
  extract_lets -merge -useContext -underBinder +onlyGivenNames x8
  try clear_value x8
  try dsimp -zeta only
  refine Keeps.step ?_ writeEntry_keeps rfl
  assumption

theorem translate_keeps {s p cl sess va write tentative} :
    Keeps 8589937225 s (translate s p cl sess va write tentative).2 := by
  delta translate
  extract_lets -merge -useContext -underBinder +onlyGivenNames x1
  try clear_value x1
  refine keeps_ite (fun (x : _ × State) => x.2) ?_ ?_
  · try dsimp -zeta only
    refine Keeps.step ?_ bump_keeps rfl
    exact Keeps.rfl
  refine keeps_ite (fun (x : _ × State) => x.2) ?_ ?_
  · try dsimp -zeta only
    exact Keeps.rfl
  refine keeps_ite (fun (x : _ × State) => x.2) ?_ ?_
  · try dsimp -zeta only
    exact Keeps.rfl
  extract_lets -merge -useContext -underBinder +onlyGivenNames x2
  try clear_value x2
  extract_lets -merge -useContext -underBinder +onlyGivenNames x3
  try clear_value x3
  refine keeps_ite (fun (x : _ × State) => x.2) ?_ ?_
  · try dsimp -zeta only
    exact Keeps.rfl
  extract_lets -merge -useContext -underBinder +onlyGivenNames x4
  refine Keeps.cut (n := 8589937225) (s := s) x4 ?_ ?_
  · subst x4
    refine keeps_ite (fun x => x) ?_ ?_
    · exact Keeps.rfl
    refine Keeps.step ?_ bump_keeps rfl
    exact Keeps.rfl
  intro _
  try clear_value x4
  split
  · try dsimp -zeta only
    refine Keeps.step ?_ (keeps_p2 (by assumption) leafTable_keeps) rfl
    assumption
  extract_lets -merge -useContext -underBinder +onlyGivenNames x5
  try clear_value x5
  extract_lets -merge -useContext -underBinder +onlyGivenNames x6
  try clear_value x6
  refine keeps_ite (fun (x : _ × State) => x.2) ?_ ?_
  · try dsimp -zeta only
    refine Keeps.step ?_ (keeps_p2 (by assumption) leafTable_keeps) rfl
    assumption
  refine keeps_ite (fun (x : _ × State) => x.2) ?_ ?_
  · try dsimp -zeta only
    refine Keeps.step ?_ (keeps_p2 (by assumption) leafTable_keeps) rfl
    assumption
  extract_lets -merge -useContext -underBinder +onlyGivenNames x7
  refine Keeps.cut (n := 8589937225) (s := s) x7.2 ?_ ?_
  · subst x7
    refine keeps_ite (fun (x : _ × State) => x.2) ?_ ?_
    · refine keeps_ite (fun (x : _ × State) => x.2) ?_ ?_
      · refine Keeps.step ?_ copyOnWrite_keeps rfl
        refine Keeps.step ?_ tlbDropEntry_keeps rfl
        refine Keeps.step ?_ (keeps_p2 (by assumption) leafTable_keeps) rfl
        assumption
      try dsimp -zeta only
      refine Keeps.step ?_ (keeps_p2 (by assumption) leafTable_keeps) rfl
      assumption
    refine keeps_ite (fun (x : _ × State) => x.2) ?_ ?_
    · try dsimp -zeta only
      refine Keeps.step ?_ (keeps_p2 (by assumption) leafTable_keeps) rfl
      assumption
    split
    · extract_lets -merge -useContext -underBinder +onlyGivenNames x8
      try clear_value x8
      try dsimp -zeta only
      refine Keeps.step ?_ addLease_keeps rfl
      refine Keeps.step ?_ writeEntry_keeps rfl
      refine Keeps.step ?_ (keeps_p2 (by assumption) drawFrame_keeps) rfl
      refine Keeps.step ?_ (keeps_p2 (by assumption) leafTable_keeps) rfl
      assumption
    try dsimp -zeta only
    refine Keeps.step ?_ (keeps_p2 (by assumption) drawFrame_keeps) rfl
    refine Keeps.step ?_ (keeps_p2 (by assumption) leafTable_keeps) rfl
    assumption
  intro _
  try clear_value x7
  split
  · try dsimp -zeta only
    assumption
  · try dsimp -zeta only
    assumption
  extract_lets -merge -useContext -underBinder +onlyGivenNames x9
  refine Keeps.cut (n := 8589937225) (s := s) x9 ?_ ?_
  · subst x9
    refine Keeps.step ?_ tlbInsert_keeps rfl
    assumption
  intro _
  try clear_value x9
  try dsimp -zeta only
  assumption

theorem noPages_keeps {s p ci sess} :
    Keeps 2081 s (noPages s p ci sess) := by
  delta noPages
  extract_lets -merge -useContext -underBinder +onlyGivenNames x1
  refine Keeps.cut (n := 2081) (s := s) x1 ?_ ?_
  · subst x1
    refine Keeps.step ?_ bump_keeps rfl
    exact Keeps.rfl
  intro _
  try clear_value x1
  extract_lets -merge -useContext -underBinder +onlyGivenNames x2
  refine Keeps.cut (n := 2081) (s := s) x2 ?_ ?_
  · subst x2
    refine Keeps.step ?_ updSess_keeps rfl
    assumption
  intro _
  try clear_value x2
  refine Keeps.step ?_ setAbort_keeps rfl
  assumption

theorem freeSessionPages_keeps {s p sess} :
    Keeps 2624 s (freeSessionPages s p sess) := by
  delta freeSessionPages
  extract_lets -merge -useContext -underBinder +onlyGivenNames x1
  try clear_value x1
  extract_lets -merge -useContext -underBinder +onlyGivenNames x2
  try clear_value x2
  extract_lets -merge -useContext -underBinder +onlyGivenNames x3
  try clear_value x3
  extract_lets -merge -useContext -underBinder +onlyGivenNames x4
  refine Keeps.cut (n := 2624) (s := s) x4 ?_ ?_
  · subst x4
    refine keeps_foldl (fun x => x) _ _ ?_ ?_
    · exact Keeps.rfl
    intro _ _ _
    refine keeps_ite (fun x => x) ?_ ?_
    · refine Keeps.step ?_ dropFrame_keeps rfl
      assumption
    assumption
  intro _
  try clear_value x4
  extract_lets -merge -useContext -underBinder +onlyGivenNames x5
  refine Keeps.cut (n := 2624) (s := s) x5 ?_ ?_
  · subst x5
    refine keeps_foldl (fun x => x) _ _ ?_ ?_
    · assumption
    intro _ _ _
    refine keeps_ite (fun x => x) ?_ ?_
    · refine Keeps.step ?_ dropFrame_keeps rfl
      assumption
    assumption
  intro _
  try clear_value x5
  extract_lets -merge -useContext -underBinder +onlyGivenNames x6
  refine Keeps.cut (n := 2624) (s := s) x6 ?_ ?_
  · subst x6
    refine keeps_foldl (fun x => x) _ _ ?_ ?_
    · assumption
    intro _ _ _
    refine keeps_ite (fun x => x) ?_ ?_
    · refine Keeps.step ?_ dropFrame_keeps rfl
      assumption
    assumption
  intro _
  try clear_value x6
  refine Keeps.step ?_ tlbDropSession_keeps rfl
  refine Keeps.step ?_ updSess_keeps rfl
  assumption

theorem settlePagesOf_keeps {s p sess newLen ofLap} :
    Keeps 585 s (settlePagesOf s p sess newLen ofLap) := by
  delta settlePagesOf
  refine keeps_foldl (fun x => x) _ _ ?_ ?_
  · exact Keeps.rfl
  intro _ _ _
  extract_lets -merge -useContext -underBinder +onlyGivenNames x1
  try clear_value x1
  refine keeps_ite (fun x => x) ?_ ?_
  · refine keeps_ite (fun x => x) ?_ ?_
    · extract_lets -merge -useContext -underBinder +onlyGivenNames x2
      refine Keeps.cut (n := 585) (s := s) x2 ?_ ?_
      · subst x2
        refine Keeps.step ?_ dropFrame_keeps rfl
        refine Keeps.step ?_ writeEntry_keeps rfl
        assumption
      intro _
      try clear_value x2
      refine Keeps.step ?_ bump_keeps rfl
      refine Keeps.step ?_ tlbDropEntry_keeps rfl
      assumption
    refine Keeps.step ?_ tlbDropEntry_keeps rfl
    refine Keeps.step ?_ writeEntry_keeps rfl
    assumption
  assumption

theorem settlePages_keeps {s p sess newLen} :
    Keeps 585 s (settlePages s p sess newLen) := by
  delta settlePages
  extract_lets -merge -useContext -underBinder +onlyGivenNames x1
  try clear_value x1
  refine Keeps.step ?_ settlePagesOf_keeps rfl
  exact Keeps.rfl

theorem forkPages_keeps {s p parent child} :
    Keeps 8589937225 s (forkPages s p parent child).2 := by
  delta forkPages
  extract_lets -merge -useContext -underBinder +onlyGivenNames x1
  refine Keeps.cut (n := 8589937225) (s := s) x1 ?_ ?_
  · subst x1
    refine Keeps.step ?_ tlbDropSession_keeps rfl
    exact Keeps.rfl
  intro _
  try clear_value x1
  extract_lets -merge -useContext -underBinder +onlyGivenNames x2
  try clear_value x2
  extract_lets -merge -useContext -underBinder +onlyGivenNames x3
  try clear_value x3
  refine keeps_foldl (fun (x : _ × State) => x.2) _ _ ?_ ?_
  · try dsimp -zeta only
    assumption
  intro _ _ _
  refine keeps_ite (fun (x : _ × State) => x.2) ?_ ?_
  · assumption
  extract_lets -merge -useContext -underBinder +onlyGivenNames x4
  try clear_value x4
  split
  · try dsimp -zeta only
    refine Keeps.step ?_ (keeps_p2 (by assumption) drawTable_keeps) rfl
    assumption
  extract_lets -merge -useContext -underBinder +onlyGivenNames x5
  refine Keeps.cut (n := 8589937225) (s := s) x5 ?_ ?_
  · subst x5
    refine Keeps.step ?_ updSess_keeps rfl
    refine Keeps.step ?_ (keeps_p2 (by assumption) drawTable_keeps) rfl
    assumption
  intro _
  try clear_value x5
  refine keeps_foldl (fun (x : _ × State) => x.2) _ _ ?_ ?_
  · try dsimp -zeta only
    assumption
  intro _ _ _
  refine keeps_ite (fun (x : _ × State) => x.2) ?_ ?_
  · assumption
  extract_lets -merge -useContext -underBinder +onlyGivenNames x6
  try clear_value x6
  split
  · try dsimp -zeta only
    refine Keeps.step ?_ (keeps_p2 (by assumption) drawTable_keeps) rfl
    assumption
  extract_lets -merge -useContext -underBinder +onlyGivenNames x7
  refine Keeps.cut (n := 8589937225) (s := s) x7 ?_ ?_
  · subst x7
    refine Keeps.step ?_ writeEntry_keeps rfl
    refine Keeps.step ?_ (keeps_p2 (by assumption) drawTable_keeps) rfl
    assumption
  intro _
  try clear_value x7
  extract_lets -merge -useContext -underBinder +onlyGivenNames x8
  try clear_value x8
  try dsimp -zeta only
  refine keeps_foldl (fun x => x) _ _ ?_ ?_
  · assumption
  intro _ _ _
  refine keeps_ite (fun x => x) ?_ ?_
  · extract_lets -merge -useContext -underBinder +onlyGivenNames x9
    try clear_value x9
    extract_lets -merge -useContext -underBinder +onlyGivenNames x10
    refine Keeps.cut (n := 8589937225) (s := s) x10 ?_ ?_
    · subst x10
      refine Keeps.step ?_ writeEntry_keeps rfl
      refine Keeps.step ?_ writeEntry_keeps rfl
      assumption
    intro _
    try clear_value x10
    refine Keeps.step ?_ updFrame_keeps rfl
    assumption
  assumption

theorem expireLeases_keeps {s p cl} :
    Keeps 584 s (expireLeases s p cl) := by
  delta expireLeases
  extract_lets -merge -useContext -underBinder +onlyGivenNames x1
  refine Keeps.cut (n := 584) (s := s) x1 ?_ ?_
  · subst x1
    refine keeps_foldl (fun x => x) _ _ ?_ ?_
    · exact Keeps.rfl
    intro _ _ _
    refine keeps_foldl (fun x => x) _ _ ?_ ?_
    · assumption
    intro _ _ _
    extract_lets -merge -useContext -underBinder +onlyGivenNames x2
    try clear_value x2
    refine keeps_ite (fun x => x) ?_ ?_
    · refine Keeps.step ?_ tlbDropEntry_keeps rfl
      refine Keeps.step ?_ dropFrame_keeps rfl
      refine Keeps.step ?_ writeEntry_keeps rfl
      assumption
    assumption
  intro _
  try clear_value x1
  refine Keeps.step ?_ updCluster_keeps rfl
  assumption

theorem expireFenced_keeps {s p} :
    Keeps 584 s (expireFenced s p) := by
  delta expireFenced
  refine keeps_foldl (fun x => x) _ _ ?_ ?_
  · exact Keeps.rfl
  intro _ _ _
  refine Keeps.step ?_ expireLeases_keeps rfl
  assumption

theorem endLeases_keeps {s p} :
    Keeps 64 s (endLeases s p) := by
  delta endLeases
  refine keeps_foldl (fun x => x) _ _ ?_ ?_
  · exact Keeps.rfl
  intro _ _ _
  refine Keeps.step ?_ updCluster_keeps rfl
  assumption

theorem loseFrame_keeps {s p ci b f} :
    Keeps 1100393 s (loseFrame s p ci b f) := by
  delta loseFrame
  extract_lets -merge -useContext -underBinder +onlyGivenNames x1
  try clear_value x1
  extract_lets -merge -useContext -underBinder +onlyGivenNames x2
  refine Keeps.cut (n := 1100393) (s := s) x2 ?_ ?_
  · subst x2
    refine keeps_foldl (fun x => x) _ _ ?_ ?_
    · exact Keeps.rfl
    intro _ _ _
    extract_lets -merge -useContext -underBinder +onlyGivenNames x3
    refine Keeps.cut (n := 1100393) (s := s) x3 ?_ ?_
    · subst x3
      refine keeps_foldl (fun x => x) _ _ ?_ ?_
      · assumption
      intro _ _ _
      refine keeps_ite (fun x => x) ?_ ?_
      · refine Keeps.step ?_ tlbDropEntry_keeps rfl
        refine Keeps.step ?_ writeEntry_keeps rfl
        assumption
      assumption
    intro _
    try clear_value x3
    extract_lets -merge -useContext -underBinder +onlyGivenNames x4
    refine Keeps.cut (n := 1100393) (s := s) x4 ?_ ?_
    · subst x4
      refine Keeps.step ?_ updSess_keeps rfl
      assumption
    intro _
    try clear_value x4
    refine Keeps.step ?_ setAbort_keeps rfl
    assumption
  intro _
  try clear_value x2
  refine keeps_ite (fun x => x) ?_ ?_
  · assumption
  extract_lets -merge -useContext -underBinder +onlyGivenNames x5
  refine Keeps.cut (n := 1100393) (s := s) x5 ?_ ?_
  · subst x5
    refine Keeps.step ?_ updFrame_keeps rfl
    assumption
  intro _
  try clear_value x5
  refine Keeps.step ?_ addYield_keeps rfl
  refine Keeps.step ?_ bump_keeps rfl
  assumption

end Sys2Proof.Machine
end

