-- ==== Sys2Proof/Laws/KeepsAttention.lean ====
section
/-! SUPPORT. What the operations of Machine/Attention.lean leave as it was. -/

namespace Sys2Proof.Machine

theorem fetchBytes_keeps {s p addr gen n} :
    Keeps 1 s (fetchBytes s p addr gen n).2 := by
  delta fetchBytes
  refine keeps_ite (fun (x : _ × State) => x.2) ?_ ?_
  · try dsimp -zeta only
    exact Keeps.rfl
  try dsimp -zeta only
  refine Keeps.step ?_ bump_keeps rfl
  exact Keeps.rfl

theorem fetchPage_keeps {s p ci stream sess page bad} :
    Keeps 8591034985 s (fetchPage s p ci stream sess page bad).2 := by
  delta fetchPage
  extract_lets -merge -useContext -underBinder +onlyGivenNames x1
  try clear_value x1
  extract_lets -merge -useContext -underBinder +onlyGivenNames x2
  try clear_value x2
  extract_lets -merge -useContext -underBinder +onlyGivenNames x3
  try clear_value x3
  split
  · split
    · extract_lets -merge -useContext -underBinder +onlyGivenNames x4
      try clear_value x4
      extract_lets -merge -useContext -underBinder +onlyGivenNames x5
      try clear_value x5
      refine keeps_ite (fun (x : _ × State) => x.2) ?_ ?_
      · try dsimp -zeta only
        refine Keeps.step ?_ loseFrame_keeps rfl
        refine Keeps.step ?_ (keeps_p2 (by assumption) translate_keeps) rfl
        refine Keeps.step ?_ (keeps_p2 (by assumption) translate_keeps) rfl
        exact Keeps.rfl
      refine keeps_ite (fun (x : _ × State) => x.2) ?_ ?_
      · try dsimp -zeta only
        refine Keeps.step ?_ loseFrame_keeps rfl
        refine Keeps.step ?_ (keeps_p2 (by assumption) translate_keeps) rfl
        refine Keeps.step ?_ (keeps_p2 (by assumption) translate_keeps) rfl
        exact Keeps.rfl
      extract_lets -merge -useContext -underBinder +onlyGivenNames x6
      refine Keeps.cut (n := 8591034985) (s := s) x6.2 ?_ ?_
      · subst x6
        refine Keeps.step ?_ fetchBytes_keeps rfl
        refine Keeps.step ?_ (keeps_p2 (by assumption) translate_keeps) rfl
        refine Keeps.step ?_ (keeps_p2 (by assumption) translate_keeps) rfl
        exact Keeps.rfl
      intro _
      try clear_value x6
      extract_lets -merge -useContext -underBinder +onlyGivenNames x7
      refine Keeps.cut (n := 8591034985) (s := s) x7.2 ?_ ?_
      · subst x7
        refine Keeps.step ?_ fetchBytes_keeps rfl
        assumption
      intro _
      try clear_value x7
      try dsimp -zeta only
      assumption
    · try dsimp -zeta only
      refine Keeps.step ?_ (keeps_p2 (by assumption) translate_keeps) rfl
      refine Keeps.step ?_ (keeps_p2 (by assumption) translate_keeps) rfl
      exact Keeps.rfl
    · try dsimp -zeta only
      refine Keeps.step ?_ loseFrame_keeps rfl
      refine Keeps.step ?_ (keeps_p2 (by assumption) translate_keeps) rfl
      refine Keeps.step ?_ (keeps_p2 (by assumption) translate_keeps) rfl
      exact Keeps.rfl
    · try dsimp -zeta only
      refine Keeps.step ?_ (keeps_p2 (by assumption) translate_keeps) rfl
      refine Keeps.step ?_ (keeps_p2 (by assumption) translate_keeps) rfl
      exact Keeps.rfl
    try dsimp -zeta only
    refine Keeps.step ?_ (keeps_p2 (by assumption) translate_keeps) rfl
    refine Keeps.step ?_ (keeps_p2 (by assumption) translate_keeps) rfl
    exact Keeps.rfl
  · try dsimp -zeta only
    refine Keeps.step ?_ (keeps_p2 (by assumption) translate_keeps) rfl
    exact Keeps.rfl
  · try dsimp -zeta only
    refine Keeps.step ?_ loseFrame_keeps rfl
    refine Keeps.step ?_ (keeps_p2 (by assumption) translate_keeps) rfl
    exact Keeps.rfl
  · try dsimp -zeta only
    refine Keeps.step ?_ (keeps_p2 (by assumption) translate_keeps) rfl
    exact Keeps.rfl
  try dsimp -zeta only
  refine Keeps.step ?_ (keeps_p2 (by assumption) translate_keeps) rfl
  exact Keeps.rfl

theorem fetchPages_keeps {s p ci stream sess bad l} : Keeps 8591034985 s (fetchPages s p ci stream sess bad l).2 := by
  induction l generalizing s with
  | nil => exact Keeps.rfl
  | cons i r ih =>
    unfold fetchPages
    split
    next h => exact Keeps.step Keeps.rfl (keeps_p2 h fetchPage_keeps) rfl
    next h =>
      have k := keeps_p2 h fetchPage_keeps
      split
      next h2 => exact Keeps.step (k.mono rfl) (keeps_p2 h2 ih) rfl
      next h2 => exact Keeps.step (k.mono rfl) (keeps_p2 h2 ih) rfl

theorem quantFp8_keeps {s ci row} :
    Keeps 33 s (quantFp8 s ci row).2 := by
  delta quantFp8
  extract_lets -merge -useContext -underBinder +onlyGivenNames x1
  refine Keeps.cut (n := 33) (s := s) x1.2 ?_ ?_
  · subst x1
    refine mapSt_keeps ?_ ?_ rfl
    · exact Keeps.rfl
    intro _ _ _
    extract_lets -merge -useContext -underBinder +onlyGivenNames x2
    try clear_value x2
    extract_lets -merge -useContext -underBinder +onlyGivenNames x3
    refine Keeps.cut (n := 33) (s := s) x3.2 ?_ ?_
    · subst x3
      refine mapSt_keeps ?_ ?_ rfl
      · assumption
      intro _ _ _
      refine Keeps.step ?_ convOne_keeps rfl
      assumption
    intro _
    try clear_value x3
    try dsimp -zeta only
    assumption
  intro _
  try clear_value x1
  try dsimp -zeta only
  assumption

theorem scoreOf_keeps {s a q f pos} :
    Keeps 8589934592 s (scoreOf s a q f pos).2 := by
  delta scoreOf
  extract_lets -merge -useContext -underBinder +onlyGivenNames x1
  try clear_value x1
  extract_lets -merge -useContext -underBinder +onlyGivenNames x2
  refine Keeps.cut (n := 8589934592) (s := s) x2.2 ?_ ?_
  · subst x2
    refine Keeps.step ?_ accumulate_keeps rfl
    exact Keeps.rfl
  intro _
  try clear_value x2
  try dsimp -zeta only
  assumption

theorem weightNear_keeps {n m s x} :
    Keeps 8589934592 s (weightNear n m s x).2 := by
  delta weightNear
  refine keeps_ite (fun (x : _ × State) => x.2) ?_ ?_
  · extract_lets -merge -useContext -underBinder +onlyGivenNames x1
    try clear_value x1
    refine Keeps.step ?_ drawNear_keeps rfl
    exact Keeps.rfl
  try dsimp -zeta only
  exact Keeps.rfl

theorem pageStep_keeps {s ci a q p r f} :
    Keeps 8589934625 s (pageStep s ci a q p r f).2 := by
  delta pageStep
  extract_lets -merge -useContext -underBinder +onlyGivenNames x1
  try clear_value x1
  refine keeps_ite (fun (x : _ × State) => x.2) ?_ ?_
  · try dsimp -zeta only
    exact Keeps.rfl
  extract_lets -merge -useContext -underBinder +onlyGivenNames x2
  refine Keeps.cut (n := 8589934625) (s := s) x2.2 ?_ ?_
  · subst x2
    refine mapSt_keeps ?_ ?_ rfl
    · exact Keeps.rfl
    intro _ _ _
    refine Keeps.step ?_ scoreOf_keeps rfl
    assumption
  intro _
  try clear_value x2
  refine keeps_ite (fun (x : _ × State) => x.2) ?_ ?_
  · try dsimp -zeta only
    assumption
  extract_lets -merge -useContext -underBinder +onlyGivenNames x3
  try clear_value x3
  extract_lets -merge -useContext -underBinder +onlyGivenNames x4
  refine Keeps.cut (n := 8589934625) (s := s) x4.2 ?_ ?_
  · subst x4
    refine mapSt_keeps ?_ ?_ rfl
    · assumption
    intro _ _ _
    refine Keeps.step ?_ weightNear_keeps rfl
    assumption
  intro _
  try clear_value x4
  extract_lets -merge -useContext -underBinder +onlyGivenNames x5
  try clear_value x5
  extract_lets -merge -useContext -underBinder +onlyGivenNames x6
  refine Keeps.cut (n := 8589934625) (s := s) x6.2 ?_ ?_
  · subst x6
    refine Keeps.step ?_ quantFp8_keeps rfl
    assumption
  intro _
  try clear_value x6
  extract_lets -merge -useContext -underBinder +onlyGivenNames x7
  try clear_value x7
  extract_lets -merge -useContext -underBinder +onlyGivenNames x8
  refine Keeps.cut (n := 8589934625) (s := s) x8.2 ?_ ?_
  · subst x8
    refine Keeps.step ?_ boundedResult_keeps rfl
    assumption
  intro _
  try clear_value x8
  extract_lets -merge -useContext -underBinder +onlyGivenNames x9
  refine Keeps.cut (n := 8589934625) (s := s) x9.2 ?_ ?_
  · subst x9
    refine mapSt_keeps ?_ ?_ rfl
    · assumption
    intro _ _ _
    extract_lets -merge -useContext -underBinder +onlyGivenNames x10
    try clear_value x10
    extract_lets -merge -useContext -underBinder +onlyGivenNames x11
    try clear_value x11
    refine Keeps.step ?_ boundedResult_keeps rfl
    assumption
  intro _
  try clear_value x9
  try dsimp -zeta only
  assumption

theorem runRow_keeps {s ci a q pages p} :
    Keeps 8589934625 s (runRow s ci a q pages p).2 := by
  delta runRow
  extract_lets -merge -useContext -underBinder +onlyGivenNames x1
  refine Keeps.cut (n := 8589934625) (s := s) x1.2 ?_ ?_
  · subst x1
    refine Keeps.step ?_ quantFp8_keeps rfl
    exact Keeps.rfl
  intro _
  try clear_value x1
  refine keeps_foldl (fun (x : _ × State) => x.2) _ _ ?_ ?_
  · try dsimp -zeta only
    assumption
  intro _ _ _
  refine Keeps.step ?_ pageStep_keeps rfl
  assumption

theorem fullRow_keeps {s ci a q pages p} :
    Keeps 8589934625 s (fullRow s ci a q pages p).2 := by
  delta fullRow
  extract_lets -merge -useContext -underBinder +onlyGivenNames x1
  refine Keeps.cut (n := 8589934625) (s := s) x1.2 ?_ ?_
  · subst x1
    refine Keeps.step ?_ runRow_keeps rfl
    exact Keeps.rfl
  intro _
  try clear_value x1
  refine keeps_ite (fun (x : _ × State) => x.2) ?_ ?_
  · try dsimp -zeta only
    assumption
  refine mapSt_keeps ?_ ?_ rfl
  · assumption
  intro _ _ _
  extract_lets -merge -useContext -underBinder +onlyGivenNames x2
  try clear_value x2
  refine Keeps.step ?_ boundedResult_keeps rfl
  assumption

theorem twoPassRow_keeps {s ci a q pages p} :
    Keeps 8589934625 s (twoPassRow s ci a q pages p).2 := by
  delta twoPassRow
  extract_lets -merge -useContext -underBinder +onlyGivenNames x1
  refine Keeps.cut (n := 8589934625) (s := s) x1.2 ?_ ?_
  · subst x1
    refine Keeps.step ?_ quantFp8_keeps rfl
    exact Keeps.rfl
  intro _
  try clear_value x1
  extract_lets -merge -useContext -underBinder +onlyGivenNames x2
  try clear_value x2
  extract_lets -merge -useContext -underBinder +onlyGivenNames x3
  try clear_value x3
  extract_lets -merge -useContext -underBinder +onlyGivenNames x4
  refine Keeps.cut (n := 8589934625) (s := s) x4.2 ?_ ?_
  · subst x4
    refine mapSt_keeps ?_ ?_ rfl
    · assumption
    intro _ _ _
    refine mapSt_keeps ?_ ?_ rfl
    · assumption
    intro _ _ _
    refine Keeps.step ?_ scoreOf_keeps rfl
    assumption
  intro _
  try clear_value x4
  refine keeps_ite (fun (x : _ × State) => x.2) ?_ ?_
  · extract_lets -merge -useContext -underBinder +onlyGivenNames x5
    try clear_value x5
    try dsimp -zeta only
    assumption
  extract_lets -merge -useContext -underBinder +onlyGivenNames x6
  try clear_value x6
  extract_lets -merge -useContext -underBinder +onlyGivenNames x7
  refine Keeps.cut (n := 8589934625) (s := s) x7.2 ?_ ?_
  · subst x7
    refine mapSt_keeps ?_ ?_ rfl
    · assumption
    intro _ _ _
    refine Keeps.step ?_ weightNear_keeps rfl
    assumption
  intro _
  try clear_value x7
  extract_lets -merge -useContext -underBinder +onlyGivenNames x8
  refine Keeps.cut (n := 8589934625) (s := s) x8.2 ?_ ?_
  · subst x8
    refine Keeps.step ?_ boundedResult_keeps rfl
    assumption
  intro _
  try clear_value x8
  extract_lets -merge -useContext -underBinder +onlyGivenNames x9
  refine Keeps.cut (n := 8589934625) (s := s) x9.2 ?_ ?_
  · subst x9
    refine mapSt_keeps ?_ ?_ rfl
    · assumption
    intro _ _ _
    extract_lets -merge -useContext -underBinder +onlyGivenNames x10
    refine Keeps.cut (n := 8589934625) (s := s) x10.2 ?_ ?_
    · subst x10
      refine mapSt_keeps ?_ ?_ rfl
      · assumption
      intro _ _ _
      extract_lets -merge -useContext -underBinder +onlyGivenNames x11
      try clear_value x11
      extract_lets -merge -useContext -underBinder +onlyGivenNames x12
      try clear_value x12
      extract_lets -merge -useContext -underBinder +onlyGivenNames x13
      refine Keeps.cut (n := 8589934625) (s := s) x13.2 ?_ ?_
      · subst x13
        refine Keeps.step ?_ drawNear_keeps rfl
        assumption
      intro _
      try clear_value x13
      try dsimp -zeta only
      assumption
    intro _
    try clear_value x10
    extract_lets -merge -useContext -underBinder +onlyGivenNames x14
    try clear_value x14
    extract_lets -merge -useContext -underBinder +onlyGivenNames x15
    refine Keeps.cut (n := 8589934625) (s := s) x15.2 ?_ ?_
    · subst x15
      refine Keeps.step ?_ quantFp8_keeps rfl
      assumption
    intro _
    try clear_value x15
    try dsimp -zeta only
    assumption
  intro _
  try clear_value x9
  extract_lets -merge -useContext -underBinder +onlyGivenNames x16
  refine Keeps.cut (n := 8589934625) (s := s) x16.2 ?_ ?_
  · subst x16
    refine mapSt_keeps ?_ ?_ rfl
    · assumption
    intro _ _ _
    extract_lets -merge -useContext -underBinder +onlyGivenNames x17
    try clear_value x17
    refine Keeps.step ?_ boundedResult_keeps rfl
    assumption
  intro _
  try clear_value x16
  try dsimp -zeta only
  assumption

theorem partialRow_keeps {s ci a q pages p} :
    Keeps 8589934625 s (partialRow s ci a q pages p).2 := by
  delta partialRow
  extract_lets -merge -useContext -underBinder +onlyGivenNames x1
  refine Keeps.cut (n := 8589934625) (s := s) x1.2 ?_ ?_
  · subst x1
    refine Keeps.step ?_ runRow_keeps rfl
    exact Keeps.rfl
  intro _
  try clear_value x1
  extract_lets -merge -useContext -underBinder +onlyGivenNames x2
  try clear_value x2
  extract_lets -merge -useContext -underBinder +onlyGivenNames x3
  refine Keeps.cut (n := 8589934625) (s := s) x3.2 ?_ ?_
  · subst x3
    refine keeps_ite (fun (x : _ × State) => x.2) ?_ ?_
    · refine Keeps.step ?_ drawNear_keeps rfl
      assumption
    try dsimp -zeta only
    assumption
  intro _
  try clear_value x3
  try dsimp -zeta only
  assumption

theorem mergeRow_keeps {s a recs} :
    Keeps 8589934592 s (mergeRow s a recs).2 := by
  delta mergeRow
  extract_lets -merge -useContext -underBinder +onlyGivenNames x1
  try clear_value x1
  extract_lets -merge -useContext -underBinder +onlyGivenNames x2
  try clear_value x2
  extract_lets -merge -useContext -underBinder +onlyGivenNames x3
  try clear_value x3
  refine keeps_ite (fun (x : _ × State) => x.2) ?_ ?_
  · try dsimp -zeta only
    exact Keeps.rfl
  split
  · refine mapSt_keeps ?_ ?_ rfl
    · exact Keeps.rfl
    intro _ _ _
    extract_lets -merge -useContext -underBinder +onlyGivenNames x4
    refine Keeps.cut (n := 8589934592) (s := s) x4.2 ?_ ?_
    · subst x4
      refine Keeps.step ?_ drawFree_keeps rfl
      assumption
    intro _
    try clear_value x4
    try dsimp -zeta only
    assumption
  extract_lets -merge -useContext -underBinder +onlyGivenNames x5
  try clear_value x5
  extract_lets -merge -useContext -underBinder +onlyGivenNames x6
  try clear_value x6
  extract_lets -merge -useContext -underBinder +onlyGivenNames x7
  try clear_value x7
  refine mapSt_keeps ?_ ?_ rfl
  · exact Keeps.rfl
  intro _ _ _
  extract_lets -merge -useContext -underBinder +onlyGivenNames x8
  try clear_value x8
  extract_lets -merge -useContext -underBinder +onlyGivenNames x9
  try clear_value x9
  refine Keeps.step ?_ boundedResult_keeps rfl
  assumption

theorem stagePages_keeps {s ci a pages} :
    Keeps 36 s (stagePages s ci a pages) := by
  delta stagePages
  extract_lets -merge -useContext -underBinder +onlyGivenNames x1
  try clear_value x1
  extract_lets -merge -useContext -underBinder +onlyGivenNames x2
  try clear_value x2
  split
  · exact Keeps.rfl
  · refine Keeps.step ?_ writeArea_keeps rfl
    exact Keeps.rfl
  refine keeps_ite (fun x => x) ?_ ?_
  · refine Keeps.step ?_ writeArea_keeps rfl
    exact Keeps.rfl
  refine Keeps.step ?_ writeArea_keeps rfl
  exact Keeps.rfl

theorem fetchLanes_keeps {s p ci a bad l} : Keeps 8591034985 s (fetchLanes s p ci a bad l).2 := by
  induction l generalizing s with
  | nil => exact Keeps.rfl
  | cons i r ih =>
    unfold fetchLanes
    split
    next h => exact Keeps.step Keeps.rfl (keeps_p2 h fetchPages_keeps) rfl
    next h =>
      have k := keeps_p2 h fetchPages_keeps
      split
      next h2 => exact Keeps.step (k.mono rfl) (keeps_p2 h2 ih) rfl
      next h2 => exact Keeps.step (k.mono rfl) (keeps_p2 h2 ih) rfl

theorem effAttnFull_keeps {s p ci idx a bad} :
    Keeps 8591036013 s (effAttnFull s p ci idx a bad) := by
  delta effAttnFull
  extract_lets -merge -useContext -underBinder +onlyGivenNames x1
  try clear_value x1
  refine keeps_ite (fun x => x) ?_ ?_
  · refine Keeps.step ?_ raiseFault_keeps rfl
    refine Keeps.step ?_ recordCore_keeps rfl
    exact Keeps.rfl
  split
  · refine Keeps.step ?_ raiseFault_keeps rfl
    refine Keeps.step ?_ (keeps_p2 (by assumption) fetchLanes_keeps) rfl
    exact Keeps.rfl
  extract_lets -merge -useContext -underBinder +onlyGivenNames x2
  try clear_value x2
  extract_lets -merge -useContext -underBinder +onlyGivenNames x3
  try clear_value x3
  extract_lets -merge -useContext -underBinder +onlyGivenNames x4
  try clear_value x4
  extract_lets -merge -useContext -underBinder +onlyGivenNames x5
  refine Keeps.cut (n := 8591036013) (s := s) x5 ?_ ?_
  · subst x5
    refine Keeps.step ?_ countInvalid_keeps rfl
    refine Keeps.step ?_ (keeps_p2 (by assumption) fetchLanes_keeps) rfl
    exact Keeps.rfl
  intro _
  try clear_value x5
  extract_lets -merge -useContext -underBinder +onlyGivenNames x6
  refine Keeps.cut (n := 8591036013) (s := s) x6.2 ?_ ?_
  · subst x6
    refine mapSt_keeps ?_ ?_ rfl
    · assumption
    intro _ _ _
    refine keeps_ite (fun (x : _ × State) => x.2) ?_ ?_
    · extract_lets -merge -useContext -underBinder +onlyGivenNames x7
      refine Keeps.cut (n := 8591036013) (s := s) x7.2 ?_ ?_
      · subst x7
        refine Keeps.step ?_ twoPassRow_keeps rfl
        assumption
      intro _
      try clear_value x7
      try dsimp -zeta only
      assumption
    extract_lets -merge -useContext -underBinder +onlyGivenNames x8
    refine Keeps.cut (n := 8591036013) (s := s) x8.2 ?_ ?_
    · subst x8
      refine Keeps.step ?_ fullRow_keeps rfl
      assumption
    intro _
    try clear_value x8
    try dsimp -zeta only
    assumption
  intro _
  try clear_value x6
  extract_lets -merge -useContext -underBinder +onlyGivenNames x9
  refine Keeps.cut (n := 8591036013) (s := s) x9 ?_ ?_
  · subst x9
    refine Keeps.step ?_ stagePages_keeps rfl
    assumption
  intro _
  try clear_value x9
  extract_lets -merge -useContext -underBinder +onlyGivenNames x10
  try clear_value x10
  extract_lets -merge -useContext -underBinder +onlyGivenNames x11
  refine Keeps.cut (n := 8591036013) (s := s) x11 ?_ ?_
  · subst x11
    refine keeps_ite (fun x => x) ?_ ?_
    · assumption
    refine Keeps.step ?_ bump_keeps rfl
    assumption
  intro _
  try clear_value x11
  extract_lets -merge -useContext -underBinder +onlyGivenNames x12
  try clear_value x12
  extract_lets -merge -useContext -underBinder +onlyGivenNames x13
  try clear_value x13
  extract_lets -merge -useContext -underBinder +onlyGivenNames x14
  try clear_value x14
  extract_lets -merge -useContext -underBinder +onlyGivenNames x15
  refine Keeps.cut (n := 8591036013) (s := s) x15 ?_ ?_
  · subst x15
    refine keeps_ite (fun x => x) ?_ ?_
    · assumption
    refine Keeps.step ?_ writeArea_keeps rfl
    refine Keeps.step ?_ (keeps_free _ _) rfl
    assumption
  intro _
  try clear_value x15
  refine Keeps.step ?_ storeRows_keeps rfl
  assumption

theorem effAttnPartial_keeps {s p ci a bad} :
    Keeps 8591036013 s (effAttnPartial s p ci a bad) := by
  delta effAttnPartial
  extract_lets -merge -useContext -underBinder +onlyGivenNames x1
  try clear_value x1
  split
  · refine Keeps.step ?_ raiseFault_keeps rfl
    refine Keeps.step ?_ (keeps_p2 (by assumption) fetchLanes_keeps) rfl
    exact Keeps.rfl
  extract_lets -merge -useContext -underBinder +onlyGivenNames x2
  try clear_value x2
  extract_lets -merge -useContext -underBinder +onlyGivenNames x3
  try clear_value x3
  extract_lets -merge -useContext -underBinder +onlyGivenNames x4
  try clear_value x4
  extract_lets -merge -useContext -underBinder +onlyGivenNames x5
  refine Keeps.cut (n := 8591036013) (s := s) x5 ?_ ?_
  · subst x5
    refine Keeps.step ?_ countInvalid_keeps rfl
    refine Keeps.step ?_ (keeps_p2 (by assumption) fetchLanes_keeps) rfl
    exact Keeps.rfl
  intro _
  try clear_value x5
  extract_lets -merge -useContext -underBinder +onlyGivenNames x6
  refine Keeps.cut (n := 8591036013) (s := s) x6.2 ?_ ?_
  · subst x6
    refine mapSt_keeps ?_ ?_ rfl
    · assumption
    intro _ _ _
    refine Keeps.step ?_ partialRow_keeps rfl
    assumption
  intro _
  try clear_value x6
  extract_lets -merge -useContext -underBinder +onlyGivenNames x7
  refine Keeps.cut (n := 8591036013) (s := s) x7 ?_ ?_
  · subst x7
    refine Keeps.step ?_ stagePages_keeps rfl
    assumption
  intro _
  try clear_value x7
  refine Keeps.step ?_ writeRawRows_keeps rfl
  assumption

theorem effAttnMerge_keeps {s ci a} :
    Keeps 8589934629 s (effAttnMerge s ci a) := by
  delta effAttnMerge
  extract_lets -merge -useContext -underBinder +onlyGivenNames x1
  try clear_value x1
  extract_lets -merge -useContext -underBinder +onlyGivenNames x2
  try clear_value x2
  extract_lets -merge -useContext -underBinder +onlyGivenNames x3
  try clear_value x3
  extract_lets -merge -useContext -underBinder +onlyGivenNames x4
  try clear_value x4
  extract_lets -merge -useContext -underBinder +onlyGivenNames x5
  try clear_value x5
  extract_lets -merge -useContext -underBinder +onlyGivenNames x6
  refine Keeps.cut (n := 8589934629) (s := s) x6.2 ?_ ?_
  · subst x6
    refine mapSt_keeps ?_ ?_ rfl
    · exact Keeps.rfl
    intro _ _ _
    refine Keeps.step ?_ mergeRow_keeps rfl
    assumption
  intro _
  try clear_value x6
  refine Keeps.step ?_ storeRows_keeps rfl
  assumption

end Sys2Proof.Machine
end

