-- ==== Sys2Proof/Laws/KeepsDma.lean ====
section
/-! SUPPORT. What the operations of Machine/Dma.lean leave as it was. -/

namespace Sys2Proof.Machine

theorem startTransfer_keeps {s ci far t_} :
    Keeps 1066017 s (startTransfer s ci far t_) := by
  delta startTransfer
  extract_lets -merge -useContext -underBinder +onlyGivenNames x1
  try clear_value x1
  extract_lets -merge -useContext -underBinder +onlyGivenNames x2
  try clear_value x2
  refine keeps_ite (fun x => x) ?_ ?_
  · refine Keeps.step ?_ raiseFault_keeps rfl
    exact Keeps.rfl
  extract_lets -merge -useContext -underBinder +onlyGivenNames x3
  try clear_value x3
  refine Keeps.step ?_ updCore_keeps rfl
  refine Keeps.step ?_ noteDetours_keeps rfl
  exact Keeps.rfl

theorem endTransfer_keeps {s ci t_} :
    Keeps 32 s (endTransfer s ci t_) := by
  delta endTransfer
  refine Keeps.step ?_ updCore_keeps rfl
  exact Keeps.rfl

theorem sessionGran_keeps {s p ci sess va} :
    Keeps 8591034985 s (sessionGran s p ci sess va).2.2 := by
  delta sessionGran
  split
  · refine keeps_ite (fun (x : _ × _ × State) => x.2.2) ?_ ?_
    · try dsimp -zeta only
      try dsimp -zeta only
      refine Keeps.step ?_ (keeps_p2 (by assumption) translate_keeps) rfl
      exact Keeps.rfl
    try dsimp -zeta only
    try dsimp -zeta only
    refine Keeps.step ?_ bump_keeps rfl
    refine Keeps.step ?_ (keeps_p2 (by assumption) translate_keeps) rfl
    exact Keeps.rfl
  · try dsimp -zeta only
    try dsimp -zeta only
    refine Keeps.step ?_ (keeps_p2 (by assumption) translate_keeps) rfl
    exact Keeps.rfl
  · try dsimp -zeta only
    try dsimp -zeta only
    refine Keeps.step ?_ loseFrame_keeps rfl
    refine Keeps.step ?_ (keeps_p2 (by assumption) translate_keeps) rfl
    exact Keeps.rfl
  · try dsimp -zeta only
    try dsimp -zeta only
    refine Keeps.step ?_ (keeps_p2 (by assumption) translate_keeps) rfl
    exact Keeps.rfl
  try dsimp -zeta only
  try dsimp -zeta only
  refine Keeps.step ?_ (keeps_p2 (by assumption) translate_keeps) rfl
  exact Keeps.rfl

theorem sessionRead_keeps {s p ci sess va n} : Keeps 8591034985 s (sessionRead s p ci sess va n).2.2 := by
  induction n generalizing s va with
  | zero => exact Keeps.rfl
  | succ n ih =>
    unfold sessionRead
    split
    next h => exact Keeps.step Keeps.rfl (keeps_p22 h sessionGran_keeps) rfl
    next h => exact Keeps.step (Keeps.step Keeps.rfl (keeps_p22 h sessionGran_keeps) rfl) ih rfl

theorem effDmaLoad_keeps {s p ci a} :
    Keeps 8591036009 s (effDmaLoad s p ci a) := by
  delta effDmaLoad
  extract_lets -merge -useContext -underBinder +onlyGivenNames x1
  try clear_value x1
  extract_lets -merge -useContext -underBinder +onlyGivenNames x2
  try clear_value x2
  extract_lets -merge -useContext -underBinder +onlyGivenNames x3
  try clear_value x3
  extract_lets -merge -useContext -underBinder +onlyGivenNames x4
  try clear_value x4
  split
  · refine keeps_ite (fun x => x) ?_ ?_
    · refine Keeps.step ?_ raiseFault_keeps rfl
      exact Keeps.rfl
    extract_lets -merge -useContext -underBinder +onlyGivenNames x5
    try clear_value x5
    extract_lets -merge -useContext -underBinder +onlyGivenNames x6
    try clear_value x6
    refine Keeps.step ?_ startTransfer_keeps rfl
    exact Keeps.rfl
  · refine keeps_ite (fun x => x) ?_ ?_
    · refine Keeps.step ?_ raiseFault_keeps rfl
      exact Keeps.rfl
    split
    · refine Keeps.step ?_ raiseFault_keeps rfl
      refine Keeps.step ?_ (keeps_p22 (by assumption) sessionRead_keeps) rfl
      exact Keeps.rfl
    refine Keeps.step ?_ startTransfer_keeps rfl
    refine Keeps.step ?_ (keeps_p22 (by assumption) sessionRead_keeps) rfl
    exact Keeps.rfl
  extract_lets -merge -useContext -underBinder +onlyGivenNames x7
  subst x7
  try dsimp -zeta only
  split
  · extract_lets -merge -useContext -underBinder +onlyGivenNames x8
    try clear_value x8
    extract_lets -merge -useContext -underBinder +onlyGivenNames x9
    try clear_value x9
    split
    · refine Keeps.step ?_ raiseFault_keeps rfl
      exact Keeps.rfl
    · refine Keeps.step ?_ startTransfer_keeps rfl
      exact Keeps.rfl
    · extract_lets -merge -useContext -underBinder +onlyGivenNames x10
      try clear_value x10
      refine Keeps.step ?_ startTransfer_keeps rfl
      exact Keeps.rfl
    extract_lets -merge -useContext -underBinder +onlyGivenNames x11
    try clear_value x11
    refine Keeps.step ?_ loseTransfer_keeps rfl
    refine Keeps.step ?_ startTransfer_keeps rfl
    exact Keeps.rfl
  · refine Keeps.step ?_ startTransfer_keeps rfl
    refine Keeps.step ?_ bump_keeps rfl
    exact Keeps.rfl
  · extract_lets -merge -useContext -underBinder +onlyGivenNames x12
    try clear_value x12
    extract_lets -merge -useContext -underBinder +onlyGivenNames x13
    try clear_value x13
    split
    · refine Keeps.step ?_ raiseFault_keeps rfl
      exact Keeps.rfl
    · refine Keeps.step ?_ startTransfer_keeps rfl
      exact Keeps.rfl
    · extract_lets -merge -useContext -underBinder +onlyGivenNames x14
      try clear_value x14
      refine Keeps.step ?_ startTransfer_keeps rfl
      exact Keeps.rfl
    extract_lets -merge -useContext -underBinder +onlyGivenNames x15
    try clear_value x15
    refine Keeps.step ?_ loseTransfer_keeps rfl
    refine Keeps.step ?_ startTransfer_keeps rfl
    exact Keeps.rfl
  refine Keeps.step ?_ raiseFault_keeps rfl
  exact Keeps.rfl

theorem sessionDst_keeps {s p ci sess va tentative} :
    Keeps 8591034985 s (sessionDst s p ci sess va tentative).2.2 := by
  delta sessionDst
  refine keeps_ite (fun (x : _ × _ × State) => x.2.2) ?_ ?_
  · try dsimp -zeta only
    try dsimp -zeta only
    refine Keeps.step ?_ bump_keeps rfl
    exact Keeps.rfl
  split
  · try dsimp -zeta only
    try dsimp -zeta only
    refine Keeps.step ?_ (keeps_p2 (by assumption) translate_keeps) rfl
    exact Keeps.rfl
  · try dsimp -zeta only
    try dsimp -zeta only
    refine Keeps.step ?_ noPages_keeps rfl
    refine Keeps.step ?_ (keeps_p2 (by assumption) translate_keeps) rfl
    exact Keeps.rfl
  · try dsimp -zeta only
    try dsimp -zeta only
    refine Keeps.step ?_ (keeps_p2 (by assumption) translate_keeps) rfl
    exact Keeps.rfl
  · try dsimp -zeta only
    try dsimp -zeta only
    refine Keeps.step ?_ loseFrame_keeps rfl
    refine Keeps.step ?_ (keeps_p2 (by assumption) translate_keeps) rfl
    exact Keeps.rfl
  · try dsimp -zeta only
    try dsimp -zeta only
    refine Keeps.step ?_ (keeps_p2 (by assumption) translate_keeps) rfl
    exact Keeps.rfl
  · try dsimp -zeta only
    try dsimp -zeta only
    refine Keeps.step ?_ (keeps_p2 (by assumption) translate_keeps) rfl
    exact Keeps.rfl
  try dsimp -zeta only
  try dsimp -zeta only
  refine Keeps.step ?_ (keeps_p2 (by assumption) translate_keeps) rfl
  exact Keeps.rfl

theorem sessionWrite_keeps {s p ci sess va tentative l} :
    Keeps 8591034985 s (sessionWrite s p ci sess va tentative l).2.2 := by
  induction l generalizing s va with
  | nil => exact Keeps.rfl
  | cons x r ih =>
    unfold sessionWrite
    split
    next h => exact Keeps.step Keeps.rfl (keeps_p22 h sessionDst_keeps) rfl
    next h => exact Keeps.step (Keeps.step Keeps.rfl (keeps_p22 h sessionDst_keeps) rfl) ih rfl

theorem effDmaStore_keeps {s p ci env a} :
    Keeps 12886003305 s (effDmaStore s p ci env a) := by
  delta effDmaStore
  extract_lets -merge -useContext -underBinder +onlyGivenNames x1
  try clear_value x1
  extract_lets -merge -useContext -underBinder +onlyGivenNames x2
  try clear_value x2
  extract_lets -merge -useContext -underBinder +onlyGivenNames x3
  try clear_value x3
  extract_lets -merge -useContext -underBinder +onlyGivenNames x4
  subst x4
  try dsimp -zeta only
  split
  · extract_lets -merge -useContext -underBinder +onlyGivenNames x5
    try clear_value x5
    refine keeps_ite (fun x => x) ?_ ?_
    · refine Keeps.step ?_ raiseFault_keeps rfl
      exact Keeps.rfl
    refine keeps_ite (fun x => x) ?_ ?_
    · refine Keeps.step ?_ raiseFault_keeps rfl
      exact Keeps.rfl
    refine keeps_ite (fun x => x) ?_ ?_
    · refine Keeps.step ?_ raiseFault_keeps rfl
      exact Keeps.rfl
    refine Keeps.step ?_ startTransfer_keeps rfl
    exact Keeps.rfl
  · refine keeps_ite (fun x => x) ?_ ?_
    · refine Keeps.step ?_ raiseFault_keeps rfl
      exact Keeps.rfl
    split
    · refine Keeps.step ?_ raiseFault_keeps rfl
      refine Keeps.step ?_ (keeps_p22 (by assumption) sessionWrite_keeps) rfl
      exact Keeps.rfl
    extract_lets -merge -useContext -underBinder +onlyGivenNames x6
    refine Keeps.cut (n := 12886003305) (s := s) x6 ?_ ?_
    · subst x6
      refine keeps_ite (fun x => x) ?_ ?_
      · refine Keeps.step ?_ bump_keeps rfl
        refine Keeps.step ?_ emit_keeps rfl
        refine Keeps.step ?_ (keeps_p22 (by assumption) sessionWrite_keeps) rfl
        exact Keeps.rfl
      refine Keeps.step ?_ (keeps_p22 (by assumption) sessionWrite_keeps) rfl
      exact Keeps.rfl
    intro _
    try clear_value x6
    refine Keeps.step ?_ startTransfer_keeps rfl
    assumption
  refine Keeps.step ?_ raiseFault_keeps rfl
  exact Keeps.rfl

theorem effDmaCore_keeps {s p ci env a} :
    Keeps 1066017 s (effDmaCore s p ci env a) := by
  delta effDmaCore
  extract_lets -merge -useContext -underBinder +onlyGivenNames x1
  try clear_value x1
  extract_lets -merge -useContext -underBinder +onlyGivenNames x2
  try clear_value x2
  extract_lets -merge -useContext -underBinder +onlyGivenNames x3
  try clear_value x3
  refine keeps_ite (fun x => x) ?_ ?_
  · refine Keeps.step ?_ raiseFault_keeps rfl
    exact Keeps.rfl
  extract_lets -merge -useContext -underBinder +onlyGivenNames x4
  try clear_value x4
  extract_lets -merge -useContext -underBinder +onlyGivenNames x5
  try clear_value x5
  refine Keeps.step ?_ startTransfer_keeps rfl
  exact Keeps.rfl

theorem effDmaEdgeIn_keeps {s p ci a} :
    Keeps 4296033313 s (effDmaEdgeIn s p ci a) := by
  delta effDmaEdgeIn
  extract_lets -merge -useContext -underBinder +onlyGivenNames x1
  try clear_value x1
  extract_lets -merge -useContext -underBinder +onlyGivenNames x2
  try clear_value x2
  extract_lets -merge -useContext -underBinder +onlyGivenNames x3
  try clear_value x3
  extract_lets -merge -useContext -underBinder +onlyGivenNames x4
  try clear_value x4
  extract_lets -merge -useContext -underBinder +onlyGivenNames x5
  try clear_value x5
  refine keeps_ite (fun x => x) ?_ ?_
  · refine Keeps.step ?_ raiseFault_keeps rfl
    exact Keeps.rfl
  refine keeps_ite (fun x => x) ?_ ?_
  · refine Keeps.step ?_ startTransfer_keeps rfl
    refine Keeps.step ?_ emit_keeps rfl
    exact Keeps.rfl
  refine keeps_ite (fun x => x) ?_ ?_
  · extract_lets -merge -useContext -underBinder +onlyGivenNames x6
    try clear_value x6
    extract_lets -merge -useContext -underBinder +onlyGivenNames x7
    try clear_value x7
    refine Keeps.step ?_ startTransfer_keeps rfl
    exact Keeps.rfl
  refine Keeps.step ?_ raiseFault_keeps rfl
  exact Keeps.rfl

theorem effDmaEdgeOut_keeps {s p ci env a} :
    Keeps 4296033313 s (effDmaEdgeOut s p ci env a) := by
  delta effDmaEdgeOut
  extract_lets -merge -useContext -underBinder +onlyGivenNames x1
  try clear_value x1
  extract_lets -merge -useContext -underBinder +onlyGivenNames x2
  try clear_value x2
  extract_lets -merge -useContext -underBinder +onlyGivenNames x3
  try clear_value x3
  extract_lets -merge -useContext -underBinder +onlyGivenNames x4
  try clear_value x4
  extract_lets -merge -useContext -underBinder +onlyGivenNames x5
  try clear_value x5
  extract_lets -merge -useContext -underBinder +onlyGivenNames x6
  try clear_value x6
  refine keeps_ite (fun x => x) ?_ ?_
  · refine keeps_ite (fun x => x) ?_ ?_
    · refine Keeps.step ?_ raiseFault_keeps rfl
      exact Keeps.rfl
    refine Keeps.step ?_ startTransfer_keeps rfl
    refine Keeps.step ?_ emit_keeps rfl
    exact Keeps.rfl
  refine keeps_ite (fun x => x) ?_ ?_
  · extract_lets -merge -useContext -underBinder +onlyGivenNames x7
    try clear_value x7
    extract_lets -merge -useContext -underBinder +onlyGivenNames x8
    refine Keeps.cut (n := 4296033313) (s := s) x8 ?_ ?_
    · subst x8
      refine Keeps.step ?_ emit_keeps rfl
      exact Keeps.rfl
    intro _
    try clear_value x8
    refine Keeps.step ?_ startTransfer_keeps rfl
    refine Keeps.step ?_ bump_keeps rfl
    assumption
  refine Keeps.step ?_ raiseFault_keeps rfl
  exact Keeps.rfl

theorem fillLine_keeps {s ci key data} :
    Keeps 36 s (fillLine s ci key data) := by
  delta fillLine
  extract_lets -merge -useContext -underBinder +onlyGivenNames x1
  try clear_value x1
  extract_lets -merge -useContext -underBinder +onlyGivenNames x2
  try clear_value x2
  extract_lets -merge -useContext -underBinder +onlyGivenNames x3
  try clear_value x3
  extract_lets -merge -useContext -underBinder +onlyGivenNames x4
  refine Keeps.cut (n := 36) (s := s) x4 ?_ ?_
  · subst x4
    refine Keeps.step ?_ (keeps_scratch _ _ (fun c => memWriteN_wf _ _ c.scratch)) rfl
    exact Keeps.rfl
  intro _
  try clear_value x4
  refine Keeps.step ?_ setCore_keeps rfl
  assumption

theorem fetchLines_keeps {s p ci} :
    Keeps 33 s (fetchLines s p ci) := by
  delta fetchLines
  extract_lets -merge -useContext -underBinder +onlyGivenNames x1
  try clear_value x1
  extract_lets -merge -useContext -underBinder +onlyGivenNames x2
  try clear_value x2
  refine Keeps.step ?_ setCore_keeps rfl
  refine keeps_ite (fun x => x) ?_ ?_
  · exact Keeps.rfl
  refine Keeps.step ?_ bump_keeps rfl
  exact Keeps.rfl

theorem lineError_keeps {s p ci idx set way} :
    Keeps 16417 s (lineError s p ci idx set way) := by
  delta lineError
  extract_lets -merge -useContext -underBinder +onlyGivenNames x1
  try clear_value x1
  refine Keeps.step ?_ recordCore_keeps rfl
  refine Keeps.step ?_ setCore_keeps rfl
  exact Keeps.rfl

theorem servePart_keeps {p env ci idx acc w} : Keeps 16417 acc.1 (servePart p env ci idx acc w).1 := by
  obtain ⟨s, b, l⟩ := acc
  unfold servePart
  dsimp only
  split
  · refine keeps_ite (fun (x : State × _) => x.1) ?_ ?_
    · exact Keeps.step Keeps.rfl lineError_keeps rfl
    · exact Keeps.step (Keeps.step Keeps.rfl setCore_keeps rfl) bump_keeps rfl
  · exact Keeps.rfl

theorem effGather_keeps {s p ci idx env a} :
    Keeps 8591002657 s (effGather s p ci idx env a) := by
  delta effGather
  extract_lets -merge -useContext -underBinder +onlyGivenNames x1
  try clear_value x1
  extract_lets -merge -useContext -underBinder +onlyGivenNames x2
  try clear_value x2
  extract_lets -merge -useContext -underBinder +onlyGivenNames x3
  try clear_value x3
  extract_lets -merge -useContext -underBinder +onlyGivenNames x4
  try clear_value x4
  extract_lets -merge -useContext -underBinder +onlyGivenNames x5
  try clear_value x5
  extract_lets -merge -useContext -underBinder +onlyGivenNames x6
  try clear_value x6
  refine keeps_ite (fun x => x) ?_ ?_
  · refine Keeps.step ?_ startTransfer_keeps rfl
    refine Keeps.step ?_ bump_keeps rfl
    exact Keeps.rfl
  refine keeps_ite (fun x => x) ?_ ?_
  · refine Keeps.step ?_ raiseFault_keeps rfl
    exact Keeps.rfl
  extract_lets -merge -useContext -underBinder +onlyGivenNames x7
  try clear_value x7
  extract_lets -merge -useContext -underBinder +onlyGivenNames x8
  refine Keeps.cut (n := 8591002657) (s := s) x8.1 ?_ ?_
  · subst x8
    refine keeps_foldl (fun (x : (State) × _) => x.1) _ _ ?_ ?_
    · try dsimp -zeta only
      exact Keeps.rfl
    intro _ _ _
    refine Keeps.step ?_ servePart_keeps rfl
    assumption
  intro _
  try clear_value x8
  extract_lets -merge -useContext -underBinder +onlyGivenNames x9
  try clear_value x9
  extract_lets -merge -useContext -underBinder +onlyGivenNames x10
  try clear_value x10
  extract_lets -merge -useContext -underBinder +onlyGivenNames x11
  refine Keeps.cut (n := 8591002657) (s := s) x11 ?_ ?_
  · subst x11
    refine Keeps.step ?_ startTransfer_keeps rfl
    assumption
  intro _
  try clear_value x11
  refine keeps_ite (fun x => x) ?_ ?_
  · refine Keeps.step ?_ loseTransfer_keeps rfl
    assumption
  refine Keeps.step ?_ fetchLines_keeps rfl
  assumption

theorem effCacheFill_keeps {s ci index parity} :
    Keeps 8589954085 s (effCacheFill s ci index parity) := by
  delta effCacheFill
  split
  · split
    · refine keeps_ite (fun x => x) ?_ ?_
      · extract_lets -merge -useContext -underBinder +onlyGivenNames x1
        try clear_value x1
        refine Keeps.step ?_ bump_keeps rfl
        refine Keeps.step ?_ lineError_keeps rfl
        exact Keeps.rfl
      extract_lets -merge -useContext -underBinder +onlyGivenNames x2
      try clear_value x2
      extract_lets -merge -useContext -underBinder +onlyGivenNames x3
      try clear_value x3
      extract_lets -merge -useContext -underBinder +onlyGivenNames x4
      refine Keeps.cut (n := 8589954085) (s := s) x4 ?_ ?_
      · subst x4
        refine keeps_ite (fun x => x) ?_ ?_
        · refine Keeps.step ?_ fillLine_keeps rfl
          exact Keeps.rfl
        exact Keeps.rfl
      intro _
      try clear_value x4
      refine Keeps.step ?_ fetchLines_keeps rfl
      refine Keeps.step ?_ updCore_keeps rfl
      assumption
    · exact Keeps.rfl
    extract_lets -merge -useContext -underBinder +onlyGivenNames x5
    try clear_value x5
    extract_lets -merge -useContext -underBinder +onlyGivenNames x6
    refine Keeps.cut (n := 8589954085) (s := s) x6 ?_ ?_
    · subst x6
      refine Keeps.step ?_ updCore_keeps rfl
      exact Keeps.rfl
    intro _
    try clear_value x6
    refine Keeps.step ?_ fetchLines_keeps rfl
    refine keeps_foldl (fun x => x) _ _ ?_ ?_
    · assumption
    intro _ _ _
    refine Keeps.step ?_ loseTransfer_keeps rfl
    assumption
  exact Keeps.rfl

theorem invalidateCache_keeps {s ci} :
    Keeps 32 s (invalidateCache s ci) := by
  delta invalidateCache
  refine Keeps.step ?_ updCore_keeps rfl
  exact Keeps.rfl

theorem writeStackGran_keeps {s addr data bad} :
    Keeps 24 s (writeStackGran s addr data bad) := by
  delta writeStackGran
  refine Keeps.step ?_ (keeps_stack_stackPoison _ _ _ (fun c => memWriteN_wf _ _ c.stack)) rfl
  exact Keeps.rfl

theorem landData_keeps {s p t_ data} :
    Keeps 17469 s (landData s p t_ data) := by
  delta landData
  refine keeps_foldl (fun x => x) _ _ ?_ ?_
  · exact Keeps.rfl
  intro _ _ _
  refine keeps_ite (fun x => x) ?_ ?_
  · extract_lets -merge -useContext -underBinder +onlyGivenNames x1
    try clear_value x1
    refine keeps_ite (fun x => x) ?_ ?_
    · refine Keeps.step ?_ raiseFault_keeps rfl
      assumption
    extract_lets -merge -useContext -underBinder +onlyGivenNames x2
    refine Keeps.cut (n := 17469) (s := s) x2 ?_ ?_
    · subst x2
      refine Keeps.step ?_ writeGranule_keeps rfl
      assumption
    intro _
    try clear_value x2
    refine keeps_ite (fun x => x) ?_ ?_
    · refine Keeps.step ?_ updCore_keeps rfl
      assumption
    assumption
  split
  · refine keeps_ite (fun x => x) ?_ ?_
    · refine Keeps.step ?_ writeStackGran_keeps rfl
      assumption
    refine Keeps.step ?_ bump_keeps rfl
    assumption
  refine Keeps.step ?_ writeStackGran_keeps rfl
  assumption

theorem badPieces_keeps {s bad t_} :
    Keeps 32 s (badPieces s bad t_) := by
  delta badPieces
  refine keeps_foldl (fun x => x) _ _ ?_ ?_
  · exact Keeps.rfl
  intro _ _ _
  split
  · refine Keeps.step ?_ updCore_keeps rfl
    assumption
  assumption

theorem countCorrected_keeps {s t_ l} :
    Keeps 262145 s (countCorrected s t_ l) := by
  delta countCorrected
  refine keeps_foldl (fun x => x) _ _ ?_ ?_
  · exact Keeps.rfl
  intro _ _ _
  refine keeps_ite (fun x => x) ?_ ?_
  · refine Keeps.step ?_ bump_keeps rfl
    assumption
  split
  · refine Keeps.step ?_ updBlk_keeps rfl
    assumption
  assumption

theorem effXferDone_keeps {s ci index fin hostData} :
    Keeps 12885249085 s (effXferDone s ci index fin hostData) := by
  delta effXferDone
  split
  · exact Keeps.rfl
  refine keeps_ite (fun x => x) ?_ ?_
  · exact Keeps.rfl
  extract_lets -merge -useContext -underBinder +onlyGivenNames x1
  try clear_value x1
  extract_lets -merge -useContext -underBinder +onlyGivenNames x2
  try clear_value x2
  refine keeps_ite (fun x => x) ?_ ?_
  · refine keeps_ite (fun x => x) ?_ ?_
    · refine Keeps.step ?_ raiseFault_keeps rfl
      refine Keeps.step ?_ endTransfer_keeps rfl
      exact Keeps.rfl
    refine keeps_ite (fun x => x) ?_ ?_
    · refine Keeps.step ?_ endTransfer_keeps rfl
      refine Keeps.step ?_ badPieces_keeps rfl
      refine Keeps.step ?_ bump_keeps rfl
      exact Keeps.rfl
    refine Keeps.step ?_ endTransfer_keeps rfl
    exact Keeps.rfl
  extract_lets -merge -useContext -underBinder +onlyGivenNames x3
  refine Keeps.cut (n := 12885249085) (s := s) x3 ?_ ?_
  · subst x3
    refine Keeps.step ?_ landData_keeps rfl
    exact Keeps.rfl
  intro _
  try clear_value x3
  extract_lets -merge -useContext -underBinder +onlyGivenNames x4
  refine Keeps.cut (n := 12885249085) (s := s) x4 ?_ ?_
  · subst x4
    refine keeps_ite (fun x => x) ?_ ?_
    · refine Keeps.step ?_ badPieces_keeps rfl
      assumption
    assumption
  intro _
  try clear_value x4
  extract_lets -merge -useContext -underBinder +onlyGivenNames x5
  refine Keeps.cut (n := 12885249085) (s := s) x5 ?_ ?_
  · subst x5
    refine Keeps.step ?_ countCorrected_keeps rfl
    assumption
  intro _
  try clear_value x5
  extract_lets -merge -useContext -underBinder +onlyGivenNames x6
  refine Keeps.cut (n := 12885249085) (s := s) x6 ?_ ?_
  · subst x6
    refine keeps_foldl (fun x => x) _ _ ?_ ?_
    · assumption
    intro _ _ _
    refine Keeps.step ?_ quarantine_keeps rfl
    assumption
  intro _
  try clear_value x6
  refine Keeps.step ?_ endTransfer_keeps rfl
  assumption

theorem effBankOff_keeps {s ci mask} :
    Keeps 32 s (effBankOff s ci mask) := by
  delta effBankOff
  refine Keeps.step ?_ updCore_keeps rfl
  exact Keeps.rfl

theorem effBankOn_keeps {s ci mask} :
    Keeps 32 s (effBankOn s ci mask) := by
  delta effBankOn
  refine Keeps.step ?_ updCore_keeps rfl
  exact Keeps.rfl

theorem effBankUp_keeps {s ci b} :
    Keeps 36 s (effBankUp s ci b) := by
  delta effBankUp
  extract_lets -merge -useContext -underBinder +onlyGivenNames x1
  try clear_value x1
  refine keeps_ite (fun x => x) ?_ ?_
  · exact Keeps.rfl
  extract_lets -merge -useContext -underBinder +onlyGivenNames x2
  try clear_value x2
  extract_lets -merge -useContext -underBinder +onlyGivenNames x3
  refine Keeps.cut (n := 36) (s := s) x3 ?_ ?_
  · subst x3
    refine Keeps.step ?_ (keeps_scratch _ _ (fun c => memZero_wf _ _ c.scratch)) rfl
    exact Keeps.rfl
  intro _
  try clear_value x3
  refine Keeps.step ?_ setCore_keeps rfl
  assumption

theorem effBankSwitchOff_keeps {s ci b} :
    Keeps 36 s (effBankSwitchOff s ci b) := by
  delta effBankSwitchOff
  extract_lets -merge -useContext -underBinder +onlyGivenNames x1
  try clear_value x1
  refine keeps_ite (fun x => x) ?_ ?_
  · exact Keeps.rfl
  extract_lets -merge -useContext -underBinder +onlyGivenNames x2
  try clear_value x2
  refine Keeps.step ?_ setCore_keeps rfl
  refine Keeps.step ?_ (keeps_scratch _ _ (fun c => memZero_wf _ _ c.scratch)) rfl
  exact Keeps.rfl

theorem lateWrite_keeps {s issuers bank} :
    Keeps 16385 s (lateWrite s issuers bank) := by
  delta lateWrite
  refine keeps_foldl (fun (x : _ × State) => x.2) _ _ ?_ ?_
  · try dsimp -zeta only
    exact Keeps.rfl
  intro _ _ _
  split
  · refine keeps_ite (fun (x : _ × State) => x.2) ?_ ?_
    · assumption
    try dsimp -zeta only
    refine Keeps.step ?_ recordCore_keeps rfl
    refine Keeps.step ?_ bump_keeps rfl
    assumption
  assumption

end Sys2Proof.Machine
end

