-- ==== Sys2Proof/Laws/KeepsIssue.lean ====
section
/-! SUPPORT. What the operations of Machine/Issue.lean leave as it was. -/

namespace Sys2Proof.Machine

theorem markStall_keeps {s ci x} :
    Keeps 32 s (markStall s ci x) := by
  delta markStall
  refine Keeps.step ?_ updCore_keeps rfl
  exact Keeps.rfl

theorem arriveAt_keeps {s p ci form a} :
    Keeps 17441 s (arriveAt s p ci form a) := by
  delta arriveAt
  extract_lets -merge -useContext -underBinder +onlyGivenNames x1
  try clear_value x1
  extract_lets -merge -useContext -underBinder +onlyGivenNames x2
  try clear_value x2
  refine keeps_ite (fun x => x) ?_ ?_
  · refine Keeps.step ?_ raiseFault_keeps rfl
    exact Keeps.rfl
  extract_lets -merge -useContext -underBinder +onlyGivenNames x3
  refine Keeps.cut (n := 17441) (s := s) x3 ?_ ?_
  · subst x3
    refine Keeps.step ?_ setPart_keeps rfl
    exact Keeps.rfl
  intro _
  try clear_value x3
  refine Keeps.step ?_ updCore_keeps rfl
  assumption

theorem waitAt_keeps {s ci a} :
    Keeps 32 s (waitAt s ci a) := by
  delta waitAt
  refine Keeps.step ?_ updCore_keeps rfl
  exact Keeps.rfl

theorem cmdEffect_keeps {s p ci idx w} :
    Keeps 12886003693 s (cmdEffect s p ci idx w) := by
  delta cmdEffect
  split
  · exact Keeps.rfl
  · refine Keeps.step ?_ updCore_keeps rfl
    exact Keeps.rfl
  · refine keeps_ite (fun x => x) ?_ ?_
    · refine Keeps.step ?_ waitAt_keeps rfl
      exact Keeps.rfl
    refine Keeps.step ?_ arriveAt_keeps rfl
    exact Keeps.rfl
  · exact Keeps.rfl
  · refine Keeps.step ?_ effBankOn_keeps rfl
    exact Keeps.rfl
  · refine Keeps.step ?_ effBankOff_keeps rfl
    exact Keeps.rfl
  · refine Keeps.step ?_ effMma_keeps rfl
    exact Keeps.rfl
  · refine Keeps.step ?_ effArrMvm_keeps rfl
    exact Keeps.rfl
  · refine Keeps.step ?_ effArrWrite_keeps rfl
    exact Keeps.rfl
  · refine keeps_ite (fun x => x) ?_ ?_
    · refine Keeps.step ?_ effAttnFull_keeps rfl
      exact Keeps.rfl
    refine keeps_ite (fun x => x) ?_ ?_
    · refine Keeps.step ?_ effAttnPartial_keeps rfl
      exact Keeps.rfl
    refine Keeps.step ?_ effAttnMerge_keeps rfl
    exact Keeps.rfl
  · refine Keeps.step ?_ effVec_keeps rfl
    exact Keeps.rfl
  · refine Keeps.step ?_ effDmaLoad_keeps rfl
    exact Keeps.rfl
  · refine Keeps.step ?_ effDmaStore_keeps rfl
    exact Keeps.rfl
  · refine Keeps.step ?_ effDmaCore_keeps rfl
    exact Keeps.rfl
  · refine Keeps.step ?_ effDmaEdgeIn_keeps rfl
    exact Keeps.rfl
  · refine Keeps.step ?_ effDmaEdgeOut_keeps rfl
    exact Keeps.rfl
  · exact Keeps.rfl
  · refine Keeps.step ?_ effGather_keeps rfl
    exact Keeps.rfl
  refine Keeps.step ?_ invalidateCache_keeps rfl
  exact Keeps.rfl

theorem setCredit_keeps {s ci f n} :
    Keeps 64 s (setCredit s ci f n) := by
  delta setCredit
  refine Keeps.step ?_ updCluster_keeps rfl
  exact Keeps.rfl

theorem enqueue_keeps {s p ci w firstId} :
    Keeps 96 s (enqueue s p ci w firstId) := by
  delta enqueue
  extract_lets -merge -useContext -underBinder +onlyGivenNames x1
  refine Keeps.cut (n := 96) (s := s) x1 ?_ ?_
  · subst x1
    split
    · refine keeps_ite (fun x => x) ?_ ?_
      · exact Keeps.rfl
      refine Keeps.step ?_ setCredit_keeps rfl
      exact Keeps.rfl
    exact Keeps.rfl
  intro _
  try clear_value x1
  split
  · assumption
  extract_lets -merge -useContext -underBinder +onlyGivenNames x2
  refine Keeps.cut (n := 96) (s := s) x2 ?_ ?_
  · subst x2
    refine Keeps.step ?_ updCore_keeps rfl
    assumption
  intro _
  try clear_value x2
  refine keeps_ite (fun x => x) ?_ ?_
  · refine Keeps.step ?_ markStall_keeps rfl
    assumption
  assumption

theorem advance_keeps {s ci} :
    Keeps 32 s (advance s ci) := by
  delta advance
  extract_lets -merge -useContext -underBinder +onlyGivenNames x1
  try clear_value x1
  refine Keeps.step ?_ updCore_keeps rfl
  exact Keeps.rfl

theorem issueCmd_keeps {s p ci w} :
    Keeps 12886003693 s (issueCmd s p ci w) := by
  delta issueCmd
  extract_lets -merge -useContext -underBinder +onlyGivenNames x1
  try clear_value x1
  extract_lets -merge -useContext -underBinder +onlyGivenNames x2
  refine Keeps.cut (n := 12886003693) (s := s) x2 ?_ ?_
  · subst x2
    refine Keeps.step ?_ advance_keeps rfl
    exact Keeps.rfl
  intro _
  try clear_value x2
  extract_lets -merge -useContext -underBinder +onlyGivenNames x3
  try clear_value x3
  refine keeps_ite (fun x => x) ?_ ?_
  · refine Keeps.step ?_ bump_keeps rfl
    assumption
  refine keeps_ite (fun x => x) ?_ ?_
  · refine Keeps.step ?_ raiseFault_keeps rfl
    assumption
  extract_lets -merge -useContext -underBinder +onlyGivenNames x4
  refine Keeps.cut (n := 12886003693) (s := s) x4 ?_ ?_
  · subst x4
    refine Keeps.step ?_ commandErrors_keeps rfl
    assumption
  intro _
  try clear_value x4
  extract_lets -merge -useContext -underBinder +onlyGivenNames x5
  try clear_value x5
  extract_lets -merge -useContext -underBinder +onlyGivenNames x6
  refine Keeps.cut (n := 12886003693) (s := s) x6 ?_ ?_
  · subst x6
    refine Keeps.step ?_ enqueue_keeps rfl
    refine Keeps.step ?_ cmdEffect_keeps rfl
    assumption
  intro _
  try clear_value x6
  split
  · refine Keeps.step ?_ updCore_keeps rfl
    assumption
  assumption

theorem skipCmd_keeps {s ci} :
    Keeps 32 s (skipCmd s ci) := by
  delta skipCmd
  refine Keeps.step ?_ advance_keeps rfl
  refine Keeps.step ?_ updCore_keeps rfl
  exact Keeps.rfl

theorem passCheck_keeps {s ci a} :
    Keeps 32 s (passCheck s ci a) := by
  delta passCheck
  refine Keeps.step ?_ skipBlock_keeps rfl
  refine Keeps.step ?_ advance_keeps rfl
  exact Keeps.rfl

theorem holdOverdraw_keeps {s p ci w rest} :
    Keeps 97 s (holdOverdraw s p ci w rest) := by
  delta holdOverdraw
  split
  · exact Keeps.rfl
  extract_lets -merge -useContext -underBinder +onlyGivenNames x1
  try clear_value x1
  extract_lets -merge -useContext -underBinder +onlyGivenNames x2
  refine Keeps.cut (n := 97) (s := s) x2 ?_ ?_
  · subst x2
    refine keeps_ite (fun x => x) ?_ ?_
    · exact Keeps.rfl
    refine Keeps.step ?_ bump_keeps rfl
    refine Keeps.step ?_ bump_keeps rfl
    exact Keeps.rfl
  intro _
  try clear_value x2
  extract_lets -merge -useContext -underBinder +onlyGivenNames x3
  refine Keeps.cut (n := 97) (s := s) x3 ?_ ?_
  · subst x3
    refine Keeps.step ?_ markStall_keeps rfl
    refine Keeps.step ?_ setCredit_keeps rfl
    assumption
  intro _
  try clear_value x3
  refine Keeps.step ?_ updCore_keeps rfl
  assumption

theorem drain_keeps {p ci n s} : Keeps 12886003693 s (drain p ci n s) := by
  induction n generalizing s with
  | zero => exact Keeps.rfl
  | succ n ih =>
    unfold drain
    dsimp only
    split
    · exact Keeps.rfl
    refine keeps_ite (fun x => x) (Keeps.step Keeps.rfl markStall_keeps rfl) ?_
    refine keeps_ite (fun x => x) ?_ ?_
    · exact Keeps.step (Keeps.step (Keeps.step Keeps.rfl updCore_keeps rfl) skipCmd_keeps rfl) ih rfl
    split
    · exact Keeps.step (Keeps.step (Keeps.step Keeps.rfl updCore_keeps rfl) passCheck_keeps rfl) ih rfl
    refine keeps_ite (fun x => x) (Keeps.step Keeps.rfl markStall_keeps rfl) ?_
    refine keeps_ite (fun x => x) (Keeps.step Keeps.rfl holdOverdraw_keeps rfl) ?_
    exact Keeps.step (Keeps.step (Keeps.step Keeps.rfl updCore_keeps rfl) issueCmd_keeps rfl) ih rfl

theorem resume_keeps {s ci} :
    Keeps 12886003693 s (resume s ci) := by
  delta resume
  split
  · refine keeps_ite (fun x => x) ?_ ?_
    · refine Keeps.step ?_ drain_keeps rfl
      exact Keeps.rfl
    exact Keeps.rfl
  exact Keeps.rfl

theorem coreCmd_keeps {s ci w} :
    Keeps 12886003693 s (coreCmd s ci w) := by
  delta coreCmd
  split
  · refine keeps_ite (fun x => x) ?_ ?_
    · refine Keeps.step ?_ resume_keeps rfl
      refine Keeps.step ?_ updCore_keeps rfl
      exact Keeps.rfl
    exact Keeps.rfl
  exact Keeps.rfl

theorem effEngineDone_keeps {s ci e progParity} :
    Keeps 32 s (effEngineDone s ci e progParity) := by
  delta effEngineDone
  extract_lets -merge -useContext -underBinder +onlyGivenNames x1
  try clear_value x1
  extract_lets -merge -useContext -underBinder +onlyGivenNames x2
  try clear_value x2
  refine keeps_ite (fun x => x) ?_ ?_
  · refine Keeps.step ?_ setCore_keeps rfl
    exact Keeps.rfl
  extract_lets -merge -useContext -underBinder +onlyGivenNames x3
  try clear_value x3
  extract_lets -merge -useContext -underBinder +onlyGivenNames x4
  try clear_value x4
  refine Keeps.step ?_ setCore_keeps rfl
  exact Keeps.rfl

theorem effStreamed_keeps {s ci progParity} :
    Keeps 32 s (effStreamed s ci progParity) := by
  delta effStreamed
  refine Keeps.step ?_ updCore_keeps rfl
  exact Keeps.rfl

end Sys2Proof.Machine
end

