-- ==== Sys2Proof/Laws/KeepsSessions.lean ====
section
/-! SUPPORT. What the operations of Machine/Sessions.lean leave as it was. -/

namespace Sys2Proof.Machine

theorem doneCmd_keeps {s sess c status reason flags ending} :
    Keeps 12288 s (doneCmd s sess c status reason flags ending) := by
  delta doneCmd
  refine Keeps.step ?_ complete_keeps rfl
  exact Keeps.rfl

theorem dropCmd_keeps {s sess c} :
    Keeps 2048 s (dropCmd s sess c) := by
  delta dropCmd
  refine Keeps.step ?_ updSess_keeps rfl
  exact Keeps.rfl

theorem settleState_keeps {s sess} :
    Keeps 2048 s (settleState s sess) := by
  delta settleState
  refine Keeps.step ?_ updSess_keeps rfl
  exact Keeps.rfl

theorem finishCmd_keeps {s sess c status reason} :
    Keeps 14336 s (finishCmd s sess c status reason) := by
  delta finishCmd
  refine Keeps.step ?_ settleState_keeps rfl
  refine Keeps.step ?_ dropCmd_keeps rfl
  refine Keeps.step ?_ doneCmd_keeps rfl
  exact Keeps.rfl

theorem takeUndispatched_keeps {s l} :
    Keeps 4096 s (takeUndispatched s l) := by
  delta takeUndispatched
  refine keeps_foldl (fun x => x) _ _ ?_ ?_
  · exact Keeps.rfl
  intro _ _ _
  refine Keeps.step ?_ updSub_keeps rfl
  assumption

theorem endCompletions_keeps {s sess status byCancel} :
    Keeps 12288 s (endCompletions s sess status byCancel) := by
  delta endCompletions
  extract_lets -merge -useContext -underBinder +onlyGivenNames x1
  try clear_value x1
  extract_lets -merge -useContext -underBinder +onlyGivenNames x2
  try clear_value x2
  extract_lets -merge -useContext -underBinder +onlyGivenNames x3
  try clear_value x3
  extract_lets -merge -useContext -underBinder +onlyGivenNames x4
  try clear_value x4
  extract_lets -merge -useContext -underBinder +onlyGivenNames x5
  refine Keeps.cut (n := 12288) (s := s) x5 ?_ ?_
  · subst x5
    refine Keeps.step ?_ takeUndispatched_keeps rfl
    exact Keeps.rfl
  intro _
  try clear_value x5
  extract_lets -merge -useContext -underBinder +onlyGivenNames x6
  try clear_value x6
  extract_lets -merge -useContext -underBinder +onlyGivenNames x7
  try clear_value x7
  extract_lets -merge -useContext -underBinder +onlyGivenNames x8
  refine Keeps.cut (n := 12288) (s := s) x8 ?_ ?_
  · subst x8
    refine keeps_foldl (fun x => x) _ _ ?_ ?_
    · assumption
    intro _ _ _
    extract_lets -merge -useContext -underBinder +onlyGivenNames x9
    try clear_value x9
    refine Keeps.step ?_ doneCmd_keeps rfl
    assumption
  intro _
  try clear_value x8
  split
  · refine Keeps.step ?_ complete_keeps rfl
    assumption
  refine keeps_ite (fun x => x) ?_ ?_
  · refine Keeps.step ?_ completeUnsolicited_keeps rfl
    assumption
  assumption

theorem dropChildren_keeps {s sess} :
    Keeps 2048 s (dropChildren s sess) := by
  delta dropChildren
  refine keeps_foldl (fun x => x) _ _ ?_ ?_
  · exact Keeps.rfl
  intro _ _ _
  refine Keeps.step ?_ setSess_keeps rfl
  assumption

theorem dropReserved_keeps {s sess} :
    Keeps 2560 s (dropReserved s sess) := by
  delta dropReserved
  extract_lets -merge -useContext -underBinder +onlyGivenNames x1
  refine Keeps.cut (n := 2560) (s := s) x1 ?_ ?_
  · subst x1
    refine keeps_foldl (fun x => x) _ _ ?_ ?_
    · exact Keeps.rfl
    intro _ _ _
    refine Keeps.step ?_ updFrame_keeps rfl
    assumption
  intro _
  try clear_value x1
  refine Keeps.step ?_ updSess_keeps rfl
  assumption

theorem cutLane_keeps {s sess} :
    Keeps 1024 s (cutLane s sess) := by
  delta cutLane
  extract_lets -merge -useContext -underBinder +onlyGivenNames x1
  try clear_value x1
  refine keeps_ite (fun x => x) ?_ ?_
  · refine Keeps.step ?_ updPart_keeps rfl
    exact Keeps.rfl
  exact Keeps.rfl

theorem retireSession_keeps {s sess} :
    Keeps 3648 s (retireSession s sess) := by
  delta retireSession
  extract_lets -merge -useContext -underBinder +onlyGivenNames x1
  refine Keeps.cut (n := 3648) (s := s) x1 ?_ ?_
  · subst x1
    refine Keeps.step ?_ cutLane_keeps rfl
    refine Keeps.step ?_ dropReserved_keeps rfl
    exact Keeps.rfl
  intro _
  try clear_value x1
  extract_lets -merge -useContext -underBinder +onlyGivenNames x2
  refine Keeps.cut (n := 3648) (s := s) x2 ?_ ?_
  · subst x2
    refine Keeps.step ?_ dropChildren_keeps rfl
    refine Keeps.step ?_ freeSessionPages_keeps rfl
    assumption
  intro _
  try clear_value x2
  refine Keeps.step ?_ updSess_keeps rfl
  assumption

theorem endSession_keeps {s sess status byCancel} :
    Keeps 15936 s (endSession s sess status byCancel) := by
  delta endSession
  extract_lets -merge -useContext -underBinder +onlyGivenNames x1
  try clear_value x1
  refine keeps_ite (fun x => x) ?_ ?_
  · exact Keeps.rfl
  refine Keeps.step ?_ retireSession_keeps rfl
  refine Keeps.step ?_ endCompletions_keeps rfl
  exact Keeps.rfl

theorem releasePorts_keeps {s} :
    Keeps 8404993 s (releasePorts s) := by
  delta releasePorts
  refine keeps_foldl (fun x => x) _ _ ?_ ?_
  · exact Keeps.rfl
  intro _ _ _
  refine keeps_ite (fun x => x) ?_ ?_
  · extract_lets -merge -useContext -underBinder +onlyGivenNames x1
    refine Keeps.cut (n := 8404993) (s := s) x1 ?_ ?_
    · subst x1
      refine Keeps.step ?_ recordEvent_keeps rfl
      assumption
    intro _
    try clear_value x1
    refine Keeps.step ?_ updPort_keeps rfl
    assumption
  assumption

theorem dropSession_keeps {s sess} :
    Keeps 8474177 s (dropSession s sess) := by
  delta dropSession
  extract_lets -merge -useContext -underBinder +onlyGivenNames x1
  try clear_value x1
  refine keeps_ite (fun x => x) ?_ ?_
  · exact Keeps.rfl
  extract_lets -merge -useContext -underBinder +onlyGivenNames x2
  refine Keeps.cut (n := 8474177) (s := s) x2 ?_ ?_
  · subst x2
    refine Keeps.step ?_ freeSessionPages_keeps rfl
    refine Keeps.step ?_ cutLane_keeps rfl
    refine Keeps.step ?_ dropReserved_keeps rfl
    exact Keeps.rfl
  intro _
  try clear_value x2
  refine Keeps.step ?_ releasePorts_keeps rfl
  refine Keeps.step ?_ dropUnowned_keeps rfl
  refine Keeps.step ?_ setSess_keeps rfl
  refine Keeps.step ?_ dropChildren_keeps rfl
  assumption

theorem clearSession_keeps {s sess} :
    Keeps 8472577 s (clearSession s sess) := by
  delta clearSession
  extract_lets -merge -useContext -underBinder +onlyGivenNames x1
  try clear_value x1
  refine keeps_ite (fun x => x) ?_ ?_
  · refine Keeps.step ?_ releasePorts_keeps rfl
    refine Keeps.step ?_ dropUnowned_keeps rfl
    refine Keeps.step ?_ setSess_keeps rfl
    exact Keeps.rfl
  exact Keeps.rfl

theorem startEvict_keeps {s sess c} :
    Keeps 4294981632 s (startEvict s sess c) := by
  delta startEvict
  extract_lets -merge -useContext -underBinder +onlyGivenNames x1
  try clear_value x1
  extract_lets -merge -useContext -underBinder +onlyGivenNames x2
  try clear_value x2
  extract_lets -merge -useContext -underBinder +onlyGivenNames x3
  try clear_value x3
  extract_lets -merge -useContext -underBinder +onlyGivenNames x4
  try clear_value x4
  refine keeps_ite (fun x => x) ?_ ?_
  · refine Keeps.step ?_ finishCmd_keeps rfl
    exact Keeps.rfl
  extract_lets -merge -useContext -underBinder +onlyGivenNames x5
  try clear_value x5
  extract_lets -merge -useContext -underBinder +onlyGivenNames x6
  try clear_value x6
  extract_lets -merge -useContext -underBinder +onlyGivenNames x7
  try clear_value x7
  extract_lets -merge -useContext -underBinder +onlyGivenNames x8
  try clear_value x8
  extract_lets -merge -useContext -underBinder +onlyGivenNames x9
  try clear_value x9
  extract_lets -merge -useContext -underBinder +onlyGivenNames x10
  refine Keeps.cut (n := 4294981632) (s := s) x10 ?_ ?_
  · subst x10
    refine keeps_foldl (fun x => x) _ _ ?_ ?_
    · exact Keeps.rfl
    intro _ _ _
    refine Keeps.step ?_ emit_keeps rfl
    assumption
  intro _
  try clear_value x10
  refine Keeps.step ?_ updSess_keeps rfl
  assumption

theorem finishPaging_keeps {s sess status moved} :
    Keeps 14336 s (finishPaging s sess status moved) := by
  delta finishPaging
  split
  · exact Keeps.rfl
  extract_lets -merge -useContext -underBinder +onlyGivenNames x1
  refine Keeps.cut (n := 14336) (s := s) x1 ?_ ?_
  · subst x1
    refine Keeps.step ?_ complete_keeps rfl
    exact Keeps.rfl
  intro _
  try clear_value x1
  refine Keeps.step ?_ settleState_keeps rfl
  refine Keeps.step ?_ dropCmd_keeps rfl
  assumption

theorem evictEntries_keeps {s p sess} :
    Keeps 584 s (evictEntries s p sess) := by
  delta evictEntries
  extract_lets -merge -useContext -underBinder +onlyGivenNames x1
  try clear_value x1
  extract_lets -merge -useContext -underBinder +onlyGivenNames x2
  try clear_value x2
  extract_lets -merge -useContext -underBinder +onlyGivenNames x3
  refine Keeps.cut (n := 584) (s := s) x3 ?_ ?_
  · subst x3
    refine keeps_foldl (fun x => x) _ _ ?_ ?_
    · exact Keeps.rfl
    intro _ _ _
    extract_lets -merge -useContext -underBinder +onlyGivenNames x4
    try clear_value x4
    refine Keeps.step ?_ writeEntry_keeps rfl
    refine Keeps.step ?_ dropFrame_keeps rfl
    assumption
  intro _
  try clear_value x3
  extract_lets -merge -useContext -underBinder +onlyGivenNames x5
  try clear_value x5
  extract_lets -merge -useContext -underBinder +onlyGivenNames x6
  refine Keeps.cut (n := 584) (s := s) x6 ?_ ?_
  · subst x6
    refine keeps_foldl (fun x => x) _ _ ?_ ?_
    · assumption
    intro _ _ _
    extract_lets -merge -useContext -underBinder +onlyGivenNames x7
    try clear_value x7
    refine keeps_ite (fun x => x) ?_ ?_
    · refine Keeps.step ?_ writeEntry_keeps rfl
      refine Keeps.step ?_ dropFrame_keeps rfl
      assumption
    assumption
  intro _
  try clear_value x6
  refine Keeps.step ?_ tlbDropSession_keeps rfl
  assumption

theorem effEvictDone_keeps {s sess ok} :
    Keeps 14921 s (effEvictDone s sess ok) := by
  delta effEvictDone
  extract_lets -merge -useContext -underBinder +onlyGivenNames x1
  try clear_value x1
  refine keeps_ite (fun x => x) ?_ ?_
  · exact Keeps.rfl
  refine keeps_ite (fun x => x) ?_ ?_
  · extract_lets -merge -useContext -underBinder +onlyGivenNames x2
    try clear_value x2
    extract_lets -merge -useContext -underBinder +onlyGivenNames x3
    refine Keeps.cut (n := 14921) (s := s) x3 ?_ ?_
    · subst x3
      refine Keeps.step ?_ updSess_keeps rfl
      refine Keeps.step ?_ evictEntries_keeps rfl
      exact Keeps.rfl
    intro _
    try clear_value x3
    extract_lets -merge -useContext -underBinder +onlyGivenNames x4
    refine Keeps.cut (n := 14921) (s := s) x4 ?_ ?_
    · subst x4
      refine Keeps.step ?_ bump_keeps rfl
      assumption
    intro _
    try clear_value x4
    refine Keeps.step ?_ finishPaging_keeps rfl
    assumption
  extract_lets -merge -useContext -underBinder +onlyGivenNames x5
  refine Keeps.cut (n := 14921) (s := s) x5 ?_ ?_
  · subst x5
    refine Keeps.step ?_ updSess_keeps rfl
    exact Keeps.rfl
  intro _
  try clear_value x5
  refine Keeps.step ?_ finishPaging_keeps rfl
  assumption

theorem reserveFrames_keeps {s sess blocks} :
    Keeps 8589937152 s (reserveFrames s sess blocks) := by
  delta reserveFrames
  refine keeps_foldl (fun x => x) _ _ ?_ ?_
  · exact Keeps.rfl
  intro _ _ _
  extract_lets -merge -useContext -underBinder +onlyGivenNames x1
  refine Keeps.cut (n := 8589937152) (s := s) x1.2 ?_ ?_
  · subst x1
    refine Keeps.step ?_ pickFrame_keeps rfl
    assumption
  intro _
  try clear_value x1
  extract_lets -merge -useContext -underBinder +onlyGivenNames x2
  refine Keeps.cut (n := 8589937152) (s := s) x2 ?_ ?_
  · subst x2
    refine Keeps.step ?_ updFrame_keeps rfl
    assumption
  intro _
  try clear_value x2
  refine Keeps.step ?_ updSess_keeps rfl
  assumption

theorem startRestore_keeps {s sess c} :
    Keeps 12884916736 s (startRestore s sess c) := by
  delta startRestore
  extract_lets -merge -useContext -underBinder +onlyGivenNames x1
  try clear_value x1
  refine keeps_ite (fun x => x) ?_ ?_
  · extract_lets -merge -useContext -underBinder +onlyGivenNames x2
    try clear_value x2
    extract_lets -merge -useContext -underBinder +onlyGivenNames x3
    try clear_value x3
    extract_lets -merge -useContext -underBinder +onlyGivenNames x4
    try clear_value x4
    extract_lets -merge -useContext -underBinder +onlyGivenNames x5
    refine Keeps.cut (n := 12884916736) (s := s) x5 ?_ ?_
    · subst x5
      refine keeps_foldl (fun x => x) _ _ ?_ ?_
      · exact Keeps.rfl
      intro _ _ _
      refine Keeps.step ?_ emit_keeps rfl
      assumption
    intro _
    try clear_value x5
    refine Keeps.step ?_ updSess_keeps rfl
    refine Keeps.step ?_ reserveFrames_keeps rfl
    assumption
  refine Keeps.step ?_ finishCmd_keeps rfl
  exact Keeps.rfl

theorem takeReserved_keeps {s p sess b} :
    Keeps 2561 s (takeReserved s p sess b).2 := by
  delta takeReserved
  split
  · try dsimp -zeta only
    exact Keeps.rfl
  extract_lets -merge -useContext -underBinder +onlyGivenNames x1
  refine Keeps.cut (n := 2561) (s := s) x1 ?_ ?_
  · subst x1
    refine Keeps.step ?_ updSess_keeps rfl
    exact Keeps.rfl
  intro _
  try clear_value x1
  try dsimp -zeta only
  refine Keeps.step ?_ bump_keeps rfl
  refine Keeps.step ?_ takeFrame_keeps rfl
  assumption

theorem restoreTable_keeps {s p sess t_} :
    Keeps 2569 s (restoreTable s p sess t_) := by
  delta restoreTable
  extract_lets -merge -useContext -underBinder +onlyGivenNames x1
  try clear_value x1
  split
  · refine Keeps.step ?_ (keeps_p2 (by assumption) takeReserved_keeps) rfl
    exact Keeps.rfl
  extract_lets -merge -useContext -underBinder +onlyGivenNames x2
  refine Keeps.cut (n := 2569) (s := s) x2 ?_ ?_
  · subst x2
    refine Keeps.step ?_ (keeps_stack _ _ (fun c => memZero_wf _ _ c.stack)) rfl
    refine Keeps.step ?_ (keeps_p2 (by assumption) takeReserved_keeps) rfl
    exact Keeps.rfl
  intro _
  try clear_value x2
  extract_lets -merge -useContext -underBinder +onlyGivenNames x3
  refine Keeps.cut (n := 2569) (s := s) x3 ?_ ?_
  · subst x3
    refine Keeps.step ?_ writeEntry_keeps rfl
    assumption
  intro _
  try clear_value x3
  refine keeps_foldl (fun x => x) _ _ ?_ ?_
  · assumption
  intro _ _ _
  split
  · refine Keeps.step ?_ (keeps_p2 (by assumption) takeReserved_keeps) rfl
    assumption
  extract_lets -merge -useContext -underBinder +onlyGivenNames x4
  refine Keeps.cut (n := 2569) (s := s) x4 ?_ ?_
  · subst x4
    refine Keeps.step ?_ (keeps_stack _ _ (fun c => memWriteN_wf _ _ c.stack)) rfl
    refine Keeps.step ?_ (keeps_p2 (by assumption) takeReserved_keeps) rfl
    assumption
  intro _
  try clear_value x4
  extract_lets -merge -useContext -underBinder +onlyGivenNames x5
  try clear_value x5
  refine Keeps.step ?_ writeEntry_keeps rfl
  assumption

theorem effRestoreDone_keeps {s sess fin} :
    Keeps 15945 s (effRestoreDone s sess fin) := by
  delta effRestoreDone
  extract_lets -merge -useContext -underBinder +onlyGivenNames x1
  try clear_value x1
  refine keeps_ite (fun x => x) ?_ ?_
  · exact Keeps.rfl
  split
  · refine Keeps.step ?_ finishPaging_keeps rfl
    refine Keeps.step ?_ updSess_keeps rfl
    refine Keeps.step ?_ dropReserved_keeps rfl
    exact Keeps.rfl
  · refine Keeps.step ?_ endSession_keeps rfl
    refine Keeps.step ?_ dropReserved_keeps rfl
    exact Keeps.rfl
  extract_lets -merge -useContext -underBinder +onlyGivenNames x2
  try clear_value x2
  extract_lets -merge -useContext -underBinder +onlyGivenNames x3
  refine Keeps.cut (n := 15945) (s := s) x3 ?_ ?_
  · subst x3
    refine keeps_foldl (fun x => x) _ _ ?_ ?_
    · exact Keeps.rfl
    intro _ _ _
    refine Keeps.step ?_ restoreTable_keeps rfl
    assumption
  intro _
  try clear_value x3
  extract_lets -merge -useContext -underBinder +onlyGivenNames x4
  refine Keeps.cut (n := 15945) (s := s) x4 ?_ ?_
  · subst x4
    refine Keeps.step ?_ updSess_keeps rfl
    assumption
  intro _
  try clear_value x4
  extract_lets -merge -useContext -underBinder +onlyGivenNames x5
  refine Keeps.cut (n := 15945) (s := s) x5 ?_ ?_
  · subst x5
    refine Keeps.step ?_ bump_keeps rfl
    assumption
  intro _
  try clear_value x5
  refine Keeps.step ?_ settleState_keeps rfl
  refine Keeps.step ?_ finishPaging_keeps rfl
  assumption

theorem stopPaging_keeps {s sess} :
    Keeps 14848 s (stopPaging s sess) := by
  delta stopPaging
  split
  · exact Keeps.rfl
  extract_lets -merge -useContext -underBinder +onlyGivenNames x1
  refine Keeps.cut (n := 14848) (s := s) x1 ?_ ?_
  · subst x1
    refine Keeps.step ?_ finishPaging_keeps rfl
    refine Keeps.step ?_ dropReserved_keeps rfl
    exact Keeps.rfl
  intro _
  try clear_value x1
  refine Keeps.step ?_ updSess_keeps rfl
  assumption

end Sys2Proof.Machine
end

