-- ==== Sys2Proof/Laws/KeepsPairOps.lean ====
section
/-! SUPPORT. What the operations of Machine/PairOps.lean leave as it was. -/

namespace Sys2Proof.Machine

theorem setPairState_keeps {s n sessions} :
    Keeps 16385 s (setPairState s n sessions) := by
  delta setPairState
  extract_lets -merge -useContext -underBinder +onlyGivenNames x1
  try clear_value x1
  refine Keeps.step ?_ recordEvent_keeps rfl
  refine Keeps.step ?_ odSet_keeps rfl
  exact Keeps.rfl

theorem sendFrame_keeps {s code payload} :
    Keeps 4294967296 s (sendFrame s code payload) := by
  delta sendFrame
  refine Keeps.step ?_ emit_keeps rfl
  exact Keeps.rfl

theorem hostOut_keeps {s mirrored port addr data} :
    Keeps 4299161600 s (hostOut s mirrored port addr data) := by
  delta hostOut
  refine keeps_ite (fun x => x) ?_ ?_
  · refine Keeps.step ?_ (keeps_pair _ _) rfl
    exact Keeps.rfl
  refine Keeps.step ?_ emit_keeps rfl
  exact Keeps.rfl

theorem sendShadow_keeps {s b} :
    Keeps 4299161600 s (sendShadow s b) := by
  delta sendShadow
  extract_lets -merge -useContext -underBinder +onlyGivenNames x1
  try clear_value x1
  extract_lets -merge -useContext -underBinder +onlyGivenNames x2
  try clear_value x2
  refine Keeps.step ?_ emit_keeps rfl
  refine Keeps.step ?_ (keeps_pair _ _) rfl
  exact Keeps.rfl

theorem dropUnacked_keeps {s sess} :
    Keeps 2048 s (dropUnacked s sess) := by
  delta dropUnacked
  extract_lets -merge -useContext -underBinder +onlyGivenNames x1
  try clear_value x1
  extract_lets -merge -useContext -underBinder +onlyGivenNames x2
  try clear_value x2
  refine Keeps.step ?_ setSess_keeps rfl
  exact Keeps.rfl

theorem unmirror_keeps {s sess} :
    Keeps 2048 s (unmirror s sess) := by
  delta unmirror
  refine Keeps.step ?_ updSess_keeps rfl
  exact Keeps.rfl

theorem applyLoss_keeps {s l} :
    Keeps 32321 s (applyLoss s l) := by
  delta applyLoss
  refine keeps_ite (fun x => x) ?_ ?_
  · exact Keeps.rfl
  extract_lets -merge -useContext -underBinder +onlyGivenNames x1
  try clear_value x1
  extract_lets -merge -useContext -underBinder +onlyGivenNames x2
  refine Keeps.cut (n := 32321) (s := s) x2 ?_ ?_
  · subst x2
    refine keeps_foldl (fun x => x) _ _ ?_ ?_
    · exact Keeps.rfl
    intro _ _ _
    refine keeps_ite (fun x => x) ?_ ?_
    · refine Keeps.step ?_ endSession_keeps rfl
      refine Keeps.step ?_ dropUnacked_keeps rfl
      assumption
    refine Keeps.step ?_ unmirror_keeps rfl
    assumption
  intro _
  try clear_value x2
  refine Keeps.step ?_ recordEvent_keeps rfl
  refine Keeps.step ?_ bump_keeps rfl
  assumption

theorem loseMap_keeps {s l} :
    Keeps 32321 s (loseMap s l) := by
  delta loseMap
  refine keeps_ite (fun x => x) ?_ ?_
  · exact Keeps.rfl
  extract_lets -merge -useContext -underBinder +onlyGivenNames x1
  try clear_value x1
  extract_lets -merge -useContext -underBinder +onlyGivenNames x2
  refine Keeps.cut (n := 32321) (s := s) x2 ?_ ?_
  · subst x2
    refine keeps_foldl (fun x => x) _ _ ?_ ?_
    · exact Keeps.rfl
    intro _ _ _
    refine keeps_ite (fun x => x) ?_ ?_
    · refine Keeps.step ?_ endSession_keeps rfl
      assumption
    refine Keeps.step ?_ updSess_keeps rfl
    assumption
  intro _
  try clear_value x2
  refine Keeps.step ?_ recordEvent_keeps rfl
  refine Keeps.step ?_ bump_keeps rfl
  assumption

theorem recheckMap_keeps {s p} :
    Keeps 4194304 s (recheckMap s p) := by
  delta recheckMap
  refine keeps_ite (fun x => x) ?_ ?_
  · exact Keeps.rfl
  extract_lets -merge -useContext -underBinder +onlyGivenNames x1
  try clear_value x1
  extract_lets -merge -useContext -underBinder +onlyGivenNames x2
  try clear_value x2
  refine Keeps.step ?_ (keeps_pair _ _) rfl
  exact Keeps.rfl

theorem twinFlipped_keeps {s p} :
    Keeps 4194304 s (twinFlipped s p) := by
  delta twinFlipped
  extract_lets -merge -useContext -underBinder +onlyGivenNames x1
  try clear_value x1
  refine Keeps.step ?_ (keeps_pair _ _) rfl
  exact Keeps.rfl

end Sys2Proof.Machine
end

