-- ==== Sys2Proof/Laws/KeepsStarter.lean ====
section
/-! SUPPORT. What the operations of Machine/Starter.lean leave as it was. -/

namespace Sys2Proof.Machine

theorem askSlot_keeps {s sess slot} :
    Keeps 4294967296 s (askSlot s sess slot) := by
  delta askSlot
  extract_lets -merge -useContext -underBinder +onlyGivenNames x1
  try clear_value x1
  split
  · refine Keeps.step ?_ emit_keeps rfl
    exact Keeps.rfl
  exact Keeps.rfl

theorem askBitmaps_keeps {s sess} :
    Keeps 4294967296 s (askBitmaps s sess) := by
  delta askBitmaps
  extract_lets -merge -useContext -underBinder +onlyGivenNames x1
  try clear_value x1
  split
  · exact Keeps.rfl
  refine keeps_ite (fun x => x) ?_ ?_
  · exact Keeps.rfl
  extract_lets -merge -useContext -underBinder +onlyGivenNames x2
  try clear_value x2
  refine keeps_foldl (fun x => x) _ _ ?_ ?_
  · exact Keeps.rfl
  intro _ _ _
  extract_lets -merge -useContext -underBinder +onlyGivenNames x3
  try clear_value x3
  extract_lets -merge -useContext -underBinder +onlyGivenNames x4
  try clear_value x4
  refine keeps_ite (fun x => x) ?_ ?_
  · assumption
  refine Keeps.step ?_ askSlot_keeps rfl
  assumption

theorem askTokens_keeps {s sess n} :
    Keeps 4294967296 s (askTokens s sess n) := by
  delta askTokens
  extract_lets -merge -useContext -underBinder +onlyGivenNames x1
  try clear_value x1
  refine keeps_foldl (fun x => x) _ _ ?_ ?_
  · exact Keeps.rfl
  intro _ _ _
  refine Keeps.step ?_ emit_keeps rfl
  assumption

theorem prepLane_keeps {s p l} :
    Keeps 4294969344 s (prepLane s p l) := by
  delta prepLane
  extract_lets -merge -useContext -underBinder +onlyGivenNames x1
  try clear_value x1
  split
  · exact Keeps.rfl
  · extract_lets -merge -useContext -underBinder +onlyGivenNames x2
    try clear_value x2
    extract_lets -merge -useContext -underBinder +onlyGivenNames x3
    try clear_value x3
    extract_lets -merge -useContext -underBinder +onlyGivenNames x4
    try clear_value x4
    extract_lets -merge -useContext -underBinder +onlyGivenNames x5
    refine Keeps.cut (n := 4294969344) (s := s) x5 ?_ ?_
    · subst x5
      refine Keeps.step ?_ updSess_keeps rfl
      exact Keeps.rfl
    intro _
    try clear_value x5
    refine keeps_ite (fun x => x) ?_ ?_
    · assumption
    refine Keeps.step ?_ askTokens_keeps rfl
    assumption
  · refine Keeps.step ?_ updSess_keeps rfl
    exact Keeps.rfl
  refine Keeps.step ?_ updSess_keeps rfl
  exact Keeps.rfl

theorem holdOnly_keeps {s p} :
    Keeps 4294969344 s (holdOnly s p) := by
  delta holdOnly
  refine keeps_foldl (fun x => x) _ _ ?_ ?_
  · exact Keeps.rfl
  intro _ _ _
  extract_lets -merge -useContext -underBinder +onlyGivenNames x1
  try clear_value x1
  refine keeps_ite (fun x => x) ?_ ?_
  · refine Keeps.step ?_ askTokens_keeps rfl
    refine Keeps.step ?_ updSess_keeps rfl
    assumption
  assumption

theorem stampWait_keeps {s p sess} :
    Keeps 3072 s (stampWait s p sess) := by
  delta stampWait
  extract_lets -merge -useContext -underBinder +onlyGivenNames x1
  try clear_value x1
  refine Keeps.step ?_ updSess_keeps rfl
  refine Keeps.step ?_ updPart_keeps rfl
  exact Keeps.rfl

theorem reshare_keeps {s p} :
    Keeps 1024 s (reshare s p) := by
  delta reshare
  split
  · refine Keeps.step ?_ updPart_keeps rfl
    exact Keeps.rfl
  exact Keeps.rfl

theorem buildLanes_keeps {s p} :
    Keeps 4294970369 s (buildLanes s p) := by
  delta buildLanes
  extract_lets -merge -useContext -underBinder +onlyGivenNames x1
  try clear_value x1
  extract_lets -merge -useContext -underBinder +onlyGivenNames x2
  try clear_value x2
  extract_lets -merge -useContext -underBinder +onlyGivenNames x3
  try clear_value x3
  extract_lets -merge -useContext -underBinder +onlyGivenNames x4
  refine Keeps.cut (n := 4294970369) (s := s) x4 ?_ ?_
  · subst x4
    refine keeps_foldl (fun x => x) _ _ ?_ ?_
    · exact Keeps.rfl
    intro _ _ _
    refine Keeps.step ?_ stampWait_keeps rfl
    assumption
  intro _
  try clear_value x4
  extract_lets -merge -useContext -underBinder +onlyGivenNames x5
  try clear_value x5
  extract_lets -merge -useContext -underBinder +onlyGivenNames x6
  refine Keeps.cut (n := 4294970369) (s := s) x6 ?_ ?_
  · subst x6
    refine Keeps.step ?_ reshare_keeps rfl
    refine Keeps.step ?_ updPart_keeps rfl
    assumption
  intro _
  try clear_value x6
  extract_lets -merge -useContext -underBinder +onlyGivenNames x7
  refine Keeps.cut (n := 4294970369) (s := s) x7 ?_ ?_
  · subst x7
    refine keeps_foldl (fun x => x) _ _ ?_ ?_
    · assumption
    intro _ _ _
    refine Keeps.step ?_ updSess_keeps rfl
    assumption
  intro _
  try clear_value x7
  extract_lets -merge -useContext -underBinder +onlyGivenNames x8
  refine Keeps.cut (n := 4294970369) (s := s) x8 ?_ ?_
  · subst x8
    refine keeps_foldl (fun x => x) _ _ ?_ ?_
    · assumption
    intro _ _ _
    refine Keeps.step ?_ prepLane_keeps rfl
    assumption
  intro _
  try clear_value x8
  extract_lets -merge -useContext -underBinder +onlyGivenNames x9
  refine Keeps.cut (n := 4294970369) (s := s) x9 ?_ ?_
  · subst x9
    refine Keeps.step ?_ holdOnly_keeps rfl
    assumption
  intro _
  try clear_value x9
  extract_lets -merge -useContext -underBinder +onlyGivenNames x10
  refine Keeps.cut (n := 4294970369) (s := s) x10 ?_ ?_
  · subst x10
    refine keeps_foldl (fun x => x) _ _ ?_ ?_
    · assumption
    intro _ _ _
    refine Keeps.step ?_ askBitmaps_keeps rfl
    assumption
  intro _
  try clear_value x10
  extract_lets -merge -useContext -underBinder +onlyGivenNames x11
  refine Keeps.cut (n := 4294970369) (s := s) x11 ?_ ?_
  · subst x11
    refine Keeps.step ?_ odSet_keeps rfl
    assumption
  intro _
  try clear_value x11
  refine Keeps.step ?_ odSet_keeps rfl
  assumption

theorem finishPrompts_keeps {s sess} :
    Keeps 14336 s (finishPrompts s sess) := by
  delta finishPrompts
  refine keeps_foldl (fun x => x) _ _ ?_ ?_
  · exact Keeps.rfl
  intro _ _ _
  refine Keeps.step ?_ finishCmd_keeps rfl
  assumption

theorem endPrompt_keeps {s sess status} :
    Keeps 14336 s (endPrompt s sess status) := by
  delta endPrompt
  split
  · refine Keeps.step ?_ finishCmd_keeps rfl
    exact Keeps.rfl
  exact Keeps.rfl

theorem updLane_keeps {s p i f} :
    Keeps 1024 s (updLane s p i f) := by
  delta updLane
  refine Keeps.step ?_ updPart_keeps rfl
  exact Keeps.rfl

theorem promptRead_keeps {s sess l' failed} :
    Keeps 15360 s (promptRead s sess l' failed) := by
  delta promptRead
  extract_lets -merge -useContext -underBinder +onlyGivenNames x1
  try clear_value x1
  extract_lets -merge -useContext -underBinder +onlyGivenNames x2
  try clear_value x2
  extract_lets -merge -useContext -underBinder +onlyGivenNames x3
  try clear_value x3
  split
  · refine keeps_ite (fun x => x) ?_ ?_
    · exact Keeps.rfl
    split
    · refine keeps_ite (fun x => x) ?_ ?_
      · refine Keeps.step ?_ finishPrompts_keeps rfl
        refine Keeps.step ?_ updSess_keeps rfl
        exact Keeps.rfl
      refine Keeps.step ?_ endPrompt_keeps rfl
      refine Keeps.step ?_ updSess_keeps rfl
      exact Keeps.rfl
    refine Keeps.step ?_ endPrompt_keeps rfl
    refine Keeps.step ?_ updSess_keeps rfl
    exact Keeps.rfl
  refine keeps_ite (fun x => x) ?_ ?_
  · exact Keeps.rfl
  refine keeps_ite (fun x => x) ?_ ?_
  · extract_lets -merge -useContext -underBinder +onlyGivenNames x4
    refine Keeps.cut (n := 15360) (s := s) x4 ?_ ?_
    · subst x4
      refine Keeps.step ?_ updLane_keeps rfl
      exact Keeps.rfl
    intro _
    try clear_value x4
    extract_lets -merge -useContext -underBinder +onlyGivenNames x5
    refine Keeps.cut (n := 15360) (s := s) x5 ?_ ?_
    · subst x5
      refine Keeps.step ?_ updSess_keeps rfl
      assumption
    intro _
    try clear_value x5
    split
    · refine Keeps.step ?_ finishCmd_keeps rfl
      assumption
    refine Keeps.step ?_ endPrompt_keeps rfl
    assumption
  extract_lets -merge -useContext -underBinder +onlyGivenNames x6
  try clear_value x6
  refine keeps_ite (fun x => x) ?_ ?_
  · extract_lets -merge -useContext -underBinder +onlyGivenNames x7
    try clear_value x7
    extract_lets -merge -useContext -underBinder +onlyGivenNames x8
    try clear_value x8
    refine Keeps.step ?_ updSess_keeps rfl
    exact Keeps.rfl
  extract_lets -merge -useContext -underBinder +onlyGivenNames x9
  try clear_value x9
  extract_lets -merge -useContext -underBinder +onlyGivenNames x10
  try clear_value x10
  extract_lets -merge -useContext -underBinder +onlyGivenNames x11
  try clear_value x11
  extract_lets -merge -useContext -underBinder +onlyGivenNames x12
  try clear_value x12
  extract_lets -merge -useContext -underBinder +onlyGivenNames x13
  refine Keeps.cut (n := 15360) (s := s) x13 ?_ ?_
  · subst x13
    refine Keeps.step ?_ updSess_keeps rfl
    exact Keeps.rfl
  intro _
  try clear_value x13
  extract_lets -merge -useContext -underBinder +onlyGivenNames x14
  try clear_value x14
  refine keeps_ite (fun x => x) ?_ ?_
  · extract_lets -merge -useContext -underBinder +onlyGivenNames x15
    refine Keeps.cut (n := 15360) (s := s) x15 ?_ ?_
    · subst x15
      refine Keeps.step ?_ updLane_keeps rfl
      assumption
    intro _
    try clear_value x15
    refine Keeps.step ?_ endPrompt_keeps rfl
    refine Keeps.step ?_ updSess_keeps rfl
    assumption
  refine keeps_ite (fun x => x) ?_ ?_
  · extract_lets -merge -useContext -underBinder +onlyGivenNames x16
    refine Keeps.cut (n := 15360) (s := s) x16 ?_ ?_
    · subst x16
      refine Keeps.step ?_ updLane_keeps rfl
      assumption
    intro _
    try clear_value x16
    extract_lets -merge -useContext -underBinder +onlyGivenNames x17
    refine Keeps.cut (n := 15360) (s := s) x17 ?_ ?_
    · subst x17
      refine Keeps.step ?_ updSess_keeps rfl
      assumption
    intro _
    try clear_value x17
    refine Keeps.step ?_ endPrompt_keeps rfl
    refine Keeps.step ?_ finishPrompts_keeps rfl
    assumption
  refine Keeps.step ?_ updLane_keeps rfl
  assumption

theorem biasListRead_keeps {s sess r} :
    Keeps 14337 s (biasListRead s sess r) := by
  delta biasListRead
  extract_lets -merge -useContext -underBinder +onlyGivenNames x1
  try clear_value x1
  extract_lets -merge -useContext -underBinder +onlyGivenNames x2
  try clear_value x2
  split
  · exact Keeps.rfl
  split
  · refine Keeps.step ?_ updSess_keeps rfl
    exact Keeps.rfl
  refine Keeps.step ?_ finishCmd_keeps rfl
  refine Keeps.step ?_ bump_keeps rfl
  exact Keeps.rfl

theorem effHostRead_keeps {s sess r} :
    Keeps 15361 s (effHostRead s sess r) := by
  delta effHostRead
  refine keeps_ite (fun x => x) ?_ ?_
  · exact Keeps.rfl
  split
  · extract_lets -merge -useContext -underBinder +onlyGivenNames x1
    refine Keeps.cut (n := 15361) (s := s) x1 ?_ ?_
    · subst x1
      refine Keeps.step ?_ promptRead_keeps rfl
      refine keeps_ite (fun x => x) ?_ ?_
      · refine Keeps.step ?_ bump_keeps rfl
        exact Keeps.rfl
      exact Keeps.rfl
    intro _
    try clear_value x1
    refine keeps_ite (fun x => x) ?_ ?_
    · assumption
    refine Keeps.step ?_ reshare_keeps rfl
    assumption
  refine Keeps.step ?_ biasListRead_keeps rfl
  exact Keeps.rfl

end Sys2Proof.Machine
end

