-- ==== Sys2Proof/Laws/KeepsHurdles.lean ====
section
/-! SUPPORT. What the operations of Machine/Hurdles.lean leave as it was. -/

namespace Sys2Proof.Machine

theorem sendJob_keeps {s p k} :
    Keeps 4294967296 s (sendJob s p k) := by
  delta sendJob
  refine Keeps.step ?_ emit_keeps rfl
  exact Keeps.rfl

theorem applyVectors_keeps {s p} :
    Keeps 262208 s (applyVectors s p) := by
  delta applyVectors
  extract_lets -merge -useContext -underBinder +onlyGivenNames x1
  try clear_value x1
  extract_lets -merge -useContext -underBinder +onlyGivenNames x2
  try clear_value x2
  extract_lets -merge -useContext -underBinder +onlyGivenNames x3
  try clear_value x3
  extract_lets -merge -useContext -underBinder +onlyGivenNames x4
  refine Keeps.cut (n := 262208) (s := s) x4 ?_ ?_
  · subst x4
    refine keeps_foldl (fun x => x) _ _ ?_ ?_
    · exact Keeps.rfl
    intro _ _ _
    refine Keeps.step ?_ updBlk_keeps rfl
    assumption
  intro _
  try clear_value x4
  refine keeps_foldl (fun x => x) _ _ ?_ ?_
  · assumption
  intro _ _ _
  extract_lets -merge -useContext -underBinder +onlyGivenNames x5
  try clear_value x5
  refine Keeps.step ?_ updCluster_keeps rfl
  assumption

theorem phaseChange_keeps {s p phase} :
    Keeps 1311808 s (phaseChange s p phase) := by
  delta phaseChange
  extract_lets -merge -useContext -underBinder +onlyGivenNames x1
  try clear_value x1
  extract_lets -merge -useContext -underBinder +onlyGivenNames x2
  refine Keeps.cut (n := 1311808) (s := s) x2 ?_ ?_
  · subst x2
    refine keeps_foldl (fun x => x) _ _ ?_ ?_
    · exact Keeps.rfl
    intro _ _ _
    refine Keeps.step ?_ updBlk_keeps rfl
    assumption
  intro _
  try clear_value x2
  extract_lets -merge -useContext -underBinder +onlyGivenNames x3
  refine Keeps.cut (n := 1311808) (s := s) x3 ?_ ?_
  · subst x3
    refine Keeps.step ?_ applyVectors_keeps rfl
    refine Keeps.step ?_ updPart_keeps rfl
    assumption
  intro _
  try clear_value x3
  extract_lets -merge -useContext -underBinder +onlyGivenNames x4
  refine Keeps.cut (n := 1311808) (s := s) x4 ?_ ?_
  · subst x4
    refine keeps_foldl (fun x => x) _ _ ?_ ?_
    · assumption
    intro _ _ _
    refine Keeps.step ?_ updCluster_keeps rfl
    assumption
  intro _
  try clear_value x4
  refine keeps_foldl (fun x => x) _ _ ?_ ?_
  · assumption
  intro _ _ _
  refine Keeps.step ?_ noteHeadroom_keeps rfl
  assumption

theorem reapplyAll_keeps {s} :
    Keeps 262208 s (reapplyAll s) := by
  delta reapplyAll
  refine keeps_foldl (fun x => x) _ _ ?_ ?_
  · exact Keeps.rfl
  intro _ _ _
  refine keeps_ite (fun x => x) ?_ ?_
  · refine Keeps.step ?_ applyVectors_keeps rfl
    assumption
  assumption

theorem writeInputs_keeps {s p} :
    Keeps 36 s (writeInputs s p) := by
  delta writeInputs
  refine keeps_foldl (fun x => x) _ _ ?_ ?_
  · exact Keeps.rfl
  intro _ _ _
  refine Keeps.step ?_ writeArea_keeps rfl
  assumption

theorem restartSegment_keeps {s p} :
    Keeps 1311844 s (restartSegment s p) := by
  delta restartSegment
  extract_lets -merge -useContext -underBinder +onlyGivenNames x1
  refine Keeps.cut (n := 1311844) (s := s) x1 ?_ ?_
  · subst x1
    refine keeps_foldl (fun x => x) _ _ ?_ ?_
    · refine Keeps.step ?_ writeInputs_keeps rfl
      exact Keeps.rfl
    intro _ _ _
    refine Keeps.step ?_ updCore_keeps rfl
    assumption
  intro _
  try clear_value x1
  extract_lets -merge -useContext -underBinder +onlyGivenNames x2
  try clear_value x2
  refine Keeps.step ?_ phaseChange_keeps rfl
  refine Keeps.step ?_ updPart_keeps rfl
  assumption

theorem countReplay_keeps {n : Nat} {s0 : State} {s p go} (h : Keeps n s0 s)
    (hf : ∀ s, Keeps n s0 s → Keeps n s0 (go s)) (hn : 17409 ||| n = n) : Keeps n s0 (countReplay s p go) := by
  delta countReplay
  extract_lets +onlyGivenNames pt
  refine keeps_ite (fun x => x) (Keeps.step h (raiseFault_keeps.mono (keeps_lor rfl hn)) (Nat.or_self n)) ?_
  refine hf _ ?_
  refine Keeps.step ?_ (recordCore_keeps.mono (keeps_lor rfl hn)) (Nat.or_self n)
  refine Keeps.step ?_ (bump_keeps.mono (keeps_lor rfl hn)) (Nat.or_self n)
  exact Keeps.step h (setPart_keeps.mono (keeps_lor rfl hn)) (Nat.or_self n)

theorem chargeWait_keeps {s p t_} :
    Keeps 1 s (chargeWait s p t_) := by
  delta chargeWait
  extract_lets -merge -useContext -underBinder +onlyGivenNames x1
  refine Keeps.cut (n := 1) (s := s) x1 ?_ ?_
  · subst x1
    split
    · refine Keeps.step ?_ bump_keeps rfl
      exact Keeps.rfl
    · refine Keeps.step ?_ bump_keeps rfl
      exact Keeps.rfl
    · refine Keeps.step ?_ bump_keeps rfl
      exact Keeps.rfl
    · refine Keeps.step ?_ bump_keeps rfl
      exact Keeps.rfl
    exact Keeps.rfl
  intro _
  try clear_value x1
  extract_lets -merge -useContext -underBinder +onlyGivenNames x2
  refine Keeps.cut (n := 1) (s := s) x2 ?_ ?_
  · subst x2
    refine keeps_ite (fun x => x) ?_ ?_
    · assumption
    refine Keeps.step ?_ bump_keeps rfl
    assumption
  intro _
  try clear_value x2
  extract_lets -merge -useContext -underBinder +onlyGivenNames x3
  refine Keeps.cut (n := 1) (s := s) x3 ?_ ?_
  · subst x3
    refine Keeps.step ?_ odPut_keeps rfl
    assumption
  intro _
  try clear_value x3
  refine keeps_ite (fun x => x) ?_ ?_
  · refine Keeps.step ?_ odMax_keeps rfl
    assumption
  assumption

theorem releaseAll_keeps {s p h_ begins swap} :
    Keeps 32 s (releaseAll s p h_ begins swap) := by
  delta releaseAll
  extract_lets -merge -useContext -underBinder +onlyGivenNames x1
  try clear_value x1
  refine keeps_foldl (fun x => x) _ _ ?_ ?_
  · exact Keeps.rfl
  intro _ _ _
  refine Keeps.step ?_ updCore_keeps rfl
  assumption

theorem clearCheckpoint_keeps {s p h_ t_} :
    Keeps 4296295525 s (clearCheckpoint s p h_ t_) := by
  delta clearCheckpoint
  extract_lets -merge -useContext -underBinder +onlyGivenNames x1
  try clear_value x1
  extract_lets -merge -useContext -underBinder +onlyGivenNames x2
  try clear_value x2
  extract_lets -merge -useContext -underBinder +onlyGivenNames x3
  refine Keeps.cut (n := 4296295525) (s := s) x3 ?_ ?_
  · subst x3
    refine keeps_ite (fun x => x) ?_ ?_
    · refine Keeps.step ?_ bump_keeps rfl
      exact Keeps.rfl
    exact Keeps.rfl
  intro _
  try clear_value x3
  extract_lets -merge -useContext -underBinder +onlyGivenNames x4
  refine Keeps.cut (n := 4296295525) (s := s) x4 ?_ ?_
  · subst x4
    refine keeps_ite (fun x => x) ?_ ?_
    · refine Keeps.step ?_ sendJob_keeps rfl
      assumption
    assumption
  intro _
  try clear_value x4
  extract_lets -merge -useContext -underBinder +onlyGivenNames x5
  refine Keeps.cut (n := 4296295525) (s := s) x5 ?_ ?_
  · subst x5
    refine Keeps.step ?_ updPart_keeps rfl
    assumption
  intro _
  try clear_value x5
  refine keeps_ite (fun x => x) ?_ ?_
  · refine countReplay_keeps ?_ ?_ rfl
    · assumption
    intro _ _
    refine Keeps.step ?_ restartSegment_keeps rfl
    refine Keeps.step ?_ updPart_keeps rfl
    assumption
  extract_lets -merge -useContext -underBinder +onlyGivenNames x6
  refine Keeps.cut (n := 4296295525) (s := s) x6 ?_ ?_
  · subst x6
    refine Keeps.step ?_ releaseAll_keeps rfl
    assumption
  intro _
  try clear_value x6
  refine Keeps.step ?_ phaseChange_keeps rfl
  refine Keeps.step ?_ updPart_keeps rfl
  assumption

theorem formVerdict_keeps {s p h_} :
    Keeps 4294984705 s (formVerdict s p h_) := by
  delta formVerdict
  extract_lets -merge -useContext -underBinder +onlyGivenNames x1
  try clear_value x1
  extract_lets -merge -useContext -underBinder +onlyGivenNames x2
  try clear_value x2
  extract_lets -merge -useContext -underBinder +onlyGivenNames x3
  try clear_value x3
  extract_lets -merge -useContext -underBinder +onlyGivenNames x4
  try clear_value x4
  extract_lets -merge -useContext -underBinder +onlyGivenNames x5
  try clear_value x5
  extract_lets -merge -useContext -underBinder +onlyGivenNames x6
  refine Keeps.cut (n := 4294984705) (s := s) x6 ?_ ?_
  · subst x6
    refine keeps_ite (fun x => x) ?_ ?_
    · refine Keeps.step ?_ sendJob_keeps rfl
      exact Keeps.rfl
    exact Keeps.rfl
  intro _
  try clear_value x6
  extract_lets -merge -useContext -underBinder +onlyGivenNames x7
  refine Keeps.cut (n := 4294984705) (s := s) x7 ?_ ?_
  · subst x7
    refine Keeps.step ?_ updPart_keeps rfl
    assumption
  intro _
  try clear_value x7
  refine keeps_ite (fun x => x) ?_ ?_
  · refine countReplay_keeps ?_ ?_ rfl
    · assumption
    intro _ _
    assumption
  assumption

theorem clearStart_keeps {s p} :
    Keeps 1328357 s (clearStart s p) := by
  delta clearStart
  extract_lets -merge -useContext -underBinder +onlyGivenNames x1
  refine Keeps.cut (n := 1328357) (s := s) x1 ?_ ?_
  · subst x1
    refine Keeps.step ?_ updPart_keeps rfl
    exact Keeps.rfl
  intro _
  try clear_value x1
  extract_lets -merge -useContext -underBinder +onlyGivenNames x2
  refine Keeps.cut (n := 1328357) (s := s) x2 ?_ ?_
  · subst x2
    refine Keeps.step ?_ arraysHurdleZero_keeps rfl
    refine Keeps.step ?_ writeInputs_keeps rfl
    assumption
  intro _
  try clear_value x2
  extract_lets -merge -useContext -underBinder +onlyGivenNames x3
  refine Keeps.cut (n := 1328357) (s := s) x3 ?_ ?_
  · subst x3
    refine Keeps.step ?_ releaseAll_keeps rfl
    assumption
  intro _
  try clear_value x3
  extract_lets -merge -useContext -underBinder +onlyGivenNames x4
  refine Keeps.cut (n := 1328357) (s := s) x4 ?_ ?_
  · subst x4
    refine keeps_foldl (fun x => x) _ _ ?_ ?_
    · assumption
    intro _ _ _
    refine Keeps.step ?_ updCore_keeps rfl
    assumption
  intro _
  try clear_value x4
  refine Keeps.step ?_ phaseChange_keeps rfl
  refine Keeps.step ?_ updPart_keeps rfl
  assumption

theorem resumeAll_keeps {s p} :
    Keeps 12886003693 s (resumeAll s p) := by
  delta resumeAll
  refine keeps_foldl (fun x => x) _ _ ?_ ?_
  · exact Keeps.rfl
  intro _ _ _
  refine Keeps.step ?_ resume_keeps rfl
  assumption

theorem effHurdleClear_keeps {s p t_} :
    Keeps 12886265837 s (effHurdleClear s p t_) := by
  delta effHurdleClear
  extract_lets -merge -useContext -underBinder +onlyGivenNames x1
  try clear_value x1
  refine keeps_ite (fun x => x) ?_ ?_
  · exact Keeps.rfl
  extract_lets -merge -useContext -underBinder +onlyGivenNames x2
  refine Keeps.cut (n := 12886265837) (s := s) x2 ?_ ?_
  · subst x2
    refine Keeps.step ?_ chargeWait_keeps rfl
    exact Keeps.rfl
  intro _
  try clear_value x2
  extract_lets -merge -useContext -underBinder +onlyGivenNames x3
  try clear_value x3
  refine keeps_ite (fun x => x) ?_ ?_
  · refine Keeps.step ?_ formVerdict_keeps rfl
    assumption
  extract_lets -merge -useContext -underBinder +onlyGivenNames x4
  refine Keeps.cut (n := 12886265837) (s := s) x4 ?_ ?_
  · subst x4
    refine keeps_ite (fun x => x) ?_ ?_
    · refine Keeps.step ?_ sendJob_keeps rfl
      assumption
    assumption
  intro _
  try clear_value x4
  extract_lets -merge -useContext -underBinder +onlyGivenNames x5
  refine Keeps.cut (n := 12886265837) (s := s) x5 ?_ ?_
  · subst x5
    refine Keeps.step ?_ releaseAll_keeps rfl
    assumption
  intro _
  try clear_value x5
  extract_lets -merge -useContext -underBinder +onlyGivenNames x6
  refine Keeps.cut (n := 12886265837) (s := s) x6 ?_ ?_
  · subst x6
    refine keeps_ite (fun x => x) ?_ ?_
    · refine Keeps.step ?_ clearStart_keeps rfl
      assumption
    refine keeps_ite (fun x => x) ?_ ?_
    · refine Keeps.step ?_ clearCheckpoint_keeps rfl
      assumption
    refine Keeps.step ?_ phaseChange_keeps rfl
    refine Keeps.step ?_ updPart_keeps rfl
    assumption
  intro _
  try clear_value x6
  refine Keeps.step ?_ resumeAll_keeps rfl
  assumption

theorem chooseMark_keeps {s p} :
    Keeps 12884902912 s (chooseMark s p) := by
  delta chooseMark
  extract_lets -merge -useContext -underBinder +onlyGivenNames x1
  try clear_value x1
  extract_lets -merge -useContext -underBinder +onlyGivenNames x2
  try clear_value x2
  refine keeps_ite (fun x => x) ?_ ?_
  · exact Keeps.rfl
  extract_lets -merge -useContext -underBinder +onlyGivenNames x3
  refine Keeps.cut (n := 12884902912) (s := s) x3.2 ?_ ?_
  · subst x3
    refine Keeps.step ?_ drawFree_keeps rfl
    exact Keeps.rfl
  intro _
  try clear_value x3
  extract_lets -merge -useContext -underBinder +onlyGivenNames x4
  try clear_value x4
  refine Keeps.step ?_ sendJob_keeps rfl
  refine Keeps.step ?_ updPart_keeps rfl
  assumption

theorem jobArrival_keeps {s p} :
    Keeps 12884902912 s (jobArrival s p) := by
  delta jobArrival
  extract_lets -merge -useContext -underBinder +onlyGivenNames x1
  try clear_value x1
  refine keeps_ite (fun x => x) ?_ ?_
  · exact Keeps.rfl
  refine keeps_ite (fun x => x) ?_ ?_
  · refine Keeps.step ?_ chooseMark_keeps rfl
    exact Keeps.rfl
  refine Keeps.step ?_ sendJob_keeps rfl
  exact Keeps.rfl

theorem afterArrival_keeps {s ci before} :
    Keeps 12884902912 s (afterArrival s ci before) := by
  delta afterArrival
  split
  · refine keeps_ite (fun x => x) ?_ ?_
    · refine Keeps.step ?_ jobArrival_keeps rfl
      exact Keeps.rfl
    exact Keeps.rfl
  exact Keeps.rfl

theorem effHurdleTimeout_keeps {s p} :
    Keeps 17411 s (effHurdleTimeout s p) := by
  delta effHurdleTimeout
  extract_lets -merge -useContext -underBinder +onlyGivenNames x1
  try clear_value x1
  extract_lets -merge -useContext -underBinder +onlyGivenNames x2
  try clear_value x2
  refine keeps_ite (fun x => x) ?_ ?_
  · exact Keeps.rfl
  extract_lets -merge -useContext -underBinder +onlyGivenNames x3
  try clear_value x3
  extract_lets -merge -useContext -underBinder +onlyGivenNames x4
  refine Keeps.cut (n := 17411) (s := s) x4 ?_ ?_
  · subst x4
    refine Keeps.step ?_ domSet_keeps rfl
    exact Keeps.rfl
  intro _
  try clear_value x4
  extract_lets -merge -useContext -underBinder +onlyGivenNames x5
  refine Keeps.cut (n := 17411) (s := s) x5 ?_ ?_
  · subst x5
    refine Keeps.step ?_ recordEvent_keeps rfl
    assumption
  intro _
  try clear_value x5
  refine Keeps.step ?_ raiseFault_keeps rfl
  assumption

end Sys2Proof.Machine
end

