-- ==== Sys2Proof/Laws/KeepsBatons.lean ====
section
/-! SUPPORT. What the operations of Machine/Batons.lean leave as it was. -/

namespace Sys2Proof.Machine

theorem releaseRun_keeps {s p sess q0 g run} :
    Keeps 14336 s (releaseRun s p sess q0 g run) := by
  delta releaseRun
  extract_lets -merge -useContext -underBinder +onlyGivenNames x1
  try clear_value x1
  extract_lets -merge -useContext -underBinder +onlyGivenNames x2
  try clear_value x2
  extract_lets -merge -useContext -underBinder +onlyGivenNames x3
  try clear_value x3
  extract_lets -merge -useContext -underBinder +onlyGivenNames x4
  try clear_value x4
  extract_lets -merge -useContext -underBinder +onlyGivenNames x5
  try clear_value x5
  extract_lets -merge -useContext -underBinder +onlyGivenNames x6
  refine Keeps.cut (n := 14336) (s := s) x6 ?_ ?_
  · subst x6
    refine Keeps.step ?_ updSess_keeps rfl
    exact Keeps.rfl
  intro _
  try clear_value x6
  split
  · refine Keeps.step ?_ finishCmd_keeps rfl
    assumption
  assumption

theorem keepResiduals_keeps {s p l kept} :
    Keeps 2048 s (keepResiduals s p l kept) := by
  delta keepResiduals
  extract_lets -merge -useContext -underBinder +onlyGivenNames x1
  try clear_value x1
  split
  · exact Keeps.rfl
  refine keeps_foldl (fun x => x) _ _ ?_ ?_
  · exact Keeps.rfl
  intro _ _ _
  split
  · extract_lets -merge -useContext -underBinder +onlyGivenNames x2
    try clear_value x2
    extract_lets -merge -useContext -underBinder +onlyGivenNames x3
    try clear_value x3
    extract_lets -merge -useContext -underBinder +onlyGivenNames x4
    try clear_value x4
    refine Keeps.step ?_ updSess_keeps rfl
    assumption
  assumption

theorem commitPrefill_keeps {s p l} :
    Keeps 14921 s (commitPrefill s p l) := by
  delta commitPrefill
  extract_lets -merge -useContext -underBinder +onlyGivenNames x1
  try clear_value x1
  extract_lets -merge -useContext -underBinder +onlyGivenNames x2
  try clear_value x2
  extract_lets -merge -useContext -underBinder +onlyGivenNames x3
  try clear_value x3
  extract_lets -merge -useContext -underBinder +onlyGivenNames x4
  try clear_value x4
  extract_lets -merge -useContext -underBinder +onlyGivenNames x5
  try clear_value x5
  extract_lets -merge -useContext -underBinder +onlyGivenNames x6
  refine Keeps.cut (n := 14921) (s := s) x6 ?_ ?_
  · subst x6
    refine Keeps.step ?_ updSess_keeps rfl
    exact Keeps.rfl
  intro _
  try clear_value x6
  extract_lets -merge -useContext -underBinder +onlyGivenNames x7
  refine Keeps.cut (n := 14921) (s := s) x7 ?_ ?_
  · subst x7
    refine Keeps.step ?_ finishPrompts_keeps rfl
    refine Keeps.step ?_ settlePages_keeps rfl
    assumption
  intro _
  try clear_value x7
  extract_lets -merge -useContext -underBinder +onlyGivenNames x8
  refine Keeps.cut (n := 14921) (s := s) x8 ?_ ?_
  · subst x8
    split
    · refine Keeps.step ?_ endPrompt_keeps rfl
      refine Keeps.step ?_ updSess_keeps rfl
      assumption
    assumption
  intro _
  try clear_value x8
  refine keeps_ite (fun x => x) ?_ ?_
  · assumption
  extract_lets -merge -useContext -underBinder +onlyGivenNames x9
  try clear_value x9
  split
  · assumption
  refine Keeps.step ?_ releaseRun_keeps rfl
  assumption

theorem commitDecode_keeps {s p l} :
    Keeps 14921 s (commitDecode s p l) := by
  delta commitDecode
  extract_lets -merge -useContext -underBinder +onlyGivenNames x1
  try clear_value x1
  extract_lets -merge -useContext -underBinder +onlyGivenNames x2
  try clear_value x2
  split
  · exact Keeps.rfl
  extract_lets -merge -useContext -underBinder +onlyGivenNames x3
  try clear_value x3
  extract_lets -merge -useContext -underBinder +onlyGivenNames x4
  try clear_value x4
  extract_lets -merge -useContext -underBinder +onlyGivenNames x5
  refine Keeps.cut (n := 14921) (s := s) x5 ?_ ?_
  · subst x5
    refine keeps_ite (fun x => x) ?_ ?_
    · exact Keeps.rfl
    refine Keeps.step ?_ keepResiduals_keeps rfl
    exact Keeps.rfl
  intro _
  try clear_value x5
  extract_lets -merge -useContext -underBinder +onlyGivenNames x6
  refine Keeps.cut (n := 14921) (s := s) x6 ?_ ?_
  · subst x6
    refine Keeps.step ?_ updSess_keeps rfl
    assumption
  intro _
  try clear_value x6
  refine Keeps.step ?_ releaseRun_keeps rfl
  refine Keeps.step ?_ settlePages_keeps rfl
  assumption

theorem commitLane_keeps {s p l} :
    Keeps 14921 s (commitLane s p l) := by
  delta commitLane
  extract_lets -merge -useContext -underBinder +onlyGivenNames x1
  try clear_value x1
  refine keeps_ite (fun x => x) ?_ ?_
  · exact Keeps.rfl
  refine keeps_ite (fun x => x) ?_ ?_
  · exact Keeps.rfl
  refine keeps_ite (fun x => x) ?_ ?_
  · refine Keeps.step ?_ commitPrefill_keeps rfl
    exact Keeps.rfl
  refine Keeps.step ?_ commitDecode_keeps rfl
  exact Keeps.rfl

theorem endNamed_keeps {s sess} :
    Keeps 8486465 s (endNamed s sess) := by
  delta endNamed
  extract_lets -merge -useContext -underBinder +onlyGivenNames x1
  try clear_value x1
  refine keeps_ite (fun x => x) ?_ ?_
  · refine keeps_ite (fun x => x) ?_ ?_
    · exact Keeps.rfl
    refine Keeps.step ?_ setSess_keeps rfl
    refine Keeps.step ?_ freeSessionPages_keeps rfl
    exact Keeps.rfl
  refine keeps_ite (fun x => x) ?_ ?_
  · refine keeps_ite (fun x => x) ?_ ?_
    · exact Keeps.rfl
    refine Keeps.step ?_ dropSession_keeps rfl
    exact Keeps.rfl
  split
  · refine Keeps.step ?_ endSession_keeps rfl
    exact Keeps.rfl
  refine keeps_ite (fun x => x) ?_ ?_
  · refine Keeps.step ?_ endSession_keeps rfl
    exact Keeps.rfl
  exact Keeps.rfl

theorem contextLimit_keeps {s p} :
    Keeps 14336 s (contextLimit s p) := by
  delta contextLimit
  extract_lets -merge -useContext -underBinder +onlyGivenNames x1
  try clear_value x1
  refine keeps_foldl (fun x => x) _ _ ?_ ?_
  · exact Keeps.rfl
  intro _ _ _
  extract_lets -merge -useContext -underBinder +onlyGivenNames x2
  try clear_value x2
  extract_lets -merge -useContext -underBinder +onlyGivenNames x3
  try clear_value x3
  extract_lets -merge -useContext -underBinder +onlyGivenNames x4
  refine Keeps.cut (n := 14336) (s := s) x4 ?_ ?_
  · subst x4
    refine keeps_foldl (fun (x : _ × State) => x.2) _ _ ?_ ?_
    · try dsimp -zeta only
      assumption
    intro _ _ _
    refine keeps_ite (fun (x : _ × State) => x.2) ?_ ?_
    · try dsimp -zeta only
      refine Keeps.step ?_ finishCmd_keeps rfl
      assumption
    try dsimp -zeta only
    assumption
  intro _
  try clear_value x4
  extract_lets -merge -useContext -underBinder +onlyGivenNames x5
  try clear_value x5
  refine keeps_ite (fun x => x) ?_ ?_
  · assumption
  split
  · refine keeps_ite (fun x => x) ?_ ?_
    · refine Keeps.step ?_ finishCmd_keeps rfl
      assumption
    assumption
  assumption

theorem swapFlip_keeps {s p} :
    Keeps 4210275 s (swapFlip s p) := by
  delta swapFlip
  extract_lets -merge -useContext -underBinder +onlyGivenNames x1
  try clear_value x1
  split
  · exact Keeps.rfl
  refine keeps_ite (fun x => x) ?_ ?_
  · exact Keeps.rfl
  extract_lets -merge -useContext -underBinder +onlyGivenNames x2
  try clear_value x2
  extract_lets -merge -useContext -underBinder +onlyGivenNames x3
  refine Keeps.cut (n := 4210275) (s := s) x3 ?_ ?_
  · subst x3
    refine Keeps.step ?_ setSlot_keeps rfl
    exact Keeps.rfl
  intro _
  try clear_value x3
  extract_lets -merge -useContext -underBinder +onlyGivenNames x4
  refine Keeps.cut (n := 4210275) (s := s) x4 ?_ ?_
  · subst x4
    refine Keeps.step ?_ updPart_keeps rfl
    assumption
  intro _
  try clear_value x4
  extract_lets -merge -useContext -underBinder +onlyGivenNames x5
  refine Keeps.cut (n := 4210275) (s := s) x5 ?_ ?_
  · subst x5
    refine keeps_foldl (fun x => x) _ _ ?_ ?_
    · assumption
    intro _ _ _
    refine Keeps.step ?_ invalidateCache_keeps rfl
    assumption
  intro _
  try clear_value x5
  extract_lets -merge -useContext -underBinder +onlyGivenNames x6
  refine Keeps.cut (n := 4210275) (s := s) x6 ?_ ?_
  · subst x6
    refine keeps_foldl (fun x => x) _ _ ?_ ?_
    · assumption
    intro _ _ _
    refine Keeps.step ?_ updSess_keeps rfl
    assumption
  intro _
  try clear_value x6
  extract_lets -merge -useContext -underBinder +onlyGivenNames x7
  refine Keeps.cut (n := 4210275) (s := s) x7 ?_ ?_
  · subst x7
    refine Keeps.step ?_ bump_keeps rfl
    refine Keeps.step ?_ bump_keeps rfl
    assumption
  intro _
  try clear_value x7
  extract_lets -merge -useContext -underBinder +onlyGivenNames x8
  refine Keeps.cut (n := 4210275) (s := s) x8 ?_ ?_
  · subst x8
    refine keeps_ite (fun x => x) ?_ ?_
    · refine Keeps.step ?_ twinFlipped_keeps rfl
      assumption
    refine Keeps.step ?_ recheckMap_keeps rfl
    assumption
  intro _
  try clear_value x8
  refine keeps_ite (fun x => x) ?_ ?_
  · refine keeps_foldl (fun x => x) _ _ ?_ ?_
    · assumption
    intro _ _ _
    refine Keeps.step ?_ endSession_keeps rfl
    assumption
  assumption

theorem takeFork_keeps {s p parent c} :
    Keeps 8589949513 s (takeFork s p parent c) := by
  delta takeFork
  extract_lets -merge -useContext -underBinder +onlyGivenNames x1
  try clear_value x1
  extract_lets -merge -useContext -underBinder +onlyGivenNames x2
  try clear_value x2
  extract_lets -merge -useContext -underBinder +onlyGivenNames x3
  subst x3
  try dsimp -zeta only
  refine keeps_ite (fun x => x) ?_ ?_
  · refine Keeps.step ?_ settleState_keeps rfl
    refine Keeps.step ?_ dropCmd_keeps rfl
    refine Keeps.step ?_ doneCmd_keeps rfl
    refine Keeps.step ?_ setSess_keeps rfl
    refine Keeps.step ?_ freeSessionPages_keeps rfl
    exact Keeps.rfl
  split
  · refine Keeps.step ?_ settleState_keeps rfl
    refine Keeps.step ?_ dropCmd_keeps rfl
    refine Keeps.step ?_ doneCmd_keeps rfl
    refine Keeps.step ?_ setSess_keeps rfl
    refine Keeps.step ?_ freeSessionPages_keeps rfl
    refine Keeps.step ?_ (keeps_p2 (by assumption) forkPages_keeps) rfl
    exact Keeps.rfl
  extract_lets -merge -useContext -underBinder +onlyGivenNames x4
  refine Keeps.cut (n := 8589949513) (s := s) x4 ?_ ?_
  · subst x4
    refine Keeps.step ?_ updSess_keeps rfl
    refine Keeps.step ?_ (keeps_p2 (by assumption) forkPages_keeps) rfl
    exact Keeps.rfl
  intro _
  try clear_value x4
  extract_lets -merge -useContext -underBinder +onlyGivenNames x5
  refine Keeps.cut (n := 8589949513) (s := s) x5 ?_ ?_
  · subst x5
    refine Keeps.step ?_ updSess_keeps rfl
    assumption
  intro _
  try clear_value x5
  extract_lets -merge -useContext -underBinder +onlyGivenNames x6
  refine Keeps.cut (n := 8589949513) (s := s) x6 ?_ ?_
  · subst x6
    refine Keeps.step ?_ complete_keeps rfl
    assumption
  intro _
  try clear_value x6
  refine Keeps.step ?_ settleState_keeps rfl
  refine Keeps.step ?_ settleState_keeps rfl
  refine Keeps.step ?_ dropCmd_keeps rfl
  assumption

theorem takeForks_keeps {s p} :
    Keeps 8589949513 s (takeForks s p) := by
  delta takeForks
  refine keeps_foldl (fun x => x) _ _ ?_ ?_
  · exact Keeps.rfl
  intro _ _ _
  refine keeps_foldl (fun x => x) _ _ ?_ ?_
  · assumption
  intro _ _ _
  refine Keeps.step ?_ takeFork_keeps rfl
  assumption

theorem takeClose_keeps {s sess} :
    Keeps 15936 s (takeClose s sess) := by
  delta takeClose
  extract_lets -merge -useContext -underBinder +onlyGivenNames x1
  try clear_value x1
  split
  · refine keeps_ite (fun x => x) ?_ ?_
    · extract_lets -merge -useContext -underBinder +onlyGivenNames x2
      refine Keeps.cut (n := 15936) (s := s) x2 ?_ ?_
      · subst x2
        refine Keeps.step ?_ complete_keeps rfl
        exact Keeps.rfl
      intro _
      try clear_value x2
      refine Keeps.step ?_ updSess_keeps rfl
      refine Keeps.step ?_ retireSession_keeps rfl
      assumption
    exact Keeps.rfl
  exact Keeps.rfl

theorem takePaging_keeps {s sess} :
    Keeps 12884916736 s (takePaging s sess) := by
  delta takePaging
  extract_lets -merge -useContext -underBinder +onlyGivenNames x1
  try clear_value x1
  split
  · exact Keeps.rfl
  refine keeps_ite (fun x => x) ?_ ?_
  · exact Keeps.rfl
  refine keeps_ite (fun x => x) ?_ ?_
  · refine Keeps.step ?_ startEvict_keeps rfl
    exact Keeps.rfl
  refine keeps_ite (fun x => x) ?_ ?_
  · refine Keeps.step ?_ startRestore_keeps rfl
    exact Keeps.rfl
  refine Keeps.step ?_ finishCmd_keeps rfl
  exact Keeps.rfl

theorem boundaryCommands_keeps {s p} :
    Keeps 12893388361 s (boundaryCommands s p) := by
  delta boundaryCommands
  extract_lets -merge -useContext -underBinder +onlyGivenNames x1
  refine Keeps.cut (n := 12893388361) (s := s) x1 ?_ ?_
  · subst x1
    refine Keeps.step ?_ takeForks_keeps rfl
    exact Keeps.rfl
  intro _
  try clear_value x1
  extract_lets -merge -useContext -underBinder +onlyGivenNames x2
  refine Keeps.cut (n := 12893388361) (s := s) x2 ?_ ?_
  · subst x2
    refine keeps_foldl (fun x => x) _ _ ?_ ?_
    · assumption
    intro _ _ _
    refine keeps_ite (fun x => x) ?_ ?_
    · assumption
    refine keeps_ite (fun x => x) ?_ ?_
    · refine Keeps.step ?_ dropSession_keeps rfl
      assumption
    refine keeps_ite (fun x => x) ?_ ?_
    · refine Keeps.step ?_ endSession_keeps rfl
      assumption
    assumption
  intro _
  try clear_value x2
  extract_lets -merge -useContext -underBinder +onlyGivenNames x3
  refine Keeps.cut (n := 12893388361) (s := s) x3 ?_ ?_
  · subst x3
    refine keeps_foldl (fun x => x) _ _ ?_ ?_
    · assumption
    intro _ _ _
    refine Keeps.step ?_ takeClose_keeps rfl
    assumption
  intro _
  try clear_value x3
  refine keeps_foldl (fun x => x) _ _ ?_ ?_
  · assumption
  intro _ _ _
  refine Keeps.step ?_ takePaging_keeps rfl
  assumption

theorem lapStats_keeps {s p aborted} :
    Keeps 1025 s (lapStats s p aborted) := by
  delta lapStats
  extract_lets -merge -useContext -underBinder +onlyGivenNames x1
  try clear_value x1
  extract_lets -merge -useContext -underBinder +onlyGivenNames x2
  try clear_value x2
  extract_lets -merge -useContext -underBinder +onlyGivenNames x3
  refine Keeps.cut (n := 1025) (s := s) x3 ?_ ?_
  · subst x3
    refine Keeps.step ?_ bump_keeps rfl
    exact Keeps.rfl
  intro _
  try clear_value x3
  extract_lets -merge -useContext -underBinder +onlyGivenNames x4
  refine Keeps.cut (n := 1025) (s := s) x4 ?_ ?_
  · subst x4
    refine Keeps.step ?_ odPut_keeps rfl
    assumption
  intro _
  try clear_value x4
  extract_lets -merge -useContext -underBinder +onlyGivenNames x5
  refine Keeps.cut (n := 1025) (s := s) x5 ?_ ?_
  · subst x5
    refine Keeps.step ?_ odMax_keeps rfl
    assumption
  intro _
  try clear_value x5
  extract_lets -merge -useContext -underBinder +onlyGivenNames x6
  refine Keeps.cut (n := 1025) (s := s) x6 ?_ ?_
  · subst x6
    refine Keeps.step ?_ odPut_keeps rfl
    assumption
  intro _
  try clear_value x6
  refine Keeps.step ?_ updPart_keeps rfl
  assumption

theorem excuseClass0_keeps {s p} :
    Keeps 2048 s (excuseClass0 s p) := by
  delta excuseClass0
  extract_lets -merge -useContext -underBinder +onlyGivenNames x1
  try clear_value x1
  refine keeps_foldl (fun x => x) _ _ ?_ ?_
  · exact Keeps.rfl
  intro _ _ _
  refine Keeps.step ?_ updSess_keeps rfl
  assumption

theorem excuseIntervals_keeps {s p} :
    Keeps 2048 s (excuseIntervals s p) := by
  delta excuseIntervals
  refine keeps_foldl (fun x => x) _ _ ?_ ?_
  · exact Keeps.rfl
  intro _ _ _
  refine Keeps.step ?_ updSess_keeps rfl
  assumption

theorem excuseAll_keeps {s} :
    Keeps 2048 s (excuseAll s) := by
  delta excuseAll
  refine keeps_foldl (fun x => x) _ _ ?_ ?_
  · exact Keeps.rfl
  intro _ _ _
  refine Keeps.step ?_ excuseIntervals_keeps rfl
  assumption

theorem nextLap_keeps {s p} :
    Keeps 4294970401 s (nextLap s p) := by
  delta nextLap
  extract_lets -merge -useContext -underBinder +onlyGivenNames x1
  refine Keeps.cut (n := 4294970401) (s := s) x1 ?_ ?_
  · subst x1
    refine Keeps.step ?_ updPart_keeps rfl
    exact Keeps.rfl
  intro _
  try clear_value x1
  extract_lets -merge -useContext -underBinder +onlyGivenNames x2
  refine Keeps.cut (n := 4294970401) (s := s) x2 ?_ ?_
  · subst x2
    refine Keeps.step ?_ updPart_keeps rfl
    assumption
  intro _
  try clear_value x2
  extract_lets -merge -useContext -underBinder +onlyGivenNames x3
  refine Keeps.cut (n := 4294970401) (s := s) x3 ?_ ?_
  · subst x3
    refine keeps_foldl (fun x => x) _ _ ?_ ?_
    · assumption
    intro _ _ _
    refine Keeps.step ?_ updSess_keeps rfl
    assumption
  intro _
  try clear_value x3
  extract_lets -merge -useContext -underBinder +onlyGivenNames x4
  refine Keeps.cut (n := 4294970401) (s := s) x4 ?_ ?_
  · subst x4
    refine Keeps.step ?_ buildLanes_keeps rfl
    assumption
  intro _
  try clear_value x4
  extract_lets -merge -useContext -underBinder +onlyGivenNames x5
  refine Keeps.cut (n := 4294970401) (s := s) x5 ?_ ?_
  · subst x5
    refine Keeps.step ?_ excuseClass0_keeps rfl
    assumption
  intro _
  try clear_value x5
  extract_lets -merge -useContext -underBinder +onlyGivenNames x6
  refine Keeps.cut (n := 4294970401) (s := s) x6 ?_ ?_
  · subst x6
    refine keeps_foldl (fun x => x) _ _ ?_ ?_
    · assumption
    intro _ _ _
    refine Keeps.step ?_ updSess_keeps rfl
    assumption
  intro _
  try clear_value x6
  refine keeps_foldl (fun x => x) _ _ ?_ ?_
  · assumption
  intro _ _ _
  refine Keeps.step ?_ updCore_keeps rfl
  assumption

theorem mirrorBaton_keeps {s p lap v before} :
    Keeps 4294967296 s (mirrorBaton s p lap v before) := by
  delta mirrorBaton
  refine keeps_ite (fun x => x) ?_ ?_
  · exact Keeps.rfl
  refine Keeps.step ?_ emit_keeps rfl
  exact Keeps.rfl

theorem batonReplay_keeps {s p ns} :
    Keeps 12886265837 s (batonReplay s p ns) := by
  delta batonReplay
  extract_lets -merge -useContext -underBinder +onlyGivenNames x1
  try clear_value x1
  extract_lets -merge -useContext -underBinder +onlyGivenNames x2
  refine Keeps.cut (n := 12886265837) (s := s) x2 ?_ ?_
  · subst x2
    refine Keeps.step ?_ expireFenced_keeps rfl
    exact Keeps.rfl
  intro _
  try clear_value x2
  extract_lets -merge -useContext -underBinder +onlyGivenNames x3
  refine Keeps.cut (n := 12886265837) (s := s) x3 ?_ ?_
  · subst x3
    refine Keeps.step ?_ mirrorBaton_keeps rfl
    assumption
  intro _
  try clear_value x3
  extract_lets -merge -useContext -underBinder +onlyGivenNames x4
  refine Keeps.cut (n := 12886265837) (s := s) x4 ?_ ?_
  · subst x4
    refine keeps_ite (fun x => x) ?_ ?_
    · refine Keeps.step ?_ bump_keeps rfl
      assumption
    assumption
  intro _
  try clear_value x4
  extract_lets -merge -useContext -underBinder +onlyGivenNames x5
  refine Keeps.cut (n := 12886265837) (s := s) x5 ?_ ?_
  · subst x5
    refine keeps_foldl (fun x => x) _ _ ?_ ?_
    · assumption
    intro _ _ _
    refine Keeps.step ?_ updSess_keeps rfl
    assumption
  intro _
  try clear_value x5
  extract_lets -merge -useContext -underBinder +onlyGivenNames x6
  refine Keeps.cut (n := 12886265837) (s := s) x6 ?_ ?_
  · subst x6
    refine Keeps.step ?_ updPart_keeps rfl
    assumption
  intro _
  try clear_value x6
  extract_lets -merge -useContext -underBinder +onlyGivenNames x7
  refine Keeps.cut (n := 12886265837) (s := s) x7 ?_ ?_
  · subst x7
    refine keeps_foldl (fun x => x) _ _ ?_ ?_
    · assumption
    intro _ _ _
    refine Keeps.step ?_ updCore_keeps rfl
    assumption
  intro _
  try clear_value x7
  refine Keeps.step ?_ resumeAll_keeps rfl
  refine Keeps.step ?_ restartSegment_keeps rfl
  assumption

theorem batonCommit_keeps {s p ns v} :
    Keeps 13974765551 s (batonCommit s p ns v) := by
  delta batonCommit
  extract_lets -merge -useContext -underBinder +onlyGivenNames x1
  try clear_value x1
  extract_lets -merge -useContext -underBinder +onlyGivenNames x2
  try clear_value x2
  extract_lets -merge -useContext -underBinder +onlyGivenNames x3
  try clear_value x3
  extract_lets -merge -useContext -underBinder +onlyGivenNames x4
  refine Keeps.cut (n := 13974765551) (s := s) x4 ?_ ?_
  · subst x4
    refine keeps_foldl (fun x => x) _ _ ?_ ?_
    · exact Keeps.rfl
    intro _ _ _
    refine Keeps.step ?_ updSess_keeps rfl
    assumption
  intro _
  try clear_value x4
  extract_lets -merge -useContext -underBinder +onlyGivenNames x5
  try clear_value x5
  extract_lets -merge -useContext -underBinder +onlyGivenNames x6
  refine Keeps.cut (n := 13974765551) (s := s) x6 ?_ ?_
  · subst x6
    refine keeps_ite (fun x => x) ?_ ?_
    · refine Keeps.step ?_ bump_keeps rfl
      assumption
    assumption
  intro _
  try clear_value x6
  extract_lets -merge -useContext -underBinder +onlyGivenNames x7
  refine Keeps.cut (n := 13974765551) (s := s) x7 ?_ ?_
  · subst x7
    refine Keeps.step ?_ updPart_keeps rfl
    assumption
  intro _
  try clear_value x7
  extract_lets -merge -useContext -underBinder +onlyGivenNames x8
  refine Keeps.cut (n := 13974765551) (s := s) x8 ?_ ?_
  · subst x8
    refine keeps_foldl (fun x => x) _ _ ?_ ?_
    · assumption
    intro _ _ _
    refine keeps_ite (fun x => x) ?_ ?_
    · assumption
    refine Keeps.step ?_ commitLane_keeps rfl
    assumption
  intro _
  try clear_value x8
  extract_lets -merge -useContext -underBinder +onlyGivenNames x9
  refine Keeps.cut (n := 13974765551) (s := s) x9 ?_ ?_
  · subst x9
    refine keeps_foldl (fun x => x) _ _ ?_ ?_
    · assumption
    intro _ _ _
    refine Keeps.step ?_ endNamed_keeps rfl
    assumption
  intro _
  try clear_value x9
  extract_lets -merge -useContext -underBinder +onlyGivenNames x10
  refine Keeps.cut (n := 13974765551) (s := s) x10 ?_ ?_
  · subst x10
    refine Keeps.step ?_ endLeases_keeps rfl
    refine Keeps.step ?_ expireFenced_keeps rfl
    assumption
  intro _
  try clear_value x10
  extract_lets -merge -useContext -underBinder +onlyGivenNames x11
  refine Keeps.cut (n := 13974765551) (s := s) x11 ?_ ?_
  · subst x11
    refine Keeps.step ?_ switchEpoch_keeps rfl
    assumption
  intro _
  try clear_value x11
  extract_lets -merge -useContext -underBinder +onlyGivenNames x12
  refine Keeps.cut (n := 13974765551) (s := s) x12 ?_ ?_
  · subst x12
    refine Keeps.step ?_ contextLimit_keeps rfl
    assumption
  intro _
  try clear_value x12
  extract_lets -merge -useContext -underBinder +onlyGivenNames x13
  refine Keeps.cut (n := 13974765551) (s := s) x13 ?_ ?_
  · subst x13
    refine Keeps.step ?_ swapFlip_keeps rfl
    assumption
  intro _
  try clear_value x13
  extract_lets -merge -useContext -underBinder +onlyGivenNames x14
  refine Keeps.cut (n := 13974765551) (s := s) x14 ?_ ?_
  · subst x14
    refine Keeps.step ?_ boundaryCommands_keeps rfl
    assumption
  intro _
  try clear_value x14
  extract_lets -merge -useContext -underBinder +onlyGivenNames x15
  refine Keeps.cut (n := 13974765551) (s := s) x15 ?_ ?_
  · subst x15
    refine keeps_ite (fun x => x) ?_ ?_
    · refine Keeps.step ?_ loseMap_keeps rfl
      assumption
    assumption
  intro _
  try clear_value x15
  extract_lets -merge -useContext -underBinder +onlyGivenNames x16
  refine Keeps.cut (n := 13974765551) (s := s) x16 ?_ ?_
  · subst x16
    refine Keeps.step ?_ mirrorBaton_keeps rfl
    assumption
  intro _
  try clear_value x16
  extract_lets -merge -useContext -underBinder +onlyGivenNames x17
  refine Keeps.cut (n := 13974765551) (s := s) x17 ?_ ?_
  · subst x17
    refine Keeps.step ?_ lapStats_keeps rfl
    assumption
  intro _
  try clear_value x17
  extract_lets -merge -useContext -underBinder +onlyGivenNames x18
  refine Keeps.cut (n := 13974765551) (s := s) x18 ?_ ?_
  · subst x18
    refine Keeps.step ?_ updPart_keeps rfl
    assumption
  intro _
  try clear_value x18
  refine Keeps.step ?_ resumeAll_keeps rfl
  refine Keeps.step ?_ nextLap_keeps rfl
  assumption

theorem effBaton_keeps {s p ns} :
    Keeps 13974765551 s (effBaton s p ns) := by
  delta effBaton
  extract_lets -merge -useContext -underBinder +onlyGivenNames x1
  try clear_value x1
  refine keeps_ite (fun x => x) ?_ ?_
  · exact Keeps.rfl
  split
  · exact Keeps.rfl
  · refine Keeps.step ?_ batonReplay_keeps rfl
    exact Keeps.rfl
  refine Keeps.step ?_ batonCommit_keeps rfl
  exact Keeps.rfl

end Sys2Proof.Machine
end

