-- ==== Sys2Proof/Laws/KeepsRings.lean ====
section
/-! SUPPORT. What the operations of Machine/Rings.lean leave as it was. -/

namespace Sys2Proof.Machine

theorem ringError_keeps {s fn} :
    Keeps 16777217 s (ringError s fn) := by
  delta ringError
  refine Keeps.step ?_ bump_keeps rfl
  refine Keeps.step ?_ updFn_keeps rfl
  exact Keeps.rfl

theorem recordRing_keeps {s ring cause kind value pos} :
    Keeps 16385 s (recordRing s ring cause kind value pos) := by
  delta recordRing
  refine Keeps.step ?_ recordEvent_keeps rfl
  exact Keeps.rfl

theorem writeSubCtx_keeps {s fn ring off bytes} :
    Keeps 16781313 s (writeSubCtx s fn ring off bytes) := by
  delta writeSubCtx
  extract_lets -merge -useContext -underBinder +onlyGivenNames x1
  try clear_value x1
  refine keeps_ite (fun x => x) ?_ ?_
  · refine Keeps.step ?_ ringError_keeps rfl
    exact Keeps.rfl
  extract_lets -merge -useContext -underBinder +onlyGivenNames x2
  try clear_value x2
  refine keeps_ite (fun x => x) ?_ ?_
  · refine Keeps.step ?_ setSub_keeps rfl
    exact Keeps.rfl
  refine Keeps.step ?_ ringError_keeps rfl
  exact Keeps.rfl

theorem writeCompCtx_keeps {s fn ring off bytes} :
    Keeps 16785409 s (writeCompCtx s fn ring off bytes) := by
  delta writeCompCtx
  extract_lets -merge -useContext -underBinder +onlyGivenNames x1
  try clear_value x1
  refine keeps_ite (fun x => x) ?_ ?_
  · refine Keeps.step ?_ ringError_keeps rfl
    exact Keeps.rfl
  extract_lets -merge -useContext -underBinder +onlyGivenNames x2
  try clear_value x2
  refine keeps_ite (fun x => x) ?_ ?_
  · refine Keeps.step ?_ setComp_keeps rfl
    exact Keeps.rfl
  refine Keeps.step ?_ ringError_keeps rfl
  exact Keeps.rfl

theorem effContextWrite_keeps {s fn off bytes} :
    Keeps 16789505 s (effContextWrite s fn off bytes) := by
  delta effContextWrite
  refine keeps_ite (fun x => x) ?_ ?_
  · refine Keeps.step ?_ ringError_keeps rfl
    exact Keeps.rfl
  refine keeps_ite (fun x => x) ?_ ?_
  · refine Keeps.step ?_ writeSubCtx_keeps rfl
    exact Keeps.rfl
  refine keeps_ite (fun x => x) ?_ ?_
  · refine Keeps.step ?_ writeCompCtx_keeps rfl
    exact Keeps.rfl
  refine Keeps.step ?_ ringError_keeps rfl
  exact Keeps.rfl

theorem enableSub_keeps {s fn ring} :
    Keeps 16781313 s (enableSub s fn ring) := by
  delta enableSub
  extract_lets -merge -useContext -underBinder +onlyGivenNames x1
  try clear_value x1
  refine keeps_ite (fun x => x) ?_ ?_
  · refine Keeps.step ?_ ringError_keeps rfl
    exact Keeps.rfl
  refine keeps_ite (fun x => x) ?_ ?_
  · exact Keeps.rfl
  extract_lets -merge -useContext -underBinder +onlyGivenNames x2
  try clear_value x2
  extract_lets -merge -useContext -underBinder +onlyGivenNames x3
  try clear_value x3
  extract_lets -merge -useContext -underBinder +onlyGivenNames x4
  try clear_value x4
  refine Keeps.step ?_ setSub_keeps rfl
  exact Keeps.rfl

theorem enableComp_keeps {s fn ring} :
    Keeps 16785409 s (enableComp s fn ring) := by
  delta enableComp
  extract_lets -merge -useContext -underBinder +onlyGivenNames x1
  try clear_value x1
  refine keeps_ite (fun x => x) ?_ ?_
  · refine Keeps.step ?_ ringError_keeps rfl
    exact Keeps.rfl
  refine keeps_ite (fun x => x) ?_ ?_
  · exact Keeps.rfl
  extract_lets -merge -useContext -underBinder +onlyGivenNames x2
  try clear_value x2
  extract_lets -merge -useContext -underBinder +onlyGivenNames x3
  try clear_value x3
  extract_lets -merge -useContext -underBinder +onlyGivenNames x4
  try clear_value x4
  refine Keeps.step ?_ setComp_keeps rfl
  exact Keeps.rfl

theorem effRingEnable_keeps {s fn k ring} :
    Keeps 16789505 s (effRingEnable s fn k ring) := by
  delta effRingEnable
  split
  · refine Keeps.step ?_ enableSub_keeps rfl
    exact Keeps.rfl
  refine Keeps.step ?_ enableComp_keeps rfl
  exact Keeps.rfl

theorem effRingDisable_keeps {s fn k ring} :
    Keeps 16789505 s (effRingDisable s fn k ring) := by
  delta effRingDisable
  split
  · refine keeps_ite (fun x => x) ?_ ?_
    · refine Keeps.step ?_ ringError_keeps rfl
      exact Keeps.rfl
    refine Keeps.step ?_ updSub_keeps rfl
    exact Keeps.rfl
  refine keeps_ite (fun x => x) ?_ ?_
  · refine Keeps.step ?_ ringError_keeps rfl
    exact Keeps.rfl
  refine Keeps.step ?_ updComp_keeps rfl
  exact Keeps.rfl

theorem effSubDoorbell_keeps {s fn ring d} :
    Keeps 16797697 s (effSubDoorbell s fn ring d) := by
  delta effSubDoorbell
  extract_lets -merge -useContext -underBinder +onlyGivenNames x1
  try clear_value x1
  extract_lets -merge -useContext -underBinder +onlyGivenNames x2
  try clear_value x2
  refine keeps_ite (fun x => x) ?_ ?_
  · refine Keeps.step ?_ ringError_keeps rfl
    exact Keeps.rfl
  extract_lets -merge -useContext -underBinder +onlyGivenNames x3
  try clear_value x3
  refine keeps_ite (fun x => x) ?_ ?_
  · extract_lets -merge -useContext -underBinder +onlyGivenNames x4
    refine Keeps.cut (n := 16797697) (s := s) x4 ?_ ?_
    · subst x4
      refine Keeps.step ?_ recordRing_keeps rfl
      refine Keeps.step ?_ ringError_keeps rfl
      exact Keeps.rfl
    intro _
    try clear_value x4
    refine Keeps.step ?_ setSub_keeps rfl
    assumption
  refine Keeps.step ?_ setSub_keeps rfl
  exact Keeps.rfl

theorem effCompDoorbell_keeps {s fn ring d} :
    Keeps 16801793 s (effCompDoorbell s fn ring d) := by
  delta effCompDoorbell
  extract_lets -merge -useContext -underBinder +onlyGivenNames x1
  try clear_value x1
  extract_lets -merge -useContext -underBinder +onlyGivenNames x2
  try clear_value x2
  refine keeps_ite (fun x => x) ?_ ?_
  · refine Keeps.step ?_ ringError_keeps rfl
    exact Keeps.rfl
  extract_lets -merge -useContext -underBinder +onlyGivenNames x3
  try clear_value x3
  refine keeps_ite (fun x => x) ?_ ?_
  · refine Keeps.step ?_ recordRing_keeps rfl
    refine Keeps.step ?_ ringError_keeps rfl
    exact Keeps.rfl
  refine Keeps.step ?_ setComp_keeps rfl
  exact Keeps.rfl

theorem effTokenDoorbell_keeps {s fn sess d} :
    Keeps 16795649 s (effTokenDoorbell s fn sess d) := by
  delta effTokenDoorbell
  extract_lets -merge -useContext -underBinder +onlyGivenNames x1
  try clear_value x1
  extract_lets -merge -useContext -underBinder +onlyGivenNames x2
  try clear_value x2
  refine keeps_ite (fun x => x) ?_ ?_
  · refine Keeps.step ?_ ringError_keeps rfl
    exact Keeps.rfl
  extract_lets -merge -useContext -underBinder +onlyGivenNames x3
  try clear_value x3
  refine keeps_ite (fun x => x) ?_ ?_
  · refine Keeps.step ?_ recordRing_keeps rfl
    refine Keeps.step ?_ ringError_keeps rfl
    exact Keeps.rfl
  refine keeps_ite (fun x => x) ?_ ?_
  · exact Keeps.rfl
  refine Keeps.step ?_ setSess_keeps rfl
  exact Keeps.rfl

theorem effBitmapDoorbell_keeps {s fn sess d} :
    Keeps 4311744513 s (effBitmapDoorbell s fn sess d) := by
  delta effBitmapDoorbell
  extract_lets -merge -useContext -underBinder +onlyGivenNames x1
  try clear_value x1
  extract_lets -merge -useContext -underBinder +onlyGivenNames x2
  try clear_value x2
  refine keeps_ite (fun x => x) ?_ ?_
  · refine Keeps.step ?_ ringError_keeps rfl
    exact Keeps.rfl
  refine keeps_ite (fun x => x) ?_ ?_
  · exact Keeps.rfl
  extract_lets -merge -useContext -underBinder +onlyGivenNames x3
  try clear_value x3
  refine keeps_foldl (fun x => x) _ _ ?_ ?_
  · exact Keeps.rfl
  intro _ _ _
  refine Keeps.step ?_ askSlot_keeps rfl
  assumption

theorem effSlotRead_keeps {s sess slot data} :
    Keeps 15361 s (effSlotRead s sess slot data) := by
  delta effSlotRead
  extract_lets -merge -useContext -underBinder +onlyGivenNames x1
  try clear_value x1
  refine keeps_ite (fun x => x) ?_ ?_
  · exact Keeps.rfl
  split
  · refine Keeps.step ?_ setSess_keeps rfl
    exact Keeps.rfl
  extract_lets -merge -useContext -underBinder +onlyGivenNames x2
  refine Keeps.cut (n := 15361) (s := s) x2 ?_ ?_
  · subst x2
    refine Keeps.step ?_ bump_keeps rfl
    exact Keeps.rfl
  intro _
  try clear_value x2
  split
  · refine keeps_ite (fun x => x) ?_ ?_
    · extract_lets -merge -useContext -underBinder +onlyGivenNames x3
      refine Keeps.cut (n := 15361) (s := s) x3 ?_ ?_
      · subst x3
        split
        · refine keeps_ite (fun x => x) ?_ ?_
          · assumption
          refine Keeps.step ?_ updLane_keeps rfl
          assumption
        assumption
      intro _
      try clear_value x3
      refine Keeps.step ?_ finishCmd_keeps rfl
      assumption
    assumption
  assumption

theorem takeEntry_keeps {s ring e} :
    Keeps 12288 s (takeEntry s ring e) := by
  delta takeEntry
  refine keeps_ite (fun x => x) ?_ ?_
  · refine Keeps.step ?_ updSub_keeps rfl
    exact Keeps.rfl
  refine Keeps.step ?_ complete_keeps rfl
  exact Keeps.rfl

theorem effFetch_keeps {s ring entry} :
    Keeps 4416630785 s (effFetch s ring entry) := by
  delta effFetch
  refine keeps_ite (fun x => x) ?_ ?_
  · exact Keeps.rfl
  extract_lets -merge -useContext -underBinder +onlyGivenNames x1
  try clear_value x1
  extract_lets -merge -useContext -underBinder +onlyGivenNames x2
  refine Keeps.cut (n := 4416630785) (s := s) x2 ?_ ?_
  · subst x2
    refine keeps_ite (fun x => x) ?_ ?_
    · refine Keeps.step ?_ (keeps_served1 _ _) rfl
      exact Keeps.rfl
    refine Keeps.step ?_ (keeps_served0 _ _) rfl
    exact Keeps.rfl
  intro _
  try clear_value x2
  split
  · extract_lets -merge -useContext -underBinder +onlyGivenNames x3
    refine Keeps.cut (n := 4416630785) (s := s) x3 ?_ ?_
    · subst x3
      refine Keeps.step ?_ bump_keeps rfl
      assumption
    intro _
    try clear_value x3
    extract_lets -merge -useContext -underBinder +onlyGivenNames x4
    refine Keeps.cut (n := 4416630785) (s := s) x4 ?_ ?_
    · subst x4
      split
      · refine Keeps.step ?_ ringError_keeps rfl
        assumption
      assumption
    intro _
    try clear_value x4
    refine Keeps.step ?_ setSub_keeps rfl
    refine Keeps.step ?_ recordRing_keeps rfl
    assumption
  extract_lets -merge -useContext -underBinder +onlyGivenNames x5
  try clear_value x5
  extract_lets -merge -useContext -underBinder +onlyGivenNames x6
  refine Keeps.cut (n := 4416630785) (s := s) x6 ?_ ?_
  · subst x6
    refine Keeps.step ?_ setSub_keeps rfl
    assumption
  intro _
  try clear_value x6
  refine keeps_ite (fun x => x) ?_ ?_
  · refine Keeps.step ?_ sendShadow_keeps rfl
    assumption
  refine Keeps.step ?_ takeEntry_keeps rfl
  assumption

theorem interrupt_keeps {s ring} :
    Keeps 4294975488 s (interrupt s ring) := by
  delta interrupt
  extract_lets -merge -useContext -underBinder +onlyGivenNames x1
  try clear_value x1
  extract_lets -merge -useContext -underBinder +onlyGivenNames x2
  refine Keeps.cut (n := 4294975488) (s := s) x2 ?_ ?_
  · subst x2
    refine Keeps.step ?_ setComp_keeps rfl
    exact Keeps.rfl
  intro _
  try clear_value x2
  split
  · refine Keeps.step ?_ emit_keeps rfl
    assumption
  assumption

theorem afterPost_keeps {s ring c} :
    Keeps 4303448065 s (afterPost s ring c) := by
  delta afterPost
  extract_lets -merge -useContext -underBinder +onlyGivenNames x1
  try clear_value x1
  extract_lets -merge -useContext -underBinder +onlyGivenNames x2
  refine Keeps.cut (n := 4303448065) (s := s) x2 ?_ ?_
  · subst x2
    refine keeps_ite (fun x => x) ?_ ?_
    · refine Keeps.step ?_ interrupt_keeps rfl
      exact Keeps.rfl
    exact Keeps.rfl
  intro _
  try clear_value x2
  split
  · refine Keeps.step ?_ clearSession_keeps rfl
    assumption
  assumption

theorem effPost_keeps {s ring} :
    Keeps 4307642369 s (effPost s ring) := by
  delta effPost
  extract_lets -merge -useContext -underBinder +onlyGivenNames x1
  try clear_value x1
  extract_lets -merge -useContext -underBinder +onlyGivenNames x2
  try clear_value x2
  split
  · exact Keeps.rfl
  extract_lets -merge -useContext -underBinder +onlyGivenNames x3
  try clear_value x3
  extract_lets -merge -useContext -underBinder +onlyGivenNames x4
  try clear_value x4
  extract_lets -merge -useContext -underBinder +onlyGivenNames x5
  try clear_value x5
  refine keeps_ite (fun x => x) ?_ ?_
  · exact Keeps.rfl
  refine keeps_ite (fun x => x) ?_ ?_
  · refine keeps_ite (fun x => x) ?_ ?_
    · exact Keeps.rfl
    extract_lets -merge -useContext -underBinder +onlyGivenNames x6
    refine Keeps.cut (n := 4307642369) (s := s) x6 ?_ ?_
    · subst x6
      refine Keeps.step ?_ setComp_keeps rfl
      exact Keeps.rfl
    intro _
    try clear_value x6
    refine Keeps.step ?_ sendShadow_keeps rfl
    assumption
  extract_lets -merge -useContext -underBinder +onlyGivenNames x7
  refine Keeps.cut (n := 4307642369) (s := s) x7 ?_ ?_
  · subst x7
    refine Keeps.step ?_ hostOut_keeps rfl
    exact Keeps.rfl
  intro _
  try clear_value x7
  extract_lets -merge -useContext -underBinder +onlyGivenNames x8
  refine Keeps.cut (n := 4307642369) (s := s) x8 ?_ ?_
  · subst x8
    refine Keeps.step ?_ setComp_keeps rfl
    assumption
  intro _
  try clear_value x8
  refine Keeps.step ?_ afterPost_keeps rfl
  assumption

theorem effCoalesce_keeps {s ring} :
    Keeps 4294975488 s (effCoalesce s ring) := by
  delta effCoalesce
  refine keeps_ite (fun x => x) ?_ ?_
  · exact Keeps.rfl
  refine Keeps.step ?_ interrupt_keeps rfl
  exact Keeps.rfl

theorem judgeInterval_keeps {s sess ns replays cadence} :
    Keeps 16385 s (judgeInterval s sess ns replays cadence) := by
  delta judgeInterval
  extract_lets -merge -useContext -underBinder +onlyGivenNames x1
  try clear_value x1
  extract_lets -merge -useContext -underBinder +onlyGivenNames x2
  try clear_value x2
  extract_lets -merge -useContext -underBinder +onlyGivenNames x3
  refine Keeps.cut (n := 16385) (s := s) x3 ?_ ?_
  · subst x3
    refine Keeps.step ?_ odMax_keeps rfl
    exact Keeps.rfl
  intro _
  try clear_value x3
  refine keeps_ite (fun x => x) ?_ ?_
  · assumption
  extract_lets -merge -useContext -underBinder +onlyGivenNames x4
  try clear_value x4
  extract_lets -merge -useContext -underBinder +onlyGivenNames x5
  refine Keeps.cut (n := 16385) (s := s) x5 ?_ ?_
  · subst x5
    refine Keeps.step ?_ bump_keeps rfl
    assumption
  intro _
  try clear_value x5
  refine Keeps.step ?_ recordEvent_keeps rfl
  assumption

theorem effRelease_keeps {s sess ns replays cadence} :
    Keeps 4299180033 s (effRelease s sess ns replays cadence) := by
  delta effRelease
  extract_lets -merge -useContext -underBinder +onlyGivenNames x1
  try clear_value x1
  split
  · exact Keeps.rfl
  refine keeps_ite (fun x => x) ?_ ?_
  · exact Keeps.rfl
  extract_lets -merge -useContext -underBinder +onlyGivenNames x2
  refine Keeps.cut (n := 4299180033) (s := s) x2 ?_ ?_
  · subst x2
    refine keeps_ite (fun x => x) ?_ ?_
    · refine Keeps.step ?_ judgeInterval_keeps rfl
      exact Keeps.rfl
    exact Keeps.rfl
  intro _
  try clear_value x2
  extract_lets -merge -useContext -underBinder +onlyGivenNames x3
  try clear_value x3
  extract_lets -merge -useContext -underBinder +onlyGivenNames x4
  refine Keeps.cut (n := 4299180033) (s := s) x4 ?_ ?_
  · subst x4
    refine Keeps.step ?_ hostOut_keeps rfl
    assumption
  intro _
  try clear_value x4
  refine Keeps.step ?_ setSess_keeps rfl
  assumption

end Sys2Proof.Machine
end

