-- ==== Sys2Proof/Laws/KeepsCoreCmds.lean ====
section
/-! SUPPORT. What the operations of Machine/CoreCmds.lean leave as it was. -/

namespace Sys2Proof.Machine


theorem noteArrivals_keeps {old s p} :
    Keeps 12884902912 s (noteArrivals old s p) := by
  delta noteArrivals
  extract_lets -merge -useContext -underBinder +onlyGivenNames x1
  try clear_value x1
  extract_lets -merge -useContext -underBinder +onlyGivenNames x2
  try clear_value x2
  refine keeps_ite (fun x => x) ?_ ?_
  · exact Keeps.rfl
  refine Keeps.step ?_ jobArrival_keeps rfl
  exact Keeps.rfl

theorem goOn_keeps {old s ci} :
    Keeps 12886003693 s (goOn old s ci) := by
  delta goOn
  extract_lets -merge -useContext -underBinder +onlyGivenNames x1
  refine Keeps.cut (n := 12886003693) (s := s) x1 ?_ ?_
  · subst x1
    refine Keeps.step ?_ resume_keeps rfl
    exact Keeps.rfl
  intro _
  try clear_value x1
  split
  · refine Keeps.step ?_ noteArrivals_keeps rfl
    assumption
  assumption

theorem goOnAll_keeps {old s} :
    Keeps 12886003693 s (goOnAll old s) := by
  delta goOnAll
  refine keeps_foldl (fun x => x) _ _ ?_ ?_
  · exact Keeps.rfl
  intro _ _ _
  refine keeps_ite (fun x => x) ?_ ?_
  · refine Keeps.step ?_ noteArrivals_keeps rfl
    refine Keeps.step ?_ resumeAll_keeps rfl
    assumption
  assumption

theorem runCore_keeps {s ci w} :
    Keeps 12886003693 s (runCore s ci w) := by
  delta runCore
  refine Keeps.step ?_ goOn_keeps rfl
  refine Keeps.step ?_ coreCmd_keeps rfl
  exact Keeps.rfl

theorem coreStep_keeps {s at_ env cmd t} (h : coreStep s at_ env cmd = .next t) :
    Keeps 12886003693 s t := by
  delta coreStep at h
  refine keeps_at ?_ h
  refine Keeps.step ?_ runCore_keeps rfl
  exact Keeps.rfl

theorem vecStep_keeps {s at_ env fn a t} (h : vecStep s at_ env fn a = .next t) :
    Keeps 12886003693 s t := by
  delta vecStep at h
  refine Keeps.step ?_ (coreStep_keeps h) rfl
  exact Keeps.rfl

theorem execNop_keeps {at_ env s t} (h : execNop at_ env s = .next t) :
    Keeps 12886003693 s t := by
  delta execNop at h
  refine Keeps.step ?_ (coreStep_keeps h) rfl
  exact Keeps.rfl

theorem execDesc_keeps {at_ env a s t} (h : execDesc at_ env a s = .next t) :
    Keeps 12886003693 s t := by
  delta execDesc at h
  refine Keeps.step ?_ (coreStep_keeps h) rfl
  exact Keeps.rfl

theorem execHurdleArriveWait_keeps {at_ env a s t} (h : execHurdleArriveWait at_ env a s = .next t) :
    Keeps 12886003693 s t := by
  delta execHurdleArriveWait at h
  refine Keeps.step ?_ (coreStep_keeps h) rfl
  exact Keeps.rfl

theorem execHurdleArrive_keeps {at_ env a s t} (h : execHurdleArrive at_ env a s = .next t) :
    Keeps 12886003693 s t := by
  delta execHurdleArrive at h
  refine Keeps.step ?_ (coreStep_keeps h) rfl
  exact Keeps.rfl

theorem execHurdleWait_keeps {at_ env a s t} (h : execHurdleWait at_ env a s = .next t) :
    Keeps 12886003693 s t := by
  delta execHurdleWait at h
  refine Keeps.step ?_ (coreStep_keeps h) rfl
  exact Keeps.rfl

theorem execFence_keeps {at_ env engines s t} (h : execFence at_ env engines s = .next t) :
    Keeps 12886003693 s t := by
  delta execFence at h
  refine Keeps.step ?_ (coreStep_keeps h) rfl
  exact Keeps.rfl

theorem execBankPowerOff_keeps {at_ env mask s t} (h : execBankPowerOff at_ env mask s = .next t) :
    Keeps 12886003693 s t := by
  delta execBankPowerOff at h
  refine Keeps.step ?_ (coreStep_keeps h) rfl
  exact Keeps.rfl

theorem execBankPowerOn_keeps {at_ env mask s t} (h : execBankPowerOn at_ env mask s = .next t) :
    Keeps 12886003693 s t := by
  delta execBankPowerOn at h
  refine Keeps.step ?_ (coreStep_keeps h) rfl
  exact Keeps.rfl

theorem execMma_keeps {at_ env a s t} (h : execMma at_ env a s = .next t) :
    Keeps 12886003693 s t := by
  delta execMma at h
  refine Keeps.step ?_ (coreStep_keeps h) rfl
  exact Keeps.rfl

theorem execArrMvm_keeps {at_ env a s t} (h : execArrMvm at_ env a s = .next t) :
    Keeps 12886003693 s t := by
  delta execArrMvm at h
  refine Keeps.step ?_ (coreStep_keeps h) rfl
  exact Keeps.rfl

theorem execArrWrite_keeps {at_ env a s t} (h : execArrWrite at_ env a s = .next t) :
    Keeps 12886003693 s t := by
  delta execArrWrite at h
  refine Keeps.step ?_ (coreStep_keeps h) rfl
  exact Keeps.rfl

theorem attnStep_keeps {s at_ env op a bad t} (h : attnStep s at_ env op a bad = .next t) :
    Keeps 12886003693 s t := by
  delta attnStep at h
  refine keeps_at ?_ h
  refine Keeps.step ?_ runCore_keeps rfl
  exact Keeps.rfl

theorem execAttnFull_keeps {at_ env a bad s t} (h : execAttnFull at_ env a bad s = .next t) :
    Keeps 12886003693 s t := by
  delta execAttnFull at h
  refine Keeps.step ?_ (attnStep_keeps h) rfl
  exact Keeps.rfl

theorem execAttnPartial_keeps {at_ env a bad s t} (h : execAttnPartial at_ env a bad s = .next t) :
    Keeps 12886003693 s t := by
  delta execAttnPartial at h
  refine Keeps.step ?_ (attnStep_keeps h) rfl
  exact Keeps.rfl

theorem execAttnMerge_keeps {at_ env a s t} (h : execAttnMerge at_ env a s = .next t) :
    Keeps 12886003693 s t := by
  delta execAttnMerge at h
  refine Keeps.step ?_ (attnStep_keeps h) rfl
  exact Keeps.rfl

theorem execCopy_keeps {at_ env a s t} (h : execCopy at_ env a s = .next t) :
    Keeps 12886003693 s t := by
  delta execCopy at h
  refine Keeps.step ?_ (vecStep_keeps h) rfl
  exact Keeps.rfl

theorem execAdd_keeps {at_ env a s t} (h : execAdd at_ env a s = .next t) :
    Keeps 12886003693 s t := by
  delta execAdd at h
  refine Keeps.step ?_ (vecStep_keeps h) rfl
  exact Keeps.rfl

theorem execSub_keeps {at_ env a s t} (h : execSub at_ env a s = .next t) :
    Keeps 12886003693 s t := by
  delta execSub at h
  refine Keeps.step ?_ (vecStep_keeps h) rfl
  exact Keeps.rfl

theorem execMul_keeps {at_ env a s t} (h : execMul at_ env a s = .next t) :
    Keeps 12886003693 s t := by
  delta execMul at h
  refine Keeps.step ?_ (vecStep_keeps h) rfl
  exact Keeps.rfl

theorem execFma_keeps {at_ env a s t} (h : execFma at_ env a s = .next t) :
    Keeps 12886003693 s t := by
  delta execFma at h
  refine Keeps.step ?_ (vecStep_keeps h) rfl
  exact Keeps.rfl

theorem execMax_keeps {at_ env a s t} (h : execMax at_ env a s = .next t) :
    Keeps 12886003693 s t := by
  delta execMax at h
  refine Keeps.step ?_ (vecStep_keeps h) rfl
  exact Keeps.rfl

theorem execMin_keeps {at_ env a s t} (h : execMin at_ env a s = .next t) :
    Keeps 12886003693 s t := by
  delta execMin at h
  refine Keeps.step ?_ (vecStep_keeps h) rfl
  exact Keeps.rfl

theorem execScale_keeps {at_ env a s t} (h : execScale at_ env a s = .next t) :
    Keeps 12886003693 s t := by
  delta execScale at h
  refine Keeps.step ?_ (vecStep_keeps h) rfl
  exact Keeps.rfl

theorem execExp_keeps {at_ env a s t} (h : execExp at_ env a s = .next t) :
    Keeps 12886003693 s t := by
  delta execExp at h
  refine Keeps.step ?_ (vecStep_keeps h) rfl
  exact Keeps.rfl

theorem execRecip_keeps {at_ env a s t} (h : execRecip at_ env a s = .next t) :
    Keeps 12886003693 s t := by
  delta execRecip at h
  refine Keeps.step ?_ (vecStep_keeps h) rfl
  exact Keeps.rfl

theorem execRsqrt_keeps {at_ env a s t} (h : execRsqrt at_ env a s = .next t) :
    Keeps 12886003693 s t := by
  delta execRsqrt at h
  refine Keeps.step ?_ (vecStep_keeps h) rfl
  exact Keeps.rfl

theorem execSilu_keeps {at_ env a s t} (h : execSilu at_ env a s = .next t) :
    Keeps 12886003693 s t := by
  delta execSilu at h
  refine Keeps.step ?_ (vecStep_keeps h) rfl
  exact Keeps.rfl

theorem execGelu_keeps {at_ env a s t} (h : execGelu at_ env a s = .next t) :
    Keeps 12886003693 s t := by
  delta execGelu at h
  refine Keeps.step ?_ (vecStep_keeps h) rfl
  exact Keeps.rfl

theorem execSigmoid_keeps {at_ env a s t} (h : execSigmoid at_ env a s = .next t) :
    Keeps 12886003693 s t := by
  delta execSigmoid at h
  refine Keeps.step ?_ (vecStep_keeps h) rfl
  exact Keeps.rfl

theorem execTanh_keeps {at_ env a s t} (h : execTanh at_ env a s = .next t) :
    Keeps 12886003693 s t := by
  delta execTanh at h
  refine Keeps.step ?_ (vecStep_keeps h) rfl
  exact Keeps.rfl

theorem execSum_keeps {at_ env a s t} (h : execSum at_ env a s = .next t) :
    Keeps 12886003693 s t := by
  delta execSum at h
  refine Keeps.step ?_ (vecStep_keeps h) rfl
  exact Keeps.rfl

theorem execMaxr_keeps {at_ env a s t} (h : execMaxr at_ env a s = .next t) :
    Keeps 12886003693 s t := by
  delta execMaxr at h
  refine Keeps.step ?_ (vecStep_keeps h) rfl
  exact Keeps.rfl

theorem execSumsq_keeps {at_ env a s t} (h : execSumsq at_ env a s = .next t) :
    Keeps 12886003693 s t := by
  delta execSumsq at h
  refine Keeps.step ?_ (vecStep_keeps h) rfl
  exact Keeps.rfl

theorem execRmsnorm_keeps {at_ env a s t} (h : execRmsnorm at_ env a s = .next t) :
    Keeps 12886003693 s t := by
  delta execRmsnorm at h
  refine Keeps.step ?_ (vecStep_keeps h) rfl
  exact Keeps.rfl

theorem execLayernorm_keeps {at_ env a s t} (h : execLayernorm at_ env a s = .next t) :
    Keeps 12886003693 s t := by
  delta execLayernorm at h
  refine Keeps.step ?_ (vecStep_keeps h) rfl
  exact Keeps.rfl

theorem execSoftmax_keeps {at_ env a s t} (h : execSoftmax at_ env a s = .next t) :
    Keeps 12886003693 s t := by
  delta execSoftmax at h
  refine Keeps.step ?_ (vecStep_keeps h) rfl
  exact Keeps.rfl

theorem execRope_keeps {at_ env a s t} (h : execRope at_ env a s = .next t) :
    Keeps 12886003693 s t := by
  delta execRope at h
  refine Keeps.step ?_ (vecStep_keeps h) rfl
  exact Keeps.rfl

theorem execQuant_keeps {at_ env a s t} (h : execQuant at_ env a s = .next t) :
    Keeps 12886003693 s t := by
  delta execQuant at h
  refine Keeps.step ?_ (vecStep_keeps h) rfl
  exact Keeps.rfl

theorem execDequant_keeps {at_ env a s t} (h : execDequant at_ env a s = .next t) :
    Keeps 12886003693 s t := by
  delta execDequant at h
  refine Keeps.step ?_ (vecStep_keeps h) rfl
  exact Keeps.rfl

theorem execTopk_keeps {at_ env a s t} (h : execTopk at_ env a s = .next t) :
    Keeps 12886003693 s t := by
  delta execTopk at h
  refine Keeps.step ?_ (vecStep_keeps h) rfl
  exact Keeps.rfl

theorem execOutlier_keeps {at_ env a s t} (h : execOutlier at_ env a s = .next t) :
    Keeps 12886003693 s t := by
  delta execOutlier at h
  refine Keeps.step ?_ (vecStep_keeps h) rfl
  exact Keeps.rfl

theorem execCheck_keeps {at_ env a s t} (h : execCheck at_ env a s = .next t) :
    Keeps 12886003693 s t := by
  delta execCheck at h
  refine Keeps.step ?_ (vecStep_keeps h) rfl
  exact Keeps.rfl

theorem execGuardCheck_keeps {at_ env a s t} (h : execGuardCheck at_ env a s = .next t) :
    Keeps 12886003693 s t := by
  delta execGuardCheck at h
  refine Keeps.step ?_ (vecStep_keeps h) rfl
  exact Keeps.rfl

theorem execDmaCopyStackToScratch_keeps {at_ env a s t} (h : execDmaCopyStackToScratch at_ env a s = .next t) :
    Keeps 12886003693 s t := by
  delta execDmaCopyStackToScratch at h
  refine Keeps.step ?_ (coreStep_keeps h) rfl
  exact Keeps.rfl

theorem execDmaCopyScratchToStack_keeps {at_ env a s t} (h : execDmaCopyScratchToStack at_ env a s = .next t) :
    Keeps 12886003693 s t := by
  delta execDmaCopyScratchToStack at h
  refine Keeps.step ?_ (coreStep_keeps h) rfl
  exact Keeps.rfl

theorem execDmaCopyScratchToCore_keeps {at_ env a s t} (h : execDmaCopyScratchToCore at_ env a s = .next t) :
    Keeps 12886003693 s t := by
  delta execDmaCopyScratchToCore at h
  refine Keeps.step ?_ (coreStep_keeps h) rfl
  exact Keeps.rfl

theorem execDmaCopyEdgeToScratch_keeps {at_ env a s t} (h : execDmaCopyEdgeToScratch at_ env a s = .next t) :
    Keeps 12886003693 s t := by
  delta execDmaCopyEdgeToScratch at h
  refine Keeps.step ?_ (coreStep_keeps h) rfl
  exact Keeps.rfl

theorem execDmaCopyScratchToEdge_keeps {at_ env a s t} (h : execDmaCopyScratchToEdge at_ env a s = .next t) :
    Keeps 12886003693 s t := by
  delta execDmaCopyScratchToEdge at h
  refine Keeps.step ?_ (coreStep_keeps h) rfl
  exact Keeps.rfl

theorem execDmaWait_keeps {at_ env counter threshold s t} (h : execDmaWait at_ env counter threshold s = .next t) :
    Keeps 12886003693 s t := by
  delta execDmaWait at h
  refine Keeps.step ?_ (coreStep_keeps h) rfl
  exact Keeps.rfl

theorem execCgather_keeps {at_ env a s t} (h : execCgather at_ env a s = .next t) :
    Keeps 12886003693 s t := by
  delta execCgather at h
  refine Keeps.step ?_ (coreStep_keeps h) rfl
  exact Keeps.rfl

theorem execCinval_keeps {at_ env s t} (h : execCinval at_ env s = .next t) :
    Keeps 12886003693 s t := by
  delta execCinval at h
  refine Keeps.step ?_ (coreStep_keeps h) rfl
  exact Keeps.rfl

theorem coreEvent_keeps {n : Nat} {s0 : State} {s at_ f t} (h : Keeps n s0 s)
    (hf : ∀ ci, Keeps n s0 (f ci)) (hn : 12886003693 ||| n = n) (hr : coreEvent s at_ f = .next t) : Keeps n s0 t := by
  refine keeps_at ?_ hr
  exact Keeps.step (hf _) (goOn_keeps.mono hn) (Nat.or_self n)

theorem execEngineCommandComplete_keeps {at_ e progParity s t} (h : execEngineCommandComplete at_ e progParity s = .next t) :
    Keeps 12886003693 s t := by
  delta execEngineCommandComplete at h
  refine coreEvent_keeps ?_ ?_ rfl h
  · exact Keeps.rfl
  intro _
  refine Keeps.step ?_ effEngineDone_keeps rfl
  exact Keeps.rfl

theorem execStreamedCommandArrival_keeps {at_ progParity s t} (h : execStreamedCommandArrival at_ progParity s = .next t) :
    Keeps 12886003693 s t := by
  delta execStreamedCommandArrival at h
  refine coreEvent_keeps ?_ ?_ rfl h
  · exact Keeps.rfl
  intro _
  refine Keeps.step ?_ effStreamed_keeps rfl
  exact Keeps.rfl

theorem execDmaTransferComplete_keeps {at_ index fin data s t} (h : execDmaTransferComplete at_ index fin data s = .next t) :
    Keeps 12886331389 s t := by
  delta execDmaTransferComplete at h
  extract_lets -merge -useContext -underBinder +onlyGivenNames x1 at h
  refine Keeps.cut (n := 12886331389) (s := s) x1 ?_ ?_
  · subst x1
    refine Keeps.step ?_ goOn_keeps rfl
    refine Keeps.step ?_ effXferDone_keeps rfl
    exact Keeps.rfl
  intro _
  try clear_value x1
  refine keeps_at ?_ h
  refine Keeps.step ?_ goOnAll_keeps rfl
  assumption

theorem execBankPowerUpComplete_keeps {at_ bank s t} (h : execBankPowerUpComplete at_ bank s = .next t) :
    Keeps 12886003693 s t := by
  delta execBankPowerUpComplete at h
  split at h
  · refine coreEvent_keeps ?_ ?_ rfl h
    · exact Keeps.rfl
    intro _
    refine Keeps.step ?_ effBankUp_keeps rfl
    exact Keeps.rfl
  cases h

theorem execBankSwitchOff_keeps {at_ bank s t} (h : execBankSwitchOff at_ bank s = .next t) :
    Keeps 12886003693 s t := by
  delta execBankSwitchOff at h
  split at h
  · refine coreEvent_keeps ?_ ?_ rfl h
    · exact Keeps.rfl
    intro _
    refine Keeps.step ?_ effBankSwitchOff_keeps rfl
    exact Keeps.rfl
  cases h

theorem execCacheFill_keeps {at_ index parity s t} (h : execCacheFill at_ index parity s = .next t) :
    Keeps 12886003693 s t := by
  delta execCacheFill at h
  refine coreEvent_keeps ?_ ?_ rfl h
  · exact Keeps.rfl
  intro _
  refine Keeps.step ?_ effCacheFill_keeps rfl
  exact Keeps.rfl

end Sys2Proof.Machine
end

