-- ==== Sys2Proof/Laws/KeepsSampling.lean ====
section
/-! SUPPORT. What the operations of Machine/Sampling.lean leave as it was. -/

namespace Sys2Proof.Machine

theorem effSampling_keeps {s sess samples drafts parity} :
    Keeps 8589937665 s (effSampling s sess samples drafts parity) := by
  delta effSampling
  extract_lets -merge -useContext -underBinder +onlyGivenNames x1
  try clear_value x1
  extract_lets -merge -useContext -underBinder +onlyGivenNames x2
  try clear_value x2
  split
  · extract_lets -merge -useContext -underBinder +onlyGivenNames x3
    try clear_value x3
    refine keeps_ite (fun x => x) ?_ ?_
    · exact Keeps.rfl
    extract_lets -merge -useContext -underBinder +onlyGivenNames x4
    try clear_value x4
    extract_lets -merge -useContext -underBinder +onlyGivenNames x5
    try clear_value x5
    extract_lets -merge -useContext -underBinder +onlyGivenNames x6
    refine Keeps.cut (n := 8589937665) (s := s) x6 ?_ ?_
    · subst x6
      refine Keeps.step ?_ (keeps_free _ _) rfl
      exact Keeps.rfl
    intro _
    try clear_value x6
    extract_lets -merge -useContext -underBinder +onlyGivenNames x7
    refine Keeps.cut (n := 8589937665) (s := s) x7 ?_ ?_
    · subst x7
      refine keeps_foldl (fun x => x) _ _ ?_ ?_
      · assumption
      intro _ _ _
      extract_lets -merge -useContext -underBinder +onlyGivenNames x8
      refine Keeps.cut (n := 8589937665) (s := s) x8 ?_ ?_
      · subst x8
        refine keeps_ite (fun x => x) ?_ ?_
        · assumption
        refine Keeps.step ?_ bump_keeps rfl
        assumption
      intro _
      try clear_value x8
      refine keeps_ite (fun x => x) ?_ ?_
      · refine Keeps.step ?_ bump_keeps rfl
        assumption
      assumption
    intro _
    try clear_value x7
    extract_lets -merge -useContext -underBinder +onlyGivenNames x9
    refine Keeps.cut (n := 8589937665) (s := s) x9 ?_ ?_
    · subst x9
      refine keeps_ite (fun x => x) ?_ ?_
      · refine Keeps.step ?_ updPart_keeps rfl
        assumption
      assumption
    intro _
    try clear_value x9
    refine Keeps.step ?_ updSess_keeps rfl
    assumption
  exact Keeps.rfl

end Sys2Proof.Machine
end

