-- ==== Sys2Proof/Laws/KeepsSessionCmds.lean ====
section
/-! SUPPORT. What the operations of Machine/SessionCmds.lean leave as it was. -/

namespace Sys2Proof.Machine

theorem refuseEntry_keeps {s ring e status result} :
    Keeps 12288 s (refuseEntry s ring e status result) := by
  delta refuseEntry
  refine Keeps.step ?_ complete_keeps rfl
  exact Keeps.rfl

theorem takeHead_keeps {n : Nat} {s0 : State} {s ring op go} (h : Keeps n s0 s)
    (hf : ∀ s e, Keeps n s0 s → Keeps n s0 (go s e)) (hn : 4096 ||| n = n) : Keeps n s0 (takeHead s ring op go) := by
  delta takeHead
  split
  · exact h
  · refine keeps_ite (fun x => x) ?_ h
    exact hf _ _ (Keeps.step h (updSub_keeps.mono (keeps_lor rfl hn)) (Nat.or_self n))

theorem onSession_keeps {n : Nat} {s0 : State} {s ring e ok go cancel} (h : Keeps n s0 s)
    (hf : ∀ x, Keeps n s0 (go x)) (hn : 12288 ||| n = n) : Keeps n s0 (onSession s ring e ok go cancel) := by
  have hr : ∀ st, Keeps n s0 (refuseEntry s ring e st) := fun st =>
    Keeps.step h (refuseEntry_keeps.mono (keeps_lor rfl hn)) (Nat.or_self n)
  delta onSession
  refine keeps_ite (fun x => x) (hr _) ?_
  split
  · exact hr _
  · exact hf _

theorem onActive_keeps {n : Nat} {s0 : State} {s ring e ok go} (h : Keeps n s0 s)
    (hf : ∀ x, Keeps n s0 (go x)) (hn : 12288 ||| n = n) : Keeps n s0 (onActive s ring e ok go) := by
  have hr : ∀ st, Keeps n s0 (refuseEntry s ring e st) := fun st =>
    Keeps.step h (refuseEntry_keeps.mono (keeps_lor rfl hn)) (Nat.or_self n)
  delta onActive
  refine onSession_keeps h (fun x => ?_) hn
  exact keeps_ite (fun x => x) (hr _) (keeps_ite (fun x => x) (hr _) (hf _))

theorem pushCmd_keeps {s sess c} :
    Keeps 2048 s (pushCmd s sess c) := by
  delta pushCmd
  refine Keeps.step ?_ updSess_keeps rfl
  exact Keeps.rfl

theorem effOpen_keeps {s ring} :
    Keeps 14336 s (effOpen s ring) := by
  delta effOpen
  refine takeHead_keeps ?_ ?_ rfl
  · exact Keeps.rfl
  intro _ _ _
  extract_lets -merge -useContext -underBinder +onlyGivenNames x1
  try clear_value x1
  extract_lets -merge -useContext -underBinder +onlyGivenNames x2
  try clear_value x2
  extract_lets -merge -useContext -underBinder +onlyGivenNames x3
  try clear_value x3
  extract_lets -merge -useContext -underBinder +onlyGivenNames x4
  try clear_value x4
  extract_lets -merge -useContext -underBinder +onlyGivenNames x5
  try clear_value x5
  extract_lets -merge -useContext -underBinder +onlyGivenNames x6
  try clear_value x6
  split
  · refine Keeps.step ?_ refuseEntry_keeps rfl
    assumption
  split
  · refine Keeps.step ?_ refuseEntry_keeps rfl
    assumption
  extract_lets -merge -useContext -underBinder +onlyGivenNames x7
  try clear_value x7
  extract_lets -merge -useContext -underBinder +onlyGivenNames x8
  try clear_value x8
  refine Keeps.step ?_ complete_keeps rfl
  refine Keeps.step ?_ setSess_keeps rfl
  assumption

theorem effFork_keeps {s ring} :
    Keeps 14336 s (effFork s ring) := by
  delta effFork
  refine takeHead_keeps ?_ ?_ rfl
  · exact Keeps.rfl
  intro _ _ _
  refine onActive_keeps ?_ ?_ rfl
  · assumption
  intro _
  extract_lets -merge -useContext -underBinder +onlyGivenNames x1
  try clear_value x1
  extract_lets -merge -useContext -underBinder +onlyGivenNames x2
  try clear_value x2
  extract_lets -merge -useContext -underBinder +onlyGivenNames x3
  try clear_value x3
  split
  · refine Keeps.step ?_ refuseEntry_keeps rfl
    assumption
  split
  · refine Keeps.step ?_ refuseEntry_keeps rfl
    assumption
  extract_lets -merge -useContext -underBinder +onlyGivenNames x4
  try clear_value x4
  refine Keeps.step ?_ pushCmd_keeps rfl
  refine Keeps.step ?_ setSess_keeps rfl
  assumption

theorem addWork_keeps {s sess c} :
    Keeps 3072 s (addWork s sess c) := by
  delta addWork
  extract_lets -merge -useContext -underBinder +onlyGivenNames x1
  try clear_value x1
  extract_lets -merge -useContext -underBinder +onlyGivenNames x2
  refine Keeps.cut (n := 3072) (s := s) x2 ?_ ?_
  · subst x2
    refine Keeps.step ?_ settleState_keeps rfl
    refine Keeps.step ?_ pushCmd_keeps rfl
    exact Keeps.rfl
  intro _
  try clear_value x2
  refine keeps_ite (fun x => x) ?_ ?_
  · refine Keeps.step ?_ stampWait_keeps rfl
    assumption
  assumption

theorem effPrompt_keeps {s ring} :
    Keeps 15360 s (effPrompt s ring) := by
  delta effPrompt
  refine takeHead_keeps ?_ ?_ rfl
  · exact Keeps.rfl
  intro _ _ _
  refine onActive_keeps ?_ ?_ rfl
  · assumption
  intro _
  extract_lets -merge -useContext -underBinder +onlyGivenNames x1
  try clear_value x1
  refine keeps_ite (fun x => x) ?_ ?_
  · refine Keeps.step ?_ refuseEntry_keeps rfl
    assumption
  extract_lets -merge -useContext -underBinder +onlyGivenNames x2
  refine Keeps.cut (n := 15360) (s := s) x2 ?_ ?_
  · subst x2
    refine Keeps.step ?_ updSess_keeps rfl
    assumption
  intro _
  try clear_value x2
  refine Keeps.step ?_ finishPrompts_keeps rfl
  refine Keeps.step ?_ addWork_keeps rfl
  assumption

theorem effGenerate_keeps {s ring random} :
    Keeps 4294982656 s (effGenerate s ring random) := by
  delta effGenerate
  refine takeHead_keeps ?_ ?_ rfl
  · exact Keeps.rfl
  intro _ _ _
  extract_lets -merge -useContext -underBinder +onlyGivenNames x1
  try clear_value x1
  refine onActive_keeps ?_ ?_ rfl
  · assumption
  intro _
  extract_lets -merge -useContext -underBinder +onlyGivenNames x2
  try clear_value x2
  refine keeps_ite (fun x => x) ?_ ?_
  · refine Keeps.step ?_ refuseEntry_keeps rfl
    assumption
  refine keeps_ite (fun x => x) ?_ ?_
  · refine Keeps.step ?_ refuseEntry_keeps rfl
    assumption
  refine keeps_ite (fun x => x) ?_ ?_
  · refine Keeps.step ?_ refuseEntry_keeps rfl
    assumption
  extract_lets -merge -useContext -underBinder +onlyGivenNames x3
  refine Keeps.cut (n := 4294982656) (s := s) x3 ?_ ?_
  · subst x3
    refine Keeps.step ?_ addWork_keeps rfl
    assumption
  intro _
  try clear_value x3
  extract_lets -merge -useContext -underBinder +onlyGivenNames x4
  refine Keeps.cut (n := 4294982656) (s := s) x4 ?_ ?_
  · subst x4
    refine Keeps.step ?_ updSess_keeps rfl
    assumption
  intro _
  try clear_value x4
  extract_lets -merge -useContext -underBinder +onlyGivenNames x5
  try clear_value x5
  extract_lets -merge -useContext -underBinder +onlyGivenNames x6
  refine Keeps.cut (n := 4294982656) (s := s) x6 ?_ ?_
  · subst x6
    refine keeps_ite (fun x => x) ?_ ?_
    · assumption
    refine Keeps.step ?_ emit_keeps rfl
    assumption
  intro _
  try clear_value x6
  refine keeps_ite (fun x => x) ?_ ?_
  · refine Keeps.step ?_ askBitmaps_keeps rfl
    assumption
  assumption

theorem effCancel_keeps {s ring} :
    Keeps 14848 s (effCancel s ring) := by
  delta effCancel
  refine takeHead_keeps ?_ ?_ rfl
  · exact Keeps.rfl
  intro _ _ _
  refine onSession_keeps ?_ ?_ rfl
  · assumption
  intro _
  extract_lets -merge -useContext -underBinder +onlyGivenNames x1
  refine Keeps.cut (n := 14848) (s := s) x1 ?_ ?_
  · subst x1
    refine Keeps.step ?_ stopPaging_keeps rfl
    assumption
  intro _
  try clear_value x1
  refine Keeps.step ?_ updSess_keeps rfl
  assumption

theorem effClose_keeps {s ring} :
    Keeps 14848 s (effClose s ring) := by
  delta effClose
  refine takeHead_keeps ?_ ?_ rfl
  · exact Keeps.rfl
  intro _ _ _
  refine onSession_keeps ?_ ?_ rfl
  · assumption
  intro _
  refine keeps_ite (fun x => x) ?_ ?_
  · refine Keeps.step ?_ refuseEntry_keeps rfl
    assumption
  refine Keeps.step ?_ pushCmd_keeps rfl
  refine Keeps.step ?_ stopPaging_keeps rfl
  assumption

theorem effKvEvict_keeps {s ring} :
    Keeps 14336 s (effKvEvict s ring) := by
  delta effKvEvict
  refine takeHead_keeps ?_ ?_ rfl
  · exact Keeps.rfl
  intro _ _ _
  refine onSession_keeps ?_ ?_ rfl
  · assumption
  intro _
  refine keeps_ite (fun x => x) ?_ ?_
  · refine Keeps.step ?_ refuseEntry_keeps rfl
    assumption
  refine Keeps.step ?_ pushCmd_keeps rfl
  assumption

theorem effKvRestore_keeps {s ring} :
    Keeps 14336 s (effKvRestore s ring) := by
  delta effKvRestore
  refine takeHead_keeps ?_ ?_ rfl
  · exact Keeps.rfl
  intro _ _ _
  refine onSession_keeps ?_ ?_ rfl
  · assumption
  intro _
  refine keeps_ite (fun x => x) ?_ ?_
  · refine Keeps.step ?_ refuseEntry_keeps rfl
    assumption
  refine Keeps.step ?_ pushCmd_keeps rfl
  assumption

theorem effBarrier_keeps {s ring} :
    Keeps 12288 s (effBarrier s ring) := by
  delta effBarrier
  extract_lets -merge -useContext -underBinder +onlyGivenNames x1
  try clear_value x1
  extract_lets -merge -useContext -underBinder +onlyGivenNames x2
  try clear_value x2
  refine keeps_ite (fun x => x) ?_ ?_
  · exact Keeps.rfl
  refine takeHead_keeps ?_ ?_ rfl
  · exact Keeps.rfl
  intro _ _ _
  refine keeps_ite (fun x => x) ?_ ?_
  · refine Keeps.step ?_ refuseEntry_keeps rfl
    assumption
  refine Keeps.step ?_ refuseEntry_keeps rfl
  assumption

theorem effWeightStage_keeps {s ring} :
    Keeps 4295045120 s (effWeightStage s ring) := by
  delta effWeightStage
  refine takeHead_keeps ?_ ?_ rfl
  · exact Keeps.rfl
  intro _ _ _
  extract_lets -merge -useContext -underBinder +onlyGivenNames x1
  try clear_value x1
  extract_lets -merge -useContext -underBinder +onlyGivenNames x2
  try clear_value x2
  refine keeps_ite (fun x => x) ?_ ?_
  · refine Keeps.step ?_ refuseEntry_keeps rfl
    assumption
  refine keeps_ite (fun x => x) ?_ ?_
  · refine Keeps.step ?_ refuseEntry_keeps rfl
    assumption
  extract_lets -merge -useContext -underBinder +onlyGivenNames x3
  try clear_value x3
  refine Keeps.step ?_ emit_keeps rfl
  refine Keeps.step ?_ setWset_keeps rfl
  assumption

theorem beginFlip_keeps {s p f} :
    Keeps 1025 s (beginFlip s p f) := by
  delta beginFlip
  refine Keeps.step ?_ odSet_keeps rfl
  refine Keeps.step ?_ updPart_keeps rfl
  exact Keeps.rfl

theorem effWeightFlip_keeps {s ring} :
    Keeps 4294980609 s (effWeightFlip s ring) := by
  delta effWeightFlip
  refine takeHead_keeps ?_ ?_ rfl
  · exact Keeps.rfl
  intro _ _ _
  extract_lets -merge -useContext -underBinder +onlyGivenNames x1
  try clear_value x1
  extract_lets -merge -useContext -underBinder +onlyGivenNames x2
  try clear_value x2
  extract_lets -merge -useContext -underBinder +onlyGivenNames x3
  try clear_value x3
  refine keeps_ite (fun x => x) ?_ ?_
  · refine Keeps.step ?_ refuseEntry_keeps rfl
    assumption
  split
  · refine Keeps.step ?_ refuseEntry_keeps rfl
    assumption
  extract_lets -merge -useContext -underBinder +onlyGivenNames x4
  try clear_value x4
  extract_lets -merge -useContext -underBinder +onlyGivenNames x5
  try clear_value x5
  extract_lets -merge -useContext -underBinder +onlyGivenNames x6
  refine Keeps.cut (n := 4294980609) (s := s) x6 ?_ ?_
  · subst x6
    refine Keeps.step ?_ beginFlip_keeps rfl
    assumption
  intro _
  try clear_value x6
  extract_lets -merge -useContext -underBinder +onlyGivenNames x7
  refine Keeps.cut (n := 4294980609) (s := s) x7 ?_ ?_
  · subst x7
    refine Keeps.step ?_ updPart_keeps rfl
    assumption
  intro _
  try clear_value x7
  extract_lets -merge -useContext -underBinder +onlyGivenNames x8
  refine Keeps.cut (n := 4294980609) (s := s) x8 ?_ ?_
  · subst x8
    refine keeps_ite (fun x => x) ?_ ?_
    · refine Keeps.step ?_ sendJob_keeps rfl
      assumption
    assumption
  intro _
  try clear_value x8
  refine keeps_ite (fun x => x) ?_ ?_
  · refine Keeps.step ?_ sendFrame_keeps rfl
    assumption
  assumption

theorem waveHere_keeps {s sess} :
    Keeps 3648 s (waveHere s sess) := by
  delta waveHere
  extract_lets -merge -useContext -underBinder +onlyGivenNames x1
  try clear_value x1
  extract_lets -merge -useContext -underBinder +onlyGivenNames x2
  refine Keeps.cut (n := 3648) (s := s) x2 ?_ ?_
  · subst x2
    refine Keeps.step ?_ freeSessionPages_keeps rfl
    exact Keeps.rfl
  intro _
  try clear_value x2
  refine Keeps.step ?_ updPart_keeps rfl
  refine Keeps.step ?_ updSess_keeps rfl
  assumption

theorem effAbortWave_keeps {s sess} :
    Keeps 4294970944 s (effAbortWave s sess) := by
  delta effAbortWave
  extract_lets -merge -useContext -underBinder +onlyGivenNames x1
  try clear_value x1
  refine keeps_ite (fun x => x) ?_ ?_
  · exact Keeps.rfl
  extract_lets -merge -useContext -underBinder +onlyGivenNames x2
  refine Keeps.cut (n := 4294970944) (s := s) x2 ?_ ?_
  · subst x2
    refine Keeps.step ?_ waveHere_keeps rfl
    exact Keeps.rfl
  intro _
  try clear_value x2
  extract_lets -merge -useContext -underBinder +onlyGivenNames x3
  refine Keeps.cut (n := 4294970944) (s := s) x3 ?_ ?_
  · subst x3
    refine keeps_ite (fun x => x) ?_ ?_
    · refine Keeps.step ?_ sendJob_keeps rfl
      assumption
    assumption
  intro _
  try clear_value x3
  refine keeps_ite (fun x => x) ?_ ?_
  · refine Keeps.step ?_ sendFrame_keeps rfl
    refine Keeps.step ?_ updSess_keeps rfl
    assumption
  assumption

theorem effAbortAcked_keeps {s sess} :
    Keeps 8486465 s (effAbortAcked s sess) := by
  delta effAbortAcked
  extract_lets -merge -useContext -underBinder +onlyGivenNames x1
  try clear_value x1
  refine keeps_ite (fun x => x) ?_ ?_
  · exact Keeps.rfl
  refine keeps_ite (fun x => x) ?_ ?_
  · refine Keeps.step ?_ dropSession_keeps rfl
    exact Keeps.rfl
  refine keeps_ite (fun x => x) ?_ ?_
  · exact Keeps.rfl
  refine Keeps.step ?_ endSession_keeps rfl
  exact Keeps.rfl

end Sys2Proof.Machine
end

