-- ==== Sys2Proof/Laws/KeepsFlips.lean ====
section
/-! SUPPORT. What the operations of Machine/Flips.lean leave as it was. -/

namespace Sys2Proof.Machine

theorem endFlip_keeps {s p status} :
    Keeps 95233 s (endFlip s p status) := by
  delta endFlip
  split
  · exact Keeps.rfl
  extract_lets -merge -useContext -underBinder +onlyGivenNames x1
  refine Keeps.cut (n := 95233) (s := s) x1 ?_ ?_
  · subst x1
    refine Keeps.step ?_ updPart_keeps rfl
    exact Keeps.rfl
  intro _
  try clear_value x1
  extract_lets -merge -useContext -underBinder +onlyGivenNames x2
  refine Keeps.cut (n := 95233) (s := s) x2 ?_ ?_
  · subst x2
    refine Keeps.step ?_ odSet_keeps rfl
    assumption
  intro _
  try clear_value x2
  extract_lets -merge -useContext -underBinder +onlyGivenNames x3
  refine Keeps.cut (n := 95233) (s := s) x3 ?_ ?_
  · subst x3
    split
    · extract_lets -merge -useContext -underBinder +onlyGivenNames x4
      try clear_value x4
      refine Keeps.step ?_ complete_keeps rfl
      refine Keeps.step ?_ recordSet_keeps rfl
      assumption
    assumption
  intro _
  try clear_value x3
  refine Keeps.step ?_ dropUnowned_keeps rfl
  assumption

theorem jobFlipGo_keeps {s p} :
    Keeps 4294968320 s (jobFlipGo s p) := by
  delta jobFlipGo
  split
  · exact Keeps.rfl
  refine keeps_ite (fun x => x) ?_ ?_
  · exact Keeps.rfl
  extract_lets -merge -useContext -underBinder +onlyGivenNames x1
  try clear_value x1
  extract_lets -merge -useContext -underBinder +onlyGivenNames x2
  refine Keeps.cut (n := 4294968320) (s := s) x2 ?_ ?_
  · subst x2
    refine Keeps.step ?_ updPart_keeps rfl
    exact Keeps.rfl
  intro _
  try clear_value x2
  refine keeps_ite (fun x => x) ?_ ?_
  · refine Keeps.step ?_ sendJob_keeps rfl
    assumption
  assumption

theorem effFlipPrepared_keeps {s p} :
    Keeps 4294968320 s (effFlipPrepared s p) := by
  delta effFlipPrepared
  split
  · exact Keeps.rfl
  refine keeps_ite (fun x => x) ?_ ?_
  · exact Keeps.rfl
  extract_lets -merge -useContext -underBinder +onlyGivenNames x1
  refine Keeps.cut (n := 4294968320) (s := s) x1 ?_ ?_
  · subst x1
    refine Keeps.step ?_ updPart_keeps rfl
    exact Keeps.rfl
  intro _
  try clear_value x1
  refine keeps_ite (fun x => x) ?_ ?_
  · refine Keeps.step ?_ sendFrame_keeps rfl
    assumption
  refine keeps_ite (fun x => x) ?_ ?_
  · refine Keeps.step ?_ sendJob_keeps rfl
    assumption
  refine Keeps.step ?_ jobFlipGo_keeps rfl
  assumption

theorem jobFlipArrives_keeps {s p member slot set policy lap} :
    Keeps 4295062529 s (jobFlipArrives s p member slot set policy lap) := by
  delta jobFlipArrives
  split
  · refine keeps_ite (fun x => x) ?_ ?_
    · exact Keeps.rfl
    split
    · refine Keeps.step ?_ sendJob_keeps rfl
      exact Keeps.rfl
    refine Keeps.step ?_ beginFlip_keeps rfl
    exact Keeps.rfl
  refine keeps_ite (fun x => x) ?_ ?_
  · exact Keeps.rfl
  refine keeps_ite (fun x => x) ?_ ?_
  · extract_lets -merge -useContext -underBinder +onlyGivenNames x1
    try clear_value x1
    extract_lets -merge -useContext -underBinder +onlyGivenNames x2
    refine Keeps.cut (n := 4295062529) (s := s) x2 ?_ ?_
    · subst x2
      refine Keeps.step ?_ endFlip_keeps rfl
      exact Keeps.rfl
    intro _
    try clear_value x2
    refine keeps_ite (fun x => x) ?_ ?_
    · refine Keeps.step ?_ sendJob_keeps rfl
      assumption
    assumption
  refine keeps_ite (fun x => x) ?_ ?_
  · refine Keeps.step ?_ jobFlipGo_keeps rfl
    refine Keeps.step ?_ updPart_keeps rfl
    exact Keeps.rfl
  refine Keeps.step ?_ updPart_keeps rfl
  exact Keeps.rfl

theorem flipFrameIn_keeps {s p set ready refused} :
    Keeps 4295062529 s (flipFrameIn s p set ready refused) := by
  delta flipFrameIn
  refine keeps_ite (fun x => x) ?_ ?_
  · extract_lets -merge -useContext -underBinder +onlyGivenNames x1
    refine Keeps.cut (n := 4295062529) (s := s) x1 ?_ ?_
    · subst x1
      refine Keeps.step ?_ sendFrame_keeps rfl
      exact Keeps.rfl
    intro _
    try clear_value x1
    split
    · assumption
    split
    · assumption
    split
    · assumption
    refine Keeps.step ?_ beginFlip_keeps rfl
    exact Keeps.rfl
  split
  · exact Keeps.rfl
  refine keeps_ite (fun x => x) ?_ ?_
  · exact Keeps.rfl
  refine keeps_ite (fun x => x) ?_ ?_
  · extract_lets -merge -useContext -underBinder +onlyGivenNames x2
    refine Keeps.cut (n := 4295062529) (s := s) x2 ?_ ?_
    · subst x2
      refine Keeps.step ?_ endFlip_keeps rfl
      exact Keeps.rfl
    intro _
    try clear_value x2
    refine keeps_ite (fun x => x) ?_ ?_
    · refine Keeps.step ?_ sendJob_keeps rfl
      assumption
    assumption
  refine Keeps.step ?_ jobFlipGo_keeps rfl
  refine Keeps.step ?_ updPart_keeps rfl
  exact Keeps.rfl

theorem gapWrite_keeps {s p cells e} :
    Keeps 1098945 s (gapWrite s p cells e) := by
  delta gapWrite
  split
  · extract_lets -merge -useContext -underBinder +onlyGivenNames x1
    refine Keeps.cut (n := 1098945) (s := s) x1 ?_ ?_
    · subst x1
      refine Keeps.step ?_ updArr_keeps rfl
      exact Keeps.rfl
    intro _
    try clear_value x1
    refine keeps_ite (fun x => x) ?_ ?_
    · assumption
    refine Keeps.step ?_ bindSpares_keeps rfl
    assumption
  · refine Keeps.step ?_ raiseFault_keeps rfl
    refine Keeps.step ?_ retireForGood_keeps rfl
    refine Keeps.step ?_ arrayLeaves_keeps rfl
    exact Keeps.rfl
  exact Keeps.rfl

theorem effFlipGap_keeps {s p gapNs cells} :
    Keeps 1176769 s (effFlipGap s p gapNs cells) := by
  delta effFlipGap
  split
  · exact Keeps.rfl
  refine keeps_ite (fun x => x) ?_ ?_
  · exact Keeps.rfl
  extract_lets -merge -useContext -underBinder +onlyGivenNames x1
  refine Keeps.cut (n := 1176769) (s := s) x1 ?_ ?_
  · subst x1
    refine keeps_foldl (fun x => x) _ _ ?_ ?_
    · exact Keeps.rfl
    intro _ _ _
    refine Keeps.step ?_ gapWrite_keeps rfl
    assumption
  intro _
  try clear_value x1
  extract_lets -merge -useContext -underBinder +onlyGivenNames x2
  refine Keeps.cut (n := 1176769) (s := s) x2 ?_ ?_
  · subst x2
    refine Keeps.step ?_ bump_keeps rfl
    assumption
  intro _
  try clear_value x2
  refine keeps_ite (fun x => x) ?_ ?_
  · assumption
  refine Keeps.step ?_ endFlip_keeps rfl
  assumption

end Sys2Proof.Machine
end

