-- ==== Sys2Proof/Laws/KeepsFaults.lean ====
section
/-! SUPPORT. What the operations of Machine/Faults.lean leave as it was. -/

namespace Sys2Proof.Machine

theorem stopPartition_keeps {s p} :
    Keeps 1056 s (stopPartition s p) := by
  delta stopPartition
  extract_lets -merge -useContext -underBinder +onlyGivenNames x1
  refine Keeps.cut (n := 1056) (s := s) x1 ?_ ?_
  · subst x1
    refine keeps_foldl (fun x => x) _ _ ?_ ?_
    · exact Keeps.rfl
    intro _ _ _
    refine Keeps.step ?_ updCore_keeps rfl
    assumption
  intro _
  try clear_value x1
  refine Keeps.step ?_ updPart_keeps rfl
  assumption

theorem breakMap_keeps {s p} :
    Keeps 4194304 s (breakMap s p) := by
  delta breakMap
  refine Keeps.step ?_ (keeps_pair _ _) rfl
  exact Keeps.rfl

theorem dropShadows_keeps {s p} :
    Keeps 2624 s (dropShadows s p) := by
  delta dropShadows
  refine keeps_foldl (fun x => x) _ _ ?_ ?_
  · refine keeps_foldl (fun x => x) _ _ ?_ ?_
    · exact Keeps.rfl
    intro _ _ _
    refine Keeps.step ?_ freeSessionPages_keeps rfl
    assumption
  intro _ _ _
  refine Keeps.step ?_ setSess_keeps rfl
  assumption

theorem endSessions_keeps {s p status} :
    Keeps 8486465 s (endSessions s p status) := by
  delta endSessions
  refine keeps_foldl (fun x => x) _ _ ?_ ?_
  · exact Keeps.rfl
  intro _ _ _
  extract_lets -merge -useContext -underBinder +onlyGivenNames x1
  try clear_value x1
  refine keeps_ite (fun x => x) ?_ ?_
  · refine Keeps.step ?_ dropSession_keeps rfl
    assumption
  refine keeps_ite (fun x => x) ?_ ?_
  · refine Keeps.step ?_ updSess_keeps rfl
    assumption
  refine Keeps.step ?_ endSession_keeps rfl
  assumption

theorem mirrorEnds_keeps {s p l} :
    Keeps 4294967296 s (mirrorEnds s p l) := by
  delta mirrorEnds
  refine keeps_ite (fun x => x) ?_ ?_
  · exact Keeps.rfl
  refine Keeps.step ?_ emit_keeps rfl
  exact Keeps.rfl

theorem fenceUnits_keeps {s p} :
    Keeps 584 s (fenceUnits s p) := by
  delta fenceUnits
  refine Keeps.step ?_ expireFenced_keeps rfl
  refine keeps_foldl (fun x => x) _ _ ?_ ?_
  · exact Keeps.rfl
  intro _ _ _
  refine Keeps.step ?_ updCluster_keeps rfl
  assumption

theorem endPartition_keeps {s p status flipStatus} :
    Keeps 5381389923 s (endPartition s p status flipStatus) := by
  delta endPartition
  extract_lets -merge -useContext -underBinder +onlyGivenNames x1
  try clear_value x1
  extract_lets -merge -useContext -underBinder +onlyGivenNames x2
  refine Keeps.cut (n := 5381389923) (s := s) x2 ?_ ?_
  · subst x2
    refine Keeps.step ?_ stopPartition_keeps rfl
    exact Keeps.rfl
  intro _
  try clear_value x2
  extract_lets -merge -useContext -underBinder +onlyGivenNames x3
  refine Keeps.cut (n := 5381389923) (s := s) x3 ?_ ?_
  · subst x3
    refine Keeps.step ?_ endFlip_keeps rfl
    assumption
  intro _
  try clear_value x3
  extract_lets -merge -useContext -underBinder +onlyGivenNames x4
  refine Keeps.cut (n := 5381389923) (s := s) x4 ?_ ?_
  · subst x4
    refine Keeps.step ?_ leaveCommits_keeps rfl
    assumption
  intro _
  try clear_value x4
  extract_lets -merge -useContext -underBinder +onlyGivenNames x5
  refine Keeps.cut (n := 5381389923) (s := s) x5 ?_ ?_
  · subst x5
    refine Keeps.step ?_ endSessions_keeps rfl
    assumption
  intro _
  try clear_value x5
  extract_lets -merge -useContext -underBinder +onlyGivenNames x6
  refine Keeps.cut (n := 5381389923) (s := s) x6 ?_ ?_
  · subst x6
    refine Keeps.step ?_ mirrorEnds_keeps rfl
    assumption
  intro _
  try clear_value x6
  refine Keeps.step ?_ breakMap_keeps rfl
  refine Keeps.step ?_ dropShadows_keeps rfl
  assumption

theorem coreFailed_keeps {s ci} :
    Keeps 1098817 s (coreFailed s ci) := by
  delta coreFailed
  extract_lets -merge -useContext -underBinder +onlyGivenNames x1
  try clear_value x1
  extract_lets -merge -useContext -underBinder +onlyGivenNames x2
  refine Keeps.cut (n := 1098817) (s := s) x2 ?_ ?_
  · subst x2
    split
    · refine Keeps.step ?_ raiseFault_keeps rfl
      exact Keeps.rfl
    exact Keeps.rfl
  intro _
  try clear_value x2
  extract_lets -merge -useContext -underBinder +onlyGivenNames x3
  refine Keeps.cut (n := 1098817) (s := s) x3 ?_ ?_
  · subst x3
    refine Keeps.step ?_ recountYield_keeps rfl
    refine Keeps.step ?_ rebind_keeps rfl
    refine Keeps.step ?_ addYield_keeps rfl
    assumption
  intro _
  try clear_value x3
  refine keeps_ite (fun x => x) ?_ ?_
  · refine Keeps.step ?_ replaceRequest_keeps rfl
    assumption
  assumption

theorem handleFault_keeps {s p} :
    Keeps 5381389931 s (handleFault s p) := by
  delta handleFault
  extract_lets -merge -useContext -underBinder +onlyGivenNames x1
  try clear_value x1
  split
  · exact Keeps.rfl
  refine keeps_ite (fun x => x) ?_ ?_
  · exact Keeps.rfl
  extract_lets -merge -useContext -underBinder +onlyGivenNames x2
  refine Keeps.cut (n := 5381389931) (s := s) x2 ?_ ?_
  · subst x2
    refine Keeps.step ?_ odSet_keeps rfl
    exact Keeps.rfl
  intro _
  try clear_value x2
  extract_lets -merge -useContext -underBinder +onlyGivenNames x3
  refine Keeps.cut (n := 5381389931) (s := s) x3 ?_ ?_
  · subst x3
    refine Keeps.step ?_ odSet_keeps rfl
    assumption
  intro _
  try clear_value x3
  extract_lets -merge -useContext -underBinder +onlyGivenNames x4
  refine Keeps.cut (n := 5381389931) (s := s) x4 ?_ ?_
  · subst x4
    refine Keeps.step ?_ odSet_keeps rfl
    assumption
  intro _
  try clear_value x4
  extract_lets -merge -useContext -underBinder +onlyGivenNames x5
  refine Keeps.cut (n := 5381389931) (s := s) x5 ?_ ?_
  · subst x5
    refine Keeps.step ?_ recordEvent_keeps rfl
    assumption
  intro _
  try clear_value x5
  extract_lets -merge -useContext -underBinder +onlyGivenNames x6
  refine Keeps.cut (n := 5381389931) (s := s) x6 ?_ ?_
  · subst x6
    refine Keeps.step ?_ startFlush_keeps rfl
    assumption
  intro _
  try clear_value x6
  extract_lets -merge -useContext -underBinder +onlyGivenNames x7
  refine Keeps.cut (n := 5381389931) (s := s) x7 ?_ ?_
  · subst x7
    refine keeps_ite (fun x => x) ?_ ?_
    · refine Keeps.step ?_ emit_keeps rfl
      assumption
    assumption
  intro _
  try clear_value x7
  extract_lets -merge -useContext -underBinder +onlyGivenNames x8
  refine Keeps.cut (n := 5381389931) (s := s) x8 ?_ ?_
  · subst x8
    refine Keeps.step ?_ updPart_keeps rfl
    assumption
  intro _
  try clear_value x8
  refine Keeps.step ?_ endPartition_keeps rfl
  refine Keeps.step ?_ fenceUnits_keeps rfl
  assumption

theorem effPartitionFault_keeps {s p failed} :
    Keeps 5382471275 s (effPartitionFault s p failed) := by
  delta effPartitionFault
  extract_lets -merge -useContext -underBinder +onlyGivenNames x1
  refine Keeps.cut (n := 5382471275) (s := s) x1 ?_ ?_
  · subst x1
    split
    · refine keeps_ite (fun x => x) ?_ ?_
      · refine Keeps.step ?_ coreFailed_keeps rfl
        exact Keeps.rfl
      exact Keeps.rfl
    exact Keeps.rfl
  intro _
  try clear_value x1
  refine Keeps.step ?_ handleFault_keeps rfl
  assumption

theorem resetPartition_keeps {s p} :
    Keeps 5381389923 s (resetPartition s p) := by
  delta resetPartition
  extract_lets -merge -useContext -underBinder +onlyGivenNames x1
  try clear_value x1
  split
  · exact Keeps.rfl
  · exact Keeps.rfl
  · exact Keeps.rfl
  · extract_lets -merge -useContext -underBinder +onlyGivenNames x2
    refine Keeps.cut (n := 5381389923) (s := s) x2 ?_ ?_
    · subst x2
      refine Keeps.step ?_ odSet_keeps rfl
      exact Keeps.rfl
    intro _
    try clear_value x2
    extract_lets -merge -useContext -underBinder +onlyGivenNames x3
    refine Keeps.cut (n := 5381389923) (s := s) x3 ?_ ?_
    · subst x3
      refine Keeps.step ?_ recordEvent_keeps rfl
      assumption
    intro _
    try clear_value x3
    refine Keeps.step ?_ updPart_keeps rfl
    assumption
  · extract_lets -merge -useContext -underBinder +onlyGivenNames x4
    refine Keeps.cut (n := 5381389923) (s := s) x4 ?_ ?_
    · subst x4
      refine Keeps.step ?_ updPart_keeps rfl
      exact Keeps.rfl
    intro _
    try clear_value x4
    extract_lets -merge -useContext -underBinder +onlyGivenNames x5
    refine Keeps.cut (n := 5381389923) (s := s) x5 ?_ ?_
    · subst x5
      refine keeps_ite (fun x => x) ?_ ?_
      · refine Keeps.step ?_ emit_keeps rfl
        assumption
      assumption
    intro _
    try clear_value x5
    refine Keeps.step ?_ endPartition_keeps rfl
    assumption
  extract_lets -merge -useContext -underBinder +onlyGivenNames x6
  refine Keeps.cut (n := 5381389923) (s := s) x6 ?_ ?_
  · subst x6
    refine Keeps.step ?_ updPart_keeps rfl
    exact Keeps.rfl
  intro _
  try clear_value x6
  extract_lets -merge -useContext -underBinder +onlyGivenNames x7
  refine Keeps.cut (n := 5381389923) (s := s) x7 ?_ ?_
  · subst x7
    refine keeps_ite (fun x => x) ?_ ?_
    · refine Keeps.step ?_ emit_keeps rfl
      assumption
    assumption
  intro _
  try clear_value x7
  refine Keeps.step ?_ endPartition_keeps rfl
  assumption

theorem wipeStacks_keeps {s bs} :
    Keeps 536 s (wipeStacks s bs) := by
  delta wipeStacks
  extract_lets -merge -useContext -underBinder +onlyGivenNames x1
  refine Keeps.cut (n := 536) (s := s) x1 ?_ ?_
  · subst x1
    refine keeps_foldl (fun x => x) _ _ ?_ ?_
    · exact Keeps.rfl
    intro _ _ _
    extract_lets -merge -useContext -underBinder +onlyGivenNames x2
    try clear_value x2
    extract_lets -merge -useContext -underBinder +onlyGivenNames x3
    try clear_value x3
    refine Keeps.step ?_ (keeps_stack_stackPoison _ _ _ (fun c => memZero_wf _ _ c.stack)) rfl
    assumption
  intro _
  try clear_value x1
  refine keeps_foldl (fun x => x) _ _ ?_ ?_
  · assumption
  intro _ _ _
  refine Keeps.step ?_ updFrame_keeps rfl
  assumption

theorem wipeClusters_keeps {s cls} :
    Keeps 484 s (wipeClusters s cls) := by
  delta wipeClusters
  extract_lets -merge -useContext -underBinder +onlyGivenNames x1
  try clear_value x1
  extract_lets -merge -useContext -underBinder +onlyGivenNames x2
  refine Keeps.cut (n := 484) (s := s) x2 ?_ ?_
  · subst x2
    refine keeps_foldl (fun x => x) _ _ ?_ ?_
    · exact Keeps.rfl
    intro _ _ _
    refine Keeps.step ?_ (keeps_scratch _ _ (fun c => memZero_wf _ _ c.scratch)) rfl
    assumption
  intro _
  try clear_value x2
  extract_lets -merge -useContext -underBinder +onlyGivenNames x3
  refine Keeps.cut (n := 484) (s := s) x3 ?_ ?_
  · subst x3
    refine Keeps.step ?_ (keeps_cores_chains _ _ _ (fun c => kvWf_filter _ c.cores) (fun c => kvWf_filter _ c.chains)) rfl
    assumption
  intro _
  try clear_value x3
  extract_lets -merge -useContext -underBinder +onlyGivenNames x4
  refine Keeps.cut (n := 484) (s := s) x4 ?_ ?_
  · subst x4
    refine keeps_foldl (fun x => x) _ _ ?_ ?_
    · assumption
    intro _ _ _
    refine Keeps.step ?_ updArr_keeps rfl
    assumption
  intro _
  try clear_value x4
  refine keeps_foldl (fun x => x) _ _ ?_ ?_
  · assumption
  intro _ _ _
  refine Keeps.step ?_ updCluster_keeps rfl
  assumption

theorem effWipe_keeps {s p} :
    Keeps 5373263871 s (effWipe s p) := by
  delta effWipe
  extract_lets -merge -useContext -underBinder +onlyGivenNames x1
  try clear_value x1
  refine keeps_ite (fun x => x) ?_ ?_
  · exact Keeps.rfl
  extract_lets -merge -useContext -underBinder +onlyGivenNames x2
  refine Keeps.cut (n := 5373263871) (s := s) x2 ?_ ?_
  · subst x2
    refine keeps_ite (fun x => x) ?_ ?_
    · refine Keeps.step ?_ breakMap_keeps rfl
      refine Keeps.step ?_ dropShadows_keeps rfl
      refine Keeps.step ?_ leaveCommits_keeps rfl
      refine Keeps.step ?_ endFlip_keeps rfl
      exact Keeps.rfl
    exact Keeps.rfl
  intro _
  try clear_value x2
  extract_lets -merge -useContext -underBinder +onlyGivenNames x3
  refine Keeps.cut (n := 5373263871) (s := s) x3 ?_ ?_
  · subst x3
    refine Keeps.step ?_ wipeClusters_keeps rfl
    assumption
  intro _
  try clear_value x3
  extract_lets -merge -useContext -underBinder +onlyGivenNames x4
  refine Keeps.cut (n := 5373263871) (s := s) x4 ?_ ?_
  · subst x4
    refine Keeps.step ?_ wipeStacks_keeps rfl
    assumption
  intro _
  try clear_value x4
  extract_lets -merge -useContext -underBinder +onlyGivenNames x5
  refine Keeps.cut (n := 5373263871) (s := s) x5 ?_ ?_
  · subst x5
    refine Keeps.step ?_ takeStored_keeps rfl
    refine Keeps.step ?_ setPart_keeps rfl
    assumption
  intro _
  try clear_value x5
  refine keeps_foldl (fun x => x) _ _ ?_ ?_
  · refine Keeps.step ?_ dropUnowned_keeps rfl
    assumption
  intro _ _ _
  refine Keeps.step ?_ nextRetrain_keeps rfl
  assumption

theorem giveUpLoad_keeps {s p} :
    Keeps 17409 s (giveUpLoad s p) := by
  delta giveUpLoad
  extract_lets -merge -useContext -underBinder +onlyGivenNames x1
  refine Keeps.cut (n := 17409) (s := s) x1 ?_ ?_
  · subst x1
    refine Keeps.step ?_ updPart_keeps rfl
    refine Keeps.step ?_ odSet_keeps rfl
    exact Keeps.rfl
  intro _
  try clear_value x1
  refine Keeps.step ?_ recordEvent_keeps rfl
  assumption

theorem dropUnwritten_keeps {s sess} :
    Keeps 2048 s (dropUnwritten s sess) := by
  delta dropUnwritten
  refine Keeps.step ?_ updSess_keeps rfl
  exact Keeps.rfl

theorem fenceBlock_keeps {s p b} :
    Keeps 2112 s (fenceBlock s p b) := by
  delta fenceBlock
  extract_lets -merge -useContext -underBinder +onlyGivenNames x1
  refine Keeps.cut (n := 2112) (s := s) x1 ?_ ?_
  · subst x1
    refine keeps_foldl (fun x => x) _ _ ?_ ?_
    · exact Keeps.rfl
    intro _ _ _
    refine Keeps.step ?_ updCluster_keeps rfl
    assumption
  intro _
  try clear_value x1
  refine keeps_foldl (fun x => x) _ _ ?_ ?_
  · assumption
  intro _ _ _
  refine Keeps.step ?_ dropUnwritten_keeps rfl
  assumption

theorem blockGoneFor_keeps {s b code} :
    Keeps 17409 s (blockGoneFor s b code) := by
  delta blockGoneFor
  split
  · exact Keeps.rfl
  refine keeps_ite (fun x => x) ?_ ?_
  · refine Keeps.step ?_ giveUpLoad_keeps rfl
    exact Keeps.rfl
  refine Keeps.step ?_ raiseFault_keeps rfl
  exact Keeps.rfl

theorem loseBlock_keeps {s b code payload} :
    Keeps 12886310497 s (loseBlock s b code payload) := by
  delta loseBlock
  extract_lets -merge -useContext -underBinder +onlyGivenNames x1
  refine Keeps.cut (n := 12886310497) (s := s) x1 ?_ ?_
  · subst x1
    split
    · refine Keeps.step ?_ fenceBlock_keeps rfl
      exact Keeps.rfl
    exact Keeps.rfl
  intro _
  try clear_value x1
  extract_lets -merge -useContext -underBinder +onlyGivenNames x2
  refine Keeps.cut (n := 12886310497) (s := s) x2 ?_ ?_
  · subst x2
    refine Keeps.step ?_ blockGoneFor_keeps rfl
    assumption
  intro _
  try clear_value x2
  extract_lets -merge -useContext -underBinder +onlyGivenNames x3
  refine Keeps.cut (n := 12886310497) (s := s) x3 ?_ ?_
  · subst x3
    refine Keeps.step ?_ blockPiecesLost_keeps rfl
    assumption
  intro _
  try clear_value x3
  extract_lets -merge -useContext -underBinder +onlyGivenNames x4
  refine Keeps.cut (n := 12886310497) (s := s) x4 ?_ ?_
  · subst x4
    refine Keeps.step ?_ recordEvent_keeps rfl
    assumption
  intro _
  try clear_value x4
  refine Keeps.step ?_ startFlush_keeps rfl
  refine Keeps.step ?_ recountYield_keeps rfl
  refine Keeps.step ?_ replaceRequest_keeps rfl
  assumption

theorem loseStack_keeps {s b} :
    Keeps 12886343265 s (loseStack s b) := by
  delta loseStack
  extract_lets -merge -useContext -underBinder +onlyGivenNames x1
  refine Keeps.cut (n := 12886343265) (s := s) x1 ?_ ?_
  · subst x1
    refine Keeps.step ?_ updBlk_keeps rfl
    exact Keeps.rfl
  intro _
  try clear_value x1
  refine Keeps.step ?_ loseBlock_keeps rfl
  refine Keeps.step ?_ addYield_keeps rfl
  assumption

theorem effJobFault_keeps {s job code} :
    Keeps 17409 s (effJobFault s job code) := by
  delta effJobFault
  split
  · refine Keeps.step ?_ bump_keeps rfl
    exact Keeps.rfl
  refine keeps_foldl (fun x => x) _ _ ?_ ?_
  · exact Keeps.rfl
  intro _ _ _
  refine Keeps.step ?_ raiseFault_keeps rfl
  assumption

end Sys2Proof.Machine
end

