-- ==== Sys2Proof/Laws/KeepsProgram.lean ====
section
/-! SUPPORT. What the operations of Machine/Program.lean leave as it was. -/

namespace Sys2Proof.Machine

theorem claimFrames_keeps {s b first n} :
    Keeps 512 s (claimFrames s b first n) := by
  delta claimFrames
  refine keeps_foldl (fun x => x) _ _ ?_ ?_
  · exact Keeps.rfl
  intro _ _ _
  extract_lets -merge -useContext -underBinder +onlyGivenNames x1
  try clear_value x1
  refine keeps_ite (fun x => x) ?_ ?_
  · refine Keeps.step ?_ updFrame_keeps rfl
    assumption
  assumption

theorem writeImageBytes_keeps {s b off data} :
    Keeps 8 s (writeImageBytes s b off data) := by
  delta writeImageBytes
  extract_lets -merge -useContext -underBinder +onlyGivenNames x1
  try clear_value x1
  refine Keeps.step ?_ (keeps_stack _ _ (fun c => memWriteN_wf _ _ c.stack)) rfl
  exact Keeps.rfl

theorem writeImage_keeps {s pt g} :
    Keeps 520 s (writeImage s pt g) := by
  delta writeImage
  extract_lets -merge -useContext -underBinder +onlyGivenNames x1
  try clear_value x1
  extract_lets -merge -useContext -underBinder +onlyGivenNames x2
  refine Keeps.cut (n := 520) (s := s) x2 ?_ ?_
  · subst x2
    refine keeps_foldl (fun x => x) _ _ ?_ ?_
    · exact Keeps.rfl
    intro _ _ _
    refine Keeps.step ?_ claimFrames_keeps rfl
    assumption
  intro _
  try clear_value x2
  refine keeps_foldl (fun x => x) _ _ ?_ ?_
  · assumption
  intro _ _ _
  refine Keeps.step ?_ writeImageBytes_keeps rfl
  assumption

theorem setupCore_keeps {s ci} :
    Keeps 8589934624 s (setupCore s ci) := by
  delta setupCore
  split
  · exact Keeps.rfl
  extract_lets -merge -useContext -underBinder +onlyGivenNames x1
  refine Keeps.cut (n := 8589934624) (s := s) x1.2 ?_ ?_
  · subst x1
    refine Keeps.step ?_ drawFree_keeps rfl
    exact Keeps.rfl
  intro _
  try clear_value x1
  extract_lets -merge -useContext -underBinder +onlyGivenNames x2
  try clear_value x2
  refine Keeps.step ?_ setCore_keeps rfl
  assumption

theorem prepareArrays_keeps {s ci} :
    Keeps 129 s (prepareArrays s ci) := by
  delta prepareArrays
  split
  · exact Keeps.rfl
  extract_lets -merge -useContext -underBinder +onlyGivenNames x1
  try clear_value x1
  extract_lets -merge -useContext -underBinder +onlyGivenNames x2
  try clear_value x2
  extract_lets -merge -useContext -underBinder +onlyGivenNames x3
  try clear_value x3
  refine Keeps.step ?_ bump_keeps rfl
  refine keeps_foldl (fun x => x) _ _ ?_ ?_
  · exact Keeps.rfl
  intro _ _ _
  refine Keeps.step ?_ updArr_keeps rfl
  assumption

theorem writeArrayImage_keeps {s pt x} :
    Keeps 128 s (writeArrayImage s pt x) := by
  delta writeArrayImage
  extract_lets -merge -useContext -underBinder +onlyGivenNames x1
  try clear_value x1
  refine keeps_ite (fun x => x) ?_ ?_
  · exact Keeps.rfl
  refine Keeps.step ?_ updArr_keeps rfl
  exact Keeps.rfl

theorem writeProgram_keeps {s p} :
    Keeps 8589936297 s (writeProgram s p) := by
  delta writeProgram
  extract_lets -merge -useContext -underBinder +onlyGivenNames x1
  try clear_value x1
  split
  · exact Keeps.rfl
  extract_lets -merge -useContext -underBinder +onlyGivenNames x2
  refine Keeps.cut (n := 8589936297) (s := s) x2 ?_ ?_
  · subst x2
    refine Keeps.step ?_ updPart_keeps rfl
    exact Keeps.rfl
  intro _
  try clear_value x2
  extract_lets -merge -useContext -underBinder +onlyGivenNames x3
  refine Keeps.cut (n := 8589936297) (s := s) x3 ?_ ?_
  · subst x3
    refine Keeps.step ?_ writeImage_keeps rfl
    assumption
  intro _
  try clear_value x3
  extract_lets -merge -useContext -underBinder +onlyGivenNames x4
  try clear_value x4
  extract_lets -merge -useContext -underBinder +onlyGivenNames x5
  refine Keeps.cut (n := 8589936297) (s := s) x5 ?_ ?_
  · subst x5
    refine keeps_foldl (fun x => x) _ _ ?_ ?_
    · assumption
    intro _ _ _
    refine Keeps.step ?_ setupCore_keeps rfl
    assumption
  intro _
  try clear_value x5
  extract_lets -merge -useContext -underBinder +onlyGivenNames x6
  refine Keeps.cut (n := 8589936297) (s := s) x6 ?_ ?_
  · subst x6
    refine keeps_foldl (fun x => x) _ _ ?_ ?_
    · assumption
    intro _ _ _
    refine Keeps.step ?_ prepareArrays_keeps rfl
    assumption
  intro _
  try clear_value x6
  refine keeps_foldl (fun x => x) _ _ ?_ ?_
  · assumption
  intro _ _ _
  refine Keeps.step ?_ writeArrayImage_keeps rfl
  assumption

theorem proceedLoad_keeps {s p} :
    Keeps 8589936297 s (proceedLoad s p) := by
  delta proceedLoad
  extract_lets -merge -useContext -underBinder +onlyGivenNames x1
  try clear_value x1
  refine keeps_ite (fun x => x) ?_ ?_
  · refine Keeps.step ?_ writeProgram_keeps rfl
    exact Keeps.rfl
  exact Keeps.rfl

theorem proceedLoads_keeps {s} :
    Keeps 8589936297 s (proceedLoads s) := by
  delta proceedLoads
  refine keeps_foldl (fun x => x) _ _ ?_ ?_
  · exact Keeps.rfl
  intro _ _ _
  refine Keeps.step ?_ proceedLoad_keeps rfl
  assumption

theorem wakeForLoad_keeps {s b} :
    Keeps 4296295425 s (wakeForLoad s b) := by
  delta wakeForLoad
  extract_lets -merge -useContext -underBinder +onlyGivenNames x1
  refine Keeps.cut (n := 4296295425) (s := s) x1 ?_ ?_
  · subst x1
    refine Keeps.step ?_ updBlk_keeps rfl
    exact Keeps.rfl
  intro _
  try clear_value x1
  refine Keeps.step ?_ stackOn_keeps rfl
  refine Keeps.step ?_ requestWake_keeps rfl
  assumption

end Sys2Proof.Machine
end

