-- ==== Sys2Proof/Laws/KeepsInputs.lean ====
section
/-! SUPPORT. What the operations of Machine/Inputs.lean leave as it was. -/

namespace Sys2Proof.Machine

theorem reportInput_keeps {s bit us} :
    Keeps 1064961 s (reportInput s bit us) := by
  delta reportInput
  refine Keeps.step ?_ recordEvent_keeps rfl
  refine Keeps.step ?_ replaceRequest_keeps rfl
  exact Keeps.rfl

theorem latchStuck_keeps {s bit us} :
    Keeps 1064961 s (latchStuck s bit us) := by
  delta latchStuck
  refine keeps_ite (fun x => x) ?_ ?_
  · exact Keeps.rfl
  refine Keeps.step ?_ reportInput_keeps rfl
  refine Keeps.step ?_ odBit_keeps rfl
  exact Keeps.rfl

theorem markChatter_keeps {s i} :
    Keeps 1064961 s (markChatter s i) := by
  delta markChatter
  split
  · exact Keeps.rfl
  refine keeps_ite (fun x => x) ?_ ?_
  · exact Keeps.rfl
  refine Keeps.step ?_ reportInput_keeps rfl
  refine Keeps.step ?_ bump_keeps rfl
  refine Keeps.step ?_ odBit_keeps rfl
  exact Keeps.rfl

end Sys2Proof.Machine
end

