-- ==== Sys2Proof/Laws/KeepsPair.lean ====
section
/-! SUPPORT. What the operations of Machine/Pair.lean leave as it was. -/

namespace Sys2Proof.Machine

theorem setOwned_keeps {s l} :
    Keeps 4194304 s (setOwned s l) := by
  delta setOwned
  refine Keeps.step ?_ (keeps_pair _ _) rfl
  exact Keeps.rfl

theorem pathsChanged_keeps {s} :
    Keeps 32321 s (pathsChanged s) := by
  delta pathsChanged
  extract_lets -merge -useContext -underBinder +onlyGivenNames x1
  try clear_value x1
  extract_lets -merge -useContext -underBinder +onlyGivenNames x2
  try clear_value x2
  extract_lets -merge -useContext -underBinder +onlyGivenNames x3
  refine Keeps.cut (n := 32321) (s := s) x3 ?_ ?_
  · subst x3
    refine keeps_ite (fun x => x) ?_ ?_
    · refine Keeps.step ?_ setPairState_keeps rfl
      exact Keeps.rfl
    refine keeps_ite (fun x => x) ?_ ?_
    · refine Keeps.step ?_ setPairState_keeps rfl
      exact Keeps.rfl
    exact Keeps.rfl
  intro _
  try clear_value x3
  refine keeps_ite (fun x => x) ?_ ?_
  · refine Keeps.step ?_ applyLoss_keeps rfl
    assumption
  assumption

theorem stepTaken_keeps {s b} :
    Keeps 12288 s (stepTaken s b) := by
  delta stepTaken
  split
  · refine Keeps.step ?_ takeEntry_keeps rfl
    exact Keeps.rfl
  refine Keeps.step ?_ updComp_keeps rfl
  exact Keeps.rfl

theorem flushSteps_keeps {s} :
    Keeps 4206592 s (flushSteps s) := by
  delta flushSteps
  extract_lets -merge -useContext -underBinder +onlyGivenNames x1
  try clear_value x1
  refine keeps_foldl (fun x => x) _ _ ?_ ?_
  · refine Keeps.step ?_ (keeps_pair _ _) rfl
    exact Keeps.rfl
  intro _ _ _
  refine Keeps.step ?_ stepTaken_keeps rfl
  assumption

theorem effShadowAck_keeps {s seq} :
    Keeps 4206592 s (effShadowAck s seq) := by
  delta effShadowAck
  split
  · exact Keeps.rfl
  refine Keeps.step ?_ stepTaken_keeps rfl
  refine Keeps.step ?_ (keeps_pair _ _) rfl
  exact Keeps.rfl

theorem settleShadow_keeps {s sess newLen} :
    Keeps 585 s (settleShadow s sess newLen) := by
  delta settleShadow
  refine Keeps.step ?_ settlePagesOf_keeps rfl
  exact Keeps.rfl

theorem dropShadow_keeps {s sess} :
    Keeps 2624 s (dropShadow s sess) := by
  delta dropShadow
  refine keeps_ite (fun x => x) ?_ ?_
  · refine Keeps.step ?_ setSess_keeps rfl
    refine Keeps.step ?_ freeSessionPages_keeps rfl
    exact Keeps.rfl
  exact Keeps.rfl

theorem writeShadow_keeps {p cl sess n va data s} : Keeps 8589937225 s (writeShadow p cl sess n va data s) := by
  induction n generalizing s va data with
  | zero => exact Keeps.rfl
  | succ n ih =>
    unfold writeShadow
    refine keeps_ite (fun x => x) Keeps.rfl ?_
    split
    next h =>
      refine Keeps.step ?_ ih rfl
      refine Keeps.step ?_ (keeps_stack _ _ (fun c => memWriteN_wf _ _ c.stack)) rfl
      exact Keeps.step Keeps.rfl (keeps_p2 h translate_keeps) rfl
    next h =>
      refine Keeps.step ?_ updSess_keeps rfl
      exact Keeps.step Keeps.rfl (keeps_p2 h translate_keeps) rfl

theorem effMirrorEntry_keeps {s sess va data} :
    Keeps 8589937225 s (effMirrorEntry s sess va data) := by
  delta effMirrorEntry
  extract_lets -merge -useContext -underBinder +onlyGivenNames x1
  try clear_value x1
  refine keeps_ite (fun x => x) ?_ ?_
  · exact Keeps.rfl
  refine Keeps.step ?_ writeShadow_keeps rfl
  exact Keeps.rfl

theorem learnHistory_keeps {s x upTo recs} :
    Keeps 8589934592 s (learnHistory s x upTo recs).2 := by
  delta learnHistory
  refine keeps_foldl (fun (x : _ × State) => x.2) _ _ ?_ ?_
  · try dsimp -zeta only
    exact Keeps.rfl
  intro _ _ _
  extract_lets -merge -useContext -underBinder +onlyGivenNames x1
  try clear_value x1
  split
  · try dsimp -zeta only
    assumption
  refine keeps_ite (fun (x : _ × State) => x.2) ?_ ?_
  · try dsimp -zeta only
    assumption
  extract_lets -merge -useContext -underBinder +onlyGivenNames x2
  refine Keeps.cut (n := 8589934592) (s := s) x2.2 ?_ ?_
  · subst x2
    refine Keeps.step ?_ drawFree_keeps rfl
    assumption
  intro _
  try clear_value x2
  try dsimp -zeta only
  assumption

theorem makeShadow_keeps {s ring e} :
    Keeps 8589937225 s (makeShadow s ring e) := by
  delta makeShadow
  refine keeps_ite (fun x => x) ?_ ?_
  · split
    · exact Keeps.rfl
    refine keeps_ite (fun x => x) ?_ ?_
    · exact Keeps.rfl
    extract_lets -merge -useContext -underBinder +onlyGivenNames x1
    try clear_value x1
    refine Keeps.step ?_ setSess_keeps rfl
    exact Keeps.rfl
  extract_lets -merge -useContext -underBinder +onlyGivenNames x2
  try clear_value x2
  extract_lets -merge -useContext -underBinder +onlyGivenNames x3
  try clear_value x3
  refine keeps_ite (fun x => x) ?_ ?_
  · exact Keeps.rfl
  extract_lets -merge -useContext -underBinder +onlyGivenNames x4
  try clear_value x4
  extract_lets -merge -useContext -underBinder +onlyGivenNames x5
  refine Keeps.cut (n := 8589937225) (s := s) x5 ?_ ?_
  · subst x5
    refine Keeps.step ?_ setSess_keeps rfl
    exact Keeps.rfl
  intro _
  try clear_value x5
  refine Keeps.step ?_ forkPages_keeps rfl
  assumption

theorem shadowFork_keeps {s parent child} :
    Keeps 8589937225 s (shadowFork s parent child) := by
  delta shadowFork
  split
  · refine Keeps.step ?_ makeShadow_keeps rfl
    exact Keeps.rfl
  exact Keeps.rfl

theorem applyMirror_keeps {s m} :
    Keeps 8594131529 s (applyMirror s m) := by
  delta applyMirror
  extract_lets -merge -useContext -underBinder +onlyGivenNames x1
  try clear_value x1
  refine keeps_ite (fun x => x) ?_ ?_
  · exact Keeps.rfl
  refine keeps_ite (fun x => x) ?_ ?_
  · refine Keeps.step ?_ dropShadow_keeps rfl
    exact Keeps.rfl
  extract_lets -merge -useContext -underBinder +onlyGivenNames x2
  refine Keeps.cut (n := 8594131529) (s := s) x2 ?_ ?_
  · subst x2
    refine Keeps.step ?_ settleShadow_keeps rfl
    exact Keeps.rfl
  intro _
  try clear_value x2
  extract_lets -merge -useContext -underBinder +onlyGivenNames x3
  try clear_value x3
  extract_lets -merge -useContext -underBinder +onlyGivenNames x4
  try clear_value x4
  extract_lets -merge -useContext -underBinder +onlyGivenNames x5
  refine Keeps.cut (n := 8594131529) (s := s) x5.2 ?_ ?_
  · subst x5
    refine Keeps.step ?_ learnHistory_keeps rfl
    assumption
  intro _
  try clear_value x5
  extract_lets -merge -useContext -underBinder +onlyGivenNames x6
  refine Keeps.cut (n := 8594131529) (s := s) x6 ?_ ?_
  · subst x6
    refine Keeps.step ?_ updSess_keeps rfl
    assumption
  intro _
  try clear_value x6
  extract_lets -merge -useContext -underBinder +onlyGivenNames x7
  refine Keeps.cut (n := 8594131529) (s := s) x7 ?_ ?_
  · subst x7
    refine keeps_foldl (fun x => x) _ _ ?_ ?_
    · assumption
    intro _ _ _
    refine Keeps.step ?_ shadowFork_keeps rfl
    assumption
  intro _
  try clear_value x7
  refine keeps_ite (fun x => x) ?_ ?_
  · assumption
  refine Keeps.step ?_ (keeps_pair _ _) rfl
  assumption

theorem effMirrorVerdict_keeps {s p lap v l} :
    Keeps 12889098825 s (effMirrorVerdict s p lap v l) := by
  delta effMirrorVerdict
  refine keeps_ite (fun x => x) ?_ ?_
  · exact Keeps.rfl
  extract_lets -merge -useContext -underBinder +onlyGivenNames x1
  try clear_value x1
  extract_lets -merge -useContext -underBinder +onlyGivenNames x2
  refine Keeps.cut (n := 12889098825) (s := s) x2 ?_ ?_
  · subst x2
    refine keeps_foldl (fun x => x) _ _ ?_ ?_
    · exact Keeps.rfl
    intro _ _ _
    refine Keeps.step ?_ applyMirror_keeps rfl
    assumption
  intro _
  try clear_value x2
  refine keeps_ite (fun x => x) ?_ ?_
  · refine Keeps.step ?_ sendFrame_keeps rfl
    assumption
  assumption

theorem shadowDone_keeps {s c} :
    Keeps 8594131529 s (shadowDone s c) := by
  delta shadowDone
  extract_lets -merge -useContext -underBinder +onlyGivenNames x1
  try clear_value x1
  extract_lets -merge -useContext -underBinder +onlyGivenNames x2
  try clear_value x2
  split
  · exact Keeps.rfl
  extract_lets -merge -useContext -underBinder +onlyGivenNames x3
  skip
  extract_lets -merge -useContext -underBinder +onlyGivenNames x4
  refine Keeps.cut (n := 8594131529) (s := s) x4 ?_ ?_
  · subst x4
    refine Keeps.step ?_ (keeps_pair _ _) rfl
    exact Keeps.rfl
  intro _
  try clear_value x4
  extract_lets -merge -useContext -underBinder +onlyGivenNames x5
  refine Keeps.cut (n := 8594131529) (s := s) x5 ?_ ?_
  · subst x5
    refine keeps_ite (fun x => x) ?_ ?_
    · refine Keeps.step ?_ makeShadow_keeps rfl
      assumption
    assumption
  intro _
  try clear_value x5
  refine Keeps.step ?_ updSess_keeps rfl
  assumption

theorem effShadowMessage_keeps {s seq b} :
    Keeps 12889111113 s (effShadowMessage s seq b) := by
  delta effShadowMessage
  extract_lets -merge -useContext -underBinder +onlyGivenNames x1
  refine Keeps.cut (n := 12889111113) (s := s) x1 ?_ ?_
  · subst x1
    split
    · extract_lets -merge -useContext -underBinder +onlyGivenNames x2
      refine Keeps.cut (n := 12889111113) (s := s) x2 ?_ ?_
      · subst x2
        refine Keeps.step ?_ updSub_keeps rfl
        exact Keeps.rfl
      intro _
      try clear_value x2
      refine Keeps.step ?_ (keeps_pair _ _) rfl
      assumption
    extract_lets -merge -useContext -underBinder +onlyGivenNames x3
    refine Keeps.cut (n := 12889111113) (s := s) x3 ?_ ?_
    · subst x3
      refine Keeps.step ?_ updComp_keeps rfl
      exact Keeps.rfl
    intro _
    try clear_value x3
    extract_lets -merge -useContext -underBinder +onlyGivenNames x4
    skip
    extract_lets -merge -useContext -underBinder +onlyGivenNames x5
    refine Keeps.cut (n := 12889111113) (s := s) x5 ?_ ?_
    · subst x5
      refine Keeps.step ?_ (keeps_pair _ _) rfl
      assumption
    intro _
    try clear_value x5
    refine Keeps.step ?_ shadowDone_keeps rfl
    assumption
  intro _
  try clear_value x1
  refine Keeps.step ?_ sendFrame_keeps rfl
  assumption

theorem endAcked_keeps {s p} :
    Keeps 15936 s (endAcked s p) := by
  delta endAcked
  refine keeps_ite (fun x => x) ?_ ?_
  · exact Keeps.rfl
  refine keeps_foldl (fun x => x) _ _ ?_ ?_
  · exact Keeps.rfl
  intro _ _ _
  extract_lets -merge -useContext -underBinder +onlyGivenNames x1
  try clear_value x1
  split
  · refine keeps_ite (fun x => x) ?_ ?_
    · assumption
    refine Keeps.step ?_ endSession_keeps rfl
    assumption
  assumption

theorem effMirrorAck_keeps {s p lapLow ns} :
    Keeps 15937 s (effMirrorAck s p lapLow ns) := by
  delta effMirrorAck
  extract_lets -merge -useContext -underBinder +onlyGivenNames x1
  refine Keeps.cut (n := 15937) (s := s) x1 ?_ ?_
  · subst x1
    refine Keeps.step ?_ odMax_keeps rfl
    exact Keeps.rfl
  intro _
  try clear_value x1
  extract_lets -merge -useContext -underBinder +onlyGivenNames x2
  refine Keeps.cut (n := 15937) (s := s) x2 ?_ ?_
  · subst x2
    refine keeps_foldl (fun x => x) _ _ ?_ ?_
    · assumption
    intro _ _ _
    refine Keeps.step ?_ updSess_keeps rfl
    assumption
  intro _
  try clear_value x2
  refine Keeps.step ?_ endAcked_keeps rfl
  assumption

theorem loseRecords_keeps {s sess} :
    Keeps 2048 s (loseRecords s sess) := by
  delta loseRecords
  refine keeps_ite (fun x => x) ?_ ?_
  · refine Keeps.step ?_ dropUnacked_keeps rfl
    exact Keeps.rfl
  refine Keeps.step ?_ unmirror_keeps rfl
  exact Keeps.rfl

theorem effMirrorAckTimeout_keeps {s p lap} :
    Keeps 32321 s (effMirrorAckTimeout s p lap) := by
  delta effMirrorAckTimeout
  extract_lets -merge -useContext -underBinder +onlyGivenNames x1
  try clear_value x1
  refine keeps_ite (fun x => x) ?_ ?_
  · extract_lets -merge -useContext -underBinder +onlyGivenNames x2
    refine Keeps.cut (n := 32321) (s := s) x2 ?_ ?_
    · subst x2
      refine keeps_foldl (fun x => x) _ _ ?_ ?_
      · exact Keeps.rfl
      intro _ _ _
      refine Keeps.step ?_ loseRecords_keeps rfl
      assumption
    intro _
    try clear_value x2
    refine Keeps.step ?_ applyLoss_keeps rfl
    assumption
  refine Keeps.step ?_ endAcked_keeps rfl
  refine keeps_foldl (fun x => x) _ _ ?_ ?_
  · exact Keeps.rfl
  intro _ _ _
  refine Keeps.step ?_ dropUnacked_keeps rfl
  assumption

theorem resumeShadow_keeps {s sess} :
    Keeps 2633 s (resumeShadow s sess) := by
  delta resumeShadow
  extract_lets -merge -useContext -underBinder +onlyGivenNames x1
  refine Keeps.cut (n := 2633) (s := s) x1 ?_ ?_
  · subst x1
    refine Keeps.step ?_ settleShadow_keeps rfl
    exact Keeps.rfl
  intro _
  try clear_value x1
  refine Keeps.step ?_ settleState_keeps rfl
  refine Keeps.step ?_ updSess_keeps rfl
  assumption

theorem dispatchShadowed_keeps {s rings} :
    Keeps 4206592 s (dispatchShadowed s rings) := by
  delta dispatchShadowed
  extract_lets -merge -useContext -underBinder +onlyGivenNames x1
  try clear_value x1
  extract_lets -merge -useContext -underBinder +onlyGivenNames x2
  skip
  extract_lets -merge -useContext -underBinder +onlyGivenNames x3
  refine Keeps.cut (n := 4206592) (s := s) x3 ?_ ?_
  · subst x3
    refine Keeps.step ?_ (keeps_pair _ _) rfl
    exact Keeps.rfl
  intro _
  try clear_value x3
  refine keeps_foldl (fun x => x) _ _ ?_ ?_
  · assumption
  intro _ _ _
  refine Keeps.step ?_ takeEntry_keeps rfl
  refine Keeps.step ?_ updSub_keeps rfl
  assumption

theorem rewriteLast_keeps {s} :
    Keeps 4294967296 s (rewriteLast s) := by
  delta rewriteLast
  extract_lets -merge -useContext -underBinder +onlyGivenNames x1
  refine Keeps.cut (n := 4294967296) (s := s) x1 ?_ ?_
  · subst x1
    refine keeps_foldl (fun x => x) _ _ ?_ ?_
    · exact Keeps.rfl
    intro _ _ _
    refine Keeps.step ?_ emit_keeps rfl
    assumption
  intro _
  try clear_value x1
  refine keeps_foldl (fun x => x) _ _ ?_ ?_
  · assumption
  intro _ _ _
  extract_lets -merge -useContext -underBinder +onlyGivenNames x2
  try clear_value x2
  refine keeps_ite (fun x => x) ?_ ?_
  · assumption
  refine keeps_foldl (fun x => x) _ _ ?_ ?_
  · assumption
  intro _ _ _
  refine Keeps.step ?_ emit_keeps rfl
  assumption

theorem takeRings_keeps {s rings} :
    Keeps 4209225 s (takeRings s rings) := by
  delta takeRings
  extract_lets -merge -useContext -underBinder +onlyGivenNames x1
  refine Keeps.cut (n := 4209225) (s := s) x1 ?_ ?_
  · subst x1
    refine Keeps.step ?_ setOwned_keeps rfl
    exact Keeps.rfl
  intro _
  try clear_value x1
  extract_lets -merge -useContext -underBinder +onlyGivenNames x2
  refine Keeps.cut (n := 4209225) (s := s) x2 ?_ ?_
  · subst x2
    refine Keeps.step ?_ dispatchShadowed_keeps rfl
    assumption
  intro _
  try clear_value x2
  refine keeps_foldl (fun x => x) _ _ ?_ ?_
  · assumption
  intro _ _ _
  refine Keeps.step ?_ resumeShadow_keeps rfl
  assumption

theorem takeover_keeps {s us} :
    Keeps 4300241481 s (takeover s us) := by
  delta takeover
  extract_lets -merge -useContext -underBinder +onlyGivenNames x1
  refine Keeps.cut (n := 4300241481) (s := s) x1 ?_ ?_
  · subst x1
    refine Keeps.step ?_ emit_keeps rfl
    refine Keeps.step ?_ excuseAll_keeps rfl
    exact Keeps.rfl
  intro _
  try clear_value x1
  extract_lets -merge -useContext -underBinder +onlyGivenNames x2
  refine Keeps.cut (n := 4300241481) (s := s) x2 ?_ ?_
  · subst x2
    refine Keeps.step ?_ setPairState_keeps rfl
    assumption
  intro _
  try clear_value x2
  extract_lets -merge -useContext -underBinder +onlyGivenNames x3
  refine Keeps.cut (n := 4300241481) (s := s) x3 ?_ ?_
  · subst x3
    refine Keeps.step ?_ replaceRequest_keeps rfl
    refine Keeps.step ?_ bump_keeps rfl
    assumption
  intro _
  try clear_value x3
  extract_lets -merge -useContext -underBinder +onlyGivenNames x4
  refine Keeps.cut (n := 4300241481) (s := s) x4 ?_ ?_
  · subst x4
    refine Keeps.step ?_ rewriteLast_keeps rfl
    assumption
  intro _
  try clear_value x4
  extract_lets -merge -useContext -underBinder +onlyGivenNames x5
  refine Keeps.cut (n := 4300241481) (s := s) x5 ?_ ?_
  · subst x5
    refine Keeps.step ?_ takeRings_keeps rfl
    assumption
  intro _
  try clear_value x5
  extract_lets -merge -useContext -underBinder +onlyGivenNames x6
  refine Keeps.cut (n := 4300241481) (s := s) x6 ?_ ?_
  · subst x6
    refine keeps_foldl (fun x => x) _ _ ?_ ?_
    · assumption
    intro _ _ _
    refine Keeps.step ?_ unmirror_keeps rfl
    assumption
  intro _
  try clear_value x6
  extract_lets -merge -useContext -underBinder +onlyGivenNames x7
  refine Keeps.cut (n := 4300241481) (s := s) x7 ?_ ?_
  · subst x7
    refine Keeps.step ?_ flushSteps_keeps rfl
    assumption
  intro _
  try clear_value x7
  extract_lets -merge -useContext -underBinder +onlyGivenNames x8
  refine Keeps.cut (n := 4300241481) (s := s) x8 ?_ ?_
  · subst x8
    refine Keeps.step ?_ odPut_keeps rfl
    assumption
  intro _
  try clear_value x8
  refine Keeps.step ?_ (keeps_pair _ _) rfl
  assumption

theorem isolate_keeps {s} :
    Keeps 5275201 s (isolate s) := by
  delta isolate
  extract_lets -merge -useContext -underBinder +onlyGivenNames x1
  try clear_value x1
  extract_lets -merge -useContext -underBinder +onlyGivenNames x2
  refine Keeps.cut (n := 5275201) (s := s) x2 ?_ ?_
  · subst x2
    refine Keeps.step ?_ replaceRequest_keeps rfl
    refine Keeps.step ?_ setPairState_keeps rfl
    exact Keeps.rfl
  intro _
  try clear_value x2
  extract_lets -merge -useContext -underBinder +onlyGivenNames x3
  refine Keeps.cut (n := 5275201) (s := s) x3 ?_ ?_
  · subst x3
    refine Keeps.step ?_ flushSteps_keeps rfl
    refine Keeps.step ?_ applyLoss_keeps rfl
    assumption
  intro _
  try clear_value x3
  refine Keeps.step ?_ (keeps_pair _ _) rfl
  assumption

theorem effHeartbeatTimeout_keeps {s us} :
    Keeps 4300242505 s (effHeartbeatTimeout s us) := by
  delta effHeartbeatTimeout
  split
  · refine Keeps.step ?_ setPairState_keeps rfl
    refine Keeps.step ?_ odSet_keeps rfl
    exact Keeps.rfl
  · refine keeps_ite (fun x => x) ?_ ?_
    · refine Keeps.step ?_ isolate_keeps rfl
      exact Keeps.rfl
    refine keeps_ite (fun x => x) ?_ ?_
    · refine Keeps.step ?_ takeover_keeps rfl
      exact Keeps.rfl
    refine Keeps.step ?_ excuseAll_keeps rfl
    refine Keeps.step ?_ (keeps_pair _ _) rfl
    exact Keeps.rfl
  · refine keeps_ite (fun x => x) ?_ ?_
    · refine Keeps.step ?_ isolate_keeps rfl
      exact Keeps.rfl
    refine keeps_ite (fun x => x) ?_ ?_
    · refine Keeps.step ?_ takeover_keeps rfl
      exact Keeps.rfl
    refine Keeps.step ?_ excuseAll_keeps rfl
    refine Keeps.step ?_ (keeps_pair _ _) rfl
    exact Keeps.rfl
  · refine keeps_ite (fun x => x) ?_ ?_
    · refine Keeps.step ?_ isolate_keeps rfl
      exact Keeps.rfl
    refine keeps_ite (fun x => x) ?_ ?_
    · refine Keeps.step ?_ takeover_keeps rfl
      exact Keeps.rfl
    refine Keeps.step ?_ excuseAll_keeps rfl
    refine Keeps.step ?_ (keeps_pair _ _) rfl
    exact Keeps.rfl
  exact Keeps.rfl

theorem effTakeoverWait_keeps {s us} :
    Keeps 4300241481 s (effTakeoverWait s us) := by
  delta effTakeoverWait
  refine keeps_ite (fun x => x) ?_ ?_
  · exact Keeps.rfl
  refine keeps_ite (fun x => x) ?_ ?_
  · refine Keeps.step ?_ (keeps_pair _ _) rfl
    exact Keeps.rfl
  refine Keeps.step ?_ takeover_keeps rfl
  exact Keeps.rfl

theorem setFence_keeps {s} :
    Keeps 12668481 s (setFence s) := by
  delta setFence
  refine keeps_ite (fun x => x) ?_ ?_
  · exact Keeps.rfl
  extract_lets -merge -useContext -underBinder +onlyGivenNames x1
  skip
  extract_lets -merge -useContext -underBinder +onlyGivenNames x2
  refine Keeps.cut (n := 12668481) (s := s) x2 ?_ ?_
  · subst x2
    refine Keeps.step ?_ (keeps_pair _ _) rfl
    exact Keeps.rfl
  intro _
  try clear_value x2
  refine keeps_ite (fun x => x) ?_ ?_
  · assumption
  extract_lets -merge -useContext -underBinder +onlyGivenNames x3
  refine Keeps.cut (n := 12668481) (s := s) x3 ?_ ?_
  · subst x3
    refine Keeps.step ?_ excuseAll_keeps rfl
    assumption
  intro _
  try clear_value x3
  extract_lets -merge -useContext -underBinder +onlyGivenNames x4
  try clear_value x4
  extract_lets -merge -useContext -underBinder +onlyGivenNames x5
  refine Keeps.cut (n := 12668481) (s := s) x5 ?_ ?_
  · subst x5
    refine Keeps.step ?_ setPairState_keeps rfl
    assumption
  intro _
  try clear_value x5
  extract_lets -merge -useContext -underBinder +onlyGivenNames x6
  refine Keeps.cut (n := 12668481) (s := s) x6 ?_ ?_
  · subst x6
    refine keeps_foldl (fun x => x) _ _ ?_ ?_
    · assumption
    intro _ _ _
    refine Keeps.step ?_ dropSession_keeps rfl
    assumption
  intro _
  try clear_value x6
  refine Keeps.step ?_ setOwned_keeps rfl
  refine Keeps.step ?_ (keeps_pair _ _) rfl
  assumption

theorem effFnInput_keeps {s input widthNs} :
    Keeps 12668481 s (effFnInput s input widthNs) := by
  delta effFnInput
  refine keeps_ite (fun x => x) ?_ ?_
  · exact Keeps.rfl
  refine keeps_ite (fun x => x) ?_ ?_
  · refine Keeps.step ?_ bump_keeps rfl
    exact Keeps.rfl
  refine keeps_ite (fun x => x) ?_ ?_
  · exact Keeps.rfl
  refine Keeps.step ?_ setFence_keeps rfl
  exact Keeps.rfl

theorem effFnStuck_keeps {s input} :
    Keeps 1064961 s (effFnStuck s input) := by
  delta effFnStuck
  refine keeps_ite (fun x => x) ?_ ?_
  · exact Keeps.rfl
  refine Keeps.step ?_ replaceRequest_keeps rfl
  refine Keeps.step ?_ latchStuck_keeps rfl
  refine Keeps.step ?_ odBit_keeps rfl
  exact Keeps.rfl

theorem effPrChange_keeps {s input level steady overLimit} :
    Keeps 5259265 s (effPrChange s input level steady overLimit) := by
  delta effPrChange
  extract_lets -merge -useContext -underBinder +onlyGivenNames x1
  try clear_value x1
  extract_lets -merge -useContext -underBinder +onlyGivenNames x2
  try clear_value x2
  refine keeps_ite (fun x => x) ?_ ?_
  · extract_lets -merge -useContext -underBinder +onlyGivenNames x3
    refine Keeps.cut (n := 5259265) (s := s) x3 ?_ ?_
    · subst x3
      refine Keeps.step ?_ markChatter_keeps rfl
      exact Keeps.rfl
    intro _
    try clear_value x3
    refine keeps_ite (fun x => x) ?_ ?_
    · refine Keeps.step ?_ (keeps_pair _ _) rfl
      assumption
    assumption
  refine keeps_ite (fun x => x) ?_ ?_
  · refine keeps_ite (fun x => x) ?_ ?_
    · refine Keeps.step ?_ (keeps_pair _ _) rfl
      exact Keeps.rfl
    exact Keeps.rfl
  refine keeps_ite (fun x => x) ?_ ?_
  · refine Keeps.step ?_ bump_keeps rfl
    exact Keeps.rfl
  refine keeps_ite (fun x => x) ?_ ?_
  · refine Keeps.step ?_ (keeps_pair _ _) rfl
    exact Keeps.rfl
  exact Keeps.rfl

theorem attachFails_keeps {s result} :
    Keeps 16385 s (attachFails s result) := by
  delta attachFails
  extract_lets -merge -useContext -underBinder +onlyGivenNames x1
  refine Keeps.cut (n := 16385) (s := s) x1 ?_ ?_
  · subst x1
    refine Keeps.step ?_ odSet_keeps rfl
    exact Keeps.rfl
  intro _
  try clear_value x1
  refine keeps_ite (fun x => x) ?_ ?_
  · refine Keeps.step ?_ setPairState_keeps rfl
    assumption
  assumption

theorem becomePaired_keeps {s} :
    Keeps 4226625 s (becomePaired s) := by
  delta becomePaired
  extract_lets -merge -useContext -underBinder +onlyGivenNames x1
  try clear_value x1
  extract_lets -merge -useContext -underBinder +onlyGivenNames x2
  refine Keeps.cut (n := 4226625) (s := s) x2 ?_ ?_
  · subst x2
    refine Keeps.step ?_ odSet_keeps rfl
    exact Keeps.rfl
  intro _
  try clear_value x2
  extract_lets -merge -useContext -underBinder +onlyGivenNames x3
  refine Keeps.cut (n := 4226625) (s := s) x3 ?_ ?_
  · subst x3
    refine Keeps.step ?_ odSet_keeps rfl
    assumption
  intro _
  try clear_value x3
  extract_lets -merge -useContext -underBinder +onlyGivenNames x4
  refine Keeps.cut (n := 4226625) (s := s) x4 ?_ ?_
  · subst x4
    refine Keeps.step ?_ setPairState_keeps rfl
    refine Keeps.step ?_ odSet_keeps rfl
    assumption
  intro _
  try clear_value x4
  extract_lets -merge -useContext -underBinder +onlyGivenNames x5
  try clear_value x5
  extract_lets -merge -useContext -underBinder +onlyGivenNames x6
  refine Keeps.cut (n := 4226625) (s := s) x6 ?_ ?_
  · subst x6
    refine Keeps.step ?_ setOwned_keeps rfl
    assumption
  intro _
  try clear_value x6
  refine Keeps.step ?_ pathsChanged_keeps rfl
  refine Keeps.step ?_ (keeps_pair _ _) rfl
  assumption

theorem beginAttach_keeps {s t_ step} :
    Keeps 4299177985 s (beginAttach s t_ step) := by
  delta beginAttach
  refine Keeps.step ?_ sendFrame_keeps rfl
  refine Keeps.step ?_ setPairState_keeps rfl
  refine Keeps.step ?_ (keeps_pair _ _) rfl
  exact Keeps.rfl

theorem startAttach_keeps {s t_} :
    Keeps 4299177985 s (startAttach s t_) := by
  delta startAttach
  refine keeps_ite (fun x => x) ?_ ?_
  · refine Keeps.step ?_ attachFails_keeps rfl
    exact Keeps.rfl
  refine Keeps.step ?_ beginAttach_keeps rfl
  exact Keeps.rfl

theorem effAttachFrame_keeps {s step result t_} :
    Keeps 4299193921 s (effAttachFrame s step result t_) := by
  delta effAttachFrame
  refine keeps_ite (fun x => x) ?_ ?_
  · extract_lets -merge -useContext -underBinder +onlyGivenNames x1
    try clear_value x1
    refine keeps_ite (fun x => x) ?_ ?_
    · refine Keeps.step ?_ beginAttach_keeps rfl
      exact Keeps.rfl
    refine Keeps.step ?_ sendFrame_keeps rfl
    refine Keeps.step ?_ odSet_keeps rfl
    exact Keeps.rfl
  refine keeps_ite (fun x => x) ?_ ?_
  · refine Keeps.step ?_ sendFrame_keeps rfl
    exact Keeps.rfl
  refine keeps_ite (fun x => x) ?_ ?_
  · exact Keeps.rfl
  refine keeps_ite (fun x => x) ?_ ?_
  · refine Keeps.step ?_ attachFails_keeps rfl
    exact Keeps.rfl
  refine keeps_ite (fun x => x) ?_ ?_
  · refine Keeps.step ?_ sendFrame_keeps rfl
    refine Keeps.step ?_ becomePaired_keeps rfl
    exact Keeps.rfl
  refine keeps_ite (fun x => x) ?_ ?_
  · refine Keeps.step ?_ becomePaired_keeps rfl
    exact Keeps.rfl
  exact Keeps.rfl

theorem endMirroring_keeps {s} :
    Keeps 4225601 s (endMirroring s) := by
  delta endMirroring
  extract_lets -merge -useContext -underBinder +onlyGivenNames x1
  refine Keeps.cut (n := 4225601) (s := s) x1 ?_ ?_
  · subst x1
    refine keeps_foldl (fun x => x) _ _ ?_ ?_
    · exact Keeps.rfl
    intro _ _ _
    refine Keeps.step ?_ unmirror_keeps rfl
    assumption
  intro _
  try clear_value x1
  extract_lets -merge -useContext -underBinder +onlyGivenNames x2
  refine Keeps.cut (n := 4225601) (s := s) x2 ?_ ?_
  · subst x2
    refine keeps_foldl (fun x => x) _ _ ?_ ?_
    · assumption
    intro _ _ _
    refine Keeps.step ?_ dropShadow_keeps rfl
    assumption
  intro _
  try clear_value x2
  extract_lets -merge -useContext -underBinder +onlyGivenNames x3
  refine Keeps.cut (n := 4225601) (s := s) x3 ?_ ?_
  · subst x3
    refine Keeps.step ?_ flushSteps_keeps rfl
    assumption
  intro _
  try clear_value x3
  extract_lets -merge -useContext -underBinder +onlyGivenNames x4
  refine Keeps.cut (n := 4225601) (s := s) x4 ?_ ?_
  · subst x4
    refine Keeps.step ?_ setPairState_keeps rfl
    assumption
  intro _
  try clear_value x4
  refine Keeps.step ?_ (keeps_pair _ _) rfl
  assumption

theorem effDetachFrame_keeps {s} :
    Keeps 4225601 s (effDetachFrame s) := by
  delta effDetachFrame
  refine keeps_ite (fun x => x) ?_ ?_
  · refine Keeps.step ?_ endMirroring_keeps rfl
    exact Keeps.rfl
  exact Keeps.rfl

theorem startDetach_keeps {s} :
    Keeps 4299192897 s (startDetach s) := by
  delta startDetach
  refine keeps_ite (fun x => x) ?_ ?_
  · refine Keeps.step ?_ endMirroring_keeps rfl
    refine Keeps.step ?_ sendFrame_keeps rfl
    exact Keeps.rfl
  refine keeps_ite (fun x => x) ?_ ?_
  · refine Keeps.step ?_ endMirroring_keeps rfl
    exact Keeps.rfl
  exact Keeps.rfl

theorem startDrain_keeps {s} :
    Keeps 4210689 s (startDrain s) := by
  delta startDrain
  extract_lets -merge -useContext -underBinder +onlyGivenNames x1
  refine Keeps.cut (n := 4210689) (s := s) x1 ?_ ?_
  · subst x1
    refine Keeps.step ?_ setPairState_keeps rfl
    exact Keeps.rfl
  intro _
  try clear_value x1
  refine Keeps.step ?_ (keeps_pair _ _) rfl
  assumption

theorem drainOn_keeps {s} :
    Keeps 4299177985 s (drainOn s) := by
  delta drainOn
  refine keeps_ite (fun x => x) ?_ ?_
  · exact Keeps.rfl
  refine keeps_ite (fun x => x) ?_ ?_
  · refine Keeps.step ?_ setPairState_keeps rfl
    exact Keeps.rfl
  extract_lets -merge -useContext -underBinder +onlyGivenNames x1
  try clear_value x1
  extract_lets -merge -useContext -underBinder +onlyGivenNames x2
  refine Keeps.cut (n := 4299177985) (s := s) x2 ?_ ?_
  · subst x2
    refine keeps_foldl (fun x => x) _ _ ?_ ?_
    · exact Keeps.rfl
    intro _ _ _
    refine Keeps.step ?_ sendFrame_keeps rfl
    assumption
  intro _
  try clear_value x2
  refine Keeps.step ?_ (keeps_pair _ _) rfl
  assumption

theorem drainLap_keeps {s p} :
    Keeps 4299177985 s (drainLap s p) := by
  delta drainLap
  refine Keeps.step ?_ drainOn_keeps rfl
  refine Keeps.step ?_ (keeps_pair _ _) rfl
  exact Keeps.rfl

theorem effHandover_keeps {s ring done} :
    Keeps 4307648073 s (effHandover s ring done) := by
  delta effHandover
  refine keeps_ite (fun x => x) ?_ ?_
  · refine keeps_ite (fun x => x) ?_ ?_
    · refine Keeps.step ?_ sendFrame_keeps rfl
      refine Keeps.step ?_ takeRings_keeps rfl
      exact Keeps.rfl
    exact Keeps.rfl
  refine keeps_ite (fun x => x) ?_ ?_
  · exact Keeps.rfl
  extract_lets -merge -useContext -underBinder +onlyGivenNames x1
  skip
  extract_lets -merge -useContext -underBinder +onlyGivenNames x2
  refine Keeps.cut (n := 4307648073) (s := s) x2 ?_ ?_
  · subst x2
    refine Keeps.step ?_ (keeps_pair _ _) rfl
    exact Keeps.rfl
  intro _
  try clear_value x2
  extract_lets -merge -useContext -underBinder +onlyGivenNames x3
  refine Keeps.cut (n := 4307648073) (s := s) x3 ?_ ?_
  · subst x3
    refine keeps_foldl (fun x => x) _ _ ?_ ?_
    · assumption
    intro _ _ _
    refine Keeps.step ?_ dropSession_keeps rfl
    assumption
  intro _
  try clear_value x3
  extract_lets -merge -useContext -underBinder +onlyGivenNames x4
  refine Keeps.cut (n := 4307648073) (s := s) x4 ?_ ?_
  · subst x4
    refine Keeps.step ?_ updSub_keeps rfl
    assumption
  intro _
  try clear_value x4
  refine Keeps.step ?_ drainOn_keeps rfl
  assumption

theorem effHeartbeat_keeps {s f} :
    Keeps 4226625 s (effHeartbeat s f) := by
  delta effHeartbeat
  refine keeps_ite (fun x => x) ?_ ?_
  · refine Keeps.step ?_ pathsChanged_keeps rfl
    refine Keeps.step ?_ (keeps_pair _ _) rfl
    exact Keeps.rfl
  exact Keeps.rfl

theorem effHeartbeatSend_keeps {s} :
    Keeps 4299161600 s (effHeartbeatSend s) := by
  delta effHeartbeatSend
  refine keeps_ite (fun x => x) ?_ ?_
  · exact Keeps.rfl
  extract_lets -merge -useContext -underBinder +onlyGivenNames x1
  try clear_value x1
  refine Keeps.step ?_ sendFrame_keeps rfl
  refine Keeps.step ?_ (keeps_pair _ _) rfl
  exact Keeps.rfl

theorem effAbortFrame_keeps {s sess} :
    Keeps 4294969920 s (effAbortFrame s sess) := by
  delta effAbortFrame
  refine Keeps.step ?_ sendFrame_keeps rfl
  refine Keeps.step ?_ dropShadow_keeps rfl
  exact Keeps.rfl

theorem effAbortDone_keeps {s sess} :
    Keeps 2048 s (effAbortDone s sess) := by
  delta effAbortDone
  refine Keeps.step ?_ updSess_keeps rfl
  exact Keeps.rfl

theorem effReservedFrame_keeps {s} :
    Keeps 16385 s (effReservedFrame s) := by
  delta effReservedFrame
  refine Keeps.step ?_ recordEvent_keeps rfl
  exact Keeps.rfl

theorem effBusDown_keeps {s} :
    Keeps 4226625 s (effBusDown s) := by
  delta effBusDown
  refine Keeps.step ?_ pathsChanged_keeps rfl
  extract_lets -merge -useContext -underBinder +onlyGivenNames x1
  refine Keeps.cut (n := 4226625) (s := s) x1 ?_ ?_
  · subst x1
    refine Keeps.step ?_ bump_keeps rfl
    exact Keeps.rfl
  intro _
  skip
  refine Keeps.step ?_ (keeps_pair _ _) rfl
  assumption

theorem onFrame_keeps {n : Nat} {s0 : State} {f s go} (h : Keeps n s0 s)
    (hf : ∀ s, Keeps n s0 s → Keeps n s0 (go s)) (_hn : 0 ||| n = n) : Keeps n s0 (onFrame f s go) :=
  keeps_ite (fun x => x) h (hf _ h)

theorem execHeartbeat_keeps {f y2 y3 s t} (h : execHeartbeat f y2 y3 s = .next t) :
    Keeps 4226625 s t := by
  delta execHeartbeat at h
  refine keeps_next ?_ h
  refine Keeps.step ?_ effHeartbeat_keeps rfl
  exact Keeps.rfl

theorem execHeartbeatSend_keeps {s t} (h : execHeartbeatSend s = .next t) :
    Keeps 4299161600 s t := by
  delta execHeartbeatSend at h
  refine keeps_next ?_ h
  refine Keeps.step ?_ effHeartbeatSend_keeps rfl
  exact Keeps.rfl

theorem execMirrorAck_keeps {f p lapLow ns s t} (h : execMirrorAck f p lapLow ns s = .next t) :
    Keeps 12890210285 s t := by
  delta execMirrorAck at h
  refine keeps_at ?_ h
  refine onFrame_keeps ?_ ?_ rfl
  · exact Keeps.rfl
  intro _ _
  refine Keeps.step ?_ goOnAll_keeps rfl
  refine Keeps.step ?_ drainOn_keeps rfl
  refine Keeps.step ?_ effMirrorAck_keeps rfl
  assumption

theorem execShadowAck_keeps {f sequence s t} (h : execShadowAck f sequence s = .next t) :
    Keeps 4299190273 s t := by
  delta execShadowAck at h
  refine keeps_next ?_ h
  refine onFrame_keeps ?_ ?_ rfl
  · exact Keeps.rfl
  intro _ _
  refine Keeps.step ?_ drainOn_keeps rfl
  refine Keeps.step ?_ effShadowAck_keeps rfl
  assumption

theorem execAbortFrame_keeps {f session s t} (h : execAbortFrame f session s = .next t) :
    Keeps 4294969920 s t := by
  delta execAbortFrame at h
  refine keeps_at ?_ h
  refine onFrame_keeps ?_ ?_ rfl
  · exact Keeps.rfl
  intro _ _
  refine Keeps.step ?_ effAbortFrame_keeps rfl
  assumption

theorem execAbortDone_keeps {f session s t} (h : execAbortDone f session s = .next t) :
    Keeps 2048 s t := by
  delta execAbortDone at h
  refine keeps_at ?_ h
  refine onFrame_keeps ?_ ?_ rfl
  · exact Keeps.rfl
  intro _ _
  refine Keeps.step ?_ effAbortDone_keeps rfl
  assumption

theorem execHandover_keeps {f ring done s t} (h : execHandover f ring done s = .next t) :
    Keeps 4307648073 s t := by
  delta execHandover at h
  refine keeps_at ?_ h
  refine onFrame_keeps ?_ ?_ rfl
  · exact Keeps.rfl
  intro _ _
  refine Keeps.step ?_ effHandover_keeps rfl
  assumption

theorem execFlipFrame_keeps {f p set ready refused s t} (h : execFlipFrame f p set ready refused s = .next t) :
    Keeps 4295062529 s t := by
  delta execFlipFrame at h
  refine keeps_at ?_ h
  refine onFrame_keeps ?_ ?_ rfl
  · exact Keeps.rfl
  intro _ _
  refine Keeps.step ?_ flipFrameIn_keeps rfl
  assumption

theorem execAttachFrame_keeps {f step body s t} (h : execAttachFrame f step body s = .next t) :
    Keeps 4299193921 s t := by
  delta execAttachFrame at h
  refine keeps_next ?_ h
  refine onFrame_keeps ?_ ?_ rfl
  · exact Keeps.rfl
  intro _ _
  refine Keeps.step ?_ effAttachFrame_keeps rfl
  assumption

theorem execDetachFrame_keeps {f s t} (h : execDetachFrame f s = .next t) :
    Keeps 4225601 s t := by
  delta execDetachFrame at h
  refine keeps_next ?_ h
  refine onFrame_keeps ?_ ?_ rfl
  · exact Keeps.rfl
  intro _ _
  refine Keeps.step ?_ effDetachFrame_keeps rfl
  assumption

theorem execReservedFrameCode_keeps {f y2 s t} (h : execReservedFrameCode f y2 s = .next t) :
    Keeps 16385 s t := by
  delta execReservedFrameCode at h
  refine keeps_next ?_ h
  refine onFrame_keeps ?_ ?_ rfl
  · exact Keeps.rfl
  intro _ _
  refine Keeps.step ?_ effReservedFrame_keeps rfl
  assumption

theorem execBusPathDown_keeps {s t} (h : execBusPathDown s = .next t) :
    Keeps 4226625 s t := by
  delta execBusPathDown at h
  refine keeps_next ?_ h
  refine Keeps.step ?_ effBusDown_keeps rfl
  exact Keeps.rfl

theorem execMirrorEntry_keeps {session vaddr data s t} (h : execMirrorEntry session vaddr data s = .next t) :
    Keeps 8589937225 s t := by
  delta execMirrorEntry at h
  refine keeps_at ?_ h
  refine Keeps.step ?_ effMirrorEntry_keeps rfl
  exact Keeps.rfl

theorem execMirrorVerdict_keeps {p lap v l s t} (h : execMirrorVerdict p lap v l s = .next t) :
    Keeps 12889098825 s t := by
  delta execMirrorVerdict at h
  refine keeps_at ?_ h
  refine Keeps.step ?_ effMirrorVerdict_keeps rfl
  exact Keeps.rfl

theorem execShadowMessage_keeps {sequence body s t} (h : execShadowMessage sequence body s = .next t) :
    Keeps 12889111113 s t := by
  delta execShadowMessage at h
  refine keeps_next ?_ h
  refine Keeps.step ?_ effShadowMessage_keeps rfl
  exact Keeps.rfl

theorem execMirrorAckTimeout_keeps {p lap s t} (h : execMirrorAckTimeout p lap s = .next t) :
    Keeps 4299193921 s t := by
  delta execMirrorAckTimeout at h
  refine keeps_at ?_ h
  refine Keeps.step ?_ drainOn_keeps rfl
  refine Keeps.step ?_ effMirrorAckTimeout_keeps rfl
  exact Keeps.rfl

theorem execFnInput_keeps {input widthNs s t} (h : execFnInput input widthNs s = .next t) :
    Keeps 12668481 s t := by
  delta execFnInput at h
  refine keeps_at ?_ h
  refine Keeps.step ?_ effFnInput_keeps rfl
  exact Keeps.rfl

theorem execFnStuck_keeps {input s t} (h : execFnStuck input s = .next t) :
    Keeps 1064961 s t := by
  delta execFnStuck at h
  refine keeps_at ?_ h
  refine Keeps.step ?_ effFnStuck_keeps rfl
  exact Keeps.rfl

theorem execPrChange_keeps {input level steady overLimit s t} (h : execPrChange input level steady overLimit s = .next t) :
    Keeps 5259265 s t := by
  delta execPrChange at h
  refine keeps_at ?_ h
  refine Keeps.step ?_ effPrChange_keeps rfl
  exact Keeps.rfl

theorem execHeartbeatTimeout_keeps {us s t} (h : execHeartbeatTimeout us s = .next t) :
    Keeps 4300242505 s t := by
  delta execHeartbeatTimeout at h
  refine keeps_next ?_ h
  refine Keeps.step ?_ effHeartbeatTimeout_keeps rfl
  exact Keeps.rfl

theorem execTakeoverWaitExpiry_keeps {us s t} (h : execTakeoverWaitExpiry us s = .next t) :
    Keeps 4300241481 s t := by
  delta execTakeoverWaitExpiry at h
  refine keeps_next ?_ h
  refine Keeps.step ?_ effTakeoverWait_keeps rfl
  exact Keeps.rfl

end Sys2Proof.Machine
end

