-- ==== Sys2Proof/Laws/KeepsNetworks.lean ====
section
/-! SUPPORT. What the operations of Machine/Networks.lean leave as it was. -/

namespace Sys2Proof.Machine

theorem checkRoutes_keeps {s lost} :
    Keeps 3163169 s (checkRoutes s lost) := by
  delta checkRoutes
  extract_lets -merge -useContext -underBinder +onlyGivenNames x1
  try clear_value x1
  extract_lets -merge -useContext -underBinder +onlyGivenNames x2
  try clear_value x2
  extract_lets -merge -useContext -underBinder +onlyGivenNames x3
  skip
  extract_lets -merge -useContext -underBinder +onlyGivenNames x4
  refine Keeps.cut (n := 3163169) (s := s) x4 ?_ ?_
  · subst x4
    refine Keeps.step ?_ divert_keeps rfl
    refine Keeps.step ?_ (keeps_fabric _ _) rfl
    exact Keeps.rfl
  intro _
  try clear_value x4
  refine keeps_ite (fun x => x) ?_ ?_
  · assumption
  refine keeps_foldl (fun x => x) _ _ ?_ ?_
  · assumption
  intro _ _ _
  refine Keeps.step ?_ raiseFault_keeps rfl
  assumption

theorem failLink_keeps {s l lost} :
    Keeps 3195937 s (failLink s l lost) := by
  delta failLink
  refine keeps_ite (fun x => x) ?_ ?_
  · exact Keeps.rfl
  extract_lets -merge -useContext -underBinder +onlyGivenNames x1
  refine Keeps.cut (n := 3195937) (s := s) x1 ?_ ?_
  · subst x1
    refine Keeps.step ?_ updLink_keeps rfl
    exact Keeps.rfl
  intro _
  try clear_value x1
  extract_lets -merge -useContext -underBinder +onlyGivenNames x2
  refine Keeps.cut (n := 3195937) (s := s) x2 ?_ ?_
  · subst x2
    refine Keeps.step ?_ addYield_keeps rfl
    assumption
  intro _
  try clear_value x2
  extract_lets -merge -useContext -underBinder +onlyGivenNames x3
  refine Keeps.cut (n := 3195937) (s := s) x3 ?_ ?_
  · subst x3
    refine Keeps.step ?_ recordEvent_keeps rfl
    assumption
  intro _
  try clear_value x3
  refine Keeps.step ?_ checkRoutes_keeps rfl
  refine Keeps.step ?_ replaceRequest_keeps rfl
  assumption

theorem failRouter_keeps {s cl network lost} :
    Keeps 3196001 s (failRouter s cl network lost) := by
  delta failRouter
  refine keeps_ite (fun x => x) ?_ ?_
  · exact Keeps.rfl
  extract_lets -merge -useContext -underBinder +onlyGivenNames x1
  skip
  extract_lets -merge -useContext -underBinder +onlyGivenNames x2
  refine Keeps.cut (n := 3196001) (s := s) x2 ?_ ?_
  · subst x2
    refine Keeps.step ?_ (keeps_fabric _ _) rfl
    exact Keeps.rfl
  intro _
  try clear_value x2
  extract_lets -merge -useContext -underBinder +onlyGivenNames x3
  refine Keeps.cut (n := 3196001) (s := s) x3 ?_ ?_
  · subst x3
    split
    · refine keeps_ite (fun x => x) ?_ ?_
      · refine Keeps.step ?_ blockGoneFor_keeps rfl
        assumption
      refine Keeps.step ?_ raiseFault_keeps rfl
      refine Keeps.step ?_ updCluster_keeps rfl
      assumption
    assumption
  intro _
  try clear_value x3
  extract_lets -merge -useContext -underBinder +onlyGivenNames x4
  refine Keeps.cut (n := 3196001) (s := s) x4 ?_ ?_
  · subst x4
    refine Keeps.step ?_ addYield_keeps rfl
    assumption
  intro _
  try clear_value x4
  extract_lets -merge -useContext -underBinder +onlyGivenNames x5
  refine Keeps.cut (n := 3196001) (s := s) x5 ?_ ?_
  · subst x5
    refine Keeps.step ?_ recordEvent_keeps rfl
    assumption
  intro _
  try clear_value x5
  extract_lets -merge -useContext -underBinder +onlyGivenNames x6
  refine Keeps.cut (n := 3196001) (s := s) x6 ?_ ?_
  · subst x6
    refine Keeps.step ?_ replaceRequest_keeps rfl
    refine Keeps.step ?_ replaceRequest_keeps rfl
    assumption
  intro _
  try clear_value x6
  refine Keeps.step ?_ checkRoutes_keeps rfl
  refine Keeps.step ?_ recountYield_keeps rfl
  refine Keeps.step ?_ rebind_keeps rfl
  assumption

theorem updGeanna_keeps {s i f} :
    Keeps 2097152 s (updGeanna s i f) := by
  delta updGeanna
  refine Keeps.step ?_ (keeps_fabric _ _) rfl
  exact Keeps.rfl

theorem checkDirection_keeps {s dir} :
    Keeps 17409 s (checkDirection s dir) := by
  delta checkDirection
  refine keeps_ite (fun x => x) ?_ ?_
  · exact Keeps.rfl
  refine keeps_foldl (fun x => x) _ _ ?_ ?_
  · exact Keeps.rfl
  intro _ _ _
  refine keeps_ite (fun x => x) ?_ ?_
  · refine Keeps.step ?_ raiseFault_keeps rfl
    assumption
  assumption

theorem setPort_keeps {s i n} :
    Keeps 3178049 s (setPort s i n) := by
  delta setPort
  extract_lets -merge -useContext -underBinder +onlyGivenNames x1
  try clear_value x1
  refine keeps_ite (fun x => x) ?_ ?_
  · exact Keeps.rfl
  extract_lets -merge -useContext -underBinder +onlyGivenNames x2
  refine Keeps.cut (n := 3178049) (s := s) x2 ?_ ?_
  · subst x2
    refine Keeps.step ?_ updGeanna_keeps rfl
    exact Keeps.rfl
  intro _
  try clear_value x2
  extract_lets -merge -useContext -underBinder +onlyGivenNames x3
  refine Keeps.cut (n := 3178049) (s := s) x3 ?_ ?_
  · subst x3
    refine Keeps.step ?_ recordEvent_keeps rfl
    assumption
  intro _
  try clear_value x3
  extract_lets -merge -useContext -underBinder +onlyGivenNames x4
  refine Keeps.cut (n := 3178049) (s := s) x4 ?_ ?_
  · subst x4
    refine keeps_ite (fun x => x) ?_ ?_
    · refine Keeps.step ?_ replaceRequest_keeps rfl
      assumption
    assumption
  intro _
  try clear_value x4
  refine Keeps.step ?_ pathsChanged_keeps rfl
  refine Keeps.step ?_ checkDirection_keeps rfl
  assumption

theorem retrainPort_keeps {s i} :
    Keeps 3178049 s (retrainPort s i) := by
  delta retrainPort
  refine keeps_ite (fun x => x) ?_ ?_
  · refine Keeps.step ?_ setPort_keeps rfl
    exact Keeps.rfl
  exact Keeps.rfl

theorem applyPortEnable_keeps {s} :
    Keeps 3178049 s (applyPortEnable s) := by
  delta applyPortEnable
  refine keeps_foldl (fun x => x) _ _ ?_ ?_
  · exact Keeps.rfl
  intro _ _ _
  refine keeps_ite (fun x => x) ?_ ?_
  · refine Keeps.step ?_ setPort_keeps rfl
    assumption
  assumption

theorem failAttempt_keeps {s i} :
    Keeps 3178049 s (failAttempt s i) := by
  delta failAttempt
  extract_lets -merge -useContext -underBinder +onlyGivenNames x1
  refine Keeps.cut (n := 3178049) (s := s) x1 ?_ ?_
  · subst x1
    refine Keeps.step ?_ updGeanna_keeps rfl
    exact Keeps.rfl
  intro _
  try clear_value x1
  refine keeps_ite (fun x => x) ?_ ?_
  · refine Keeps.step ?_ setPort_keeps rfl
    assumption
  assumption

theorem effTrained_keeps {s i lanes nid pos delayNs} :
    Keeps 3178049 s (effTrained s i lanes nid pos delayNs) := by
  delta effTrained
  refine keeps_ite (fun x => x) ?_ ?_
  · exact Keeps.rfl
  refine keeps_ite (fun x => x) ?_ ?_
  · refine Keeps.step ?_ failAttempt_keeps rfl
    exact Keeps.rfl
  extract_lets -merge -useContext -underBinder +onlyGivenNames x1
  refine Keeps.cut (n := 3178049) (s := s) x1 ?_ ?_
  · subst x1
    refine Keeps.step ?_ updGeanna_keeps rfl
    exact Keeps.rfl
  intro _
  try clear_value x1
  refine keeps_ite (fun x => x) ?_ ?_
  · refine Keeps.step ?_ setPort_keeps rfl
    assumption
  extract_lets -merge -useContext -underBinder +onlyGivenNames x2
  try clear_value x2
  extract_lets -merge -useContext -underBinder +onlyGivenNames x3
  refine Keeps.cut (n := 3178049) (s := s) x3 ?_ ?_
  · subst x3
    refine Keeps.step ?_ updGeanna_keeps rfl
    assumption
  intro _
  try clear_value x3
  refine Keeps.step ?_ setPort_keeps rfl
  assumption

theorem effLaneFailure_keeps {s i e} :
    Keeps 3178049 s (effLaneFailure s i e) := by
  delta effLaneFailure
  refine keeps_ite (fun x => x) ?_ ?_
  · exact Keeps.rfl
  split
  · refine Keeps.step ?_ bump_keeps rfl
    refine Keeps.step ?_ updGeanna_keeps rfl
    exact Keeps.rfl
  · refine Keeps.step ?_ setPort_keeps rfl
    exact Keeps.rfl
  refine Keeps.step ?_ setPort_keeps rfl
  refine Keeps.step ?_ replaceRequest_keeps rfl
  refine Keeps.step ?_ bump_keeps rfl
  exact Keeps.rfl

theorem effNeighbourDark_keeps {s i} :
    Keeps 3178049 s (effNeighbourDark s i) := by
  delta effNeighbourDark
  refine keeps_ite (fun x => x) ?_ ?_
  · refine Keeps.step ?_ setPort_keeps rfl
    exact Keeps.rfl
  exact Keeps.rfl

theorem takeLanes_keeps {s p l} :
    Keeps 3657 s (takeLanes s p l) := by
  delta takeLanes
  extract_lets -merge -useContext -underBinder +onlyGivenNames x1
  refine Keeps.cut (n := 3657) (s := s) x1 ?_ ?_
  · subst x1
    refine keeps_foldl (fun x => x) _ _ ?_ ?_
    · exact Keeps.rfl
    intro _ _ _
    extract_lets -merge -useContext -underBinder +onlyGivenNames x2
    refine Keeps.cut (n := 3657) (s := s) x2 ?_ ?_
    · subst x2
      refine Keeps.step ?_ settlePagesOf_keeps rfl
      assumption
    intro _
    try clear_value x2
    refine Keeps.step ?_ updSess_keeps rfl
    assumption
  intro _
  try clear_value x1
  refine Keeps.step ?_ updPart_keeps rfl
  assumption

theorem jobMessageIn_keeps {s p member k} :
    Keeps 12884999753 s (jobMessageIn s p member k) := by
  delta jobMessageIn
  extract_lets -merge -useContext -underBinder +onlyGivenNames x1
  try clear_value x1
  split
  · refine keeps_ite (fun x => x) ?_ ?_
    · exact Keeps.rfl
    extract_lets -merge -useContext -underBinder +onlyGivenNames x2
    refine Keeps.cut (n := 12884999753) (s := s) x2 ?_ ?_
    · subst x2
      refine keeps_foldl (fun x => x) _ _ ?_ ?_
      · exact Keeps.rfl
      intro _ _ _
      refine Keeps.step ?_ updSess_keeps rfl
      assumption
    intro _
    try clear_value x2
    refine Keeps.step ?_ chooseMark_keeps rfl
    refine Keeps.step ?_ updPart_keeps rfl
    assumption
  · refine keeps_ite (fun x => x) ?_ ?_
    · exact Keeps.rfl
    refine keeps_ite (fun x => x) ?_ ?_
    · refine Keeps.step ?_ takeLanes_keeps rfl
      refine Keeps.step ?_ updPart_keeps rfl
      exact Keeps.rfl
    refine Keeps.step ?_ updPart_keeps rfl
    exact Keeps.rfl
  · refine keeps_ite (fun x => x) ?_ ?_
    · exact Keeps.rfl
    refine Keeps.step ?_ updPart_keeps rfl
    exact Keeps.rfl
  · refine Keeps.step ?_ freeSessionPages_keeps rfl
    refine Keeps.step ?_ updPart_keeps rfl
    exact Keeps.rfl
  · refine Keeps.step ?_ jobFlipArrives_keeps rfl
    exact Keeps.rfl
  · refine Keeps.step ?_ holdTimer_keeps rfl
    exact Keeps.rfl
  exact Keeps.rfl

theorem effJobMessage_keeps {s job mark member k} :
    Keeps 12884999753 s (effJobMessage s job mark member k) := by
  delta effJobMessage
  split
  · refine Keeps.step ?_ bump_keeps rfl
    exact Keeps.rfl
  refine keeps_ite (fun x => x) ?_ ?_
  · refine Keeps.step ?_ bump_keeps rfl
    exact Keeps.rfl
  refine keeps_foldl (fun x => x) _ _ ?_ ?_
  · exact Keeps.rfl
  intro _ _ _
  refine keeps_ite (fun x => x) ?_ ?_
  · refine Keeps.step ?_ raiseFault_keeps rfl
    assumption
  refine Keeps.step ?_ jobMessageIn_keeps rfl
  assumption

theorem effAlignment_keeps {s job} :
    Keeps 1048577 s (effAlignment s job) := by
  delta effAlignment
  split
  · refine Keeps.step ?_ bump_keeps rfl
    exact Keeps.rfl
  refine Keeps.step ?_ (keeps_plant _ _) rfl
  exact Keeps.rfl

theorem effFabricWrite_keeps {s p ch granule data poisoned} :
    Keeps 25 s (effFabricWrite s p ch granule data poisoned) := by
  delta effFabricWrite
  extract_lets -merge -useContext -underBinder +onlyGivenNames x1
  try clear_value x1
  extract_lets -merge -useContext -underBinder +onlyGivenNames x2
  try clear_value x2
  refine keeps_ite (fun x => x) ?_ ?_
  · refine Keeps.step ?_ bump_keeps rfl
    exact Keeps.rfl
  refine keeps_ite (fun x => x) ?_ ?_
  · exact Keeps.rfl
  extract_lets -merge -useContext -underBinder +onlyGivenNames x3
  try clear_value x3
  extract_lets -merge -useContext -underBinder +onlyGivenNames x4
  refine Keeps.cut (n := 25) (s := s) x4 ?_ ?_
  · subst x4
    refine keeps_foldl (fun x => x) _ _ ?_ ?_
    · exact Keeps.rfl
    intro _ _ _
    refine Keeps.step ?_ writeStackGran_keeps rfl
    assumption
  intro _
  try clear_value x4
  refine Keeps.step ?_ bump_keeps rfl
  assumption

theorem atPort_keeps {i next t} (h : atPort i next = .next t) :
    Keeps 0 next t := by
  delta atPort at h
  refine keeps_at ?_ h
  exact Keeps.rfl

theorem atLink_keeps {l next t} (h : atLink l next = .next t) :
    Keeps 0 next t := by
  delta atLink at h
  refine keeps_at ?_ h
  exact Keeps.rfl

theorem execLinkFailure_keeps {link lost s t} (h : execLinkFailure link lost s = .next t) :
    Keeps 3195937 s t := by
  delta execLinkFailure at h
  refine Keeps.step ?_ (atLink_keeps h) rfl
  refine Keeps.step ?_ failLink_keeps rfl
  exact Keeps.rfl

theorem execRouterFailure_keeps {cluster network lost s t} (h : execRouterFailure cluster network lost s = .next t) :
    Keeps 3196001 s t := by
  delta execRouterFailure at h
  refine keeps_at ?_ h
  refine Keeps.step ?_ failRouter_keeps rfl
  exact Keeps.rfl

theorem execTrainingComplete_keeps {port lanes nid pos delayNs s t} (h : execTrainingComplete port lanes nid pos delayNs s = .next t) :
    Keeps 3178049 s t := by
  delta execTrainingComplete at h
  refine Keeps.step ?_ (atPort_keeps h) rfl
  refine Keeps.step ?_ effTrained_keeps rfl
  exact Keeps.rfl

theorem execTrainingAttemptTimeout_keeps {port s t} (h : execTrainingAttemptTimeout port s = .next t) :
    Keeps 3178049 s t := by
  delta execTrainingAttemptTimeout at h
  refine Keeps.step ?_ (atPort_keeps h) rfl
  refine keeps_ite (fun x => x) ?_ ?_
  · refine Keeps.step ?_ failAttempt_keeps rfl
    exact Keeps.rfl
  exact Keeps.rfl

theorem execLaneFailure_keeps {port e s t} (h : execLaneFailure port e s = .next t) :
    Keeps 3178049 s t := by
  delta execLaneFailure at h
  refine Keeps.step ?_ (atPort_keeps h) rfl
  refine Keeps.step ?_ effLaneFailure_keeps rfl
  exact Keeps.rfl

theorem execNeighbourDark_keeps {port s t} (h : execNeighbourDark port s = .next t) :
    Keeps 3178049 s t := by
  delta execNeighbourDark at h
  refine Keeps.step ?_ (atPort_keeps h) rfl
  refine Keeps.step ?_ effNeighbourDark_keeps rfl
  exact Keeps.rfl

theorem execJobSynchronizationMessage_keeps {jobId mark member k s t} (h : execJobSynchronizationMessage jobId mark member k s = .next t) :
    Keeps 12884999753 s t := by
  delta execJobSynchronizationMessage at h
  refine keeps_next ?_ h
  refine Keeps.step ?_ effJobMessage_keeps rfl
  exact Keeps.rfl

theorem execJobFaultMessage_keeps {jobId code s t} (h : execJobFaultMessage jobId code s = .next t) :
    Keeps 17409 s t := by
  delta execJobFaultMessage at h
  refine keeps_next ?_ h
  refine Keeps.step ?_ effJobFault_keeps rfl
  exact Keeps.rfl

theorem execAlignmentMessage_keeps {jobId s t} (h : execAlignmentMessage jobId s = .next t) :
    Keeps 1048577 s t := by
  delta execAlignmentMessage at h
  refine keeps_next ?_ h
  refine Keeps.step ?_ effAlignment_keeps rfl
  exact Keeps.rfl

theorem execFabricWriteArrival_keeps {p channel granule data s t} (h : execFabricWriteArrival p channel granule data s = .next t) :
    Keeps 25 s t := by
  delta execFabricWriteArrival at h
  refine keeps_at ?_ h
  refine Keeps.step ?_ effFabricWrite_keeps rfl
  exact Keeps.rfl

end Sys2Proof.Machine
end

