-- ==== Sys2Proof/Laws/KeepsMesh.lean ====
section
/-! SUPPORT. What the operations of Machine/Mesh.lean leave as it was. -/

namespace Sys2Proof.Machine

theorem recordMesh_keeps {s} :
    Keeps 16385 s (recordMesh s) := by
  delta recordMesh
  refine Keeps.step ?_ recordEvent_keeps rfl
  exact Keeps.rfl

theorem lockMesh_keeps {s us} :
    Keeps 1 s (lockMesh s us) := by
  delta lockMesh
  refine keeps_ite (fun x => x) ?_ ?_
  · exact Keeps.rfl
  extract_lets -merge -useContext -underBinder +onlyGivenNames x1
  refine Keeps.cut (n := 1) (s := s) x1 ?_ ?_
  · subst x1
    refine Keeps.step ?_ odPut_keeps rfl
    exact Keeps.rfl
  intro _
  try clear_value x1
  refine Keeps.step ?_ odSet_keeps rfl
  assumption

theorem loseReference_keeps {s} :
    Keeps 1048577 s (loseReference s) := by
  delta loseReference
  extract_lets -merge -useContext -underBinder +onlyGivenNames x1
  refine Keeps.cut (n := 1048577) (s := s) x1 ?_ ?_
  · subst x1
    refine Keeps.step ?_ odSet_keeps rfl
    exact Keeps.rfl
  intro _
  try clear_value x1
  extract_lets -merge -useContext -underBinder +onlyGivenNames x2
  skip
  extract_lets -merge -useContext -underBinder +onlyGivenNames x3
  refine Keeps.cut (n := 1048577) (s := s) x3 ?_ ?_
  · subst x3
    refine Keeps.step ?_ (keeps_plant _ _) rfl
    assumption
  intro _
  try clear_value x3
  refine keeps_ite (fun x => x) ?_ ?_
  · refine Keeps.step ?_ odSet_keeps rfl
    assumption
  assumption

theorem effReferenceAbsent_keeps {s a} :
    Keeps 1064961 s (effReferenceAbsent s a) := by
  delta effReferenceAbsent
  split
  · refine Keeps.step ?_ bump_keeps rfl
    exact Keeps.rfl
  · refine Keeps.step ?_ loseReference_keeps rfl
    exact Keeps.rfl
  · refine Keeps.step ?_ loseReference_keeps rfl
    refine Keeps.step ?_ markChatter_keeps rfl
    exact Keeps.rfl
  extract_lets -merge -useContext -underBinder +onlyGivenNames x1
  refine Keeps.cut (n := 1064961) (s := s) x1 ?_ ?_
  · subst x1
    refine Keeps.step ?_ loseReference_keeps rfl
    exact Keeps.rfl
  intro _
  try clear_value x1
  refine keeps_ite (fun x => x) ?_ ?_
  · assumption
  extract_lets -merge -useContext -underBinder +onlyGivenNames x2
  skip
  extract_lets -merge -useContext -underBinder +onlyGivenNames x3
  refine Keeps.cut (n := 1064961) (s := s) x3 ?_ ?_
  · subst x3
    refine Keeps.step ?_ (keeps_plant _ _) rfl
    assumption
  intro _
  try clear_value x3
  refine Keeps.step ?_ recordMesh_keeps rfl
  refine Keeps.step ?_ reportInput_keeps rfl
  refine Keeps.step ?_ odBit_keeps rfl
  refine Keeps.step ?_ odSet_keeps rfl
  assumption

theorem effReferenceRestored_keeps {s} :
    Keeps 1048577 s (effReferenceRestored s) := by
  delta effReferenceRestored
  refine keeps_ite (fun x => x) ?_ ?_
  · exact Keeps.rfl
  extract_lets -merge -useContext -underBinder +onlyGivenNames x1
  refine Keeps.cut (n := 1048577) (s := s) x1 ?_ ?_
  · subst x1
    refine Keeps.step ?_ odSet_keeps rfl
    exact Keeps.rfl
  intro _
  try clear_value x1
  refine Keeps.step ?_ (keeps_plant _ _) rfl
  assumption

theorem effSlewComplete_keeps {s mark} :
    Keeps 1048577 s (effSlewComplete s mark) := by
  delta effSlewComplete
  refine keeps_ite (fun x => x) ?_ ?_
  · exact Keeps.rfl
  refine Keeps.step ?_ odSet_keeps rfl
  refine Keeps.step ?_ odSet_keeps rfl
  refine Keeps.step ?_ (keeps_plant _ _) rfl
  exact Keeps.rfl

theorem effOscillatorUnlock_keeps {s cl} :
    Keeps 1064961 s (effOscillatorUnlock s cl) := by
  delta effOscillatorUnlock
  refine keeps_ite (fun x => x) ?_ ?_
  · refine Keeps.step ?_ recordMesh_keeps rfl
    refine Keeps.step ?_ odSet_keeps rfl
    refine Keeps.step ?_ (keeps_plant _ _) rfl
    exact Keeps.rfl
  exact Keeps.rfl

theorem effRackMark_keeps {s} :
    Keeps 4296015873 s (effRackMark s) := by
  delta effRackMark
  refine keeps_ite (fun x => x) ?_ ?_
  · exact Keeps.rfl
  extract_lets -merge -useContext -underBinder +onlyGivenNames x1
  try clear_value x1
  extract_lets -merge -useContext -underBinder +onlyGivenNames x2
  try clear_value x2
  extract_lets -merge -useContext -underBinder +onlyGivenNames x3
  refine Keeps.cut (n := 4296015873) (s := s) x3 ?_ ?_
  · subst x3
    refine Keeps.step ?_ odSet_keeps rfl
    exact Keeps.rfl
  intro _
  try clear_value x3
  extract_lets -merge -useContext -underBinder +onlyGivenNames x4
  skip
  extract_lets -merge -useContext -underBinder +onlyGivenNames x5
  refine Keeps.cut (n := 4296015873) (s := s) x5 ?_ ?_
  · subst x5
    refine Keeps.step ?_ (keeps_plant _ _) rfl
    assumption
  intro _
  try clear_value x5
  refine keeps_foldl (fun x => x) _ _ ?_ ?_
  · assumption
  intro _ _ _
  refine Keeps.step ?_ emit_keeps rfl
  assumption

theorem effMarker_keeps {s offset} :
    Keeps 1064961 s (effMarker s offset) := by
  delta effMarker
  extract_lets -merge -useContext -underBinder +onlyGivenNames x1
  try clear_value x1
  refine keeps_ite (fun x => x) ?_ ?_
  · exact Keeps.rfl
  refine keeps_ite (fun x => x) ?_ ?_
  · refine Keeps.step ?_ (keeps_plant _ _) rfl
    exact Keeps.rfl
  extract_lets -merge -useContext -underBinder +onlyGivenNames x2
  try clear_value x2
  refine keeps_ite (fun x => x) ?_ ?_
  · refine Keeps.step ?_ (keeps_plant _ _) rfl
    exact Keeps.rfl
  extract_lets -merge -useContext -underBinder +onlyGivenNames x3
  refine Keeps.cut (n := 1064961) (s := s) x3 ?_ ?_
  · subst x3
    refine Keeps.step ?_ (keeps_plant _ _) rfl
    exact Keeps.rfl
  intro _
  try clear_value x3
  extract_lets -merge -useContext -underBinder +onlyGivenNames x4
  refine Keeps.cut (n := 1064961) (s := s) x4 ?_ ?_
  · subst x4
    refine Keeps.step ?_ odSet_keeps rfl
    assumption
  intro _
  try clear_value x4
  refine Keeps.step ?_ recordMesh_keeps rfl
  refine Keeps.step ?_ bump_keeps rfl
  assumption

theorem execLockTimeout_keeps {s t} (h : execLockTimeout s = .next t) :
    Keeps 16385 s t := by
  delta execLockTimeout at h
  refine keeps_next ?_ h
  refine keeps_ite (fun x => x) ?_ ?_
  · refine Keeps.step ?_ recordMesh_keeps rfl
    exact Keeps.rfl
  exact Keeps.rfl

theorem execReferenceAbsent_keeps {e s t} (h : execReferenceAbsent e s = .next t) :
    Keeps 1064961 s t := by
  delta execReferenceAbsent at h
  refine keeps_next ?_ h
  refine Keeps.step ?_ effReferenceAbsent_keeps rfl
  exact Keeps.rfl

theorem execReferenceRestored_keeps {s t} (h : execReferenceRestored s = .next t) :
    Keeps 1048577 s t := by
  delta execReferenceRestored at h
  refine keeps_next ?_ h
  refine Keeps.step ?_ effReferenceRestored_keeps rfl
  exact Keeps.rfl

theorem execSlewComplete_keeps {mark s t} (h : execSlewComplete mark s = .next t) :
    Keeps 1048577 s t := by
  delta execSlewComplete at h
  refine keeps_next ?_ h
  refine Keeps.step ?_ effSlewComplete_keeps rfl
  exact Keeps.rfl

theorem execOscillatorUnlock_keeps {cluster s t} (h : execOscillatorUnlock cluster s = .next t) :
    Keeps 1064961 s t := by
  delta execOscillatorUnlock at h
  refine keeps_at ?_ h
  refine Keeps.step ?_ effOscillatorUnlock_keeps rfl
  exact Keeps.rfl

theorem execRackMark_keeps {s t} (h : execRackMark s = .next t) :
    Keeps 4296015873 s t := by
  delta execRackMark at h
  refine keeps_next ?_ h
  refine Keeps.step ?_ effRackMark_keeps rfl
  exact Keeps.rfl

theorem execMarker_keeps {offset s t} (h : execMarker offset s = .next t) :
    Keeps 1064961 s t := by
  delta execMarker at h
  refine keeps_next ?_ h
  refine Keeps.step ?_ effMarker_keeps rfl
  exact Keeps.rfl

end Sys2Proof.Machine
end

