-- ==== Sys2Proof/Laws/KeepsPower.lean ====
section
/-! SUPPORT. What the operations of Machine/Power.lean leave as it was. -/

namespace Sys2Proof.Machine

theorem recordPower_keeps {s b d ph v} :
    Keeps 16385 s (recordPower s b d ph v) := by
  delta recordPower
  refine Keeps.step ?_ recordEvent_keeps rfl
  exact Keeps.rfl

theorem effSetPoint_keeps {s b droopMv} :
    Keeps 262145 s (effSetPoint s b droopMv) := by
  delta effSetPoint
  extract_lets -merge -useContext -underBinder +onlyGivenNames x1
  try clear_value x1
  refine keeps_ite (fun x => x) ?_ ?_
  · exact Keeps.rfl
  extract_lets -merge -useContext -underBinder +onlyGivenNames x2
  try clear_value x2
  refine keeps_ite (fun x => x) ?_ ?_
  · extract_lets -merge -useContext -underBinder +onlyGivenNames x3
    try clear_value x3
    refine keeps_ite (fun x => x) ?_ ?_
    · refine Keeps.step ?_ bump_keeps rfl
      refine Keeps.step ?_ setBlk_keeps rfl
      exact Keeps.rfl
    refine Keeps.step ?_ setBlk_keeps rfl
    exact Keeps.rfl
  refine keeps_ite (fun x => x) ?_ ?_
  · refine Keeps.step ?_ setBlk_keeps rfl
    exact Keeps.rfl
  exact Keeps.rfl

theorem effTargetStep_keeps {s b drawW} :
    Keeps 262144 s (effTargetStep s b drawW) := by
  delta effTargetStep
  extract_lets -merge -useContext -underBinder +onlyGivenNames x1
  try clear_value x1
  refine keeps_ite (fun x => x) ?_ ?_
  · exact Keeps.rfl
  refine Keeps.step ?_ setBlk_keeps rfl
  exact Keeps.rfl

theorem requestConverters_keeps {s} :
    Keeps 1064961 s (requestConverters s) := by
  delta requestConverters
  refine Keeps.step ?_ replaceRequest_keeps rfl
  exact Keeps.rfl

theorem effConverter_keeps {s i} :
    Keeps 1097729 s (effConverter s i) := by
  delta effConverter
  refine keeps_ite (fun x => x) ?_ ?_
  · exact Keeps.rfl
  extract_lets -merge -useContext -underBinder +onlyGivenNames x1
  refine Keeps.cut (n := 1097729) (s := s) x1 ?_ ?_
  · subst x1
    refine Keeps.step ?_ odBit_keeps rfl
    exact Keeps.rfl
  intro _
  try clear_value x1
  extract_lets -merge -useContext -underBinder +onlyGivenNames x2
  refine Keeps.cut (n := 1097729) (s := s) x2 ?_ ?_
  · subst x2
    refine Keeps.step ?_ addYield_keeps rfl
    assumption
  intro _
  try clear_value x2
  refine Keeps.step ?_ requestConverters_keeps rfl
  refine Keeps.step ?_ recordPower_keeps rfl
  assumption

theorem zeroVectors_keeps {s b} :
    Keeps 64 s (zeroVectors s b) := by
  delta zeroVectors
  refine keeps_foldl (fun x => x) _ _ ?_ ?_
  · exact Keeps.rfl
  intro _ _ _
  refine Keeps.step ?_ updCluster_keeps rfl
  assumption

theorem stackGoesOff_keeps {s b} :
    Keeps 262168 s (stackGoesOff s b) := by
  delta stackGoesOff
  extract_lets -merge -useContext -underBinder +onlyGivenNames x1
  try clear_value x1
  extract_lets -merge -useContext -underBinder +onlyGivenNames x2
  refine Keeps.cut (n := 262168) (s := s) x2 ?_ ?_
  · subst x2
    refine Keeps.step ?_ (keeps_stack_stackPoison _ _ _ (fun c => memZero_wf _ _ c.stack)) rfl
    exact Keeps.rfl
  intro _
  try clear_value x2
  refine Keeps.step ?_ updBlk_keeps rfl
  assumption

theorem dropWrites_keeps {s b} :
    Keeps 32 s (dropWrites s b) := by
  delta dropWrites
  refine keeps_foldl (fun x => x) _ _ ?_ ?_
  · exact Keeps.rfl
  intro _ _ _
  refine keeps_foldl (fun x => x) _ _ ?_ ?_
  · assumption
  intro _ _ _
  refine Keeps.step ?_ endTransfer_keeps rfl
  assumption

theorem isolateBlock_keeps {s b cause code payload} :
    Keeps 12886343289 s (isolateBlock s b cause code payload) := by
  delta isolateBlock
  extract_lets -merge -useContext -underBinder +onlyGivenNames x1
  try clear_value x1
  extract_lets -merge -useContext -underBinder +onlyGivenNames x2
  refine Keeps.cut (n := 12886343289) (s := s) x2 ?_ ?_
  · subst x2
    refine Keeps.step ?_ dropWrites_keeps rfl
    refine Keeps.step ?_ zeroVectors_keeps rfl
    exact Keeps.rfl
  intro _
  try clear_value x2
  extract_lets -merge -useContext -underBinder +onlyGivenNames x3
  refine Keeps.cut (n := 12886343289) (s := s) x3 ?_ ?_
  · subst x3
    refine Keeps.step ?_ updBlk_keeps rfl
    assumption
  intro _
  try clear_value x3
  extract_lets -merge -useContext -underBinder +onlyGivenNames x4
  refine Keeps.cut (n := 12886343289) (s := s) x4 ?_ ?_
  · subst x4
    refine keeps_ite (fun x => x) ?_ ?_
    · assumption
    refine Keeps.step ?_ addYield_keeps rfl
    assumption
  intro _
  try clear_value x4
  extract_lets -merge -useContext -underBinder +onlyGivenNames x5
  refine Keeps.cut (n := 12886343289) (s := s) x5 ?_ ?_
  · subst x5
    refine keeps_ite (fun x => x) ?_ ?_
    · assumption
    refine Keeps.step ?_ nextWake_keeps rfl
    assumption
  intro _
  try clear_value x5
  refine Keeps.step ?_ stackGoesOff_keeps rfl
  refine Keeps.step ?_ loseBlock_keeps rfl
  assumption

theorem transitDown_keeps {s b lost} :
    Keeps 3458145 s (transitDown s b lost) := by
  delta transitDown
  refine keeps_foldl (fun x => x) _ _ ?_ ?_
  · refine Keeps.step ?_ updBlk_keeps rfl
    exact Keeps.rfl
  intro _ _ _
  refine Keeps.step ?_ failRouter_keeps rfl
  assumption

theorem loseTransit_keeps {s b lost} :
    Keeps 3458145 s (loseTransit s b lost) := by
  delta loseTransit
  refine keeps_ite (fun x => x) ?_ ?_
  · exact Keeps.rfl
  extract_lets -merge -useContext -underBinder +onlyGivenNames x1
  try clear_value x1
  extract_lets -merge -useContext -underBinder +onlyGivenNames x2
  refine Keeps.cut (n := 3458145) (s := s) x2 ?_ ?_
  · subst x2
    refine Keeps.step ?_ transitDown_keeps rfl
    exact Keeps.rfl
  intro _
  try clear_value x2
  extract_lets -merge -useContext -underBinder +onlyGivenNames x3
  try clear_value x3
  extract_lets -merge -useContext -underBinder +onlyGivenNames x4
  refine Keeps.cut (n := 3458145) (s := s) x4 ?_ ?_
  · subst x4
    refine Keeps.step ?_ updBlk_keeps rfl
    assumption
  intro _
  try clear_value x4
  refine keeps_ite (fun x => x) ?_ ?_
  · refine Keeps.step ?_ transitDown_keeps rfl
    assumption
  assumption

theorem effShort_keeps {s b sw d lost} :
    Keeps 12888440441 s (effShort s b sw d lost) := by
  delta effShort
  extract_lets -merge -useContext -underBinder +onlyGivenNames x1
  try clear_value x1
  extract_lets -merge -useContext -underBinder +onlyGivenNames x2
  try clear_value x2
  split
  · refine keeps_ite (fun x => x) ?_ ?_
    · exact Keeps.rfl
    refine Keeps.step ?_ isolateBlock_keeps rfl
    refine Keeps.step ?_ bump_keeps rfl
    exact Keeps.rfl
  refine keeps_ite (fun x => x) ?_ ?_
  · exact Keeps.rfl
  extract_lets -merge -useContext -underBinder +onlyGivenNames x3
  refine Keeps.cut (n := 12888440441) (s := s) x3 ?_ ?_
  · subst x3
    refine Keeps.step ?_ addYield_keeps rfl
    refine Keeps.step ?_ bump_keeps rfl
    exact Keeps.rfl
  intro _
  try clear_value x3
  refine Keeps.step ?_ loseTransit_keeps rfl
  refine Keeps.step ?_ recordPower_keeps rfl
  assumption

theorem supplyOff_keeps {s b d} :
    Keeps 12886310497 s (supplyOff s b d) := by
  delta supplyOff
  extract_lets -merge -useContext -underBinder +onlyGivenNames x1
  try clear_value x1
  refine keeps_ite (fun x => x) ?_ ?_
  · exact Keeps.rfl
  extract_lets -merge -useContext -underBinder +onlyGivenNames x2
  refine Keeps.cut (n := 12886310497) (s := s) x2 ?_ ?_
  · subst x2
    refine Keeps.step ?_ zeroVectors_keeps rfl
    exact Keeps.rfl
  intro _
  try clear_value x2
  extract_lets -merge -useContext -underBinder +onlyGivenNames x3
  refine Keeps.cut (n := 12886310497) (s := s) x3 ?_ ?_
  · subst x3
    refine Keeps.step ?_ setBlk_keeps rfl
    assumption
  intro _
  try clear_value x3
  refine Keeps.step ?_ loseBlock_keeps rfl
  assumption

theorem finishDrain_keeps {s b} :
    Keeps 12886310457 s (finishDrain s b) := by
  delta finishDrain
  extract_lets -merge -useContext -underBinder +onlyGivenNames x1
  try clear_value x1
  split
  · exact Keeps.rfl
  · refine Keeps.step ?_ stackGoesOff_keeps rfl
    refine Keeps.step ?_ setBlk_keeps rfl
    exact Keeps.rfl
  · extract_lets -merge -useContext -underBinder +onlyGivenNames x2
    refine Keeps.cut (n := 12886310457) (s := s) x2 ?_ ?_
    · subst x2
      refine Keeps.step ?_ setBlk_keeps rfl
      exact Keeps.rfl
    intro _
    try clear_value x2
    refine keeps_ite (fun x => x) ?_ ?_
    · assumption
    refine Keeps.step ?_ stackGoesOff_keeps rfl
    assumption
  extract_lets -merge -useContext -underBinder +onlyGivenNames x3
  refine Keeps.cut (n := 12886310457) (s := s) x3 ?_ ?_
  · subst x3
    refine Keeps.step ?_ setBlk_keeps rfl
    exact Keeps.rfl
  intro _
  try clear_value x3
  extract_lets -merge -useContext -underBinder +onlyGivenNames x4
  refine Keeps.cut (n := 12886310457) (s := s) x4 ?_ ?_
  · subst x4
    refine Keeps.step ?_ recordEvent_keeps rfl
    refine Keeps.step ?_ bump_keeps rfl
    assumption
  intro _
  try clear_value x4
  refine keeps_ite (fun x => x) ?_ ?_
  · refine Keeps.step ?_ blockPiecesLost_keeps rfl
    refine Keeps.step ?_ stackGoesOff_keeps rfl
    assumption
  assumption

theorem effDrained_keeps {s b} :
    Keeps 12886310457 s (effDrained s b) := by
  delta effDrained
  refine keeps_ite (fun x => x) ?_ ?_
  · exact Keeps.rfl
  refine Keeps.step ?_ finishDrain_keeps rfl
  exact Keeps.rfl

theorem failPhase_keeps {s b d ph} :
    Keeps 12888440417 s (failPhase s b d ph) := by
  delta failPhase
  extract_lets -merge -useContext -underBinder +onlyGivenNames x1
  try clear_value x1
  refine keeps_ite (fun x => x) ?_ ?_
  · exact Keeps.rfl
  extract_lets -merge -useContext -underBinder +onlyGivenNames x2
  try clear_value x2
  extract_lets -merge -useContext -underBinder +onlyGivenNames x3
  try clear_value x3
  extract_lets -merge -useContext -underBinder +onlyGivenNames x4
  refine Keeps.cut (n := 12888440417) (s := s) x4 ?_ ?_
  · subst x4
    refine Keeps.step ?_ setBlk_keeps rfl
    refine Keeps.step ?_ bump_keeps rfl
    exact Keeps.rfl
  intro _
  try clear_value x4
  extract_lets -merge -useContext -underBinder +onlyGivenNames x5
  refine Keeps.cut (n := 12888440417) (s := s) x5 ?_ ?_
  · subst x5
    refine Keeps.step ?_ recordPower_keeps rfl
    assumption
  intro _
  try clear_value x5
  extract_lets -merge -useContext -underBinder +onlyGivenNames x6
  refine Keeps.cut (n := 12888440417) (s := s) x6 ?_ ?_
  · subst x6
    refine Keeps.step ?_ replaceRequest_keeps rfl
    assumption
  intro _
  try clear_value x6
  split
  · refine keeps_ite (fun x => x) ?_ ?_
    · refine Keeps.step ?_ updBlk_keeps rfl
      assumption
    refine keeps_ite (fun x => x) ?_ ?_
    · refine Keeps.step ?_ supplyOff_keeps rfl
      assumption
    assumption
  · refine keeps_ite (fun x => x) ?_ ?_
    · refine Keeps.step ?_ loseTransit_keeps rfl
      assumption
    assumption
  refine keeps_ite (fun x => x) ?_ ?_
  · refine Keeps.step ?_ supplyOff_keeps rfl
    assumption
  assumption

theorem effConnector_keeps {s r} :
    Keeps 12888440417 s (effConnector s r) := by
  delta effConnector
  extract_lets -merge -useContext -underBinder +onlyGivenNames x1
  try clear_value x1
  extract_lets -merge -useContext -underBinder +onlyGivenNames x2
  try clear_value x2
  refine keeps_ite (fun x => x) ?_ ?_
  · exact Keeps.rfl
  refine keeps_ite (fun x => x) ?_ ?_
  · extract_lets -merge -useContext -underBinder +onlyGivenNames x3
    refine Keeps.cut (n := 12888440417) (s := s) x3 ?_ ?_
    · subst x3
      refine Keeps.step ?_ setBlk_keeps rfl
      exact Keeps.rfl
    intro _
    try clear_value x3
    extract_lets -merge -useContext -underBinder +onlyGivenNames x4
    refine Keeps.cut (n := 12888440417) (s := s) x4 ?_ ?_
    · subst x4
      refine Keeps.step ?_ replaceRequest_keeps rfl
      refine Keeps.step ?_ recordPower_keeps rfl
      assumption
    intro _
    try clear_value x4
    refine keeps_ite (fun x => x) ?_ ?_
    · refine Keeps.step ?_ failPhase_keeps rfl
      assumption
    refine Keeps.step ?_ updBlk_keeps rfl
    assumption
  refine keeps_ite (fun x => x) ?_ ?_
  · refine Keeps.step ?_ setBlk_keeps rfl
    exact Keeps.rfl
  extract_lets -merge -useContext -underBinder +onlyGivenNames x5
  try clear_value x5
  extract_lets -merge -useContext -underBinder +onlyGivenNames x6
  refine Keeps.cut (n := 12888440417) (s := s) x6 ?_ ?_
  · subst x6
    refine Keeps.step ?_ setBlk_keeps rfl
    exact Keeps.rfl
  intro _
  try clear_value x6
  refine keeps_ite (fun x => x) ?_ ?_
  · assumption
  extract_lets -merge -useContext -underBinder +onlyGivenNames x7
  refine Keeps.cut (n := 12888440417) (s := s) x7 ?_ ?_
  · subst x7
    refine Keeps.step ?_ updBlk_keeps rfl
    assumption
  intro _
  try clear_value x7
  refine Keeps.step ?_ replaceRequest_keeps rfl
  refine Keeps.step ?_ recordPower_keeps rfl
  assumption

theorem takeNetSample_keeps {s x} :
    Keeps 2097153 s (takeNetSample s x) := by
  delta takeNetSample
  extract_lets -merge -useContext -underBinder +onlyGivenNames x1
  skip
  extract_lets -merge -useContext -underBinder +onlyGivenNames x2
  refine Keeps.cut (n := 2097153) (s := s) x2 ?_ ?_
  · subst x2
    refine Keeps.step ?_ (keeps_fabric _ _) rfl
    exact Keeps.rfl
  intro _
  try clear_value x2
  extract_lets -merge -useContext -underBinder +onlyGivenNames x3
  refine Keeps.cut (n := 2097153) (s := s) x3 ?_ ?_
  · subst x3
    refine keeps_ite (fun x => x) ?_ ?_
    · assumption
    refine Keeps.step ?_ bump_keeps rfl
    assumption
  intro _
  try clear_value x3
  extract_lets -merge -useContext -underBinder +onlyGivenNames x4
  refine Keeps.cut (n := 2097153) (s := s) x4 ?_ ?_
  · subst x4
    refine keeps_ite (fun x => x) ?_ ?_
    · assumption
    refine Keeps.step ?_ bump_keeps rfl
    assumption
  intro _
  try clear_value x4
  extract_lets -merge -useContext -underBinder +onlyGivenNames x5
  refine Keeps.cut (n := 2097153) (s := s) x5 ?_ ?_
  · subst x5
    refine keeps_ite (fun x => x) ?_ ?_
    · assumption
    refine Keeps.step ?_ bump_keeps rfl
    assumption
  intro _
  try clear_value x5
  refine keeps_foldl (fun x => x) _ _ ?_ ?_
  · assumption
  intro _ _ _
  refine Keeps.step ?_ updGeanna_keeps rfl
  assumption

theorem effReport_keeps {s mv w joules l net} :
    Keeps 3145729 s (effReport s mv w joules l net) := by
  delta effReport
  extract_lets -merge -useContext -underBinder +onlyGivenNames x1
  refine Keeps.cut (n := 3145729) (s := s) x1 ?_ ?_
  · subst x1
    refine Keeps.step ?_ takeNetSample_keeps rfl
    refine Keeps.step ?_ bump_keeps rfl
    exact Keeps.rfl
  intro _
  try clear_value x1
  extract_lets -merge -useContext -underBinder +onlyGivenNames x2
  refine Keeps.cut (n := 3145729) (s := s) x2 ?_ ?_
  · subst x2
    refine Keeps.step ?_ odPut_keeps rfl
    refine Keeps.step ?_ odPut_keeps rfl
    refine Keeps.step ?_ bump_keeps rfl
    assumption
  intro _
  try clear_value x2
  extract_lets -merge -useContext -underBinder +onlyGivenNames x3
  try clear_value x3
  extract_lets -merge -useContext -underBinder +onlyGivenNames x4
  try clear_value x4
  refine Keeps.step ?_ (keeps_plant _ _) rfl
  assumption

theorem effRefill_keeps {s} :
    Keeps 12886003693 s (effRefill s) := by
  delta effRefill
  extract_lets -merge -useContext -underBinder +onlyGivenNames x1
  refine Keeps.cut (n := 12886003693) (s := s) x1 ?_ ?_
  · subst x1
    refine keeps_foldl (fun x => x) _ _ ?_ ?_
    · exact Keeps.rfl
    intro _ _ _
    refine Keeps.step ?_ updCluster_keeps rfl
    assumption
  intro _
  try clear_value x1
  refine Keeps.step ?_ goOnAll_keeps rfl
  assumption

theorem recordGovernor_keeps {s} :
    Keeps 16385 s (recordGovernor s) := by
  delta recordGovernor
  refine Keeps.step ?_ recordPower_keeps rfl
  exact Keeps.rfl

theorem setAverage_keeps {s avgW} :
    Keeps 1048576 s (setAverage s avgW) := by
  delta setAverage
  refine Keeps.step ?_ (keeps_plant _ _) rfl
  exact Keeps.rfl

theorem effGovernorStep_keeps {s avgW} :
    Keeps 1329217 s (effGovernorStep s avgW) := by
  delta effGovernorStep
  extract_lets -merge -useContext -underBinder +onlyGivenNames x1
  refine Keeps.cut (n := 1329217) (s := s) x1 ?_ ?_
  · subst x1
    refine Keeps.step ?_ setAverage_keeps rfl
    exact Keeps.rfl
  intro _
  try clear_value x1
  refine keeps_ite (fun x => x) ?_ ?_
  · refine keeps_ite (fun x => x) ?_ ?_
    · refine Keeps.step ?_ recordGovernor_keeps rfl
      refine Keeps.step ?_ odSet_keeps rfl
      assumption
    refine keeps_ite (fun x => x) ?_ ?_
    · refine Keeps.step ?_ recordGovernor_keeps rfl
      refine Keeps.step ?_ reapplyAll_keeps rfl
      refine Keeps.step ?_ excuseAll_keeps rfl
      refine Keeps.step ?_ odSet_keeps rfl
      assumption
    assumption
  refine keeps_ite (fun x => x) ?_ ?_
  · refine Keeps.step ?_ recordGovernor_keeps rfl
    refine Keeps.step ?_ reapplyAll_keeps rfl
    refine Keeps.step ?_ odSet_keeps rfl
    assumption
  assumption

theorem effGovernorRaise_keeps {s avgW} :
    Keeps 1064961 s (effGovernorRaise s avgW) := by
  delta effGovernorRaise
  extract_lets -merge -useContext -underBinder +onlyGivenNames x1
  refine Keeps.cut (n := 1064961) (s := s) x1 ?_ ?_
  · subst x1
    refine Keeps.step ?_ setAverage_keeps rfl
    exact Keeps.rfl
  intro _
  try clear_value x1
  refine keeps_ite (fun x => x) ?_ ?_
  · refine Keeps.step ?_ recordGovernor_keeps rfl
    refine Keeps.step ?_ odSet_keeps rfl
    assumption
  assumption

theorem effIdleOff_keeps {s b} :
    Keeps 12886310457 s (effIdleOff s b) := by
  delta effIdleOff
  extract_lets -merge -useContext -underBinder +onlyGivenNames x1
  try clear_value x1
  refine keeps_ite (fun x => x) ?_ ?_
  · exact Keeps.rfl
  extract_lets -merge -useContext -underBinder +onlyGivenNames x2
  refine Keeps.cut (n := 12886310457) (s := s) x2 ?_ ?_
  · subst x2
    refine Keeps.step ?_ setBlk_keeps rfl
    exact Keeps.rfl
  intro _
  try clear_value x2
  refine keeps_ite (fun x => x) ?_ ?_
  · refine Keeps.step ?_ finishDrain_keeps rfl
    assumption
  assumption

theorem effWake_keeps {s b ns} :
    Keeps 12886231021 s (effWake s b ns) := by
  delta effWake
  extract_lets -merge -useContext -underBinder +onlyGivenNames x1
  try clear_value x1
  refine keeps_ite (fun x => x) ?_ ?_
  · exact Keeps.rfl
  extract_lets -merge -useContext -underBinder +onlyGivenNames x2
  refine Keeps.cut (n := 12886231021) (s := s) x2 ?_ ?_
  · subst x2
    refine Keeps.step ?_ updBlk_keeps rfl
    refine Keeps.step ?_ noteHeadroom_keeps rfl
    exact Keeps.rfl
  intro _
  try clear_value x2
  extract_lets -merge -useContext -underBinder +onlyGivenNames x3
  refine Keeps.cut (n := 12886231021) (s := s) x3 ?_ ?_
  · subst x3
    refine Keeps.step ?_ wipeClusters_keeps rfl
    assumption
  intro _
  try clear_value x3
  extract_lets -merge -useContext -underBinder +onlyGivenNames x4
  refine Keeps.cut (n := 12886231021) (s := s) x4 ?_ ?_
  · subst x4
    refine Keeps.step ?_ odMax_keeps rfl
    refine Keeps.step ?_ bump_keeps rfl
    assumption
  intro _
  try clear_value x4
  refine Keeps.step ?_ proceedLoads_keeps rfl
  refine Keeps.step ?_ nextWake_keeps rfl
  refine Keeps.step ?_ stackOn_keeps rfl
  assumption

theorem execSetPointStep_keeps {block droopMv s t} (h : execSetPointStep block droopMv s = .next t) :
    Keeps 262145 s t := by
  delta execSetPointStep at h
  refine keeps_at ?_ h
  refine Keeps.step ?_ effSetPoint_keeps rfl
  exact Keeps.rfl

theorem execConverterFailure_keeps {converter s t} (h : execConverterFailure converter s = .next t) :
    Keeps 1097729 s t := by
  delta execConverterFailure at h
  refine keeps_at ?_ h
  refine Keeps.step ?_ effConverter_keeps rfl
  exact Keeps.rfl

theorem execPhaseFailure_keeps {block d phase s t} (h : execPhaseFailure block d phase s = .next t) :
    Keeps 12888440417 s t := by
  delta execPhaseFailure at h
  refine keeps_at ?_ h
  refine keeps_ite (fun x => x) ?_ ?_
  · refine Keeps.step ?_ failPhase_keeps rfl
    exact Keeps.rfl
  exact Keeps.rfl

theorem execTargetStep_keeps {block drawW s t} (h : execTargetStep block drawW s = .next t) :
    Keeps 262144 s t := by
  delta execTargetStep at h
  refine keeps_at ?_ h
  refine Keeps.step ?_ effTargetStep_keeps rfl
  exact Keeps.rfl

theorem execShortDeclared_keeps {block sw d lost s t} (h : execShortDeclared block sw d lost s = .next t) :
    Keeps 12888440441 s t := by
  delta execShortDeclared at h
  refine keeps_at ?_ h
  refine Keeps.step ?_ effShort_keeps rfl
  exact Keeps.rfl

theorem execBlockDrainComplete_keeps {block s t} (h : execBlockDrainComplete block s = .next t) :
    Keeps 12886310457 s t := by
  delta execBlockDrainComplete at h
  refine keeps_at ?_ h
  refine Keeps.step ?_ effDrained_keeps rfl
  exact Keeps.rfl

theorem execConnectorCheck_keeps {readings s t} (h : execConnectorCheck readings s = .next t) :
    Keeps 12888440417 s t := by
  delta execConnectorCheck at h
  refine keeps_next ?_ h
  refine keeps_foldl (fun x => x) _ _ ?_ ?_
  · exact Keeps.rfl
  intro _ _ _
  refine Keeps.step ?_ effConnector_keeps rfl
  assumption

theorem execCurrentReport_keeps {inputMv inputW joules figures s t} (h : execCurrentReport inputMv inputW joules figures s = .next t) :
    Keeps 3145729 s t := by
  delta execCurrentReport at h
  refine keeps_next ?_ h
  refine Keeps.step ?_ effReport_keeps rfl
  exact Keeps.rfl

theorem execCreditRefill_keeps {s t} (h : execCreditRefill s = .next t) :
    Keeps 12886003693 s t := by
  delta execCreditRefill at h
  refine keeps_next ?_ h
  refine Keeps.step ?_ effRefill_keeps rfl
  exact Keeps.rfl

theorem execGovernorStep_keeps {avgW s t} (h : execGovernorStep avgW s = .next t) :
    Keeps 1329217 s t := by
  delta execGovernorStep at h
  refine keeps_next ?_ h
  refine Keeps.step ?_ effGovernorStep_keeps rfl
  exact Keeps.rfl

theorem execGovernorRaise_keeps {avgW s t} (h : execGovernorRaise avgW s = .next t) :
    Keeps 1064961 s t := by
  delta execGovernorRaise at h
  refine keeps_next ?_ h
  refine Keeps.step ?_ effGovernorRaise_keeps rfl
  exact Keeps.rfl

theorem execIdleOff_keeps {block s t} (h : execIdleOff block s = .next t) :
    Keeps 12886310457 s t := by
  delta execIdleOff at h
  refine keeps_at ?_ h
  refine Keeps.step ?_ effIdleOff_keeps rfl
  exact Keeps.rfl

theorem execWakeComplete_keeps {block chargeNs fillNs s t} (h : execWakeComplete block chargeNs fillNs s = .next t) :
    Keeps 12886231021 s t := by
  delta execWakeComplete at h
  refine keeps_at ?_ h
  refine Keeps.step ?_ effWake_keeps rfl
  exact Keeps.rfl

end Sys2Proof.Machine
end

