-- ==== Sys2Proof/Laws/KeepsHeat.lean ====
section
/-! SUPPORT. What the operations of Machine/Heat.lean leave as it was. -/

namespace Sys2Proof.Machine

theorem noteSensor_keeps {s r value} :
    Keeps 1097729 s (noteSensor s r value) := by
  delta noteSensor
  split
  extract_lets -merge -useContext -underBinder +onlyGivenNames x1
  try clear_value x1
  refine Keeps.step ?_ replaceRequest_keeps rfl
  refine keeps_ite (fun x => x) ?_ ?_
  · exact Keeps.rfl
  refine Keeps.step ?_ addYield_keeps rfl
  exact Keeps.rfl

theorem readSensor_keeps {s r} :
    Keeps 1622017 s (readSensor s r) := by
  delta readSensor
  extract_lets -merge -useContext -underBinder +onlyGivenNames x1
  try clear_value x1
  extract_lets -merge -useContext -underBinder +onlyGivenNames x2
  try clear_value x2
  extract_lets -merge -useContext -underBinder +onlyGivenNames x3
  try clear_value x3
  extract_lets -merge -useContext -underBinder +onlyGivenNames x4
  refine Keeps.cut (n := 1622017) (s := s) x4 ?_ ?_
  · subst x4
    refine Keeps.step ?_ setSensor_keeps rfl
    exact Keeps.rfl
  intro _
  try clear_value x4
  refine keeps_ite (fun x => x) ?_ ?_
  · refine Keeps.step ?_ noteSensor_keeps rfl
    assumption
  assumption

theorem judgePair_keeps {s k} :
    Keeps 524289 s (judgePair s k) := by
  delta judgePair
  extract_lets -merge -useContext -underBinder +onlyGivenNames x1
  try clear_value x1
  extract_lets -merge -useContext -underBinder +onlyGivenNames x2
  try clear_value x2
  extract_lets -merge -useContext -underBinder +onlyGivenNames x3
  try clear_value x3
  refine keeps_ite (fun x => x) ?_ ?_
  · exact Keeps.rfl
  extract_lets -merge -useContext -underBinder +onlyGivenNames x4
  refine Keeps.cut (n := 524289) (s := s) x4 ?_ ?_
  · subst x4
    refine Keeps.step ?_ setSensor_keeps rfl
    exact Keeps.rfl
  intro _
  try clear_value x4
  refine keeps_ite (fun x => x) ?_ ?_
  · refine Keeps.step ?_ bump_keeps rfl
    assumption
  assumption

theorem markStale_keeps {s cl} :
    Keeps 128 s (markStale s cl) := by
  delta markStale
  refine keeps_foldl (fun x => x) _ _ ?_ ?_
  · exact Keeps.rfl
  intro _ _ _
  refine keeps_foldl (fun x => x) _ _ ?_ ?_
  · assumption
  intro _ _ _
  refine keeps_ite (fun x => x) ?_ ?_
  · refine Keeps.step ?_ updArr_keeps rfl
    assumption
  assumption

theorem governCluster_keeps {s cl} :
    Keeps 448 s (governCluster s cl) := by
  delta governCluster
  split
  · exact Keeps.rfl
  refine keeps_ite (fun x => x) ?_ ?_
  · exact Keeps.rfl
  extract_lets -merge -useContext -underBinder +onlyGivenNames x1
  refine Keeps.cut (n := 448) (s := s) x1 ?_ ?_
  · subst x1
    refine Keeps.step ?_ updCluster_keeps rfl
    exact Keeps.rfl
  intro _
  try clear_value x1
  extract_lets -merge -useContext -underBinder +onlyGivenNames x2
  refine Keeps.cut (n := 448) (s := s) x2 ?_ ?_
  · subst x2
    refine Keeps.step ?_ markStale_keeps rfl
    assumption
  intro _
  try clear_value x2
  refine keeps_foldl (fun x => x) _ _ ?_ ?_
  · assumption
  intro _ _ _
  refine keeps_ite (fun x => x) ?_ ?_
  · refine Keeps.step ?_ queueCalibration_keeps rfl
    assumption
  assumption

theorem driftRetrain_keeps {s b} :
    Keeps 4295246849 s (driftRetrain s b) := by
  delta driftRetrain
  split
  · exact Keeps.rfl
  extract_lets -merge -useContext -underBinder +onlyGivenNames x1
  try clear_value x1
  refine keeps_ite (fun x => x) ?_ ?_
  · refine Keeps.step ?_ triggerRetrain_keeps rfl
    exact Keeps.rfl
  exact Keeps.rfl

theorem effSensorRead_keeps {s l} :
    Keeps 4296852929 s (effSensorRead s l) := by
  delta effSensorRead
  extract_lets -merge -useContext -underBinder +onlyGivenNames x1
  try clear_value x1
  extract_lets -merge -useContext -underBinder +onlyGivenNames x2
  refine Keeps.cut (n := 4296852929) (s := s) x2 ?_ ?_
  · subst x2
    refine keeps_foldl (fun x => x) _ _ ?_ ?_
    · exact Keeps.rfl
    intro _ _ _
    refine Keeps.step ?_ readSensor_keeps rfl
    assumption
  intro _
  try clear_value x2
  extract_lets -merge -useContext -underBinder +onlyGivenNames x3
  refine Keeps.cut (n := 4296852929) (s := s) x3 ?_ ?_
  · subst x3
    refine keeps_foldl (fun x => x) _ _ ?_ ?_
    · assumption
    intro _ _ _
    refine Keeps.step ?_ judgePair_keeps rfl
    assumption
  intro _
  try clear_value x3
  extract_lets -merge -useContext -underBinder +onlyGivenNames x4
  try clear_value x4
  refine keeps_foldl (fun x => x) _ _ ?_ ?_
  · assumption
  intro _ _ _
  refine Keeps.step ?_ driftRetrain_keeps rfl
  refine keeps_foldl (fun x => x) _ _ ?_ ?_
  · assumption
  intro _ _ _
  refine Keeps.step ?_ governCluster_keeps rfl
  assumption

theorem recordHeat_keeps {s b old new v} :
    Keeps 16385 s (recordHeat s b old new v) := by
  delta recordHeat
  refine Keeps.step ?_ recordEvent_keeps rfl
  exact Keeps.rfl

theorem effSuspect_keeps {s r} :
    Keeps 1622017 s (effSuspect s r) := by
  delta effSuspect
  extract_lets -merge -useContext -underBinder +onlyGivenNames x1
  try clear_value x1
  extract_lets -merge -useContext -underBinder +onlyGivenNames x2
  try clear_value x2
  extract_lets -merge -useContext -underBinder +onlyGivenNames x3
  try clear_value x3
  refine keeps_ite (fun x => x) ?_ ?_
  · exact Keeps.rfl
  extract_lets -merge -useContext -underBinder +onlyGivenNames x4
  try clear_value x4
  extract_lets -merge -useContext -underBinder +onlyGivenNames x5
  try clear_value x5
  extract_lets -merge -useContext -underBinder +onlyGivenNames x6
  refine Keeps.cut (n := 1622017) (s := s) x6 ?_ ?_
  · subst x6
    refine Keeps.step ?_ bump_keeps rfl
    refine Keeps.step ?_ setSensor_keeps rfl
    exact Keeps.rfl
  intro _
  try clear_value x6
  refine Keeps.step ?_ recordHeat_keeps rfl
  refine Keeps.step ?_ noteSensor_keeps rfl
  assumption

theorem setLevel_keeps {s b n} :
    Keeps 280577 s (setLevel s b n) := by
  delta setLevel
  extract_lets -merge -useContext -underBinder +onlyGivenNames x1
  try clear_value x1
  extract_lets -merge -useContext -underBinder +onlyGivenNames x2
  refine Keeps.cut (n := 280577) (s := s) x2 ?_ ?_
  · subst x2
    refine keeps_ite (fun x => x) ?_ ?_
    · exact Keeps.rfl
    refine keeps_foldl (fun x => x) _ _ ?_ ?_
    · exact Keeps.rfl
    intro _ _ _
    refine Keeps.step ?_ excuseIntervals_keeps rfl
    assumption
  intro _
  try clear_value x2
  refine Keeps.step ?_ recordHeat_keeps rfl
  refine Keeps.step ?_ updBlk_keeps rfl
  assumption

theorem effLevelRise_keeps {s b} :
    Keeps 280577 s (effLevelRise s b) := by
  delta effLevelRise
  extract_lets -merge -useContext -underBinder +onlyGivenNames x1
  try clear_value x1
  refine keeps_ite (fun x => x) ?_ ?_
  · refine Keeps.step ?_ setLevel_keeps rfl
    exact Keeps.rfl
  exact Keeps.rfl

theorem effLevelFall_keeps {s b} :
    Keeps 280577 s (effLevelFall s b) := by
  delta effLevelFall
  extract_lets -merge -useContext -underBinder +onlyGivenNames x1
  try clear_value x1
  refine keeps_ite (fun x => x) ?_ ?_
  · exact Keeps.rfl
  refine keeps_ite (fun x => x) ?_ ?_
  · refine Keeps.step ?_ setLevel_keeps rfl
    exact Keeps.rfl
  exact Keeps.rfl

theorem drainForHeat_keeps {s b stack} :
    Keeps 12886310521 s (drainForHeat s b stack) := by
  delta drainForHeat
  extract_lets -merge -useContext -underBinder +onlyGivenNames x1
  try clear_value x1
  split
  · refine Keeps.step ?_ nextWake_keeps rfl
    refine Keeps.step ?_ finishDrain_keeps rfl
    refine Keeps.step ?_ setBlk_keeps rfl
    exact Keeps.rfl
  · refine keeps_ite (fun x => x) ?_ ?_
    · exact Keeps.rfl
    extract_lets -merge -useContext -underBinder +onlyGivenNames x2
    refine Keeps.cut (n := 12886310521) (s := s) x2 ?_ ?_
    · subst x2
      refine Keeps.step ?_ setBlk_keeps rfl
      refine Keeps.step ?_ zeroVectors_keeps rfl
      exact Keeps.rfl
    intro _
    try clear_value x2
    refine keeps_ite (fun x => x) ?_ ?_
    · refine Keeps.step ?_ finishDrain_keeps rfl
      assumption
    assumption
  · refine keeps_ite (fun x => x) ?_ ?_
    · exact Keeps.rfl
    extract_lets -merge -useContext -underBinder +onlyGivenNames x3
    refine Keeps.cut (n := 12886310521) (s := s) x3 ?_ ?_
    · subst x3
      refine Keeps.step ?_ setBlk_keeps rfl
      refine Keeps.step ?_ zeroVectors_keeps rfl
      exact Keeps.rfl
    intro _
    try clear_value x3
    refine keeps_ite (fun x => x) ?_ ?_
    · refine Keeps.step ?_ finishDrain_keeps rfl
      assumption
    assumption
  exact Keeps.rfl

theorem effHeatOff_keeps {s b byStack} :
    Keeps 12886310521 s (effHeatOff s b byStack) := by
  delta effHeatOff
  extract_lets -merge -useContext -underBinder +onlyGivenNames x1
  try clear_value x1
  extract_lets -merge -useContext -underBinder +onlyGivenNames x2
  try clear_value x2
  refine keeps_ite (fun x => x) ?_ ?_
  · exact Keeps.rfl
  split
  · refine Keeps.step ?_ drainForHeat_keeps rfl
    refine Keeps.step ?_ blockGoneFor_keeps rfl
    exact Keeps.rfl
  · refine Keeps.step ?_ drainForHeat_keeps rfl
    refine Keeps.step ?_ blockGoneFor_keeps rfl
    exact Keeps.rfl
  · refine Keeps.step ?_ drainForHeat_keeps rfl
    refine Keeps.step ?_ blockGoneFor_keeps rfl
    exact Keeps.rfl
  exact Keeps.rfl

theorem effHeatReturn_keeps {s b} :
    Keeps 1329153 s (effHeatReturn s b) := by
  delta effHeatReturn
  extract_lets -merge -useContext -underBinder +onlyGivenNames x1
  try clear_value x1
  refine keeps_ite (fun x => x) ?_ ?_
  · exact Keeps.rfl
  refine keeps_ite (fun x => x) ?_ ?_
  · refine Keeps.step ?_ requestWake_keeps rfl
    refine Keeps.step ?_ setLevel_keeps rfl
    refine Keeps.step ?_ setBlk_keeps rfl
    exact Keeps.rfl
  exact Keeps.rfl

theorem effTrip_keeps {s r} :
    Keeps 12886343289 s (effTrip s r) := by
  delta effTrip
  extract_lets -merge -useContext -underBinder +onlyGivenNames x1
  try clear_value x1
  extract_lets -merge -useContext -underBinder +onlyGivenNames x2
  try clear_value x2
  refine keeps_ite (fun x => x) ?_ ?_
  · exact Keeps.rfl
  extract_lets -merge -useContext -underBinder +onlyGivenNames x3
  try clear_value x3
  refine Keeps.step ?_ isolateBlock_keeps rfl
  refine Keeps.step ?_ bump_keeps rfl
  exact Keeps.rfl

theorem faultAll_keeps {s code} :
    Keeps 17409 s (faultAll s code) := by
  delta faultAll
  refine keeps_foldl (fun x => x) _ _ ?_ ?_
  · exact Keeps.rfl
  intro _ _ _
  extract_lets -merge -useContext -underBinder +onlyGivenNames x1
  try clear_value x1
  refine keeps_ite (fun x => x) ?_ ?_
  · refine Keeps.step ?_ giveUpLoad_keeps rfl
    assumption
  refine Keeps.step ?_ raiseFault_keeps rfl
  assumption

theorem drainAll_keeps {s stop} :
    Keeps 12886310521 s (drainAll s stop) := by
  delta drainAll
  refine keeps_foldl (fun x => x) _ _ ?_ ?_
  · exact Keeps.rfl
  intro _ _ _
  extract_lets -merge -useContext -underBinder +onlyGivenNames x1
  refine Keeps.cut (n := 12886310521) (s := s) x1 ?_ ?_
  · subst x1
    refine Keeps.step ?_ drainForHeat_keeps rfl
    assumption
  intro _
  try clear_value x1
  refine keeps_ite (fun x => x) ?_ ?_
  · refine Keeps.step ?_ updBlk_keeps rfl
    assumption
  assumption

theorem shutDown_keeps {s} :
    Keeps 12886310521 s (shutDown s) := by
  delta shutDown
  extract_lets -merge -useContext -underBinder +onlyGivenNames x1
  skip
  extract_lets -merge -useContext -underBinder +onlyGivenNames x2
  refine Keeps.cut (n := 12886310521) (s := s) x2 ?_ ?_
  · subst x2
    refine Keeps.step ?_ (keeps_plant _ _) rfl
    exact Keeps.rfl
  intro _
  try clear_value x2
  refine Keeps.step ?_ startFlush_keeps rfl
  refine Keeps.step ?_ drainAll_keeps rfl
  refine Keeps.step ?_ faultAll_keeps rfl
  assumption

theorem setCoolant_keeps {s n} :
    Keeps 16385 s (setCoolant s n) := by
  delta setCoolant
  extract_lets -merge -useContext -underBinder +onlyGivenNames x1
  refine Keeps.cut (n := 16385) (s := s) x1 ?_ ?_
  · subst x1
    refine Keeps.step ?_ odSet_keeps rfl
    exact Keeps.rfl
  intro _
  try clear_value x1
  extract_lets -merge -useContext -underBinder +onlyGivenNames x2
  refine Keeps.cut (n := 16385) (s := s) x2 ?_ ?_
  · subst x2
    refine keeps_ite (fun x => x) ?_ ?_
    · assumption
    refine Keeps.step ?_ bump_keeps rfl
    assumption
  intro _
  try clear_value x2
  refine Keeps.step ?_ recordEvent_keeps rfl
  assumption

theorem riseCoolant_keeps {s} :
    Keeps 12886310521 s (riseCoolant s) := by
  delta riseCoolant
  extract_lets -merge -useContext -underBinder +onlyGivenNames x1
  try clear_value x1
  refine keeps_ite (fun x => x) ?_ ?_
  · exact Keeps.rfl
  extract_lets -merge -useContext -underBinder +onlyGivenNames x2
  refine Keeps.cut (n := 12886310521) (s := s) x2 ?_ ?_
  · subst x2
    refine Keeps.step ?_ setCoolant_keeps rfl
    exact Keeps.rfl
  intro _
  try clear_value x2
  refine keeps_ite (fun x => x) ?_ ?_
  · refine Keeps.step ?_ shutDown_keeps rfl
    assumption
  assumption

theorem effCoolant_keeps {s flow inlet outlet} :
    Keeps 12886310521 s (effCoolant s flow inlet outlet) := by
  delta effCoolant
  extract_lets -merge -useContext -underBinder +onlyGivenNames x1
  refine Keeps.cut (n := 12886310521) (s := s) x1 ?_ ?_
  · subst x1
    refine Keeps.step ?_ odSet_keeps rfl
    refine Keeps.step ?_ odSet_keeps rfl
    refine Keeps.step ?_ odPut_keeps rfl
    exact Keeps.rfl
  intro _
  try clear_value x1
  extract_lets -merge -useContext -underBinder +onlyGivenNames x2
  try clear_value x2
  extract_lets -merge -useContext -underBinder +onlyGivenNames x3
  skip
  extract_lets -merge -useContext -underBinder +onlyGivenNames x4
  refine Keeps.cut (n := 12886310521) (s := s) x4 ?_ ?_
  · subst x4
    refine Keeps.step ?_ (keeps_plant _ _) rfl
    assumption
  intro _
  try clear_value x4
  refine Keeps.step ?_ riseCoolant_keeps rfl
  assumption

theorem effCoolantFall_keeps {s} :
    Keeps 1064961 s (effCoolantFall s) := by
  delta effCoolantFall
  extract_lets -merge -useContext -underBinder +onlyGivenNames x1
  try clear_value x1
  refine keeps_ite (fun x => x) ?_ ?_
  · refine keeps_ite (fun x => x) ?_ ?_
    · refine Keeps.step ?_ (keeps_plant _ _) rfl
      exact Keeps.rfl
    exact Keeps.rfl
  refine keeps_ite (fun x => x) ?_ ?_
  · exact Keeps.rfl
  refine Keeps.step ?_ setCoolant_keeps rfl
  exact Keeps.rfl

theorem effIlkCool_keeps {s widthNs active overLimit} :
    Keeps 12886310521 s (effIlkCool s widthNs active overLimit) := by
  delta effIlkCool
  refine keeps_ite (fun x => x) ?_ ?_
  · refine Keeps.step ?_ bump_keeps rfl
    exact Keeps.rfl
  extract_lets -merge -useContext -underBinder +onlyGivenNames x1
  refine Keeps.cut (n := 12886310521) (s := s) x1 ?_ ?_
  · subst x1
    refine keeps_ite (fun x => x) ?_ ?_
    · refine Keeps.step ?_ markChatter_keeps rfl
      exact Keeps.rfl
    exact Keeps.rfl
  intro _
  try clear_value x1
  extract_lets -merge -useContext -underBinder +onlyGivenNames x2
  try clear_value x2
  extract_lets -merge -useContext -underBinder +onlyGivenNames x3
  refine Keeps.cut (n := 12886310521) (s := s) x3 ?_ ?_
  · subst x3
    refine Keeps.step ?_ odBit_keeps rfl
    assumption
  intro _
  try clear_value x3
  refine keeps_ite (fun x => x) ?_ ?_
  · refine Keeps.step ?_ riseCoolant_keeps rfl
    refine Keeps.step ?_ (keeps_plant _ _) rfl
    assumption
  assumption

theorem effIlkStop_keeps {s widthNs active overLimit} :
    Keeps 12886310521 s (effIlkStop s widthNs active overLimit) := by
  delta effIlkStop
  refine keeps_ite (fun x => x) ?_ ?_
  · refine Keeps.step ?_ bump_keeps rfl
    exact Keeps.rfl
  extract_lets -merge -useContext -underBinder +onlyGivenNames x1
  refine Keeps.cut (n := 12886310521) (s := s) x1 ?_ ?_
  · subst x1
    refine keeps_ite (fun x => x) ?_ ?_
    · refine Keeps.step ?_ markChatter_keeps rfl
      exact Keeps.rfl
    exact Keeps.rfl
  intro _
  try clear_value x1
  extract_lets -merge -useContext -underBinder +onlyGivenNames x2
  try clear_value x2
  extract_lets -merge -useContext -underBinder +onlyGivenNames x3
  refine Keeps.cut (n := 12886310521) (s := s) x3 ?_ ?_
  · subst x3
    refine Keeps.step ?_ odBit_keeps rfl
    assumption
  intro _
  try clear_value x3
  refine keeps_ite (fun x => x) ?_ ?_
  · refine Keeps.step ?_ startFlush_keeps rfl
    refine Keeps.step ?_ drainAll_keeps rfl
    refine Keeps.step ?_ faultAll_keeps rfl
    refine Keeps.step ?_ (keeps_plant _ _) rfl
    assumption
  assumption

theorem effInterlockRelease_keeps {s stop} :
    Keeps 1310720 s (effInterlockRelease s stop) := by
  delta effInterlockRelease
  refine keeps_ite (fun x => x) ?_ ?_
  · refine keeps_ite (fun x => x) ?_ ?_
    · exact Keeps.rfl
    extract_lets -merge -useContext -underBinder +onlyGivenNames x1
    skip
    extract_lets -merge -useContext -underBinder +onlyGivenNames x2
    refine Keeps.cut (n := 1310720) (s := s) x2 ?_ ?_
    · subst x2
      refine Keeps.step ?_ (keeps_plant _ _) rfl
      exact Keeps.rfl
    intro _
    try clear_value x2
    refine keeps_foldl (fun x => x) _ _ ?_ ?_
    · assumption
    intro _ _ _
    extract_lets -merge -useContext -underBinder +onlyGivenNames x3
    try clear_value x3
    refine keeps_ite (fun x => x) ?_ ?_
    · refine Keeps.step ?_ setBlk_keeps rfl
      assumption
    assumption
  refine keeps_ite (fun x => x) ?_ ?_
  · exact Keeps.rfl
  refine Keeps.step ?_ (keeps_plant _ _) rfl
  exact Keeps.rfl

theorem settleInput_keeps {s a} :
    Keeps 5505025 s (settleInput s a) := by
  delta settleInput
  split
  · refine Keeps.step ?_ effInterlockRelease_keeps rfl
    exact Keeps.rfl
  · refine Keeps.step ?_ effInterlockRelease_keeps rfl
    exact Keeps.rfl
  · refine Keeps.step ?_ effReferenceRestored_keeps rfl
    exact Keeps.rfl
  · refine keeps_ite (fun x => x) ?_ ?_
    · refine Keeps.step ?_ (keeps_pair _ _) rfl
      exact Keeps.rfl
    exact Keeps.rfl
  · refine keeps_ite (fun x => x) ?_ ?_
    · refine Keeps.step ?_ (keeps_pair _ _) rfl
      exact Keeps.rfl
    exact Keeps.rfl
  exact Keeps.rfl

theorem effChatterClear_keeps {s i} :
    Keeps 13910017 s (effChatterClear s i) := by
  delta effChatterClear
  split
  · refine keeps_ite (fun x => x) ?_ ?_
    · exact Keeps.rfl
    extract_lets -merge -useContext -underBinder +onlyGivenNames x1
    refine Keeps.cut (n := 13910017) (s := s) x1 ?_ ?_
    · subst x1
      refine Keeps.step ?_ odBit_keeps rfl
      refine Keeps.step ?_ updPort_keeps rfl
      exact Keeps.rfl
    intro _
    try clear_value x1
    refine Keeps.step ?_ trainPort_keeps rfl
    assumption
  split
  · refine keeps_ite (fun x => x) ?_ ?_
    · refine Keeps.step ?_ settleInput_keeps rfl
      refine Keeps.step ?_ odBit_keeps rfl
      exact Keeps.rfl
    exact Keeps.rfl
  exact Keeps.rfl

theorem execSensorRead_keeps {readings s t} (h : execSensorRead readings s = .next t) :
    Keeps 4296852929 s t := by
  delta execSensorRead at h
  refine keeps_next ?_ h
  refine Keeps.step ?_ effSensorRead_keeps rfl
  exact Keeps.rfl

theorem execSensorSuspect_keeps {pair s t} (h : execSensorSuspect pair s = .next t) :
    Keeps 1622017 s t := by
  delta execSensorSuspect at h
  refine keeps_at ?_ h
  refine Keeps.step ?_ effSuspect_keeps rfl
  exact Keeps.rfl

theorem execLevelRise_keeps {block s t} (h : execLevelRise block s = .next t) :
    Keeps 280577 s t := by
  delta execLevelRise at h
  refine keeps_at ?_ h
  refine Keeps.step ?_ effLevelRise_keeps rfl
  exact Keeps.rfl

theorem execLevelFall_keeps {block s t} (h : execLevelFall block s = .next t) :
    Keeps 280577 s t := by
  delta execLevelFall at h
  refine keeps_at ?_ h
  refine Keeps.step ?_ effLevelFall_keeps rfl
  exact Keeps.rfl

theorem execHeatOff_keeps {block byStack s t} (h : execHeatOff block byStack s = .next t) :
    Keeps 12886310521 s t := by
  delta execHeatOff at h
  refine keeps_at ?_ h
  refine Keeps.step ?_ effHeatOff_keeps rfl
  exact Keeps.rfl

theorem execHeatReturn_keeps {block s t} (h : execHeatReturn block s = .next t) :
    Keeps 1329153 s t := by
  delta execHeatReturn at h
  refine keeps_at ?_ h
  refine Keeps.step ?_ effHeatReturn_keeps rfl
  exact Keeps.rfl

theorem execHardwareTrip_keeps {sensor s t} (h : execHardwareTrip sensor s = .next t) :
    Keeps 12886343289 s t := by
  delta execHardwareTrip at h
  refine keeps_at ?_ h
  refine Keeps.step ?_ effTrip_keeps rfl
  exact Keeps.rfl

theorem execCoolantCheck_keeps {flow inlet outlet s t} (h : execCoolantCheck flow inlet outlet s = .next t) :
    Keeps 12886310521 s t := by
  delta execCoolantCheck at h
  refine keeps_next ?_ h
  refine Keeps.step ?_ effCoolant_keeps rfl
  exact Keeps.rfl

theorem execIlkCoolNInput_keeps {widthNs active overLimit s t} (h : execIlkCoolNInput widthNs active overLimit s = .next t) :
    Keeps 12886310521 s t := by
  delta execIlkCoolNInput at h
  refine keeps_next ?_ h
  refine Keeps.step ?_ effIlkCool_keeps rfl
  exact Keeps.rfl

theorem execIlkStopNInput_keeps {widthNs active overLimit s t} (h : execIlkStopNInput widthNs active overLimit s = .next t) :
    Keeps 12886310521 s t := by
  delta execIlkStopNInput at h
  refine keeps_next ?_ h
  refine Keeps.step ?_ effIlkStop_keeps rfl
  exact Keeps.rfl

theorem execInterlockRelease_keeps {stop s t} (h : execInterlockRelease stop s = .next t) :
    Keeps 1310720 s t := by
  delta execInterlockRelease at h
  refine keeps_next ?_ h
  refine Keeps.step ?_ effInterlockRelease_keeps rfl
  exact Keeps.rfl

theorem execIlkCoolNStuck_keeps {s t} (h : execIlkCoolNStuck s = .next t) :
    Keeps 1064961 s t := by
  delta execIlkCoolNStuck at h
  refine keeps_next ?_ h
  refine keeps_ite (fun x => x) ?_ ?_
  · refine Keeps.step ?_ latchStuck_keeps rfl
    exact Keeps.rfl
  exact Keeps.rfl

theorem execChatterClear_keeps {input s t} (h : execChatterClear input s = .next t) :
    Keeps 13910017 s t := by
  delta execChatterClear at h
  refine keeps_next ?_ h
  refine Keeps.step ?_ effChatterClear_keeps rfl
  exact Keeps.rfl

end Sys2Proof.Machine
end

