-- ==== Sys2Proof/Laws/KeepsEventLog.lean ====
section
/-! SUPPORT. What the operations of Machine/EventLog.lean leave as it was. -/

namespace Sys2Proof.Machine

theorem effReserve_keeps {s mpB e} :
    Keeps 16385 s (effReserve s mpB e) := by
  delta effReserve
  extract_lets -merge -useContext -underBinder +onlyGivenNames x1
  try clear_value x1
  refine keeps_ite (fun x => x) ?_ ?_
  · exact Keeps.rfl
  refine keeps_ite (fun x => x) ?_ ?_
  · refine Keeps.step ?_ bump_keeps rfl
    refine Keeps.step ?_ (keeps_recorder _ _) rfl
    exact Keeps.rfl
  refine keeps_ite (fun x => x) ?_ ?_
  · refine Keeps.step ?_ bump_keeps rfl
    exact Keeps.rfl
  refine Keeps.step ?_ (keeps_recorder _ _) rfl
  exact Keeps.rfl

theorem effCommitRecord_keeps {s slot e} :
    Keeps 16384 s (effCommitRecord s slot e) := by
  delta effCommitRecord
  extract_lets -merge -useContext -underBinder +onlyGivenNames x1
  try clear_value x1
  refine keeps_ite (fun x => x) ?_ ?_
  · exact Keeps.rfl
  extract_lets -merge -useContext -underBinder +onlyGivenNames x2
  try clear_value x2
  refine Keeps.step ?_ (keeps_recorder _ _) rfl
  exact Keeps.rfl

theorem effEventRecord_keeps {s stage e} :
    Keeps 16385 s (effEventRecord s stage e) := by
  delta effEventRecord
  split
  · refine Keeps.step ?_ recordEvent_keeps rfl
    exact Keeps.rfl
  · refine Keeps.step ?_ effReserve_keeps rfl
    exact Keeps.rfl
  refine Keeps.step ?_ effCommitRecord_keeps rfl
  exact Keeps.rfl

theorem writeGap_keeps {s slot} :
    Keeps 16385 s (writeGap s slot) := by
  delta writeGap
  extract_lets -merge -useContext -underBinder +onlyGivenNames x1
  try clear_value x1
  split
  · exact Keeps.rfl
  extract_lets -merge -useContext -underBinder +onlyGivenNames x2
  try clear_value x2
  refine Keeps.step ?_ bump_keeps rfl
  refine Keeps.step ?_ (keeps_recorder _ _) rfl
  exact Keeps.rfl

theorem writeGaps_keeps {s mpB} :
    Keeps 16385 s (writeGaps s mpB) := by
  delta writeGaps
  refine keeps_foldl (fun x => x) _ _ ?_ ?_
  · exact Keeps.rfl
  intro _ _ _
  refine keeps_ite (fun x => x) ?_ ?_
  · refine Keeps.step ?_ writeGap_keeps rfl
    assumption
  assumption

theorem effWindowEnd_keeps {s code loc} :
    Keeps 16384 s (effWindowEnd s code loc) := by
  delta effWindowEnd
  extract_lets -merge -useContext -underBinder +onlyGivenNames x1
  try clear_value x1
  refine keeps_ite (fun x => x) ?_ ?_
  · exact Keeps.rfl
  refine keeps_ite (fun x => x) ?_ ?_
  · refine Keeps.step ?_ (keeps_recorder _ _) rfl
    exact Keeps.rfl
  refine Keeps.step ?_ (keeps_recorder _ _) rfl
  exact Keeps.rfl

theorem clearLog_keeps {s} :
    Keeps 16385 s (clearLog s) := by
  delta clearLog
  extract_lets -merge -useContext -underBinder +onlyGivenNames x1
  try clear_value x1
  extract_lets -merge -useContext -underBinder +onlyGivenNames x2
  try clear_value x2
  extract_lets -merge -useContext -underBinder +onlyGivenNames x3
  try clear_value x3
  extract_lets -merge -useContext -underBinder +onlyGivenNames x4
  refine Keeps.cut (n := 16385) (s := s) x4 ?_ ?_
  · subst x4
    refine Keeps.step ?_ (keeps_recorder _ _) rfl
    exact Keeps.rfl
  intro _
  try clear_value x4
  refine Keeps.step ?_ recordOwn_keeps rfl
  refine Keeps.step ?_ odSet_keeps rfl
  assumption

theorem effClearLog_keeps {s} :
    Keeps 16385 s (effClearLog s) := by
  delta effClearLog
  refine keeps_ite (fun x => x) ?_ ?_
  · refine Keeps.step ?_ (keeps_recorder _ _) rfl
    exact Keeps.rfl
  refine Keeps.step ?_ clearLog_keeps rfl
  exact Keeps.rfl

theorem effFlushEnd_keeps {s fin} :
    Keeps 16385 s (effFlushEnd s fin) := by
  delta effFlushEnd
  extract_lets -merge -useContext -underBinder +onlyGivenNames x1
  try clear_value x1
  split
  · exact Keeps.rfl
  extract_lets -merge -useContext -underBinder +onlyGivenNames x2
  refine Keeps.cut (n := 16385) (s := s) x2 ?_ ?_
  · subst x2
    split
    · extract_lets -merge -useContext -underBinder +onlyGivenNames x3
      refine Keeps.cut (n := 16385) (s := s) x3 ?_ ?_
      · subst x3
        refine Keeps.step ?_ (keeps_recorder _ _) rfl
        exact Keeps.rfl
      intro _
      try clear_value x3
      refine Keeps.step ?_ odPut_keeps rfl
      refine Keeps.step ?_ bump_keeps rfl
      assumption
    extract_lets -merge -useContext -underBinder +onlyGivenNames x4
    try clear_value x4
    extract_lets -merge -useContext -underBinder +onlyGivenNames x5
    refine Keeps.cut (n := 16385) (s := s) x5 ?_ ?_
    · subst x5
      refine Keeps.step ?_ (keeps_recorder _ _) rfl
      exact Keeps.rfl
    intro _
    try clear_value x5
    refine keeps_ite (fun x => x) ?_ ?_
    · refine Keeps.step ?_ recordOwn_keeps rfl
      assumption
    assumption
  intro _
  try clear_value x2
  refine keeps_ite (fun x => x) ?_ ?_
  · refine Keeps.step ?_ clearLog_keeps rfl
    assumption
  assumption

theorem newRun_keeps {s cause} :
    Keeps 16384 s (newRun s cause) := by
  delta newRun
  extract_lets -merge -useContext -underBinder +onlyGivenNames x1
  try clear_value x1
  extract_lets -merge -useContext -underBinder +onlyGivenNames x2
  try clear_value x2
  refine Keeps.step ?_ recordOwn_keeps rfl
  refine Keeps.step ?_ (keeps_recorder _ _) rfl
  exact Keeps.rfl

theorem execEventRecord_keeps {stage e s t} (h : execEventRecord stage e s = .next t) :
    Keeps 16385 s t := by
  delta execEventRecord at h
  refine keeps_next ?_ h
  refine Keeps.step ?_ effEventRecord_keeps rfl
  exact Keeps.rfl

theorem execGapTimeout_keeps {slot s t} (h : execGapTimeout slot s = .next t) :
    Keeps 16385 s t := by
  delta execGapTimeout at h
  refine keeps_next ?_ h
  refine Keeps.step ?_ writeGap_keeps rfl
  exact Keeps.rfl

theorem execFlushComplete_keeps {fin s t} (h : execFlushComplete fin s = .next t) :
    Keeps 16385 s t := by
  delta execFlushComplete at h
  refine keeps_next ?_ h
  refine Keeps.step ?_ effFlushEnd_keeps rfl
  exact Keeps.rfl

theorem execSuppressWindowEnd_keeps {code location s t} (h : execSuppressWindowEnd code location s = .next t) :
    Keeps 16384 s t := by
  delta execSuppressWindowEnd at h
  refine keeps_next ?_ h
  refine Keeps.step ?_ effWindowEnd_keeps rfl
  exact Keeps.rfl

end Sys2Proof.Machine
end

