-- ==== Sys2Proof/Laws/KeepsRetrain.lean ====
section
/-! SUPPORT. What the operations of Machine/Retrain.lean leave as it was. -/

namespace Sys2Proof.Machine

theorem effErrorRate_keeps {s b perSecond} :
    Keeps 4295246849 s (effErrorRate s b perSecond) := by
  delta effErrorRate
  refine keeps_ite (fun x => x) ?_ ?_
  · refine Keeps.step ?_ triggerRetrain_keeps rfl
    exact Keeps.rfl
  exact Keeps.rfl

theorem freeTimers_keeps {s b} :
    Keeps 4295230464 s (freeTimers s b) := by
  delta freeTimers
  extract_lets -merge -useContext -underBinder +onlyGivenNames x1
  try clear_value x1
  refine Keeps.step ?_ updBlk_keeps rfl
  refine Keeps.step ?_ holdTimers_keeps rfl
  exact Keeps.rfl

theorem bindLane_keeps {s b lane} :
    Keeps 1097729 s (bindLane s b lane) := by
  delta bindLane
  refine Keeps.step ?_ addYield_keeps rfl
  exact Keeps.rfl

theorem effRetrained_keeps {s b ok lanes} :
    Keeps 12886343401 s (effRetrained s b ok lanes) := by
  delta effRetrained
  extract_lets -merge -useContext -underBinder +onlyGivenNames x1
  try clear_value x1
  refine keeps_ite (fun x => x) ?_ ?_
  · exact Keeps.rfl
  extract_lets -merge -useContext -underBinder +onlyGivenNames x2
  refine Keeps.cut (n := 12886343401) (s := s) x2 ?_ ?_
  · subst x2
    refine Keeps.step ?_ freeTimers_keeps rfl
    exact Keeps.rfl
  intro _
  try clear_value x2
  refine keeps_ite (fun x => x) ?_ ?_
  · refine Keeps.step ?_ nextRetrain_keeps rfl
    assumption
  extract_lets -merge -useContext -underBinder +onlyGivenNames x3
  refine Keeps.cut (n := 12886343401) (s := s) x3 ?_ ?_
  · subst x3
    refine Keeps.step ?_ bump_keeps rfl
    assumption
  intro _
  try clear_value x3
  extract_lets -merge -useContext -underBinder +onlyGivenNames x4
  refine Keeps.cut (n := 12886343401) (s := s) x4 ?_ ?_
  · subst x4
    refine keeps_ite (fun x => x) ?_ ?_
    · refine Keeps.step ?_ updBlk_keeps rfl
      refine keeps_foldl (fun x => x) _ _ ?_ ?_
      · assumption
      intro _ _ _
      refine Keeps.step ?_ bindLane_keeps rfl
      assumption
    refine Keeps.step ?_ loseStack_keeps rfl
    assumption
  intro _
  try clear_value x4
  refine Keeps.step ?_ proceedLoads_keeps rfl
  refine Keeps.step ?_ nextRetrain_keeps rfl
  assumption

theorem bindWire_keeps {s l w} :
    Keeps 3194881 s (bindWire s l w) := by
  delta bindWire
  extract_lets -merge -useContext -underBinder +onlyGivenNames x1
  try clear_value x1
  extract_lets -merge -useContext -underBinder +onlyGivenNames x2
  refine Keeps.cut (n := 3194881) (s := s) x2 ?_ ?_
  · subst x2
    refine Keeps.step ?_ addYield_keeps rfl
    exact Keeps.rfl
  intro _
  try clear_value x2
  extract_lets -merge -useContext -underBinder +onlyGivenNames x3
  refine Keeps.cut (n := 3194881) (s := s) x3 ?_ ?_
  · subst x3
    refine Keeps.step ?_ updLink_keeps rfl
    assumption
  intro _
  try clear_value x3
  extract_lets -merge -useContext -underBinder +onlyGivenNames x4
  refine Keeps.cut (n := 3194881) (s := s) x4 ?_ ?_
  · subst x4
    refine Keeps.step ?_ odSet_keeps rfl
    assumption
  intro _
  try clear_value x4
  refine keeps_ite (fun x => x) ?_ ?_
  · refine Keeps.step ?_ replaceRequest_keeps rfl
    assumption
  assumption

theorem effLinkRetrained_keeps {s l wires} :
    Keeps 4298163233 s (effLinkRetrained s l wires) := by
  delta effLinkRetrained
  extract_lets -merge -useContext -underBinder +onlyGivenNames x1
  try clear_value x1
  refine keeps_ite (fun x => x) ?_ ?_
  · exact Keeps.rfl
  extract_lets -merge -useContext -underBinder +onlyGivenNames x2
  refine Keeps.cut (n := 4298163233) (s := s) x2 ?_ ?_
  · subst x2
    refine Keeps.step ?_ holdTimers_keeps rfl
    exact Keeps.rfl
  intro _
  try clear_value x2
  extract_lets -merge -useContext -underBinder +onlyGivenNames x3
  refine Keeps.cut (n := 4298163233) (s := s) x3 ?_ ?_
  · subst x3
    refine Keeps.step ?_ bump_keeps rfl
    refine Keeps.step ?_ updLink_keeps rfl
    assumption
  intro _
  try clear_value x3
  refine keeps_ite (fun x => x) ?_ ?_
  · refine Keeps.step ?_ failLink_keeps rfl
    assumption
  refine keeps_foldl (fun x => x) _ _ ?_ ?_
  · assumption
  intro _ _ _
  refine Keeps.step ?_ bindWire_keeps rfl
  assumption

theorem execStackErrorRate_keeps {block perSecond s t} (h : execStackErrorRate block perSecond s = .next t) :
    Keeps 4295246849 s t := by
  delta execStackErrorRate at h
  refine keeps_at ?_ h
  refine Keeps.step ?_ effErrorRate_keeps rfl
  exact Keeps.rfl

theorem execStackRetrainComplete_keeps {block lanes s t} (h : execStackRetrainComplete block lanes s = .next t) :
    Keeps 12886343401 s t := by
  delta execStackRetrainComplete at h
  refine keeps_at ?_ h
  refine Keeps.step ?_ effRetrained_keeps rfl
  exact Keeps.rfl

theorem execLinkRetryRate_keeps {link s t} (h : execLinkRetryRate link s = .next t) :
    Keeps 4298130465 s t := by
  delta execLinkRetryRate at h
  refine Keeps.step ?_ (atLink_keeps h) rfl
  refine Keeps.step ?_ triggerLink_keeps rfl
  exact Keeps.rfl

theorem execLinkRetrainComplete_keeps {link forth back s t} (h : execLinkRetrainComplete link forth back s = .next t) :
    Keeps 4298163233 s t := by
  delta execLinkRetrainComplete at h
  refine Keeps.step ?_ (atLink_keeps h) rfl
  refine Keeps.step ?_ effLinkRetrained_keeps rfl
  exact Keeps.rfl

end Sys2Proof.Machine
end

