-- ==== Sys2Proof/Laws/KeepsLapEvents.lean ====
section
/-! SUPPORT. What the operations of Machine/LapEvents.lean leave as it was. -/

namespace Sys2Proof.Machine

theorem execHurdleClear_keeps {p t_ s t} (h : execHurdleClear p t_ s = .next t) :
    Keeps 12886265837 s t := by
  delta execHurdleClear at h
  refine keeps_at ?_ h
  refine Keeps.step ?_ noteArrivals_keeps rfl
  refine Keeps.step ?_ effHurdleClear_keeps rfl
  exact Keeps.rfl

theorem execHurdleTimeout_keeps {p s t} (h : execHurdleTimeout p s = .next t) :
    Keeps 17411 s t := by
  delta execHurdleTimeout at h
  refine keeps_at ?_ h
  refine Keeps.step ?_ effHurdleTimeout_keeps rfl
  exact Keeps.rfl

theorem passBaton_keeps {s p t_} :
    Keeps 14662762479 s (passBaton s p t_) := by
  delta passBaton
  refine Keeps.step ?_ beginTransition_keeps rfl
  refine Keeps.step ?_ noteArrivals_keeps rfl
  refine Keeps.step ?_ drainLap_keeps rfl
  refine Keeps.step ?_ effBaton_keeps rfl
  exact Keeps.rfl

theorem execBaton_keeps {p t_ s t} (h : execBaton p t_ s = .next t) :
    Keeps 14662762479 s t := by
  delta execBaton at h
  refine keeps_at ?_ h
  refine Keeps.step ?_ passBaton_keeps rfl
  exact Keeps.rfl

theorem execTokenRecordRelease_keeps {session intervalNs replays cadence s t} (h : execTokenRecordRelease session intervalNs replays cadence s = .next t) :
    Keeps 4299180033 s t := by
  delta execTokenRecordRelease at h
  refine keeps_at ?_ h
  refine Keeps.step ?_ drainOn_keeps rfl
  refine Keeps.step ?_ effRelease_keeps rfl
  exact Keeps.rfl

theorem execCompletionPost_keeps {ring s t} (h : execCompletionPost ring s = .next t) :
    Keeps 4307642369 s t := by
  delta execCompletionPost at h
  refine keeps_at ?_ h
  refine Keeps.step ?_ effPost_keeps rfl
  exact Keeps.rfl

theorem execSampling_keeps {session samples drafts parity s t} (h : execSampling session samples drafts parity s = .next t) :
    Keeps 8589937665 s t := by
  delta execSampling at h
  refine keeps_at ?_ h
  refine Keeps.step ?_ effSampling_keeps rfl
  exact Keeps.rfl

theorem effLateWrite_keeps {s target} :
    Keeps 278561 s (effLateWrite s target) := by
  delta effLateWrite
  split
  · extract_lets -merge -useContext -underBinder +onlyGivenNames x1
    try clear_value x1
    refine keeps_ite (fun x => x) ?_ ?_
    · exact Keeps.rfl
    extract_lets -merge -useContext -underBinder +onlyGivenNames x2
    refine Keeps.cut (n := 278561) (s := s) x2 ?_ ?_
    · subst x2
      refine Keeps.step ?_ updCore_keeps rfl
      exact Keeps.rfl
    intro _
    try clear_value x2
    refine Keeps.step ?_ lateWrite_keeps rfl
    assumption
  · refine keeps_ite (fun x => x) ?_ ?_
    · exact Keeps.rfl
    extract_lets -merge -useContext -underBinder +onlyGivenNames x3
    refine Keeps.cut (n := 278561) (s := s) x3 ?_ ?_
    · subst x3
      refine Keeps.step ?_ updBlk_keeps rfl
      exact Keeps.rfl
    intro _
    try clear_value x3
    refine Keeps.step ?_ lateWrite_keeps rfl
    assumption
  extract_lets -merge -useContext -underBinder +onlyGivenNames x4
  try clear_value x4
  refine keeps_ite (fun x => x) ?_ ?_
  · exact Keeps.rfl
  refine Keeps.step ?_ lateWrite_keeps rfl
  exact Keeps.rfl

theorem execLateWrite_keeps {target us s t} (h : execLateWrite target us s = .next t) :
    Keeps 278561 s t := by
  delta execLateWrite at h
  refine keeps_at ?_ h
  refine keeps_ite (fun x => x) ?_ ?_
  · exact Keeps.rfl
  refine Keeps.step ?_ effLateWrite_keeps rfl
  exact Keeps.rfl

theorem windowEnd_keeps {s ci ch} :
    Keeps 256 s (windowEnd s ci ch) := by
  delta windowEnd
  refine keeps_ite (fun x => x) ?_ ?_
  · exact Keeps.rfl
  refine Keeps.step ?_ updChain_keeps rfl
  exact Keeps.rfl

theorem execRangeMonitorWindowEnd_keeps {at_ chain s t} (h : execRangeMonitorWindowEnd at_ chain s = .next t) :
    Keeps 256 s t := by
  delta execRangeMonitorWindowEnd at h
  split at h
  · refine keeps_at ?_ h
    refine Keeps.step ?_ windowEnd_keeps rfl
    exact Keeps.rfl
  cases h

theorem scaleWindowEnd_keeps {s a col} :
    Keeps 128 s (scaleWindowEnd s a col) := by
  delta scaleWindowEnd
  refine keeps_ite (fun x => x) ?_ ?_
  · exact Keeps.rfl
  refine Keeps.step ?_ updArr_keeps rfl
  exact Keeps.rfl

theorem execFullScaleWindowEnd_keeps {at_ array column s t} (h : execFullScaleWindowEnd at_ array column s = .next t) :
    Keeps 128 s t := by
  delta execFullScaleWindowEnd at h
  split at h
  · refine keeps_at ?_ h
    refine Keeps.step ?_ scaleWindowEnd_keeps rfl
    exact Keeps.rfl
  cases h

theorem execCalIntervalExpiry_keeps {at_ chain s t} (h : execCalIntervalExpiry at_ chain s = .next t) :
    Keeps 448 s t := by
  delta execCalIntervalExpiry at h
  split at h
  · refine keeps_at ?_ h
    refine Keeps.step ?_ queueCalibration_keeps rfl
    exact Keeps.rfl
  cases h

theorem execCalibrationComplete_keeps {at_ chain trims failed s t} (h : execCalibrationComplete at_ chain trims failed s = .next t) :
    Keeps 8591033793 s t := by
  delta execCalibrationComplete at h
  split at h
  · refine keeps_at ?_ h
    refine Keeps.step ?_ calibrationDone_keeps rfl
    exact Keeps.rfl
  cases h

theorem execRewriteComplete_keeps {at_ chain mismatch s t} (h : execRewriteComplete at_ chain mismatch s = .next t) :
    Keeps 1098945 s t := by
  delta execRewriteComplete at h
  split at h
  · refine keeps_at ?_ h
    refine Keeps.step ?_ rewriteDone_keeps rfl
    exact Keeps.rfl
  cases h

theorem execRingContextWrite_keeps {fn offset bytes s t} (h : execRingContextWrite fn offset bytes s = .next t) :
    Keeps 16789505 s t := by
  delta execRingContextWrite at h
  refine keeps_at ?_ h
  refine Keeps.step ?_ effContextWrite_keeps rfl
  exact Keeps.rfl

theorem execRingEnable_keeps {fn kind ring s t} (h : execRingEnable fn kind ring s = .next t) :
    Keeps 16789505 s t := by
  delta execRingEnable at h
  refine keeps_at ?_ h
  refine Keeps.step ?_ effRingEnable_keeps rfl
  exact Keeps.rfl

theorem execRingDisable_keeps {fn kind ring s t} (h : execRingDisable fn kind ring s = .next t) :
    Keeps 16789505 s t := by
  delta execRingDisable at h
  refine keeps_at ?_ h
  refine Keeps.step ?_ effRingDisable_keeps rfl
  exact Keeps.rfl

theorem execSubmissionDoorbell_keeps {fn ring d s t} (h : execSubmissionDoorbell fn ring d s = .next t) :
    Keeps 16797697 s t := by
  delta execSubmissionDoorbell at h
  refine keeps_at ?_ h
  refine Keeps.step ?_ effSubDoorbell_keeps rfl
  exact Keeps.rfl

theorem execCompletionDoorbell_keeps {fn ring d s t} (h : execCompletionDoorbell fn ring d s = .next t) :
    Keeps 16801793 s t := by
  delta execCompletionDoorbell at h
  refine keeps_at ?_ h
  refine Keeps.step ?_ effCompDoorbell_keeps rfl
  exact Keeps.rfl

theorem execTokenRingDoorbell_keeps {fn session d s t} (h : execTokenRingDoorbell fn session d s = .next t) :
    Keeps 16795649 s t := by
  delta execTokenRingDoorbell at h
  refine keeps_at ?_ h
  refine Keeps.step ?_ effTokenDoorbell_keeps rfl
  exact Keeps.rfl

theorem execBitmapDoorbell_keeps {fn session d s t} (h : execBitmapDoorbell fn session d s = .next t) :
    Keeps 4311744513 s t := by
  delta execBitmapDoorbell at h
  refine keeps_at ?_ h
  refine Keeps.step ?_ effBitmapDoorbell_keeps rfl
  exact Keeps.rfl

theorem execSubmissionEntryFetch_keeps {ring entry s t} (h : execSubmissionEntryFetch ring entry s = .next t) :
    Keeps 4416630785 s t := by
  delta execSubmissionEntryFetch at h
  refine keeps_at ?_ h
  refine Keeps.step ?_ effFetch_keeps rfl
  exact Keeps.rfl

theorem execCoalesceTimeout_keeps {ring s t} (h : execCoalesceTimeout ring s = .next t) :
    Keeps 4294975488 s t := by
  delta execCoalesceTimeout at h
  refine keeps_at ?_ h
  refine Keeps.step ?_ effCoalesce_keeps rfl
  exact Keeps.rfl

theorem execSessionOpen_keeps {ring s t} (h : execSessionOpen ring s = .next t) :
    Keeps 14336 s t := by
  delta execSessionOpen at h
  refine keeps_at ?_ h
  refine Keeps.step ?_ effOpen_keeps rfl
  exact Keeps.rfl

theorem execPromptAppend_keeps {ring s t} (h : execPromptAppend ring s = .next t) :
    Keeps 15360 s t := by
  delta execPromptAppend at h
  refine keeps_at ?_ h
  refine Keeps.step ?_ effPrompt_keeps rfl
  exact Keeps.rfl

theorem execGenerate_keeps {ring random s t} (h : execGenerate ring random s = .next t) :
    Keeps 4294982656 s t := by
  delta execGenerate at h
  refine keeps_at ?_ h
  refine Keeps.step ?_ effGenerate_keeps rfl
  exact Keeps.rfl

theorem execFork_keeps {ring s t} (h : execFork ring s = .next t) :
    Keeps 14336 s t := by
  delta execFork at h
  refine keeps_at ?_ h
  refine Keeps.step ?_ effFork_keeps rfl
  exact Keeps.rfl

theorem execCancel_keeps {ring s t} (h : execCancel ring s = .next t) :
    Keeps 14848 s t := by
  delta execCancel at h
  refine keeps_at ?_ h
  refine Keeps.step ?_ effCancel_keeps rfl
  exact Keeps.rfl

theorem execClose_keeps {ring s t} (h : execClose ring s = .next t) :
    Keeps 14848 s t := by
  delta execClose at h
  refine keeps_at ?_ h
  refine Keeps.step ?_ effClose_keeps rfl
  exact Keeps.rfl

theorem execKvEvict_keeps {ring s t} (h : execKvEvict ring s = .next t) :
    Keeps 14336 s t := by
  delta execKvEvict at h
  refine keeps_at ?_ h
  refine Keeps.step ?_ effKvEvict_keeps rfl
  exact Keeps.rfl

theorem execKvRestore_keeps {ring s t} (h : execKvRestore ring s = .next t) :
    Keeps 14336 s t := by
  delta execKvRestore at h
  refine keeps_at ?_ h
  refine Keeps.step ?_ effKvRestore_keeps rfl
  exact Keeps.rfl

theorem execWeightStage_keeps {ring s t} (h : execWeightStage ring s = .next t) :
    Keeps 4295045120 s t := by
  delta execWeightStage at h
  refine keeps_at ?_ h
  refine Keeps.step ?_ effWeightStage_keeps rfl
  exact Keeps.rfl

theorem execWeightFlip_keeps {ring s t} (h : execWeightFlip ring s = .next t) :
    Keeps 4294980609 s t := by
  delta execWeightFlip at h
  refine keeps_at ?_ h
  refine Keeps.step ?_ effWeightFlip_keeps rfl
  exact Keeps.rfl

theorem execBarrier_keeps {ring s t} (h : execBarrier ring s = .next t) :
    Keeps 12288 s t := by
  delta execBarrier at h
  refine keeps_at ?_ h
  refine Keeps.step ?_ effBarrier_keeps rfl
  exact Keeps.rfl

theorem execAbortWave_keeps {session s t} (h : execAbortWave session s = .next t) :
    Keeps 4294970944 s t := by
  delta execAbortWave at h
  refine keeps_at ?_ h
  refine Keeps.step ?_ effAbortWave_keeps rfl
  exact Keeps.rfl

theorem execAbortWaveAcknowledged_keeps {session s t} (h : execAbortWaveAcknowledged session s = .next t) :
    Keeps 8486465 s t := by
  delta execAbortWaveAcknowledged at h
  refine keeps_at ?_ h
  refine Keeps.step ?_ effAbortAcked_keeps rfl
  exact Keeps.rfl

theorem execBitmapSlotRead_keeps {session slot data s t} (h : execBitmapSlotRead session slot data s = .next t) :
    Keeps 15361 s t := by
  delta execBitmapSlotRead at h
  refine keeps_at ?_ h
  refine Keeps.step ?_ effSlotRead_keeps rfl
  exact Keeps.rfl

theorem execKvEvictTransferComplete_keeps {session ok s t} (h : execKvEvictTransferComplete session ok s = .next t) :
    Keeps 14921 s t := by
  delta execKvEvictTransferComplete at h
  refine keeps_at ?_ h
  refine Keeps.step ?_ effEvictDone_keeps rfl
  exact Keeps.rfl

theorem execKvRestoreTransferComplete_keeps {session fin s t} (h : execKvRestoreTransferComplete session fin s = .next t) :
    Keeps 15945 s t := by
  delta execKvRestoreTransferComplete at h
  refine keeps_at ?_ h
  refine Keeps.step ?_ effRestoreDone_keeps rfl
  exact Keeps.rfl

theorem execHostReadComplete_keeps {session r s t} (h : execHostReadComplete session r s = .next t) :
    Keeps 15361 s t := by
  delta execHostReadComplete at h
  refine keeps_at ?_ h
  refine Keeps.step ?_ effHostRead_keeps rfl
  exact Keeps.rfl

theorem execStageHeaderRead_keeps {set head s t} (h : execStageHeaderRead set head s = .next t) :
    Keeps 94721 s t := by
  delta execStageHeaderRead at h
  refine keeps_at ?_ h
  refine Keeps.step ?_ effStageHeader_keeps rfl
  exact Keeps.rfl

theorem execSignatureVerified_keeps {set ok s t} (h : execSignatureVerified set ok s = .next t) :
    Keeps 4296504841 s t := by
  delta execSignatureVerified at h
  refine keeps_at ?_ h
  refine Keeps.step ?_ effSignature_keeps rfl
  exact Keeps.rfl

theorem execWeightChunkRead_keeps {set chunk data s t} (h : execWeightChunkRead set chunk data s = .next t) :
    Keeps 12886081517 s t := by
  delta execWeightChunkRead at h
  refine keeps_at ?_ h
  refine Keeps.step ?_ goOnAll_keeps rfl
  refine Keeps.step ?_ effChunk_keeps rfl
  exact Keeps.rfl

theorem execRelayHeader_keeps {set dir body signature s t} (h : execRelayHeader set dir body signature s = .next t) :
    Keeps 4296492553 s t := by
  delta execRelayHeader at h
  split at h
  · refine keeps_at ?_ h
    refine Keeps.step ?_ effRelayHeader_keeps rfl
    exact Keeps.rfl
  cases h

theorem execRelayChunk_keeps {set dir chunk data s t} (h : execRelayChunk set dir chunk data s = .next t) :
    Keeps 4295193097 s t := by
  delta execRelayChunk at h
  split at h
  · refine keeps_at ?_ h
    refine Keeps.step ?_ effRelayChunk_keeps rfl
    exact Keeps.rfl
  cases h

theorem execRelayTimeout_keeps {set s t} (h : execRelayTimeout set s = .next t) :
    Keeps 213513 s t := by
  delta execRelayTimeout at h
  refine keeps_at ?_ h
  refine Keeps.step ?_ effRelayTimeout_keeps rfl
  exact Keeps.rfl

theorem execSetWipeComplete_keeps {set s t} (h : execSetWipeComplete set s = .next t) :
    Keeps 12886069229 s t := by
  delta execSetWipeComplete at h
  refine keeps_at ?_ h
  refine Keeps.step ?_ goOnAll_keeps rfl
  refine Keeps.step ?_ effSetWipe_keeps rfl
  exact Keeps.rfl

theorem execPieceRefetchComplete_keeps {set piece fin s t} (h : execPieceRefetchComplete set piece fin s = .next t) :
    Keeps 12886331373 s t := by
  delta execPieceRefetchComplete at h
  refine keeps_at ?_ h
  refine Keeps.step ?_ goOnAll_keeps rfl
  refine Keeps.step ?_ effRefetch_keeps rfl
  exact Keeps.rfl

theorem execFlipPrepareComplete_keeps {p s t} (h : execFlipPrepareComplete p s = .next t) :
    Keeps 4294968320 s t := by
  delta execFlipPrepareComplete at h
  refine keeps_at ?_ h
  refine Keeps.step ?_ effFlipPrepared_keeps rfl
  exact Keeps.rfl

theorem execFlipGapComplete_keeps {p gap s t} (h : execFlipGapComplete p gap s = .next t) :
    Keeps 12886081517 s t := by
  delta execFlipGapComplete at h
  refine keeps_at ?_ h
  refine Keeps.step ?_ goOnAll_keeps rfl
  refine Keeps.step ?_ effFlipGap_keeps rfl
  exact Keeps.rfl

theorem execPartitionFault_keeps {p failed s t} (h : execPartitionFault p failed s = .next t) :
    Keeps 6072565611 s t := by
  delta execPartitionFault at h
  refine keeps_at ?_ h
  refine Keeps.step ?_ beginTransition_keeps rfl
  refine Keeps.step ?_ drainOn_keeps rfl
  refine Keeps.step ?_ effPartitionFault_keeps rfl
  exact Keeps.rfl

theorem keepLast_keeps {s p} :
    Keeps 3 s (keepLast s p) := by
  delta keepLast
  extract_lets -merge -useContext -underBinder +onlyGivenNames x1
  try clear_value x1
  extract_lets -merge -useContext -underBinder +onlyGivenNames x2
  try clear_value x2
  refine Keeps.step ?_ domSet_keeps rfl
  refine Keeps.step ?_ domSet_keeps rfl
  refine Keeps.step ?_ odSet_keeps rfl
  exact Keeps.rfl

theorem execPartitionWipeComplete_keeps {p s t} (h : execPartitionWipeComplete p s = .next t) :
    Keeps 6072795135 s t := by
  delta execPartitionWipeComplete at h
  refine keeps_at ?_ h
  refine Keeps.step ?_ beginTransition_keeps rfl
  refine Keeps.step ?_ effWipe_keeps rfl
  refine keeps_ite (fun x => x) ?_ ?_
  · refine Keeps.step ?_ keepLast_keeps rfl
    exact Keeps.rfl
  exact Keeps.rfl

end Sys2Proof.Machine
end

