-- ==== Sys2Proof/Laws/KeepsSwiuth.lean ====
section
/-! SUPPORT. What the operations of Machine/Swiuth.lean leave as it was. -/

namespace Sys2Proof.Machine

theorem freeMailbox_keeps {s a} :
    Keeps 16777216 s (freeMailbox s a) := by
  delta freeMailbox
  split
  · refine Keeps.step ?_ updFn_keeps rfl
    exact Keeps.rfl
  exact Keeps.rfl

theorem dropMgmt_keeps {s i} :
    Keeps 150994944 s (dropMgmt s i) := by
  delta dropMgmt
  refine Keeps.step ?_ freeMailbox_keeps rfl
  refine Keeps.step ?_ setMgmt_keeps rfl
  exact Keeps.rfl

theorem closeMgmt_keeps {s i} :
    Keeps 4445962240 s (closeMgmt s i) := by
  delta closeMgmt
  refine keeps_ite (fun x => x) ?_ ?_
  · refine Keeps.step ?_ emit_keeps rfl
    refine Keeps.step ?_ dropMgmt_keeps rfl
    exact Keeps.rfl
  exact Keeps.rfl

theorem endIfSpent_keeps {s i} :
    Keeps 4445962240 s (endIfSpent s i) := by
  delta endIfSpent
  refine keeps_ite (fun x => x) ?_ ?_
  · refine Keeps.step ?_ closeMgmt_keeps rfl
    exact Keeps.rfl
  exact Keeps.rfl

theorem deliver_keeps {s i msg waiting} :
    Keeps 4445962240 s (deliver s i msg waiting) := by
  delta deliver
  extract_lets -merge -useContext -underBinder +onlyGivenNames x1
  try clear_value x1
  extract_lets -merge -useContext -underBinder +onlyGivenNames x2
  refine Keeps.cut (n := 4445962240) (s := s) x2 ?_ ?_
  · subst x2
    refine Keeps.step ?_ emit_keeps rfl
    refine Keeps.step ?_ setMgmt_keeps rfl
    exact Keeps.rfl
  intro _
  try clear_value x2
  split
  · refine Keeps.step ?_ emit_keeps rfl
    refine Keeps.step ?_ updFn_keeps rfl
    assumption
  assumption

theorem sendReply_keeps {s i seq r} :
    Keeps 4445962240 s (sendReply s i seq r) := by
  delta sendReply
  refine keeps_ite (fun x => x) ?_ ?_
  · exact Keeps.rfl
  refine Keeps.step ?_ endIfSpent_keeps rfl
  refine Keeps.step ?_ freeMailbox_keeps rfl
  refine Keeps.step ?_ deliver_keeps rfl
  exact Keeps.rfl

theorem keepReply_keeps {s i seq r} :
    Keeps 134217728 s (keepReply s i seq r) := by
  delta keepReply
  extract_lets -merge -useContext -underBinder +onlyGivenNames x1
  try clear_value x1
  refine keeps_ite (fun x => x) ?_ ?_
  · exact Keeps.rfl
  extract_lets -merge -useContext -underBinder +onlyGivenNames x2
  try clear_value x2
  refine Keeps.step ?_ setMgmt_keeps rfl
  exact Keeps.rfl

theorem answer_keeps {s i seq op index sub a} :
    Keeps 4445962240 s (answer s i seq op index sub a) := by
  delta answer
  extract_lets -merge -useContext -underBinder +onlyGivenNames x1
  try clear_value x1
  refine Keeps.step ?_ sendReply_keeps rfl
  refine Keeps.step ?_ keepReply_keeps rfl
  exact Keeps.rfl

theorem request_keeps {n : Nat} {s0 : State} {s rq op index sub run} (h : Keeps n s0 s)
    (hf : ∀ s, Keeps n s0 s → Keeps n s0 (run s).1) (hn : 4445962241 ||| n = n) :
    Keeps n s0 (request s rq op index sub run) := by
  have hm : ∀ {s t k m}, Keeps n s0 s → Keeps k s t → k ||| m = m → m = 4445962241 → Keeps n s0 t := fun a b c d =>
    Keeps.step a (b.mono (keeps_lor c (d ▸ hn))) (Nat.or_self n)
  delta request
  extract_lets -merge -useContext -underBinder +onlyGivenNames i m
  refine keeps_ite (fun x => x) h ?_
  refine keeps_ite (fun x => x) ?_ ?_
  · refine hm ?_ bump_keeps rfl rfl
    exact keeps_ite (fun x => x) (hm h freeMailbox_keeps rfl rfl) h
  refine keeps_ite (fun x => x) ?_ ?_
  · refine keeps_ite (fun x => x) (hm h sendReply_keeps rfl rfl) ?_
    refine keeps_ite (fun x => x) (hm h sendReply_keeps rfl rfl) ?_
    extract_lets r
    have hr : Keeps n s0 r.1 := hf _ (hm h setMgmt_keeps rfl rfl)
    split
    · exact hm hr answer_keeps rfl rfl
    · exact hr
  · split
    · exact hm h sendReply_keeps rfl rfl
    · refine hm ?_ bump_keeps rfl rfl
      exact hm h freeMailbox_keeps rfl rfl

theorem runRead_keeps {rq index sub s} :
    Keeps 0 s (runRead rq index sub s).1 := by
  delta runRead
  extract_lets -merge -useContext -underBinder +onlyGivenNames x1
  try clear_value x1
  extract_lets -merge -useContext -underBinder +onlyGivenNames x2
  try clear_value x2
  split
  · try dsimp -zeta only
    exact Keeps.rfl
  refine keeps_ite (fun (x : (State) × _) => x.1) ?_ ?_
  · try dsimp -zeta only
    exact Keeps.rfl
  refine keeps_ite (fun (x : (State) × _) => x.1) ?_ ?_
  · try dsimp -zeta only
    exact Keeps.rfl
  extract_lets -merge -useContext -underBinder +onlyGivenNames x3
  try clear_value x3
  try dsimp -zeta only
  exact Keeps.rfl

theorem effRead_keeps {s rq index sub} :
    Keeps 4445962241 s (effRead s rq index sub) := by
  delta effRead
  refine request_keeps ?_ ?_ rfl
  · exact Keeps.rfl
  intro _ _
  refine Keeps.step ?_ runRead_keeps rfl
  assumption

theorem runStage_keeps {rq index sub v s} :
    Keeps 134217728 s (runStage rq index sub v s).1 := by
  delta runStage
  extract_lets -merge -useContext -underBinder +onlyGivenNames x1
  try clear_value x1
  extract_lets -merge -useContext -underBinder +onlyGivenNames x2
  try clear_value x2
  split
  · try dsimp -zeta only
    exact Keeps.rfl
  refine keeps_ite (fun (x : (State) × _) => x.1) ?_ ?_
  · try dsimp -zeta only
    exact Keeps.rfl
  extract_lets -merge -useContext -underBinder +onlyGivenNames x3
  try clear_value x3
  refine keeps_ite (fun (x : (State) × _) => x.1) ?_ ?_
  · try dsimp -zeta only
    exact Keeps.rfl
  split
  · try dsimp -zeta only
    exact Keeps.rfl
  try dsimp -zeta only
  refine Keeps.step ?_ setMgmt_keeps rfl
  exact Keeps.rfl

theorem effStage_keeps {s rq index sub v} :
    Keeps 4445962241 s (effStage s rq index sub v) := by
  delta effStage
  refine request_keeps ?_ ?_ rfl
  · exact Keeps.rfl
  intro _ _
  refine Keeps.step ?_ runStage_keeps rfl
  assumption

theorem runAbort_keeps {rq s} :
    Keeps 134217728 s (runAbort rq s).1 := by
  delta runAbort
  extract_lets -merge -useContext -underBinder +onlyGivenNames x1
  try clear_value x1
  extract_lets -merge -useContext -underBinder +onlyGivenNames x2
  try clear_value x2
  refine keeps_ite (fun (x : (State) × _) => x.1) ?_ ?_
  · try dsimp -zeta only
    exact Keeps.rfl
  try dsimp -zeta only
  refine Keeps.step ?_ setMgmt_keeps rfl
  exact Keeps.rfl

theorem effAbort_keeps {s rq} :
    Keeps 4445962241 s (effAbort s rq) := by
  delta effAbort
  refine request_keeps ?_ ?_ rfl
  · exact Keeps.rfl
  intro _ _
  refine Keeps.step ?_ runAbort_keeps rfl
  assumption

theorem drawBytes_keeps {s n} : Keeps 8589934592 s (drawBytes s n).2 := by
  induction n generalizing s with
  | zero => exact Keeps.rfl
  | succ n ih =>
    unfold drawBytes
    exact Keeps.step drawFree_keeps ih rfl

theorem newChallenge_keeps {s bytes} :
    Keeps 536870912 s (newChallenge s bytes) := by
  delta newChallenge
  refine Keeps.step ?_ (keeps_security _ _) rfl
  exact Keeps.rfl

theorem beginRead_keeps {s i k o} :
    Keeps 9261023232 s (beginRead s i k o) := by
  delta beginRead
  refine keeps_ite (fun x => x) ?_ ?_
  · extract_lets -merge -useContext -underBinder +onlyGivenNames x1
    refine Keeps.cut (n := 9261023232) (s := s) x1.2 ?_ ?_
    · subst x1
      refine Keeps.step ?_ drawBytes_keeps rfl
      exact Keeps.rfl
    intro _
    try clear_value x1
    refine Keeps.step ?_ newChallenge_keeps rfl
    assumption
  refine keeps_ite (fun x => x) ?_ ?_
  · extract_lets -merge -useContext -underBinder +onlyGivenNames x2
    try clear_value x2
    refine Keeps.step ?_ setMgmt_keeps rfl
    exact Keeps.rfl
  exact Keeps.rfl

theorem runSegmentRead_keeps {rq index sub offset length s} :
    Keeps 9261023232 s (runSegmentRead rq index sub offset length s).1 := by
  delta runSegmentRead
  extract_lets -merge -useContext -underBinder +onlyGivenNames x1
  try clear_value x1
  extract_lets -merge -useContext -underBinder +onlyGivenNames x2
  try clear_value x2
  split
  · try dsimp -zeta only
    exact Keeps.rfl
  refine keeps_ite (fun (x : (State) × _) => x.1) ?_ ?_
  · try dsimp -zeta only
    exact Keeps.rfl
  refine keeps_ite (fun (x : (State) × _) => x.1) ?_ ?_
  · try dsimp -zeta only
    exact Keeps.rfl
  extract_lets -merge -useContext -underBinder +onlyGivenNames x3
  refine Keeps.cut (n := 9261023232) (s := s) x3 ?_ ?_
  · subst x3
    refine keeps_ite (fun x => x) ?_ ?_
    · refine Keeps.step ?_ beginRead_keeps rfl
      exact Keeps.rfl
    exact Keeps.rfl
  intro _
  try clear_value x3
  extract_lets -merge -useContext -underBinder +onlyGivenNames x4
  try clear_value x4
  try dsimp -zeta only
  assumption

theorem effSegmentRead_keeps {s rq index sub offset length} :
    Keeps 13572767745 s (effSegmentRead s rq index sub offset length) := by
  delta effSegmentRead
  refine request_keeps ?_ ?_ rfl
  · exact Keeps.rfl
  intro _ _
  refine Keeps.step ?_ runSegmentRead_keeps rfl
  assumption

theorem runSubscribe_keeps {rq index sub period s} :
    Keeps 134217728 s (runSubscribe rq index sub period s).1 := by
  delta runSubscribe
  extract_lets -merge -useContext -underBinder +onlyGivenNames x1
  try clear_value x1
  extract_lets -merge -useContext -underBinder +onlyGivenNames x2
  try clear_value x2
  split
  · try dsimp -zeta only
    exact Keeps.rfl
  refine keeps_ite (fun (x : (State) × _) => x.1) ?_ ?_
  · try dsimp -zeta only
    exact Keeps.rfl
  extract_lets -merge -useContext -underBinder +onlyGivenNames x3
  try clear_value x3
  refine keeps_ite (fun (x : (State) × _) => x.1) ?_ ?_
  · try dsimp -zeta only
    refine Keeps.step ?_ setMgmt_keeps rfl
    exact Keeps.rfl
  refine keeps_ite (fun (x : (State) × _) => x.1) ?_ ?_
  · try dsimp -zeta only
    exact Keeps.rfl
  extract_lets -merge -useContext -underBinder +onlyGivenNames x4
  try clear_value x4
  try dsimp -zeta only
  refine Keeps.step ?_ setMgmt_keeps rfl
  exact Keeps.rfl

theorem effSubscribe_keeps {s rq index sub period} :
    Keeps 4445962241 s (effSubscribe s rq index sub period) := by
  delta effSubscribe
  refine request_keeps ?_ ?_ rfl
  · exact Keeps.rfl
  intro _ _
  refine Keeps.step ?_ runSubscribe_keeps rfl
  assumption

theorem notifyData_keeps {s m o k} :
    Keeps 8589934592 s (notifyData s m o k).2 := by
  delta notifyData
  refine keeps_ite (fun (x : _ × State) => x.2) ?_ ?_
  · try dsimp -zeta only
    exact Keeps.rfl
  refine keeps_ite (fun (x : _ × State) => x.2) ?_ ?_
  · try dsimp -zeta only
    exact Keeps.rfl
  extract_lets -merge -useContext -underBinder +onlyGivenNames x1
  try clear_value x1
  refine keeps_ite (fun (x : _ × State) => x.2) ?_ ?_
  · try dsimp -zeta only
    exact Keeps.rfl
  extract_lets -merge -useContext -underBinder +onlyGivenNames x2
  refine Keeps.cut (n := 8589934592) (s := s) x2.2 ?_ ?_
  · subst x2
    refine Keeps.step ?_ drawFree_keeps rfl
    exact Keeps.rfl
  intro _
  try clear_value x2
  try dsimp -zeta only
  assumption

theorem effNotify_keeps {s i index sub overRate} :
    Keeps 13035896833 s (effNotify s i index sub overRate) := by
  delta effNotify
  extract_lets -merge -useContext -underBinder +onlyGivenNames x1
  try clear_value x1
  extract_lets -merge -useContext -underBinder +onlyGivenNames x2
  try clear_value x2
  split
  · exact Keeps.rfl
  refine keeps_ite (fun x => x) ?_ ?_
  · exact Keeps.rfl
  refine keeps_ite (fun x => x) ?_ ?_
  · refine Keeps.step ?_ bump_keeps rfl
    exact Keeps.rfl
  extract_lets -merge -useContext -underBinder +onlyGivenNames x3
  refine Keeps.cut (n := 13035896833) (s := s) x3.2 ?_ ?_
  · subst x3
    refine Keeps.step ?_ notifyData_keeps rfl
    exact Keeps.rfl
  intro _
  try clear_value x3
  extract_lets -merge -useContext -underBinder +onlyGivenNames x4
  try clear_value x4
  extract_lets -merge -useContext -underBinder +onlyGivenNames x5
  refine Keeps.cut (n := 13035896833) (s := s) x5 ?_ ?_
  · subst x5
    refine Keeps.step ?_ setMgmt_keeps rfl
    assumption
  intro _
  try clear_value x5
  refine Keeps.step ?_ endIfSpent_keeps rfl
  refine Keeps.step ?_ deliver_keeps rfl
  assumption

theorem effSegmentAbandon_keeps {s i k} :
    Keeps 134217728 s (effSegmentAbandon s i k) := by
  delta effSegmentAbandon
  refine Keeps.step ?_ setMgmt_keeps rfl
  exact Keeps.rfl

theorem effFreezeExpiry_keeps {s i k} :
    Keeps 134217728 s (effFreezeExpiry s i k) := by
  delta effFreezeExpiry
  refine Keeps.step ?_ setMgmt_keeps rfl
  exact Keeps.rfl

theorem effMailboxRequest_keeps {s fn length} :
    Keeps 16777216 s (effMailboxRequest s fn length) := by
  delta effMailboxRequest
  refine Keeps.step ?_ updFn_keeps rfl
  exact Keeps.rfl

theorem effRspAck_keeps {s fn value} :
    Keeps 16777216 s (effRspAck s fn value) := by
  delta effRspAck
  refine keeps_ite (fun x => x) ?_ ?_
  · refine Keeps.step ?_ updFn_keeps rfl
    exact Keeps.rfl
  exact Keeps.rfl

theorem execRead_keeps {rq index sub s t} (h : execRead rq index sub s = .next t) :
    Keeps 4445962241 s t := by
  delta execRead at h
  refine keeps_next ?_ h
  refine Keeps.step ?_ effRead_keeps rfl
  exact Keeps.rfl

theorem execStage_keeps {rq index sub v s t} (h : execStage rq index sub v s = .next t) :
    Keeps 4445962241 s t := by
  delta execStage at h
  refine keeps_next ?_ h
  refine Keeps.step ?_ effStage_keeps rfl
  exact Keeps.rfl

theorem execAbort_keeps {rq s t} (h : execAbort rq s = .next t) :
    Keeps 4445962241 s t := by
  delta execAbort at h
  refine keeps_next ?_ h
  refine Keeps.step ?_ effAbort_keeps rfl
  exact Keeps.rfl

theorem execSegmentRead_keeps {rq index sub offset length s t} (h : execSegmentRead rq index sub offset length s = .next t) :
    Keeps 13572767745 s t := by
  delta execSegmentRead at h
  refine keeps_next ?_ h
  refine Keeps.step ?_ effSegmentRead_keeps rfl
  exact Keeps.rfl

theorem execSegmentAbandon_keeps {session index sub s t} (h : execSegmentAbandon session index sub s = .next t) :
    Keeps 134217728 s t := by
  delta execSegmentAbandon at h
  refine keeps_next ?_ h
  refine Keeps.step ?_ effSegmentAbandon_keeps rfl
  exact Keeps.rfl

theorem execSubscribe_keeps {rq index sub period s t} (h : execSubscribe rq index sub period s = .next t) :
    Keeps 4445962241 s t := by
  delta execSubscribe at h
  refine keeps_next ?_ h
  refine Keeps.step ?_ effSubscribe_keeps rfl
  exact Keeps.rfl

theorem execNotify_keeps {session index sub overRate s t} (h : execNotify session index sub overRate s = .next t) :
    Keeps 13035896833 s t := by
  delta execNotify at h
  refine keeps_next ?_ h
  refine Keeps.step ?_ effNotify_keeps rfl
  exact Keeps.rfl

theorem execSwiuthClose_keeps {session s t} (h : execSwiuthClose session s = .next t) :
    Keeps 150994944 s t := by
  delta execSwiuthClose at h
  refine keeps_next ?_ h
  refine Keeps.step ?_ dropMgmt_keeps rfl
  exact Keeps.rfl

theorem execIdleTimeout_keeps {session s t} (h : execIdleTimeout session s = .next t) :
    Keeps 4445962240 s t := by
  delta execIdleTimeout at h
  refine keeps_next ?_ h
  refine Keeps.step ?_ closeMgmt_keeps rfl
  exact Keeps.rfl

theorem execManagementSessionExpiry_keeps {session s t} (h : execManagementSessionExpiry session s = .next t) :
    Keeps 4445962240 s t := by
  delta execManagementSessionExpiry at h
  refine keeps_next ?_ h
  refine Keeps.step ?_ closeMgmt_keeps rfl
  exact Keeps.rfl

theorem execReportFreezeExpiry_keeps {session index s t} (h : execReportFreezeExpiry session index s = .next t) :
    Keeps 134217728 s t := by
  delta execReportFreezeExpiry at h
  refine keeps_next ?_ h
  refine Keeps.step ?_ effFreezeExpiry_keeps rfl
  exact Keeps.rfl

theorem execMailboxRequest_keeps {fn length s t} (h : execMailboxRequest fn length s = .next t) :
    Keeps 16777216 s t := by
  delta execMailboxRequest at h
  refine keeps_at ?_ h
  refine Keeps.step ?_ effMailboxRequest_keeps rfl
  exact Keeps.rfl

theorem execRspAck_keeps {fn value s t} (h : execRspAck fn value s = .next t) :
    Keeps 16777216 s t := by
  delta execRspAck at h
  refine keeps_at ?_ h
  refine Keeps.step ?_ effRspAck_keeps rfl
  exact Keeps.rfl

theorem execDroppedDatagram_keeps {y1 s t} (h : execDroppedDatagram y1 s = .next t) :
    Keeps 1 s t := by
  delta execDroppedDatagram at h
  refine keeps_next ?_ h
  refine Keeps.step ?_ bump_keeps rfl
  exact Keeps.rfl

theorem execUnknownOpRequest_keeps {rq op s t} (h : execUnknownOpRequest rq op s = .next t) :
    Keeps 4445962241 s t := by
  delta execUnknownOpRequest at h
  refine keeps_next ?_ h
  refine request_keeps ?_ ?_ rfl
  · exact Keeps.rfl
  intro _ _
  try dsimp -zeta only
  assumption

end Sys2Proof.Machine
end

