-- ==== Sys2Proof/Laws/KeepsManage.lean ====
section
/-! SUPPORT. What the operations of Machine/Manage.lean leave as it was. -/

namespace Sys2Proof.Machine


theorem runCmd_keeps {n : Nat} {s0 : State} {rq k v act s} (h : Keeps n s0 s)
    (hf : ∀ s t, Keeps n s0 s → act s = .ok t → Keeps n s0 t) (_hn : 0 ||| n = n) :
    Keeps n s0 (runCmd rq k v act s).1 := by
  delta runCmd
  split
  · exact h
  · extract_lets st
    refine keeps_ite (fun (x : State × _) => x.1) h ?_
    split
    · exact h
    next h2 => exact hf _ _ h h2

theorem cmdWrite_keeps {n : Nat} {s0 : State} {s rq k value act} (h : Keeps n s0 s)
    (hf : ∀ s t, Keeps n s0 s → act s = .ok t → Keeps n s0 t) (hn : 4445962241 ||| n = n) :
    Keeps n s0 (cmdWrite s rq k value act) :=
  request_keeps h (fun _ hs => runCmd_keeps hs hf (Nat.zero_or n)) hn

theorem onOne_keeps {n : Nat} {s0 : State} {value act s t} (h : Keeps n s0 s)
    (hf : ∀ s t, Keeps n s0 s → act s = .ok t → Keeps n s0 t) (_hn : 0 ||| n = n)
    (hr : onOne value act s = .ok t) : Keeps n s0 t := by
  delta onOne at hr
  split at hr
  · cases hr
    exact h
  · exact hf _ _ h hr

theorem queueEveryChain_keeps {s} :
    Keeps 448 s (queueEveryChain s) := by
  delta queueEveryChain
  refine keeps_foldl (fun x => x) _ _ ?_ ?_
  · exact Keeps.rfl
  intro _ _ _
  refine keeps_foldl (fun x => x) _ _ ?_ ?_
  · assumption
  intro _ _ _
  refine keeps_foldl (fun x => x) _ _ ?_ ?_
  · assumption
  intro _ _ _
  refine Keeps.step ?_ queueCalibration_keeps rfl
  assumption

theorem zeroObjects_keeps {s index lo hi} :
    Keeps 1 s (zeroObjects s index lo hi) := by
  delta zeroObjects
  refine keeps_foldl (fun x => x) _ _ ?_ ?_
  · exact Keeps.rfl
  intro _ _ _
  refine Keeps.step ?_ odSet_keeps rfl
  assumption

theorem clearLapStats_keeps {s p} :
    Keeps 1025 s (clearLapStats s p) := by
  delta clearLapStats
  refine Keeps.step ?_ updPart_keeps rfl
  refine Keeps.step ?_ zeroObjects_keeps rfl
  exact Keeps.rfl

theorem endNamedSession_keeps {sess s t} (h : endNamedSession sess s = .ok t) :
    Keeps 15936 s t := by
  delta endNamedSession at h
  split at h
  · exact absurd h (fun k => by cases k)
  refine keeps_ok ?_ h
  refine Keeps.step ?_ endSession_keeps rfl
  exact Keeps.rfl

theorem unloadNamedSet_keeps {set s t} (h : unloadNamedSet set s = .ok t) :
    Keeps 12884999713 s t := by
  delta unloadNamedSet at h
  split at h
  · refine keeps_ok ?_ h
    refine Keeps.step ?_ (unloadSet_keeps (by assumption)) rfl
    exact Keeps.rfl
  cases h

theorem releaseBundle_keeps {set s t} (h : releaseBundle set s = .ok t) :
    Keeps 65536 s t := by
  delta releaseBundle at h
  refine keeps_ok ?_ h
  refine Keeps.step ?_ updWset_keeps rfl
  exact Keeps.rfl

theorem resetNamedPartition_keeps {p s t} (h : resetNamedPartition p s = .ok t) :
    Keeps 5381389923 s t := by
  delta resetNamedPartition at h
  split at h
  · exact absurd h (fun k => by cases k)
  refine keeps_ok ?_ h
  refine Keeps.step ?_ resetPartition_keeps rfl
  exact Keeps.rfl

theorem retrainNamedStack_keeps {b s t} (h : retrainNamedStack b s = .ok t) :
    Keeps 4295246849 s t := by
  delta retrainNamedStack at h
  split at h
  · exact absurd h (fun k => by cases k)
  refine keeps_ok ?_ h
  refine Keeps.step ?_ triggerRetrain_keeps rfl
  exact Keeps.rfl

theorem retrainNamedLink_keeps {l s t} (h : retrainNamedLink l s = .ok t) :
    Keeps 4298130465 s t := by
  delta retrainNamedLink at h
  split at h
  · exact absurd h (fun k => by cases k)
  refine keeps_ok ?_ h
  refine Keeps.step ?_ triggerLink_keeps rfl
  exact Keeps.rfl

theorem attachNow_keeps {twin s t} (h : attachNow twin s = .ok t) :
    Keeps 4299177985 s t := by
  delta attachNow at h
  split at h
  · exact absurd h (fun k => by cases k)
  refine keeps_ok ?_ h
  refine Keeps.step ?_ startAttach_keeps rfl
  exact Keeps.rfl

theorem drainNow_keeps {s t} (h : drainNow s = .ok t) :
    Keeps 4299177985 s t := by
  delta drainNow at h
  split at h
  · refine keeps_ok ?_ h
    refine Keeps.step ?_ drainOn_keeps rfl
    refine Keeps.step ?_ startDrain_keeps rfl
    exact Keeps.rfl
  exact absurd h (fun k => by cases k)

theorem clearShort_keeps {b s t} (h : clearShort b s = .ok t) :
    Keeps 32768 s t := by
  delta clearShort at h
  split at h
  · refine keeps_ok ?_ h
    refine Keeps.step ?_ (keeps_yield _ _) rfl
    exact Keeps.rfl
  exact absurd h (fun k => by cases k)

theorem execCalibrateAll_keeps {rq value s t} (h : execCalibrateAll rq value s = .next t) :
    Keeps 4445962689 s t := by
  delta execCalibrateAll at h
  refine keeps_next ?_ h
  refine cmdWrite_keeps ?_ ?_ rfl
  · exact Keeps.rfl
  intro _ _ _ h
  refine onOne_keeps ?_ ?_ rfl h
  · assumption
  intro _ _ _ h
  refine keeps_ok ?_ h
  refine Keeps.step ?_ queueEveryChain_keeps rfl
  assumption

theorem execPrecisionClear_keeps {rq value s t} (h : execPrecisionClear rq value s = .next t) :
    Keeps 4445962241 s t := by
  delta execPrecisionClear at h
  refine keeps_next ?_ h
  refine cmdWrite_keeps ?_ ?_ rfl
  · exact Keeps.rfl
  intro _ _ _ h
  refine onOne_keeps ?_ ?_ rfl h
  · assumption
  intro _ _ _ h
  refine keeps_ok ?_ h
  refine Keeps.step ?_ zeroObjects_keeps rfl
  assumption

theorem execLapStatisticsClear_keeps {rq p value s t} (h : execLapStatisticsClear rq p value s = .next t) :
    Keeps 4445963265 s t := by
  delta execLapStatisticsClear at h
  refine keeps_next ?_ h
  refine cmdWrite_keeps ?_ ?_ rfl
  · exact Keeps.rfl
  intro _ _ _ h
  refine onOne_keeps ?_ ?_ rfl h
  · assumption
  intro _ _ _ h
  refine keeps_ok ?_ h
  refine Keeps.step ?_ clearLapStats_keeps rfl
  assumption

theorem execEndSession_keeps {rq session s t} (h : execEndSession rq session s = .next t) :
    Keeps 4445978177 s t := by
  delta execEndSession at h
  refine keeps_next ?_ h
  refine cmdWrite_keeps ?_ ?_ rfl
  · exact Keeps.rfl
  intro _ _ _ h
  refine Keeps.step ?_ (endNamedSession_keeps h) rfl
  assumption

theorem execWeightUnload_keeps {rq set s t} (h : execWeightUnload rq set s = .next t) :
    Keeps 13035994657 s t := by
  delta execWeightUnload at h
  refine keeps_next ?_ h
  refine cmdWrite_keeps ?_ ?_ rfl
  · exact Keeps.rfl
  intro _ _ _ h
  refine Keeps.step ?_ (unloadNamedSet_keeps h) rfl
  assumption

theorem execReleaseHost_keeps {rq set s t} (h : execReleaseHost rq set s = .next t) :
    Keeps 4446027777 s t := by
  delta execReleaseHost at h
  refine keeps_next ?_ h
  refine cmdWrite_keeps ?_ ?_ rfl
  · exact Keeps.rfl
  intro _ _ _ h
  refine Keeps.step ?_ (releaseBundle_keeps h) rfl
  assumption

theorem execPortRetrain_keeps {rq port s t} (h : execPortRetrain rq port s = .next t) :
    Keeps 4449140289 s t := by
  delta execPortRetrain at h
  refine keeps_next ?_ h
  refine cmdWrite_keeps ?_ ?_ rfl
  · exact Keeps.rfl
  intro _ _ _ h
  refine keeps_ok ?_ h
  refine Keeps.step ?_ retrainPort_keeps rfl
  assumption

theorem execAttach_keeps {rq value config parts s t} (h : execAttach rq value config parts s = .next t) :
    Keeps 4450172929 s t := by
  delta execAttach at h
  refine keeps_next ?_ h
  refine cmdWrite_keeps ?_ ?_ rfl
  · exact Keeps.rfl
  intro _ _ _ h
  refine onOne_keeps ?_ ?_ rfl h
  · assumption
  intro _ _ _ h
  refine Keeps.step ?_ (attachNow_keeps h) rfl
  assumption

theorem execDetach_keeps {rq value s t} (h : execDetach rq value s = .next t) :
    Keeps 4450187841 s t := by
  delta execDetach at h
  refine keeps_next ?_ h
  refine cmdWrite_keeps ?_ ?_ rfl
  · exact Keeps.rfl
  intro _ _ _ h
  refine onOne_keeps ?_ ?_ rfl h
  · assumption
  intro _ _ _ h
  refine keeps_ok ?_ h
  refine Keeps.step ?_ startDetach_keeps rfl
  assumption

theorem execDrain_keeps {rq value s t} (h : execDrain rq value s = .next t) :
    Keeps 4450172929 s t := by
  delta execDrain at h
  refine keeps_next ?_ h
  refine cmdWrite_keeps ?_ ?_ rfl
  · exact Keeps.rfl
  intro _ _ _ h
  refine onOne_keeps ?_ ?_ rfl h
  · assumption
  intro _ _ _ h
  refine Keeps.step ?_ (drainNow_keeps h) rfl
  assumption

theorem execPartitionReset_keeps {rq p value s t} (h : execPartitionReset rq p value s = .next t) :
    Keeps 6072532835 s t := by
  delta execPartitionReset at h
  refine keeps_next ?_ h
  refine Keeps.step ?_ beginTransition_keeps rfl
  refine cmdWrite_keeps ?_ ?_ rfl
  · exact Keeps.rfl
  intro _ _ _ h
  refine onOne_keeps ?_ ?_ rfl h
  · assumption
  intro _ _ _ h
  refine Keeps.step ?_ (resetNamedPartition_keeps h) rfl
  assumption

theorem execStackRetrain_keeps {rq block s t} (h : execStackRetrain rq block s = .next t) :
    Keeps 4446241793 s t := by
  delta execStackRetrain at h
  refine keeps_next ?_ h
  refine cmdWrite_keeps ?_ ?_ rfl
  · exact Keeps.rfl
  intro _ _ _ h
  refine Keeps.step ?_ (retrainNamedStack_keeps h) rfl
  assumption

theorem execLinkRetrain_keeps {rq link s t} (h : execLinkRetrain rq link s = .next t) :
    Keeps 4449125409 s t := by
  delta execLinkRetrain at h
  refine keeps_next ?_ h
  refine cmdWrite_keeps ?_ ?_ rfl
  · exact Keeps.rfl
  intro _ _ _ h
  refine Keeps.step ?_ (retrainNamedLink_keeps h) rfl
  assumption

theorem execRecorderClear_keeps {rq value s t} (h : execRecorderClear rq value s = .next t) :
    Keeps 4445978625 s t := by
  delta execRecorderClear at h
  refine keeps_next ?_ h
  refine cmdWrite_keeps ?_ ?_ rfl
  · exact Keeps.rfl
  intro _ _ _ h
  refine onOne_keeps ?_ ?_ rfl h
  · assumption
  intro _ _ _ h
  refine keeps_ok ?_ h
  refine Keeps.step ?_ effClearLog_keeps rfl
  assumption

theorem execFlushNow_keeps {rq value s t} (h : execFlushNow rq value s = .next t) :
    Keeps 4445978625 s t := by
  delta execFlushNow at h
  refine keeps_next ?_ h
  refine cmdWrite_keeps ?_ ?_ rfl
  · exact Keeps.rfl
  intro _ _ _ h
  refine onOne_keeps ?_ ?_ rfl h
  · assumption
  intro _ _ _ h
  refine keeps_ok ?_ h
  refine Keeps.step ?_ startFlush_keeps rfl
  assumption

theorem execClearBlockEntry_keeps {rq block s t} (h : execClearBlockEntry rq block s = .next t) :
    Keeps 4445995009 s t := by
  delta execClearBlockEntry at h
  refine keeps_next ?_ h
  refine cmdWrite_keeps ?_ ?_ rfl
  · exact Keeps.rfl
  intro _ _ _ h
  refine Keeps.step ?_ (clearShort_keeps h) rfl
  assumption

end Sys2Proof.Machine
end

