-- ==== Sys2Proof/Laws/KeepsLoad.lean ====
section
/-! SUPPORT. What the operations of Machine/Load.lean leave as it was. -/

namespace Sys2Proof.Machine

theorem resetObjects_keeps {s p} :
    Keeps 3 s (resetObjects s p) := by
  delta resetObjects
  refine Keeps.step ?_ (keeps_od_dom _ _ _ (fun c => kvWfBy_filter _ c.od) (fun c => kvWfBy_filter _ c.dom)) rfl
  exact Keeps.rfl

theorem showFigures_keeps {s p g} :
    Keeps 1 s (showFigures s p g) := by
  delta showFigures
  extract_lets -merge -useContext -underBinder +onlyGivenNames x1
  try clear_value x1
  extract_lets -merge -useContext -underBinder +onlyGivenNames x2
  try clear_value x2
  extract_lets -merge -useContext -underBinder +onlyGivenNames x3
  try clear_value x3
  extract_lets -merge -useContext -underBinder +onlyGivenNames x4
  try clear_value x4
  extract_lets -merge -useContext -underBinder +onlyGivenNames x5
  try clear_value x5
  extract_lets -merge -useContext -underBinder +onlyGivenNames x6
  subst x6
  try dsimp -zeta only
  refine keeps_foldl (fun x => x) _ _ ?_ ?_
  · exact Keeps.rfl
  intro _ _ _
  refine Keeps.step ?_ odPut_keeps rfl
  assumption

theorem refuseLoad_keeps {s p result cluster} :
    Keeps 17409 s (refuseLoad s p result cluster) := by
  delta refuseLoad
  extract_lets -merge -useContext -underBinder +onlyGivenNames x1
  refine Keeps.cut (n := 17409) (s := s) x1 ?_ ?_
  · subst x1
    refine Keeps.step ?_ setPart_keeps rfl
    refine Keeps.step ?_ odSet_keeps rfl
    exact Keeps.rfl
  intro _
  try clear_value x1
  refine Keeps.step ?_ recordEvent_keeps rfl
  assumption

theorem notePrefill_keeps {s p g} :
    Keeps 16385 s (notePrefill s p g) := by
  delta notePrefill
  refine keeps_ite (fun x => x) ?_ ?_
  · exact Keeps.rfl
  refine Keeps.step ?_ recordEvent_keeps rfl
  exact Keeps.rfl

theorem startLoad_keeps {s p g} :
    Keeps 12890425001 s (startLoad s p g) := by
  delta startLoad
  extract_lets -merge -useContext -underBinder +onlyGivenNames x1
  try clear_value x1
  extract_lets -merge -useContext -underBinder +onlyGivenNames x2
  try clear_value x2
  extract_lets -merge -useContext -underBinder +onlyGivenNames x3
  refine Keeps.cut (n := 12890425001) (s := s) x3 ?_ ?_
  · subst x3
    refine Keeps.step ?_ odSet_keeps rfl
    exact Keeps.rfl
  intro _
  try clear_value x3
  extract_lets -merge -useContext -underBinder +onlyGivenNames x4
  refine Keeps.cut (n := 12890425001) (s := s) x4 ?_ ?_
  · subst x4
    refine Keeps.step ?_ setPart_keeps rfl
    assumption
  intro _
  try clear_value x4
  extract_lets -merge -useContext -underBinder +onlyGivenNames x5
  refine Keeps.cut (n := 12890425001) (s := s) x5 ?_ ?_
  · subst x5
    refine Keeps.step ?_ notePrefill_keeps rfl
    refine Keeps.step ?_ showFigures_keeps rfl
    assumption
  intro _
  try clear_value x5
  extract_lets -merge -useContext -underBinder +onlyGivenNames x6
  refine Keeps.cut (n := 12890425001) (s := s) x6 ?_ ?_
  · subst x6
    refine Keeps.step ?_ breakMap_keeps rfl
    assumption
  intro _
  try clear_value x6
  refine Keeps.step ?_ proceedLoad_keeps rfl
  refine keeps_foldl (fun x => x) _ _ ?_ ?_
  · assumption
  intro _ _ _
  refine Keeps.step ?_ wakeForLoad_keeps rfl
  assumption

theorem runLoad_keeps {s p g} :
    Keeps 12890425001 s (runLoad s p g) := by
  delta runLoad
  extract_lets -merge -useContext -underBinder +onlyGivenNames x1
  try clear_value x1
  refine keeps_ite (fun x => x) ?_ ?_
  · refine Keeps.step ?_ startLoad_keeps rfl
    exact Keeps.rfl
  refine Keeps.step ?_ refuseLoad_keeps rfl
  refine keeps_ite (fun x => x) ?_ ?_
  · exact Keeps.rfl
  refine Keeps.step ?_ bump_keeps rfl
  exact Keeps.rfl

theorem runHeldLoads_keeps {s} :
    Keeps 12890425001 s (runHeldLoads s) := by
  delta runHeldLoads
  refine keeps_foldl (fun x => x) _ _ ?_ ?_
  · exact Keeps.rfl
  intro _ _ _
  split
  · refine keeps_ite (fun x => x) ?_ ?_
    · assumption
    refine Keeps.step ?_ runLoad_keeps rfl
    refine Keeps.step ?_ setPart_keeps rfl
    assumption
  assumption

theorem loadNow_keeps {p g s t} (h : loadNow p g s = .ok t) :
    Keeps 12890425003 s t := by
  delta loadNow at h
  split at h
  · exact absurd h (fun k => by cases k)
  extract_lets -merge -useContext -underBinder +onlyGivenNames x1 at h
  refine Keeps.cut (n := 12890425003) (s := s) x1 ?_ ?_
  · subst x1
    refine Keeps.step ?_ resetObjects_keeps rfl
    exact Keeps.rfl
  intro _
  try clear_value x1
  refine keeps_ok ?_ h
  refine keeps_ite (fun x => x) ?_ ?_
  · refine Keeps.step ?_ setPart_keeps rfl
    assumption
  refine Keeps.step ?_ runLoad_keeps rfl
  assumption

theorem readyChain_keeps {s ci ch} :
    Keeps 385 s (readyChain s ci ch) := by
  delta readyChain
  extract_lets -merge -useContext -underBinder +onlyGivenNames x1
  try clear_value x1
  extract_lets -merge -useContext -underBinder +onlyGivenNames x2
  refine Keeps.cut (n := 385) (s := s) x2 ?_ ?_
  · subst x2
    refine keeps_foldl (fun x => x) _ _ ?_ ?_
    · exact Keeps.rfl
    intro _ _ _
    refine Keeps.step ?_ updArr_keeps rfl
    assumption
  intro _
  try clear_value x2
  refine Keeps.step ?_ bump_keeps rfl
  refine Keeps.step ?_ updChain_keeps rfl
  assumption

theorem readyChains_keeps {s p} :
    Keeps 449 s (readyChains s p) := by
  delta readyChains
  refine keeps_foldl (fun x => x) _ _ ?_ ?_
  · exact Keeps.rfl
  intro _ _ _
  extract_lets -merge -useContext -underBinder +onlyGivenNames x1
  refine Keeps.cut (n := 449) (s := s) x1 ?_ ?_
  · subst x1
    refine keeps_foldl (fun x => x) _ _ ?_ ?_
    · assumption
    intro _ _ _
    refine Keeps.step ?_ readyChain_keeps rfl
    assumption
  intro _
  try clear_value x1
  refine Keeps.step ?_ updCluster_keeps rfl
  assumption

theorem repairLoaded_keeps {s p x} :
    Keeps 8591033537 s (repairLoaded s p x) := by
  delta repairLoaded
  extract_lets -merge -useContext -underBinder +onlyGivenNames x1
  refine Keeps.cut (n := 8591033537) (s := s) x1 ?_ ?_
  · subst x1
    refine keeps_foldl (fun x => x) _ _ ?_ ?_
    · exact Keeps.rfl
    intro _ _ _
    refine Keeps.step ?_ bindSpares_keeps rfl
    assumption
  intro _
  try clear_value x1
  refine keeps_foldl (fun x => x) _ _ ?_ ?_
  · assumption
  intro _ _ _
  refine keeps_ite (fun x => x) ?_ ?_
  · assumption
  refine Keeps.step ?_ replaceColumns_keeps rfl
  assumption

theorem takeSwitching_keeps {s p} :
    Keeps 1024 s (takeSwitching s p) := by
  delta takeSwitching
  refine keeps_foldl (fun x => x) _ _ ?_ ?_
  · exact Keeps.rfl
  intro _ _ _
  refine keeps_foldl (fun x => x) _ _ ?_ ?_
  · assumption
  intro _ _ _
  refine keeps_ite (fun x => x) ?_ ?_
  · refine Keeps.step ?_ updPart_keeps rfl
    assumption
  assumption

theorem effLoadComplete_keeps {s p faults} :
    Keeps 12890197441 s (effLoadComplete s p faults) := by
  delta effLoadComplete
  extract_lets -merge -useContext -underBinder +onlyGivenNames x1
  try clear_value x1
  refine keeps_ite (fun x => x) ?_ ?_
  · exact Keeps.rfl
  extract_lets -merge -useContext -underBinder +onlyGivenNames x2
  refine Keeps.cut (n := 12890197441) (s := s) x2 ?_ ?_
  · subst x2
    refine Keeps.step ?_ readyChains_keeps rfl
    refine Keeps.step ?_ repairLoaded_keeps rfl
    exact Keeps.rfl
  intro _
  try clear_value x2
  extract_lets -merge -useContext -underBinder +onlyGivenNames x3
  refine Keeps.cut (n := 12890197441) (s := s) x3 ?_ ?_
  · subst x3
    refine Keeps.step ?_ odSet_keeps rfl
    refine Keeps.step ?_ odSet_keeps rfl
    assumption
  intro _
  try clear_value x3
  extract_lets -merge -useContext -underBinder +onlyGivenNames x4
  refine Keeps.cut (n := 12890197441) (s := s) x4 ?_ ?_
  · subst x4
    refine Keeps.step ?_ updPart_keeps rfl
    assumption
  intro _
  try clear_value x4
  extract_lets -merge -useContext -underBinder +onlyGivenNames x5
  refine Keeps.cut (n := 12890197441) (s := s) x5 ?_ ?_
  · subst x5
    refine Keeps.step ?_ recheckMap_keeps rfl
    refine Keeps.step ?_ takeSwitching_keeps rfl
    assumption
  intro _
  try clear_value x5
  extract_lets -merge -useContext -underBinder +onlyGivenNames x6
  skip
  extract_lets -merge -useContext -underBinder +onlyGivenNames x7
  refine Keeps.cut (n := 12890197441) (s := s) x7 ?_ ?_
  · subst x7
    refine keeps_ite (fun x => x) ?_ ?_
    · refine Keeps.step ?_ (keeps_plant _ _) rfl
      assumption
    assumption
  intro _
  try clear_value x7
  refine Keeps.step ?_ buildLanes_keeps rfl
  assumption

theorem drainPartition_keeps {p s t} (h : drainPartition p s = .ok t) :
    Keeps 1024 s t := by
  delta drainPartition at h
  split at h
  · refine keeps_ok ?_ h
    refine Keeps.step ?_ updPart_keeps rfl
    exact Keeps.rfl
  exact absurd h (fun k => by cases k)

theorem unloadPartition_keeps {p s t} (h : unloadPartition p s = .ok t) :
    Keeps 5381389923 s t := by
  delta unloadPartition at h
  split at h
  · refine keeps_ok ?_ h
    refine Keeps.step ?_ resetPartition_keeps rfl
    exact Keeps.rfl
  exact absurd h (fun k => by cases k)

theorem execLoad_keeps {rq p value g s t} (h : execLoad rq p value g s = .next t) :
    Keeps 13041419947 s t := by
  delta execLoad at h
  refine keeps_next ?_ h
  refine cmdWrite_keeps ?_ ?_ rfl
  · exact Keeps.rfl
  intro _ _ _ h
  refine onOne_keeps ?_ ?_ rfl h
  · assumption
  intro _ _ _ h
  refine Keeps.step ?_ (loadNow_keeps h) rfl
  assumption

theorem execLoadComplete_keeps {fin s t} (h : execLoadComplete fin s = .next t) :
    Keeps 12890197441 s t := by
  delta execLoadComplete at h
  refine keeps_at ?_ h
  refine Keeps.step ?_ effLoadComplete_keeps rfl
  exact Keeps.rfl

theorem execUnloadDrain_keeps {rq p s t} (h : execUnloadDrain rq p s = .next t) :
    Keeps 4445963265 s t := by
  delta execUnloadDrain at h
  refine keeps_next ?_ h
  refine cmdWrite_keeps ?_ ?_ rfl
  · exact Keeps.rfl
  intro _ _ _ h
  refine Keeps.step ?_ (drainPartition_keeps h) rfl
  assumption

theorem execUnloadNow_keeps {rq p s t} (h : execUnloadNow rq p s = .next t) :
    Keeps 6072532835 s t := by
  delta execUnloadNow at h
  refine keeps_next ?_ h
  refine Keeps.step ?_ beginTransition_keeps rfl
  refine cmdWrite_keeps ?_ ?_ rfl
  · exact Keeps.rfl
  intro _ _ _ h
  refine Keeps.step ?_ (unloadPartition_keeps h) rfl
  assumption

end Sys2Proof.Machine
end

