-- ==== Sys2Proof/Laws/KeepsCommitCmds.lean ====
section
/-! SUPPORT. What the operations of Machine/CommitCmds.lean leave as it was. -/

namespace Sys2Proof.Machine

theorem nextPrepare_keeps {s} :
    Keeps 1073741824 s (nextPrepare s) := by
  delta nextPrepare
  refine keeps_ite (fun x => x) ?_ ?_
  · exact Keeps.rfl
  split
  · exact Keeps.rfl
  refine Keeps.step ?_ (keeps_commits _ _) rfl
  exact Keeps.rfl

theorem runCommit_keeps {rq s} :
    Keeps 1073741825 s (runCommit rq s).1 := by
  delta runCommit
  extract_lets -merge -useContext -underBinder +onlyGivenNames x1
  try clear_value x1
  extract_lets -merge -useContext -underBinder +onlyGivenNames x2
  try clear_value x2
  refine keeps_ite (fun (x : (State) × _) => x.1) ?_ ?_
  · try dsimp -zeta only
    exact Keeps.rfl
  refine keeps_ite (fun (x : (State) × _) => x.1) ?_ ?_
  · try dsimp -zeta only
    exact Keeps.rfl
  refine keeps_ite (fun (x : (State) × _) => x.1) ?_ ?_
  · try dsimp -zeta only
    exact Keeps.rfl
  refine keeps_ite (fun (x : (State) × _) => x.1) ?_ ?_
  · try dsimp -zeta only
    exact Keeps.rfl
  extract_lets -merge -useContext -underBinder +onlyGivenNames x3
  try clear_value x3
  extract_lets -merge -useContext -underBinder +onlyGivenNames x4
  try clear_value x4
  try dsimp -zeta only
  refine Keeps.step ?_ nextPrepare_keeps rfl
  refine Keeps.step ?_ odSet_keeps rfl
  refine Keeps.step ?_ (keeps_commits _ _) rfl
  exact Keeps.rfl

theorem effCommit_keeps {s rq} :
    Keeps 5519704065 s (effCommit s rq) := by
  delta effCommit
  refine request_keeps ?_ ?_ rfl
  · exact Keeps.rfl
  intro _ _
  refine Keeps.step ?_ runCommit_keeps rfl
  assumption

theorem replyCommit_keeps {s c} :
    Keeps 4445962240 s (replyCommit s c) := by
  delta replyCommit
  refine Keeps.step ?_ answer_keeps rfl
  exact Keeps.rfl

theorem afterPrepare_keeps {s} :
    Keeps 13964166825 s (afterPrepare s) := by
  delta afterPrepare
  refine Keeps.step ?_ runHeldLoads_keeps rfl
  refine Keeps.step ?_ nextPrepare_keeps rfl
  exact Keeps.rfl

theorem rollBack_keeps {s c reason key part} :
    Keeps 14115161771 s (rollBack s c reason key part) := by
  delta rollBack
  extract_lets -merge -useContext -underBinder +onlyGivenNames x1
  refine Keeps.cut (n := 14115161771) (s := s) x1 ?_ ?_
  · subst x1
    refine Keeps.step ?_ (keeps_commits _ _) rfl
    exact Keeps.rfl
  intro _
  try clear_value x1
  extract_lets -merge -useContext -underBinder +onlyGivenNames x2
  refine Keeps.cut (n := 14115161771) (s := s) x2 ?_ ?_
  · subst x2
    refine Keeps.step ?_ bump_keeps rfl
    refine Keeps.step ?_ noteCommit_keeps rfl
    assumption
  intro _
  try clear_value x2
  refine Keeps.step ?_ afterPrepare_keeps rfl
  refine Keeps.step ?_ replyCommit_keeps rfl
  assumption

theorem applyModule_keeps {s k v} :
    Keeps 12888145507 s (applyModule s k v) := by
  delta applyModule
  refine keeps_ite (fun x => x) ?_ ?_
  · exact Keeps.rfl
  extract_lets -merge -useContext -underBinder +onlyGivenNames x1
  refine Keeps.cut (n := 12888145507) (s := s) x1 ?_ ?_
  · subst x1
    refine Keeps.step ?_ setValue_keeps rfl
    exact Keeps.rfl
  intro _
  try clear_value x1
  refine keeps_ite (fun x => x) ?_ ?_
  · refine Keeps.step ?_ applyPortEnable_keeps rfl
    assumption
  refine keeps_ite (fun x => x) ?_ ?_
  · refine Keeps.step ?_ retryUnplaced_keeps rfl
    assumption
  assumption

theorem freezeDraining_keeps {s k} :
    Keeps 1024 s (freezeDraining s k) := by
  delta freezeDraining
  refine keeps_foldl (fun x => x) _ _ ?_ ?_
  · exact Keeps.rfl
  intro _ _ _
  refine keeps_ite (fun x => x) ?_ ?_
  · assumption
  refine Keeps.step ?_ updPart_keeps rfl
  assumption

theorem applyIdle_keeps {s k v} :
    Keeps 1027 s (applyIdle s k v) := by
  delta applyIdle
  refine keeps_ite (fun x => x) ?_ ?_
  · exact Keeps.rfl
  split
  · refine keeps_ite (fun x => x) ?_ ?_
    · exact Keeps.rfl
    refine Keeps.step ?_ setValue_keeps rfl
    exact Keeps.rfl
  refine keeps_ite (fun x => x) ?_ ?_
  · refine Keeps.step ?_ setTargets_keeps rfl
    exact Keeps.rfl
  refine Keeps.step ?_ freezeDraining_keeps rfl
  exact Keeps.rfl

theorem dropStaged_keeps {s c} :
    Keeps 134217728 s (dropStaged s c) := by
  delta dropStaged
  refine Keeps.step ?_ updMgmt_keeps rfl
  exact Keeps.rfl

theorem commitPoint_keeps {s c} :
    Keeps 16264822507 s (commitPoint s c) := by
  delta commitPoint
  extract_lets -merge -useContext -underBinder +onlyGivenNames x1
  refine Keeps.cut (n := 16264822507) (s := s) x1 ?_ ?_
  · subst x1
    refine Keeps.step ?_ (keeps_stored _ _) rfl
    exact Keeps.rfl
  intro _
  try clear_value x1
  extract_lets -merge -useContext -underBinder +onlyGivenNames x2
  try clear_value x2
  extract_lets -merge -useContext -underBinder +onlyGivenNames x3
  refine Keeps.cut (n := 16264822507) (s := s) x3 ?_ ?_
  · subst x3
    refine keeps_foldl (fun x => x) _ _ ?_ ?_
    · assumption
    intro _ _ _
    refine Keeps.step ?_ applyModule_keeps rfl
    assumption
  intro _
  try clear_value x3
  extract_lets -merge -useContext -underBinder +onlyGivenNames x4
  refine Keeps.cut (n := 16264822507) (s := s) x4 ?_ ?_
  · subst x4
    refine keeps_foldl (fun x => x) _ _ ?_ ?_
    · assumption
    intro _ _ _
    refine Keeps.step ?_ applyIdle_keeps rfl
    assumption
  intro _
  try clear_value x4
  extract_lets -merge -useContext -underBinder +onlyGivenNames x5
  refine Keeps.cut (n := 16264822507) (s := s) x5 ?_ ?_
  · subst x5
    refine Keeps.step ?_ dropStaged_keeps rfl
    assumption
  intro _
  try clear_value x5
  extract_lets -merge -useContext -underBinder +onlyGivenNames x6
  refine Keeps.cut (n := 16264822507) (s := s) x6 ?_ ?_
  · subst x6
    refine Keeps.step ?_ (keeps_commits _ _) rfl
    assumption
  intro _
  try clear_value x6
  extract_lets -merge -useContext -underBinder +onlyGivenNames x7
  refine Keeps.cut (n := 16264822507) (s := s) x7 ?_ ?_
  · subst x7
    refine keeps_ite (fun x => x) ?_ ?_
    · refine Keeps.step ?_ finishCommit_keeps rfl
      assumption
    refine Keeps.step ?_ countSwitching_keeps rfl
    refine Keeps.step ?_ noteCommit_keeps rfl
    assumption
  intro _
  try clear_value x7
  refine Keeps.step ?_ afterPrepare_keeps rfl
  refine Keeps.step ?_ replyCommit_keeps rfl
  assumption

theorem effPrepareComplete_keeps {s} :
    Keeps 16264822507 s (effPrepareComplete s) := by
  delta effPrepareComplete
  split
  · exact Keeps.rfl
  split
  · refine Keeps.step ?_ rollBack_keeps rfl
    exact Keeps.rfl
  refine Keeps.step ?_ commitPoint_keeps rfl
  exact Keeps.rfl

theorem effPrepareTimeout_keeps {s key part} :
    Keeps 14115161771 s (effPrepareTimeout s key part) := by
  delta effPrepareTimeout
  split
  · exact Keeps.rfl
  refine Keeps.step ?_ rollBack_keeps rfl
  exact Keeps.rfl

theorem execCommit_keeps {rq s t} (h : execCommit rq s = .next t) :
    Keeps 5519704065 s t := by
  delta execCommit at h
  refine keeps_next ?_ h
  refine Keeps.step ?_ effCommit_keeps rfl
  exact Keeps.rfl

theorem execPrepareComplete_keeps {s t} (h : execPrepareComplete s = .next t) :
    Keeps 16264822507 s t := by
  delta execPrepareComplete at h
  refine keeps_next ?_ h
  refine Keeps.step ?_ effPrepareComplete_keeps rfl
  exact Keeps.rfl

theorem execPrepareTimeout_keeps {index sub p s t} (h : execPrepareTimeout index sub p s = .next t) :
    Keeps 14115161771 s t := by
  delta execPrepareTimeout at h
  refine keeps_next ?_ h
  refine Keeps.step ?_ effPrepareTimeout_keeps rfl
  exact Keeps.rfl

end Sys2Proof.Machine
end

