-- ==== Sys2Proof/Laws/KeepsSecurity.lean ====
section
/-! SUPPORT. What the operations of Machine/Security.lean leave as it was. -/

namespace Sys2Proof.Machine

theorem runWhole_keeps {n : Nat} {s0 : State} {rq k v act s} (h : Keeps n s0 s)
    (hf : ∀ s t, Keeps n s0 s → act s = .ok t → Keeps n s0 t) (hn : 134217728 ||| n = n) :
    Keeps n s0 (runWhole rq k v act s).1 := by
  delta runWhole
  extract_lets -underBinder +onlyGivenNames m
  split
  · exact h
  · extract_lets u
    have hu : Keeps n s0 u := Keeps.step h (setMgmt_keeps.mono hn) (Nat.or_self n)
    refine keeps_ite (fun (x : State × _) => x.1) hu ?_
    refine keeps_ite (fun (x : State × _) => x.1) hu ?_
    split
    · exact hu
    next h2 => exact hf _ _ hu h2

theorem wholeWrite_keeps {n : Nat} {s0 : State} {s rq k v act} (h : Keeps n s0 s)
    (hf : ∀ s t, Keeps n s0 s → act s = .ok t → Keeps n s0 t) (hn : 4445962241 ||| n = n) :
    Keeps n s0 (wholeWrite s rq k v act) :=
  request_keeps h (fun _ hs => runWhole_keeps hs hf (keeps_lor rfl hn)) hn

theorem identitySign_keeps {s digest} :
    Keeps 8589934592 s (identitySign s digest).2 := by
  delta identitySign
  extract_lets -merge -useContext -underBinder +onlyGivenNames x1
  refine Keeps.cut (n := 8589934592) (s := s) x1.2 ?_ ?_
  · subst x1
    refine Keeps.step ?_ drawFree_keeps rfl
    exact Keeps.rfl
  intro _
  try clear_value x1
  try dsimp -zeta only
  assumption

theorem formReport_keeps {nonce s t} (h : formReport nonce s = .ok t) :
    Keeps 9126805504 s t := by
  delta formReport at h
  extract_lets -merge -useContext -underBinder +onlyGivenNames x1 at h
  try clear_value x1
  extract_lets -merge -useContext -underBinder +onlyGivenNames x2 at h
  refine Keeps.cut (n := 9126805504) (s := s) x2.2 ?_ ?_
  · subst x2
    refine Keeps.step ?_ identitySign_keeps rfl
    exact Keeps.rfl
  intro _
  try clear_value x2
  refine keeps_ok ?_ h
  extract_lets -merge -useContext -underBinder +onlyGivenNames x3
  refine Keeps.cut (n := 9126805504) (s := s) x3 ?_ ?_
  · subst x3
    assumption
  intro _
  skip
  refine Keeps.step ?_ (keeps_security _ _) rfl
  assumption

theorem setFwSlot_keeps {s i x} :
    Keeps 536870912 s (setFwSlot s i x) := by
  delta setFwSlot
  refine Keeps.step ?_ (keeps_security _ _) rfl
  exact Keeps.rfl

theorem takeImage_keeps {g s t} (h : takeImage g s = .ok t) :
    Keeps 537919489 s t := by
  delta takeImage at h
  extract_lets -merge -useContext -underBinder +onlyGivenNames x1 at h
  refine Keeps.cut (n := 537919489) (s := s) x1 ?_ ?_
  · subst x1
    refine keeps_ite (fun x => x) ?_ ?_
    · exact Keeps.rfl
    refine Keeps.step ?_ bump_keeps rfl
    exact Keeps.rfl
  intro _
  try clear_value x1
  extract_lets -merge -useContext -underBinder +onlyGivenNames x2 at h
  try clear_value x2
  extract_lets -merge -useContext -underBinder +onlyGivenNames x3 at h
  refine Keeps.cut (n := 537919489) (s := s) x3 ?_ ?_
  · subst x3
    refine Keeps.step ?_ setFwSlot_keeps rfl
    assumption
  intro _
  try clear_value x3
  refine keeps_ok ?_ h
  refine keeps_ite (fun x => x) ?_ ?_
  · refine Keeps.step ?_ (keeps_plant _ _) rfl
    assumption
  assumption

theorem activateSlot_keeps {slot s t} (h : activateSlot slot s = .ok t) :
    Keeps 536870912 s t := by
  delta activateSlot at h
  refine keeps_ok ?_ h
  refine Keeps.step ?_ (keeps_security _ _) rfl
  exact Keeps.rfl

theorem advanceVersion_keeps {s t} (h : advanceVersion s = .ok t) :
    Keeps 1 s t := by
  delta advanceVersion at h
  extract_lets -merge -useContext -underBinder +onlyGivenNames x1 at h
  try clear_value x1
  extract_lets -merge -useContext -underBinder +onlyGivenNames x2 at h
  try clear_value x2
  split at h
  · exact absurd h (fun k => by cases k)
  refine keeps_ok ?_ h
  refine Keeps.step ?_ odSet_keeps rfl
  exact Keeps.rfl

theorem requestTransition_keeps {token signatureOk s t} (h : requestTransition token signatureOk s = .ok t) :
    Keeps 536870912 s t := by
  delta requestTransition at h
  split at h
  · exact absurd h (fun k => by cases k)
  split at h
  · exact absurd h (fun k => by cases k)
  refine keeps_ok ?_ h
  refine Keeps.step ?_ (keeps_security _ _) rfl
  exact Keeps.rfl

theorem sendTo_keeps {s t_ msg waiting} :
    Keeps 4311744512 s (sendTo s t_ msg waiting) := by
  delta sendTo
  extract_lets -merge -useContext -underBinder +onlyGivenNames x1
  refine Keeps.cut (n := 4311744512) (s := s) x1 ?_ ?_
  · subst x1
    refine Keeps.step ?_ emit_keeps rfl
    exact Keeps.rfl
  intro _
  try clear_value x1
  split
  · refine Keeps.step ?_ emit_keeps rfl
    refine Keeps.step ?_ updFn_keeps rfl
    assumption
  assumption

theorem refuseHandshake_keeps {s t_ status} :
    Keeps 4311744513 s (refuseHandshake s t_ status) := by
  delta refuseHandshake
  refine Keeps.step ?_ sendTo_keeps rfl
  refine Keeps.step ?_ bump_keeps rfl
  exact Keeps.rfl

theorem refuseAuth_keeps {s t_} :
    Keeps 4311744513 s (refuseAuth s t_) := by
  delta refuseAuth
  refine Keeps.step ?_ refuseHandshake_keeps rfl
  refine Keeps.step ?_ bump_keeps rfl
  exact Keeps.rfl

theorem answerOrder1_keeps {s t_ order1 kemKey usage} :
    Keeps 13304332288 s (answerOrder1 s t_ order1 kemKey usage) := by
  delta answerOrder1
  extract_lets -merge -useContext -underBinder +onlyGivenNames x1
  refine Keeps.cut (n := 13304332288) (s := s) x1.2 ?_ ?_
  · subst x1
    refine Keeps.step ?_ drawBytes_keeps rfl
    exact Keeps.rfl
  intro _
  try clear_value x1
  extract_lets -merge -useContext -underBinder +onlyGivenNames x2
  refine Keeps.cut (n := 13304332288) (s := s) x2.2 ?_ ?_
  · subst x2
    refine Keeps.step ?_ drawFree_keeps rfl
    assumption
  intro _
  try clear_value x2
  extract_lets -merge -useContext -underBinder +onlyGivenNames x3
  try clear_value x3
  extract_lets -merge -useContext -underBinder +onlyGivenNames x4
  refine Keeps.cut (n := 13304332288) (s := s) x4.2 ?_ ?_
  · subst x4
    refine Keeps.step ?_ identitySign_keeps rfl
    assumption
  intro _
  try clear_value x4
  extract_lets -merge -useContext -underBinder +onlyGivenNames x5
  refine Keeps.cut (n := 13304332288) (s := s) x5 ?_ ?_
  · subst x5
    assumption
  intro _
  try clear_value x5
  extract_lets -merge -useContext -underBinder +onlyGivenNames x6
  try clear_value x6
  extract_lets -merge -useContext -underBinder +onlyGivenNames x7
  try clear_value x7
  extract_lets -merge -useContext -underBinder +onlyGivenNames x8
  refine Keeps.cut (n := 13304332288) (s := s) x8 ?_ ?_
  · subst x8
    refine Keeps.step ?_ setMgmt_keeps rfl
    refine Keeps.step ?_ (keeps_nextMgmt _ _) rfl
    assumption
  intro _
  try clear_value x8
  refine Keeps.step ?_ sendTo_keeps rfl
  assumption

theorem effOrder1_keeps {s t_ nonce kemKey keyId complete overRate} :
    Keeps 13304332289 s (effOrder1 s t_ nonce kemKey keyId complete overRate) := by
  delta effOrder1
  refine keeps_ite (fun x => x) ?_ ?_
  · exact Keeps.rfl
  refine keeps_ite (fun x => x) ?_ ?_
  · refine Keeps.step ?_ refuseHandshake_keeps rfl
    exact Keeps.rfl
  refine keeps_ite (fun x => x) ?_ ?_
  · refine Keeps.step ?_ refuseHandshake_keeps rfl
    exact Keeps.rfl
  split
  · refine Keeps.step ?_ refuseAuth_keeps rfl
    exact Keeps.rfl
  refine Keeps.step ?_ answerOrder1_keeps rfl
  exact Keeps.rfl

theorem effOrder3_keeps {s t_ i signed signatureOk complete} :
    Keeps 4445962241 s (effOrder3 s t_ i signed signatureOk complete) := by
  delta effOrder3
  extract_lets -merge -useContext -underBinder +onlyGivenNames x1
  try clear_value x1
  refine keeps_ite (fun x => x) ?_ ?_
  · exact Keeps.rfl
  refine keeps_ite (fun x => x) ?_ ?_
  · refine Keeps.step ?_ bump_keeps rfl
    exact Keeps.rfl
  refine keeps_ite (fun x => x) ?_ ?_
  · refine Keeps.step ?_ bump_keeps rfl
    refine Keeps.step ?_ freeMailbox_keeps rfl
    refine Keeps.step ?_ setMgmt_keeps rfl
    exact Keeps.rfl
  refine Keeps.step ?_ refuseAuth_keeps rfl
  refine Keeps.step ?_ dropMgmt_keeps rfl
  exact Keeps.rfl

theorem effHandshakeTimeout_keeps {s i} :
    Keeps 150994944 s (effHandshakeTimeout s i) := by
  delta effHandshakeTimeout
  refine keeps_ite (fun x => x) ?_ ?_
  · refine Keeps.step ?_ dropMgmt_keeps rfl
    exact Keeps.rfl
  exact Keeps.rfl

theorem execAttest_keeps {rq nonce s t} (h : execAttest rq nonce s = .next t) :
    Keeps 13572767745 s t := by
  delta execAttest at h
  refine keeps_next ?_ h
  refine wholeWrite_keeps ?_ ?_ rfl
  · exact Keeps.rfl
  intro _ _ _ h
  refine Keeps.step ?_ (formReport_keeps h) rfl
  assumption

theorem execLcChallenge_keeps {rq s t} (h : execLcChallenge rq s = .next t) :
    Keeps 13572767745 s t := by
  delta execLcChallenge at h
  refine keeps_next ?_ h
  refine Keeps.step ?_ effSegmentRead_keeps rfl
  exact Keeps.rfl

theorem execLcRequest_keeps {rq token signatureOk s t} (h : execLcRequest rq token signatureOk s = .next t) :
    Keeps 6072532321 s t := by
  delta execLcRequest at h
  refine keeps_next ?_ h
  refine Keeps.step ?_ beginTransition_keeps rfl
  refine wholeWrite_keeps ?_ ?_ rfl
  · exact Keeps.rfl
  intro _ _ _ h
  refine Keeps.step ?_ (requestTransition_keeps h) rfl
  assumption

theorem execFwImage_keeps {rq image s t} (h : execFwImage rq image s = .next t) :
    Keeps 6072532321 s t := by
  delta execFwImage at h
  refine keeps_next ?_ h
  refine Keeps.step ?_ takeReset_keeps rfl
  refine wholeWrite_keeps ?_ ?_ rfl
  · exact Keeps.rfl
  intro _ _ _ h
  refine Keeps.step ?_ (takeImage_keeps h) rfl
  assumption

theorem execFwActivate_keeps {rq slot s t} (h : execFwActivate rq slot s = .next t) :
    Keeps 4982833153 s t := by
  delta execFwActivate at h
  refine keeps_next ?_ h
  refine cmdWrite_keeps ?_ ?_ rfl
  · exact Keeps.rfl
  intro _ _ _ h
  refine Keeps.step ?_ (activateSlot_keeps h) rfl
  assumption

theorem execAdvanceSecurityVersion_keeps {rq value s t} (h : execAdvanceSecurityVersion rq value s = .next t) :
    Keeps 4445962241 s t := by
  delta execAdvanceSecurityVersion at h
  refine keeps_next ?_ h
  refine cmdWrite_keeps ?_ ?_ rfl
  · exact Keeps.rfl
  intro _ _ _ h
  refine onOne_keeps ?_ ?_ rfl h
  · assumption
  intro _ _ _ h
  refine Keeps.step ?_ (advanceVersion_keeps h) rfl
  assumption

theorem execHandshakeOrder1_keeps {t_ y2 nonce kemKey keyId complete overRate s t} (h : execHandshakeOrder1 t_ y2 nonce kemKey keyId complete overRate s = .next t) :
    Keeps 13304332289 s t := by
  delta execHandshakeOrder1 at h
  refine keeps_next ?_ h
  refine Keeps.step ?_ effOrder1_keeps rfl
  exact Keeps.rfl

theorem execHandshakeOrder3_keeps {t_ session signed signatureOk complete s t} (h : execHandshakeOrder3 t_ session signed signatureOk complete s = .next t) :
    Keeps 4445962241 s t := by
  delta execHandshakeOrder3 at h
  refine keeps_next ?_ h
  refine Keeps.step ?_ effOrder3_keeps rfl
  exact Keeps.rfl

theorem execHandshakeTimeout_keeps {session s t} (h : execHandshakeTimeout session s = .next t) :
    Keeps 150994944 s t := by
  delta execHandshakeTimeout at h
  refine keeps_next ?_ h
  refine Keeps.step ?_ effHandshakeTimeout_keeps rfl
  exact Keeps.rfl

end Sys2Proof.Machine
end

