-- ==== Sys2Proof/Laws/KeepsPcie.lean ====
section
/-! SUPPORT. What the operations of Machine/Pcie.lean leave as it was. -/

namespace Sys2Proof.Machine

theorem setLink_keeps {s port new} :
    Keeps 8404993 s (setLink s port new) := by
  delta setLink
  extract_lets -merge -useContext -underBinder +onlyGivenNames x1
  try clear_value x1
  refine keeps_ite (fun x => x) ?_ ?_
  · exact Keeps.rfl
  refine Keeps.step ?_ recordEvent_keeps rfl
  refine Keeps.step ?_ updPort_keeps rfl
  exact Keeps.rfl

theorem loseHost_keeps {s sess} :
    Keeps 8474177 s (loseHost s sess) := by
  delta loseHost
  extract_lets -merge -useContext -underBinder +onlyGivenNames x1
  try clear_value x1
  refine keeps_ite (fun x => x) ?_ ?_
  · exact Keeps.rfl
  refine keeps_ite (fun x => x) ?_ ?_
  · refine Keeps.step ?_ dropSession_keeps rfl
    exact Keeps.rfl
  refine Keeps.step ?_ updSess_keeps rfl
  refine Keeps.step ?_ dropReserved_keeps rfl
  refine Keeps.step ?_ dropChildren_keeps rfl
  exact Keeps.rfl

theorem loseOwner_keeps {s set} :
    Keeps 12884999713 s (loseOwner s set) := by
  delta loseOwner
  extract_lets -merge -useContext -underBinder +onlyGivenNames x1
  refine Keeps.cut (n := 12884999713) (s := s) x1 ?_ ?_
  · subst x1
    refine Keeps.step ?_ updWset_keeps rfl
    exact Keeps.rfl
  intro _
  try clear_value x1
  split
  · refine Keeps.step ?_ retryUnplaced_keeps rfl
    refine Keeps.step ?_ failVerify_keeps rfl
    assumption
  · refine Keeps.step ?_ failLoad_keeps rfl
    assumption
  · refine Keeps.step ?_ updWset_keeps rfl
    assumption
  · refine Keeps.step ?_ updWset_keeps rfl
    assumption
  · assumption
  assumption

theorem losePaging_keeps {s sess} :
    Keeps 15945 s (losePaging s sess) := by
  delta losePaging
  extract_lets -merge -useContext -underBinder +onlyGivenNames x1
  refine Keeps.cut (n := 15945) (s := s) x1 ?_ ?_
  · subst x1
    split
    · refine Keeps.step ?_ effEvictDone_keeps rfl
      exact Keeps.rfl
    · refine Keeps.step ?_ effRestoreDone_keeps rfl
      exact Keeps.rfl
    exact Keeps.rfl
  intro _
  try clear_value x1
  refine keeps_ite (fun x => x) ?_ ?_
  · refine Keeps.step ?_ endSession_keeps rfl
    assumption
  assumption

theorem loseWindows_keeps {s port} :
    Keeps 32329 s (loseWindows s port) := by
  delta loseWindows
  refine keeps_foldl (fun x => x) _ _ ?_ ?_
  · exact Keeps.rfl
  intro _ _ _
  extract_lets -merge -useContext -underBinder +onlyGivenNames x1
  try clear_value x1
  extract_lets -merge -useContext -underBinder +onlyGivenNames x2
  refine Keeps.cut (n := 32329) (s := s) x2 ?_ ?_
  · subst x2
    refine keeps_ite (fun x => x) ?_ ?_
    · refine keeps_foldl (fun x => x) _ _ ?_ ?_
      · assumption
      intro _ _ _
      refine Keeps.step ?_ losePaging_keeps rfl
      assumption
    assumption
  intro _
  try clear_value x2
  refine keeps_ite (fun x => x) ?_ ?_
  · refine Keeps.step ?_ raiseFault_keeps rfl
    assumption
  assumption

theorem loseRings_keeps {s fns hand} :
    Keeps 12288 s (loseRings s fns hand) := by
  delta loseRings
  extract_lets -merge -useContext -underBinder +onlyGivenNames x1
  refine Keeps.cut (n := 12288) (s := s) x1 ?_ ?_
  · subst x1
    refine keeps_foldl (fun x => x) _ _ ?_ ?_
    · exact Keeps.rfl
    intro _ _ _
    refine keeps_ite (fun x => x) ?_ ?_
    · refine Keeps.step ?_ updSub_keeps rfl
      assumption
    refine Keeps.step ?_ setSub_keeps rfl
    assumption
  intro _
  try clear_value x1
  refine keeps_foldl (fun x => x) _ _ ?_ ?_
  · assumption
  intro _ _ _
  refine Keeps.step ?_ setComp_keeps rfl
  assumption

theorem loseFunctions_keeps {s fns hand} :
    Keeps 13044383329 s (loseFunctions s fns hand) := by
  delta loseFunctions
  extract_lets -merge -useContext -underBinder +onlyGivenNames x1
  try clear_value x1
  extract_lets -merge -useContext -underBinder +onlyGivenNames x2
  try clear_value x2
  extract_lets -merge -useContext -underBinder +onlyGivenNames x3
  refine Keeps.cut (n := 13044383329) (s := s) x3 ?_ ?_
  · subst x3
    refine keeps_foldl (fun x => x) _ _ ?_ ?_
    · exact Keeps.rfl
    intro _ _ _
    refine Keeps.step ?_ loseHost_keeps rfl
    assumption
  intro _
  try clear_value x3
  extract_lets -merge -useContext -underBinder +onlyGivenNames x4
  try clear_value x4
  extract_lets -merge -useContext -underBinder +onlyGivenNames x5
  refine Keeps.cut (n := 13044383329) (s := s) x5 ?_ ?_
  · subst x5
    refine keeps_foldl (fun x => x) _ _ ?_ ?_
    · assumption
    intro _ _ _
    refine Keeps.step ?_ loseOwner_keeps rfl
    assumption
  intro _
  try clear_value x5
  extract_lets -merge -useContext -underBinder +onlyGivenNames x6
  refine Keeps.cut (n := 13044383329) (s := s) x6 ?_ ?_
  · subst x6
    refine Keeps.step ?_ loseRings_keeps rfl
    refine Keeps.step ?_ dropUnowned_keeps rfl
    assumption
  intro _
  try clear_value x6
  extract_lets -merge -useContext -underBinder +onlyGivenNames x7
  refine Keeps.cut (n := 13044383329) (s := s) x7 ?_ ?_
  · subst x7
    refine keeps_foldl (fun x => x) _ _ ?_ ?_
    · assumption
    intro _ _ _
    refine Keeps.step ?_ dropMgmt_keeps rfl
    assumption
  intro _
  try clear_value x7
  refine keeps_foldl (fun x => x) _ _ ?_ ?_
  · assumption
  intro _ _ _
  refine Keeps.step ?_ updFn_keeps rfl
  assumption

theorem losePort_keeps {s port new twinUp} :
    Keeps 13048577641 s (losePort s port new twinUp) := by
  delta losePort
  extract_lets -merge -useContext -underBinder +onlyGivenNames x1
  try clear_value x1
  extract_lets -merge -useContext -underBinder +onlyGivenNames x2
  try clear_value x2
  extract_lets -merge -useContext -underBinder +onlyGivenNames x3
  refine Keeps.cut (n := 13048577641) (s := s) x3 ?_ ?_
  · subst x3
    refine Keeps.step ?_ loseWindows_keeps rfl
    refine Keeps.step ?_ loseFunctions_keeps rfl
    exact Keeps.rfl
  intro _
  try clear_value x3
  extract_lets -merge -useContext -underBinder +onlyGivenNames x4
  refine Keeps.cut (n := 13048577641) (s := s) x4 ?_ ?_
  · subst x4
    refine keeps_foldl (fun x => x) _ _ ?_ ?_
    · assumption
    intro _ _ _
    refine Keeps.step ?_ sendFrame_keeps rfl
    assumption
  intro _
  try clear_value x4
  extract_lets -merge -useContext -underBinder +onlyGivenNames x5
  skip
  extract_lets -merge -useContext -underBinder +onlyGivenNames x6
  refine Keeps.cut (n := 13048577641) (s := s) x6 ?_ ?_
  · subst x6
    refine Keeps.step ?_ (keeps_pair _ _) rfl
    assumption
  intro _
  try clear_value x6
  extract_lets -merge -useContext -underBinder +onlyGivenNames x7
  refine Keeps.cut (n := 13048577641) (s := s) x7 ?_ ?_
  · subst x7
    refine Keeps.step ?_ updPort_keeps rfl
    assumption
  intro _
  try clear_value x7
  refine Keeps.step ?_ releasePorts_keeps rfl
  refine Keeps.step ?_ setLink_keeps rfl
  refine Keeps.step ?_ bump_keeps rfl
  assumption

theorem effPerst_keeps {s port widthNs overLimit twinUp} :
    Keeps 13049626217 s (effPerst s port widthNs overLimit twinUp) := by
  delta effPerst
  refine keeps_ite (fun x => x) ?_ ?_
  · refine Keeps.step ?_ bump_keeps rfl
    exact Keeps.rfl
  extract_lets -merge -useContext -underBinder +onlyGivenNames x1
  refine Keeps.cut (n := 13049626217) (s := s) x1 ?_ ?_
  · subst x1
    refine Keeps.step ?_ odBit_keeps rfl
    refine Keeps.step ?_ updPort_keeps rfl
    exact Keeps.rfl
  intro _
  try clear_value x1
  extract_lets -merge -useContext -underBinder +onlyGivenNames x2
  refine Keeps.cut (n := 13049626217) (s := s) x2 ?_ ?_
  · subst x2
    refine Keeps.step ?_ odBit_keeps rfl
    refine Keeps.step ?_ updPort_keeps rfl
    assumption
  intro _
  try clear_value x2
  extract_lets -merge -useContext -underBinder +onlyGivenNames x3
  refine Keeps.cut (n := 13049626217) (s := s) x3 ?_ ?_
  · subst x3
    refine keeps_ite (fun x => x) ?_ ?_
    · refine Keeps.step ?_ reportInput_keeps rfl
      refine Keeps.step ?_ bump_keeps rfl
      assumption
    assumption
  intro _
  try clear_value x3
  refine keeps_ite (fun x => x) ?_ ?_
  · refine Keeps.step ?_ setLink_keeps rfl
    assumption
  refine Keeps.step ?_ losePort_keeps rfl
  assumption

theorem effPerstEnd_keeps {s port} :
    Keeps 8404993 s (effPerstEnd s port) := by
  delta effPerstEnd
  refine keeps_ite (fun x => x) ?_ ?_
  · exact Keeps.rfl
  refine Keeps.step ?_ trainPort_keeps rfl
  refine Keeps.step ?_ odBit_keeps rfl
  refine Keeps.step ?_ updPort_keeps rfl
  exact Keeps.rfl

theorem effLinkUp_keeps {s port rate width flit} :
    Keeps 8404993 s (effLinkUp s port rate width flit) := by
  delta effLinkUp
  extract_lets -merge -useContext -underBinder +onlyGivenNames x1
  try clear_value x1
  extract_lets -merge -useContext -underBinder +onlyGivenNames x2
  try clear_value x2
  extract_lets -merge -useContext -underBinder +onlyGivenNames x3
  refine Keeps.cut (n := 8404993) (s := s) x3 ?_ ?_
  · subst x3
    refine keeps_ite (fun x => x) ?_ ?_
    · refine Keeps.step ?_ trainPort_keeps rfl
      exact Keeps.rfl
    exact Keeps.rfl
  intro _
  try clear_value x3
  refine keeps_ite (fun x => x) ?_ ?_
  · refine keeps_ite (fun x => x) ?_ ?_
    · refine Keeps.step ?_ setLink_keeps rfl
      assumption
    refine Keeps.step ?_ setLink_keeps rfl
    refine Keeps.step ?_ updPort_keeps rfl
    assumption
  refine keeps_ite (fun x => x) ?_ ?_
  · refine Keeps.step ?_ updPort_keeps rfl
    assumption
  assumption

theorem effLinkDown_keeps {s port heldNs} :
    Keeps 8388609 s (effLinkDown s port heldNs) := by
  delta effLinkDown
  extract_lets -merge -useContext -underBinder +onlyGivenNames x1
  try clear_value x1
  refine keeps_ite (fun x => x) ?_ ?_
  · refine Keeps.step ?_ bump_keeps rfl
    refine Keeps.step ?_ updPort_keeps rfl
    exact Keeps.rfl
  exact Keeps.rfl

theorem effLinkLost_keeps {s port twinUp} :
    Keeps 13048577641 s (effLinkLost s port twinUp) := by
  delta effLinkLost
  refine keeps_ite (fun x => x) ?_ ?_
  · refine Keeps.step ?_ losePort_keeps rfl
    exact Keeps.rfl
  exact Keeps.rfl

theorem effFlr_keeps {s fn} :
    Keeps 13044383329 s (effFlr s fn) := by
  delta effFlr
  extract_lets -merge -useContext -underBinder +onlyGivenNames x1
  refine Keeps.cut (n := 13044383329) (s := s) x1 ?_ ?_
  · subst x1
    refine Keeps.step ?_ loseFunctions_keeps rfl
    exact Keeps.rfl
  intro _
  try clear_value x1
  extract_lets -merge -useContext -underBinder +onlyGivenNames x2
  try clear_value x2
  extract_lets -merge -useContext -underBinder +onlyGivenNames x3
  refine Keeps.cut (n := 13044383329) (s := s) x3 ?_ ?_
  · subst x3
    refine Keeps.step ?_ recordEvent_keeps rfl
    refine Keeps.step ?_ bump_keeps rfl
    assumption
  intro _
  try clear_value x3
  refine Keeps.step ?_ releasePorts_keeps rfl
  refine keeps_ite (fun x => x) ?_ ?_
  · refine Keeps.step ?_ updPort_keeps rfl
    assumption
  assumption

theorem effCorrectable_keeps {s port errors} :
    Keeps 8404993 s (effCorrectable s port errors) := by
  delta effCorrectable
  extract_lets -merge -useContext -underBinder +onlyGivenNames x1
  refine Keeps.cut (n := 8404993) (s := s) x1 ?_ ?_
  · subst x1
    refine Keeps.step ?_ updPort_keeps rfl
    exact Keeps.rfl
  intro _
  try clear_value x1
  extract_lets -merge -useContext -underBinder +onlyGivenNames x2
  try clear_value x2
  refine keeps_ite (fun x => x) ?_ ?_
  · assumption
  refine keeps_ite (fun x => x) ?_ ?_
  · refine keeps_ite (fun x => x) ?_ ?_
    · assumption
    refine Keeps.step ?_ recordEvent_keeps rfl
    refine Keeps.step ?_ updPort_keeps rfl
    assumption
  refine Keeps.step ?_ setLink_keeps rfl
  assumption

theorem retrainNamedPort_keeps {port s t} (h : retrainNamedPort port s = .ok t) :
    Keeps 8404993 s t := by
  delta retrainNamedPort at h
  split at h
  · exact absurd h (fun k => by cases k)
  refine keeps_ok ?_ h
  refine keeps_ite (fun x => x) ?_ ?_
  · refine Keeps.step ?_ setLink_keeps rfl
    exact Keeps.rfl
  exact Keeps.rfl

theorem effRetrainEnd_keeps {s port ok heldNs} :
    Keeps 8404993 s (effRetrainEnd s port ok heldNs) := by
  delta effRetrainEnd
  refine keeps_ite (fun x => x) ?_ ?_
  · exact Keeps.rfl
  extract_lets -merge -useContext -underBinder +onlyGivenNames x1
  refine Keeps.cut (n := 8404993) (s := s) x1 ?_ ?_
  · subst x1
    refine Keeps.step ?_ bump_keeps rfl
    refine Keeps.step ?_ setLink_keeps rfl
    exact Keeps.rfl
  intro _
  try clear_value x1
  refine keeps_ite (fun x => x) ?_ ?_
  · assumption
  refine Keeps.step ?_ updPort_keeps rfl
  assumption

theorem effConfig_keeps {s port fn} :
    Keeps 4311744512 s (effConfig s port fn) := by
  delta effConfig
  extract_lets -merge -useContext -underBinder +onlyGivenNames x1
  try clear_value x1
  extract_lets -merge -useContext -underBinder +onlyGivenNames x2
  try clear_value x2
  refine keeps_ite (fun x => x) ?_ ?_
  · exact Keeps.rfl
  extract_lets -merge -useContext -underBinder +onlyGivenNames x3
  refine Keeps.cut (n := 4311744512) (s := s) x3 ?_ ?_
  · subst x3
    refine keeps_ite (fun x => x) ?_ ?_
    · refine Keeps.step ?_ updFn_keeps rfl
      exact Keeps.rfl
    exact Keeps.rfl
  intro _
  try clear_value x3
  refine Keeps.step ?_ emit_keeps rfl
  assumption

theorem atPcie_keeps {port next t} (h : atPcie port next = .next t) :
    Keeps 0 next t := by
  delta atPcie at h
  refine keeps_at ?_ h
  exact Keeps.rfl

theorem execPerstInput_keeps {port widthNs overLimit twinUp s t} (h : execPerstInput port widthNs overLimit twinUp s = .next t) :
    Keeps 13049626217 s t := by
  delta execPerstInput at h
  refine keeps_at ?_ h
  refine Keeps.step ?_ drainOn_keeps rfl
  refine Keeps.step ?_ effPerst_keeps rfl
  exact Keeps.rfl

theorem execPerstDeassertion_keeps {port s t} (h : execPerstDeassertion port s = .next t) :
    Keeps 8404993 s t := by
  delta execPerstDeassertion at h
  refine keeps_at ?_ h
  refine Keeps.step ?_ effPerstEnd_keeps rfl
  exact Keeps.rfl

theorem execLinkDownTimeout_keeps {port twinUp s t} (h : execLinkDownTimeout port twinUp s = .next t) :
    Keeps 13048577641 s t := by
  delta execLinkDownTimeout at h
  refine keeps_at ?_ h
  refine Keeps.step ?_ drainOn_keeps rfl
  refine Keeps.step ?_ effLinkLost_keeps rfl
  exact Keeps.rfl

theorem execDataLinkDown_keeps {port heldNs s t} (h : execDataLinkDown port heldNs s = .next t) :
    Keeps 8388609 s t := by
  delta execDataLinkDown at h
  refine keeps_at ?_ h
  refine Keeps.step ?_ effLinkDown_keeps rfl
  exact Keeps.rfl

theorem execFlr_keeps {fn s t} (h : execFlr fn s = .next t) :
    Keeps 13048577633 s t := by
  delta execFlr at h
  refine keeps_at ?_ h
  refine Keeps.step ?_ drainOn_keeps rfl
  refine Keeps.step ?_ effFlr_keeps rfl
  exact Keeps.rfl

theorem execPcieLinkUp_keeps {port rate width flit s t} (h : execPcieLinkUp port rate width flit s = .next t) :
    Keeps 8404993 s t := by
  delta execPcieLinkUp at h
  refine keeps_at ?_ h
  refine Keeps.step ?_ effLinkUp_keeps rfl
  exact Keeps.rfl

theorem execCorrectableThreshold_keeps {port errors s t} (h : execCorrectableThreshold port errors s = .next t) :
    Keeps 8404993 s t := by
  delta execCorrectableThreshold at h
  refine keeps_at ?_ h
  refine Keeps.step ?_ effCorrectable_keeps rfl
  exact Keeps.rfl

theorem execPcieRetrain_keeps {rq port s t} (h : execPcieRetrain rq port s = .next t) :
    Keeps 4454367233 s t := by
  delta execPcieRetrain at h
  refine keeps_next ?_ h
  refine cmdWrite_keeps ?_ ?_ rfl
  · exact Keeps.rfl
  intro _ _ _ h
  refine Keeps.step ?_ (retrainNamedPort_keeps h) rfl
  assumption

theorem execPcieRetrainComplete_keeps {port ok heldNs s t} (h : execPcieRetrainComplete port ok heldNs s = .next t) :
    Keeps 8404993 s t := by
  delta execPcieRetrainComplete at h
  refine keeps_at ?_ h
  refine Keeps.step ?_ effRetrainEnd_keeps rfl
  exact Keeps.rfl

theorem execConfigurationRequest_keeps {port fn s t} (h : execConfigurationRequest port fn s = .next t) :
    Keeps 4311744512 s t := by
  delta execConfigurationRequest at h
  split at h
  · refine keeps_at ?_ h
    refine Keeps.step ?_ effConfig_keeps rfl
    exact Keeps.rfl
  cases h

end Sys2Proof.Machine
end

