-- ==== Sys2Proof/Laws/KeepsBringUp.lean ====
section
/-! SUPPORT. What the operations of Machine/BringUp.lean leave as it was. -/

namespace Sys2Proof.Machine

/-- Everything but what fuses and flash hold may go. -/
theorem flashOnly_keeps {s} : Keeps 1879031807 s (flashOnly s) := by
  refine ⟨fun c => ?_, fun f hf => by cases f <;> first | exact rfl | cases hf⟩
  constructor <;> first | exact kvWfBy_filter _ c.od | rfl

theorem afterReset_keeps {s} :
    Keeps 1879031807 s (afterReset s) := by
  delta afterReset
  extract_lets -merge -useContext -underBinder +onlyGivenNames x1
  refine Keeps.cut (n := 1879031807) (s := s) x1 ?_ ?_
  · subst x1
    refine Keeps.step ?_ flashOnly_keeps rfl
    exact Keeps.rfl
  intro _
  try clear_value x1
  extract_lets -merge -useContext -underBinder +onlyGivenNames x2
  refine Keeps.cut (n := 1879031807) (s := s) x2 ?_ ?_
  · subst x2
    refine Keeps.step ?_ odSet_keeps rfl
    assumption
  intro _
  try clear_value x2
  extract_lets -merge -useContext -underBinder +onlyGivenNames x3
  refine Keeps.cut (n := 1879031807) (s := s) x3 ?_ ?_
  · subst x3
    refine Keeps.step ?_ odSet_keeps rfl
    assumption
  intro _
  try clear_value x3
  extract_lets -merge -useContext -underBinder +onlyGivenNames x4
  refine Keeps.cut (n := 1879031807) (s := s) x4 ?_ ?_
  · subst x4
    refine Keeps.step ?_ odSet_keeps rfl
    assumption
  intro _
  try clear_value x4
  extract_lets -merge -useContext -underBinder +onlyGivenNames x5
  refine Keeps.cut (n := 1879031807) (s := s) x5 ?_ ?_
  · subst x5
    refine Keeps.step ?_ odSet_keeps rfl
    assumption
  intro _
  try clear_value x5
  extract_lets -merge -useContext -underBinder +onlyGivenNames x6
  refine Keeps.cut (n := 1879031807) (s := s) x6 ?_ ?_
  · subst x6
    refine Keeps.step ?_ updPort_keeps rfl
    refine Keeps.step ?_ updPort_keeps rfl
    assumption
  intro _
  try clear_value x6
  refine Keeps.step ?_ (keeps_plant_pair _ _ _) rfl
  assumption

theorem finishTransition_keeps {s} :
    Keeps 2684370945 s (finishTransition s) := by
  delta finishTransition
  split
  · exact Keeps.rfl
  extract_lets -merge -useContext -underBinder +onlyGivenNames x1
  skip
  extract_lets -merge -useContext -underBinder +onlyGivenNames x2
  refine Keeps.cut (n := 2684370945) (s := s) x2 ?_ ?_
  · subst x2
    refine Keeps.step ?_ (keeps_security _ _) rfl
    exact Keeps.rfl
  intro _
  try clear_value x2
  refine keeps_ite (fun x => x) ?_ ?_
  · assumption
  extract_lets -merge -useContext -underBinder +onlyGivenNames x3
  try clear_value x3
  extract_lets -merge -useContext -underBinder +onlyGivenNames x4
  refine Keeps.cut (n := 2684370945) (s := s) x4 ?_ ?_
  · subst x4
    refine Keeps.step ?_ odSet_keeps rfl
    assumption
  intro _
  try clear_value x4
  refine Keeps.step ?_ (keeps_recorder_stored _ _ _) rfl
  assumption

theorem failBringUp_keeps {s order reason} :
    Keeps 9453569 s (failBringUp s order reason) := by
  delta failBringUp
  extract_lets -merge -useContext -underBinder +onlyGivenNames x1
  refine Keeps.cut (n := 9453569) (s := s) x1 ?_ ?_
  · subst x1
    refine Keeps.step ?_ recordEvent_keeps rfl
    exact Keeps.rfl
  intro _
  try clear_value x1
  extract_lets -merge -useContext -underBinder +onlyGivenNames x2
  refine Keeps.cut (n := 9453569) (s := s) x2 ?_ ?_
  · subst x2
    refine Keeps.step ?_ odSet_keeps rfl
    refine Keeps.step ?_ odSet_keeps rfl
    refine Keeps.step ?_ odSet_keeps rfl
    assumption
  intro _
  try clear_value x2
  extract_lets -merge -useContext -underBinder +onlyGivenNames x3
  skip
  extract_lets -merge -useContext -underBinder +onlyGivenNames x4
  refine Keeps.cut (n := 9453569) (s := s) x4 ?_ ?_
  · subst x4
    refine Keeps.step ?_ (keeps_plant _ _) rfl
    assumption
  intro _
  try clear_value x4
  refine Keeps.step ?_ trainPort_keeps rfl
  refine Keeps.step ?_ trainPort_keeps rfl
  assumption

theorem runSlot_keeps {s slot} :
    Keeps 537935873 s (runSlot s slot) := by
  delta runSlot
  extract_lets -merge -useContext -underBinder +onlyGivenNames x1
  try clear_value x1
  extract_lets -merge -useContext -underBinder +onlyGivenNames x2
  refine Keeps.cut (n := 537935873) (s := s) x2 ?_ ?_
  · subst x2
    refine Keeps.step ?_ odSet_keeps rfl
    refine Keeps.step ?_ odSet_keeps rfl
    exact Keeps.rfl
  intro _
  try clear_value x2
  refine keeps_ite (fun x => x) ?_ ?_
  · refine Keeps.step ?_ (keeps_security _ _) rfl
    assumption
  extract_lets -merge -useContext -underBinder +onlyGivenNames x3
  skip
  extract_lets -merge -useContext -underBinder +onlyGivenNames x4
  refine Keeps.cut (n := 537935873) (s := s) x4 ?_ ?_
  · subst x4
    refine Keeps.step ?_ (keeps_security _ _) rfl
    assumption
  intro _
  try clear_value x4
  refine Keeps.step ?_ replaceRequest_keeps rfl
  refine Keeps.step ?_ recordEvent_keeps rfl
  assumption

theorem noteLost_keeps {s c} :
    Keeps 16387 s (noteLost s c) := by
  delta noteLost
  refine Keeps.step ?_ bump_keeps rfl
  refine Keeps.step ?_ noteCommit_keeps rfl
  exact Keeps.rfl

theorem bootProcessors_keeps {s f} :
    Keeps 3759161347 s (bootProcessors s f) := by
  delta bootProcessors
  extract_lets -merge -useContext -underBinder +onlyGivenNames x1
  refine Keeps.cut (n := 3759161347) (s := s) x1 ?_ ?_
  · subst x1
    refine Keeps.step ?_ odSet_keeps rfl
    exact Keeps.rfl
  intro _
  try clear_value x1
  extract_lets -merge -useContext -underBinder +onlyGivenNames x2
  refine Keeps.cut (n := 3759161347) (s := s) x2 ?_ ?_
  · subst x2
    refine Keeps.step ?_ odSet_keeps rfl
    assumption
  intro _
  try clear_value x2
  extract_lets -merge -useContext -underBinder +onlyGivenNames x3
  refine Keeps.cut (n := 3759161347) (s := s) x3 ?_ ?_
  · subst x3
    refine Keeps.step ?_ newRun_keeps rfl
    refine Keeps.step ?_ finishTransition_keeps rfl
    assumption
  intro _
  try clear_value x3
  extract_lets -merge -useContext -underBinder +onlyGivenNames x4
  try clear_value x4
  extract_lets -merge -useContext -underBinder +onlyGivenNames x5
  refine Keeps.cut (n := 3759161347) (s := s) x5 ?_ ?_
  · subst x5
    refine keeps_foldl (fun x => x) _ _ ?_ ?_
    · refine Keeps.step ?_ (keeps_commits _ _) rfl
      assumption
    intro _ _ _
    refine Keeps.step ?_ noteLost_keeps rfl
    assumption
  intro _
  try clear_value x5
  extract_lets -merge -useContext -underBinder +onlyGivenNames x6
  refine Keeps.cut (n := 3759161347) (s := s) x6 ?_ ?_
  · subst x6
    refine keeps_ite (fun x => x) ?_ ?_
    · refine Keeps.step ?_ replaceRequest_keeps rfl
      assumption
    assumption
  intro _
  try clear_value x6
  refine keeps_foldl (fun x => x) _ _ ?_ ?_
  · assumption
  intro _ _ _
  refine Keeps.step ?_ setValue_keeps rfl
  assumption

theorem mergeYield_keeps {s f} :
    Keeps 1097729 s (mergeYield s f) := by
  delta mergeYield
  extract_lets -merge -useContext -underBinder +onlyGivenNames x1
  try clear_value x1
  extract_lets -merge -useContext -underBinder +onlyGivenNames x2
  try clear_value x2
  extract_lets -merge -useContext -underBinder +onlyGivenNames x3
  try clear_value x3
  extract_lets -merge -useContext -underBinder +onlyGivenNames x4
  try clear_value x4
  extract_lets -merge -useContext -underBinder +onlyGivenNames x5
  try clear_value x5
  extract_lets -merge -useContext -underBinder +onlyGivenNames x6
  try clear_value x6
  extract_lets -merge -useContext -underBinder +onlyGivenNames x7
  refine Keeps.cut (n := 1097729) (s := s) x7 ?_ ?_
  · subst x7
    refine Keeps.step ?_ (keeps_yield _ _) rfl
    exact Keeps.rfl
  intro _
  try clear_value x7
  refine keeps_ite (fun x => x) ?_ ?_
  · assumption
  refine Keeps.step ?_ replaceRequest_keeps rfl
  refine Keeps.step ?_ bump_keeps rfl
  assumption

theorem applyEntry_keeps {s e} :
    Keeps 2884225 s (applyEntry s e) := by
  delta applyEntry
  extract_lets -merge -useContext -underBinder +onlyGivenNames x1
  subst x1
  try dsimp -zeta only
  split
  · refine keeps_ite (fun x => x) ?_ ?_
    · split
      · refine Keeps.step ?_ updArr_keeps rfl
        refine Keeps.step ?_ odSet_keeps rfl
        exact Keeps.rfl
      refine Keeps.step ?_ odSet_keeps rfl
      exact Keeps.rfl
    exact Keeps.rfl
  · refine keeps_ite (fun x => x) ?_ ?_
    · split
      · refine Keeps.step ?_ updArr_keeps rfl
        refine Keeps.step ?_ odSet_keeps rfl
        exact Keeps.rfl
      refine Keeps.step ?_ odSet_keeps rfl
      exact Keeps.rfl
    exact Keeps.rfl
  · refine Keeps.step ?_ (keeps_fabric _ _) rfl
    exact Keeps.rfl
  · refine Keeps.step ?_ updLink_keeps rfl
    exact Keeps.rfl
  · refine keeps_ite (fun x => x) ?_ ?_
    · refine Keeps.step ?_ updLink_keeps rfl
      exact Keeps.rfl
    extract_lets -merge -useContext -underBinder +onlyGivenNames x2
    refine Keeps.cut (n := 2884225) (s := s) x2 ?_ ?_
    · subst x2
      refine Keeps.step ?_ updLink_keeps rfl
      exact Keeps.rfl
    intro _
    try clear_value x2
    refine Keeps.step ?_ odSet_keeps rfl
    assumption
  · refine Keeps.step ?_ updFrame_keeps rfl
    exact Keeps.rfl
  · refine Keeps.step ?_ updBlk_keeps rfl
    exact Keeps.rfl
  · refine Keeps.step ?_ updBlk_keeps rfl
    exact Keeps.rfl
  · extract_lets -merge -useContext -underBinder +onlyGivenNames x3
    try clear_value x3
    refine Keeps.step ?_ updSensor_keeps rfl
    exact Keeps.rfl
  exact Keeps.rfl

theorem applyYield_keeps {s} :
    Keeps 3949249 s (applyYield s) := by
  delta applyYield
  extract_lets -merge -useContext -underBinder +onlyGivenNames x1
  try clear_value x1
  extract_lets -merge -useContext -underBinder +onlyGivenNames x2
  refine Keeps.cut (n := 3949249) (s := s) x2 ?_ ?_
  · subst x2
    refine keeps_foldl (fun x => x) _ _ ?_ ?_
    · exact Keeps.rfl
    intro _ _ _
    refine Keeps.step ?_ rebind_keeps rfl
    assumption
  intro _
  try clear_value x2
  extract_lets -merge -useContext -underBinder +onlyGivenNames x3
  refine Keeps.cut (n := 3949249) (s := s) x3 ?_ ?_
  · subst x3
    refine keeps_foldl (fun x => x) _ _ ?_ ?_
    · assumption
    intro _ _ _
    refine Keeps.step ?_ applyEntry_keeps rfl
    assumption
  intro _
  try clear_value x3
  refine Keeps.step ?_ recountYield_keeps rfl
  refine Keeps.step ?_ (keeps_fabric _ _) rfl
  assumption

theorem raiseAgain_keeps {s} :
    Keeps 1064961 s (raiseAgain s) := by
  delta raiseAgain
  extract_lets -merge -useContext -underBinder +onlyGivenNames x1
  try clear_value x1
  extract_lets -merge -useContext -underBinder +onlyGivenNames x2
  refine Keeps.cut (n := 1064961) (s := s) x2 ?_ ?_
  · subst x2
    refine Keeps.step ?_ checkSpares_keeps rfl
    exact Keeps.rfl
  intro _
  try clear_value x2
  extract_lets -merge -useContext -underBinder +onlyGivenNames x3
  refine Keeps.cut (n := 1064961) (s := s) x3 ?_ ?_
  · subst x3
    refine keeps_ite (fun x => x) ?_ ?_
    · refine Keeps.step ?_ replaceRequest_keeps rfl
      assumption
    assumption
  intro _
  try clear_value x3
  extract_lets -merge -useContext -underBinder +onlyGivenNames x4
  refine Keeps.cut (n := 1064961) (s := s) x4 ?_ ?_
  · subst x4
    refine keeps_ite (fun x => x) ?_ ?_
    · refine Keeps.step ?_ replaceRequest_keeps rfl
      assumption
    assumption
  intro _
  try clear_value x4
  extract_lets -merge -useContext -underBinder +onlyGivenNames x5
  refine Keeps.cut (n := 1064961) (s := s) x5 ?_ ?_
  · subst x5
    refine keeps_ite (fun x => x) ?_ ?_
    · assumption
    refine Keeps.step ?_ requestConverters_keeps rfl
    assumption
  intro _
  try clear_value x5
  extract_lets -merge -useContext -underBinder +onlyGivenNames x6
  refine Keeps.cut (n := 1064961) (s := s) x6 ?_ ?_
  · subst x6
    refine keeps_ite (fun x => x) ?_ ?_
    · assumption
    refine Keeps.step ?_ replaceRequest_keeps rfl
    assumption
  intro _
  try clear_value x6
  extract_lets -merge -useContext -underBinder +onlyGivenNames x7
  refine Keeps.cut (n := 1064961) (s := s) x7 ?_ ?_
  · subst x7
    refine keeps_ite (fun x => x) ?_ ?_
    · refine Keeps.step ?_ replaceRequest_keeps rfl
      assumption
    assumption
  intro _
  try clear_value x7
  extract_lets -merge -useContext -underBinder +onlyGivenNames x8
  refine Keeps.cut (n := 1064961) (s := s) x8 ?_ ?_
  · subst x8
    refine keeps_ite (fun x => x) ?_ ?_
    · refine Keeps.step ?_ replaceRequest_keeps rfl
      assumption
    assumption
  intro _
  try clear_value x8
  refine keeps_ite (fun x => x) ?_ ?_
  · assumption
  refine Keeps.step ?_ replaceRequest_keeps rfl
  assumption

theorem startPhase_keeps {s x} :
    Keeps 12888440441 s (startPhase s x) := by
  delta startPhase
  extract_lets -merge -useContext -underBinder +onlyGivenNames x1
  refine Keeps.cut (n := 12888440441) (s := s) x1 ?_ ?_
  · subst x1
    refine Keeps.step ?_ failPhase_keeps rfl
    exact Keeps.rfl
  intro _
  try clear_value x1
  refine keeps_ite (fun x => x) ?_ ?_
  · refine Keeps.step ?_ finishDrain_keeps rfl
    assumption
  assumption

theorem bringUpBlocks_keeps {s f} :
    Keeps 12888964857 s (bringUpBlocks s f) := by
  delta bringUpBlocks
  extract_lets -merge -useContext -underBinder +onlyGivenNames x1
  refine Keeps.cut (n := 12888964857) (s := s) x1 ?_ ?_
  · subst x1
    refine Keeps.step ?_ applyYield_keeps rfl
    refine Keeps.step ?_ mergeYield_keeps rfl
    exact Keeps.rfl
  intro _
  try clear_value x1
  extract_lets -merge -useContext -underBinder +onlyGivenNames x2
  refine Keeps.cut (n := 12888964857) (s := s) x2 ?_ ?_
  · subst x2
    refine Keeps.step ?_ raiseAgain_keeps rfl
    refine keeps_foldl (fun x => x) _ _ ?_ ?_
    · assumption
    intro _ _ _
    refine Keeps.step ?_ startPhase_keeps rfl
    assumption
  intro _
  try clear_value x2
  extract_lets -merge -useContext -underBinder +onlyGivenNames x3
  refine Keeps.cut (n := 12888964857) (s := s) x3 ?_ ?_
  · subst x3
    refine Keeps.step ?_ odSet_keeps rfl
    assumption
  intro _
  try clear_value x3
  extract_lets -merge -useContext -underBinder +onlyGivenNames x4
  refine Keeps.cut (n := 12888964857) (s := s) x4 ?_ ?_
  · subst x4
    refine Keeps.step ?_ odSet_keeps rfl
    refine Keeps.step ?_ odSet_keeps rfl
    assumption
  intro _
  try clear_value x4
  refine Keeps.step ?_ (keeps_plant _ _) rfl
  assumption

theorem bringUp_keeps {s f cold} :
    Keeps 16655449851 s (bringUp s f cold) := by
  delta bringUp
  extract_lets -merge -useContext -underBinder +onlyGivenNames x1
  refine Keeps.cut (n := 16655449851) (s := s) x1 ?_ ?_
  · subst x1
    refine Keeps.step ?_ odSet_keeps rfl
    exact Keeps.rfl
  intro _
  try clear_value x1
  refine keeps_ite (fun x => x) ?_ ?_
  · assumption
  extract_lets -merge -useContext -underBinder +onlyGivenNames x2
  refine Keeps.cut (n := 16655449851) (s := s) x2 ?_ ?_
  · subst x2
    refine Keeps.step ?_ bootProcessors_keeps rfl
    assumption
  intro _
  try clear_value x2
  extract_lets -merge -useContext -underBinder +onlyGivenNames x3
  refine Keeps.cut (n := 16655449851) (s := s) x3 ?_ ?_
  · subst x3
    refine keeps_ite (fun x => x) ?_ ?_
    · refine Keeps.step ?_ recordEvent_keeps rfl
      assumption
    assumption
  intro _
  try clear_value x3
  extract_lets -merge -useContext -underBinder +onlyGivenNames x4
  refine Keeps.cut (n := 16655449851) (s := s) x4 ?_ ?_
  · subst x4
    refine keeps_ite (fun x => x) ?_ ?_
    · assumption
    refine Keeps.step ?_ bump_keeps rfl
    assumption
  intro _
  try clear_value x4
  extract_lets -merge -useContext -underBinder +onlyGivenNames x5
  try clear_value x5
  refine keeps_ite (fun x => x) ?_ ?_
  · refine Keeps.step ?_ failBringUp_keeps rfl
    assumption
  split
  · refine Keeps.step ?_ failBringUp_keeps rfl
    assumption
  extract_lets -merge -useContext -underBinder +onlyGivenNames x6
  refine Keeps.cut (n := 16655449851) (s := s) x6 ?_ ?_
  · subst x6
    refine Keeps.step ?_ runSlot_keeps rfl
    assumption
  intro _
  try clear_value x6
  refine keeps_ite (fun x => x) ?_ ?_
  · refine Keeps.step ?_ (keeps_plant _ _) rfl
    assumption
  refine keeps_ite (fun x => x) ?_ ?_
  · refine Keeps.step ?_ (keeps_plant _ _) rfl
    assumption
  refine Keeps.step ?_ bringUpBlocks_keeps rfl
  assumption

theorem trainGeanna_keeps {s} :
    Keeps 3178049 s (trainGeanna s) := by
  delta trainGeanna
  refine keeps_foldl (fun x => x) _ _ ?_ ?_
  · exact Keeps.rfl
  intro _ _ _
  refine keeps_ite (fun x => x) ?_ ?_
  · refine Keeps.step ?_ setPort_keeps rfl
    assumption
  assumption

theorem finishBringUp_keeps {s f} :
    Keeps 12896829025 s (finishBringUp s f) := by
  delta finishBringUp
  extract_lets -merge -useContext -underBinder +onlyGivenNames x1
  skip
  extract_lets -merge -useContext -underBinder +onlyGivenNames x2
  refine Keeps.cut (n := 12896829025) (s := s) x2 ?_ ?_
  · subst x2
    refine Keeps.step ?_ (keeps_plant _ _) rfl
    exact Keeps.rfl
  intro _
  try clear_value x2
  extract_lets -merge -useContext -underBinder +onlyGivenNames x3
  refine Keeps.cut (n := 12896829025) (s := s) x3 ?_ ?_
  · subst x3
    refine keeps_foldl (fun x => x) _ _ ?_ ?_
    · assumption
    intro _ _ _
    refine Keeps.step ?_ loseStack_keeps rfl
    assumption
  intro _
  try clear_value x3
  refine keeps_ite (fun x => x) ?_ ?_
  · refine Keeps.step ?_ failBringUp_keeps rfl
    assumption
  extract_lets -merge -useContext -underBinder +onlyGivenNames x4
  refine Keeps.cut (n := 12896829025) (s := s) x4 ?_ ?_
  · subst x4
    refine Keeps.step ?_ odSet_keeps rfl
    assumption
  intro _
  try clear_value x4
  extract_lets -merge -useContext -underBinder +onlyGivenNames x5
  refine Keeps.cut (n := 12896829025) (s := s) x5 ?_ ?_
  · subst x5
    refine Keeps.step ?_ trainGeanna_keeps rfl
    refine Keeps.step ?_ trainPort_keeps rfl
    refine Keeps.step ?_ trainPort_keeps rfl
    assumption
  intro _
  try clear_value x5
  extract_lets -merge -useContext -underBinder +onlyGivenNames x6
  refine Keeps.cut (n := 12896829025) (s := s) x6 ?_ ?_
  · subst x6
    refine Keeps.step ?_ odPut_keeps rfl
    refine Keeps.step ?_ odSet_keeps rfl
    assumption
  intro _
  try clear_value x6
  refine Keeps.step ?_ (keeps_plant _ _) rfl
  assumption

theorem effMeshLock_keeps {s us} :
    Keeps 12896829025 s (effMeshLock s us) := by
  delta effMeshLock
  refine keeps_ite (fun x => x) ?_ ?_
  · exact Keeps.rfl
  extract_lets -merge -useContext -underBinder +onlyGivenNames x1
  refine Keeps.cut (n := 12896829025) (s := s) x1 ?_ ?_
  · subst x1
    refine Keeps.step ?_ recordMesh_keeps rfl
    refine Keeps.step ?_ lockMesh_keeps rfl
    exact Keeps.rfl
  intro _
  try clear_value x1
  split
  · refine keeps_ite (fun x => x) ?_ ?_
    · refine Keeps.step ?_ finishBringUp_keeps rfl
      assumption
    assumption
  assumption

theorem effMeshTimeout_keeps {s} :
    Keeps 9453569 s (effMeshTimeout s) := by
  delta effMeshTimeout
  refine keeps_ite (fun x => x) ?_ ?_
  · refine Keeps.step ?_ failBringUp_keeps rfl
    exact Keeps.rfl
  exact Keeps.rfl

theorem effCoolantReturn_keeps {s} :
    Keeps 12888964857 s (effCoolantReturn s) := by
  delta effCoolantReturn
  split
  · refine keeps_ite (fun x => x) ?_ ?_
    · refine Keeps.step ?_ effCoolantFall_keeps rfl
      exact Keeps.rfl
    refine keeps_ite (fun x => x) ?_ ?_
    · exact Keeps.rfl
    refine Keeps.step ?_ bringUpBlocks_keeps rfl
    refine Keeps.step ?_ setCoolant_keeps rfl
    exact Keeps.rfl
  refine Keeps.step ?_ effCoolantFall_keeps rfl
  exact Keeps.rfl

theorem effPowerFail_keeps {s} :
    Keeps 1879048191 s (effPowerFail s) := by
  delta effPowerFail
  refine keeps_ite (fun x => x) ?_ ?_
  · exact Keeps.rfl
  extract_lets -merge -useContext -underBinder +onlyGivenNames x1
  refine Keeps.cut (n := 1879048191) (s := s) x1 ?_ ?_
  · subst x1
    refine Keeps.step ?_ recordLast_keeps rfl
    exact Keeps.rfl
  intro _
  try clear_value x1
  extract_lets -merge -useContext -underBinder +onlyGivenNames x2
  refine Keeps.cut (n := 1879048191) (s := s) x2 ?_ ?_
  · subst x2
    refine Keeps.step ?_ odSet_keeps rfl
    refine Keeps.step ?_ flashOnly_keeps rfl
    assumption
  intro _
  try clear_value x2
  refine Keeps.step ?_ (keeps_plant _ _) rfl
  assumption

theorem effRelease56_keeps {s f} :
    Keeps 16911433727 s (effRelease56 s f) := by
  delta effRelease56
  refine keeps_ite (fun x => x) ?_ ?_
  · exact Keeps.rfl
  extract_lets -merge -useContext -underBinder +onlyGivenNames x1
  refine Keeps.cut (n := 16911433727) (s := s) x1 ?_ ?_
  · subst x1
    refine Keeps.step ?_ odSet_keeps rfl
    refine Keeps.step ?_ flashOnly_keeps rfl
    exact Keeps.rfl
  intro _
  try clear_value x1
  refine Keeps.step ?_ bringUp_keeps rfl
  refine Keeps.step ?_ (keeps_plant _ _) rfl
  assumption

theorem effResetWipe_keeps {s ms lost f} :
    Keeps 16911433727 s (effResetWipe s ms lost f) := by
  delta effResetWipe
  refine keeps_ite (fun x => x) ?_ ?_
  · exact Keeps.rfl
  refine Keeps.step ?_ bringUp_keeps rfl
  refine Keeps.step ?_ odPut_keeps rfl
  refine Keeps.step ?_ afterReset_keeps rfl
  exact Keeps.rfl

theorem effMrst_keeps {s widthNs overLimit} :
    Keeps 1777565025 s (effMrst s widthNs overLimit) := by
  delta effMrst
  refine keeps_ite (fun x => x) ?_ ?_
  · exact Keeps.rfl
  refine keeps_ite (fun x => x) ?_ ?_
  · refine Keeps.step ?_ bump_keeps rfl
    exact Keeps.rfl
  refine keeps_ite (fun x => x) ?_ ?_
  · exact Keeps.rfl
  refine keeps_ite (fun x => x) ?_ ?_
  · refine Keeps.step ?_ markChatter_keeps rfl
    exact Keeps.rfl
  refine Keeps.step ?_ startReset_keeps rfl
  exact Keeps.rfl

theorem effMrstStuck_keeps {s} :
    Keeps 1064961 s (effMrstStuck s) := by
  delta effMrstStuck
  refine keeps_ite (fun x => x) ?_ ?_
  · exact Keeps.rfl
  refine Keeps.step ?_ latchStuck_keeps rfl
  refine Keeps.step ?_ odSet_keeps rfl
  exact Keeps.rfl

theorem execPowerFail_keeps {y1 s t} (h : execPowerFail y1 s = .next t) :
    Keeps 1879048191 s t := by
  delta execPowerFail at h
  refine keeps_next ?_ h
  refine Keeps.step ?_ effPowerFail_keeps rfl
  exact Keeps.rfl

theorem execResetRelease_keeps {f s t} (h : execResetRelease f s = .next t) :
    Keeps 16911433727 s t := by
  delta execResetRelease at h
  refine keeps_next ?_ h
  refine Keeps.step ?_ effRelease56_keeps rfl
  exact Keeps.rfl

theorem execMeshLock_keeps {us s t} (h : execMeshLock us s = .next t) :
    Keeps 12896829025 s t := by
  delta execMeshLock at h
  refine keeps_next ?_ h
  refine Keeps.step ?_ effMeshLock_keeps rfl
  exact Keeps.rfl

theorem execMeshBringUpTimeout_keeps {s t} (h : execMeshBringUpTimeout s = .next t) :
    Keeps 9453569 s t := by
  delta execMeshBringUpTimeout at h
  refine keeps_next ?_ h
  refine Keeps.step ?_ effMeshTimeout_keeps rfl
  exact Keeps.rfl

theorem execCoolantStateFall_keeps {s t} (h : execCoolantStateFall s = .next t) :
    Keeps 12888964857 s t := by
  delta execCoolantStateFall at h
  refine keeps_next ?_ h
  refine Keeps.step ?_ effCoolantReturn_keeps rfl
  exact Keeps.rfl

theorem execModuleReset_keeps {rq value s t} (h : execModuleReset rq value s = .next t) :
    Keeps 6072532321 s t := by
  delta execModuleReset at h
  refine keeps_next ?_ h
  refine Keeps.step ?_ takeReset_keeps rfl
  refine cmdWrite_keeps ?_ ?_ rfl
  · exact Keeps.rfl
  intro _ _ _ h
  refine onOne_keeps ?_ ?_ rfl h
  · assumption
  intro _ _ _ h
  refine keeps_ok ?_ h
  refine Keeps.step ?_ (keeps_plant _ _) rfl
  assumption

theorem execMrstNInput_keeps {widthNs overLimit s t} (h : execMrstNInput widthNs overLimit s = .next t) :
    Keeps 1777565025 s t := by
  delta execMrstNInput at h
  refine keeps_next ?_ h
  refine Keeps.step ?_ effMrst_keeps rfl
  exact Keeps.rfl

theorem execMrstNStuck_keeps {s t} (h : execMrstNStuck s = .next t) :
    Keeps 1064961 s t := by
  delta execMrstNStuck at h
  refine keeps_next ?_ h
  refine Keeps.step ?_ effMrstStuck_keeps rfl
  exact Keeps.rfl

theorem execWatchdog_keeps {s t} (h : execWatchdog s = .next t) :
    Keeps 1777565025 s t := by
  delta execWatchdog at h
  refine keeps_next ?_ h
  refine Keeps.step ?_ startReset_keeps rfl
  exact Keeps.rfl

theorem execResetWipeComplete_keeps {ms lost f s t} (h : execResetWipeComplete ms lost f s = .next t) :
    Keeps 16911433727 s t := by
  delta execResetWipeComplete at h
  refine keeps_next ?_ h
  refine Keeps.step ?_ effResetWipe_keeps rfl
  exact Keeps.rfl

end Sys2Proof.Machine
end

