-- ==== Sys2Proof/Laws/KeepsTakeover.lean ====
section
/-! SUPPORT. What the operations of Machine/Takeover.lean leave as it was. -/

namespace Sys2Proof.Machine

theorem dropImage_keeps {s} :
    Keeps 536870912 s (dropImage s) := by
  delta dropImage
  refine keeps_ite (fun x => x) ?_ ?_
  · refine Keeps.step ?_ setFwSlot_keeps rfl
    exact Keeps.rfl
  exact Keeps.rfl

theorem dropClients_keeps {s} :
    Keeps 150994944 s (dropClients s) := by
  delta dropClients
  refine keeps_foldl (fun x => x) _ _ ?_ ?_
  · exact Keeps.rfl
  intro _ _ _
  refine Keeps.step ?_ dropMgmt_keeps rfl
  assumption

theorem rollPrepare_keeps {s} :
    Keeps 14115161771 s (rollPrepare s) := by
  delta rollPrepare
  split
  · refine Keeps.step ?_ rollBack_keeps rfl
    exact Keeps.rfl
  exact Keeps.rfl

theorem processorTakeover_keeps {s us} :
    Keeps 14652032683 s (processorTakeover s us) := by
  delta processorTakeover
  extract_lets -merge -useContext -underBinder +onlyGivenNames x1
  try clear_value x1
  refine keeps_ite (fun x => x) ?_ ?_
  · exact Keeps.rfl
  extract_lets -merge -useContext -underBinder +onlyGivenNames x2
  refine Keeps.cut (n := 14652032683) (s := s) x2 ?_ ?_
  · subst x2
    refine Keeps.step ?_ dropClients_keeps rfl
    refine Keeps.step ?_ dropImage_keeps rfl
    refine Keeps.step ?_ odBit_keeps rfl
    exact Keeps.rfl
  intro _
  try clear_value x2
  refine keeps_ite (fun x => x) ?_ ?_
  · refine Keeps.step ?_ replaceRequest_keeps rfl
    assumption
  extract_lets -merge -useContext -underBinder +onlyGivenNames x3
  refine Keeps.cut (n := 14652032683) (s := s) x3 ?_ ?_
  · subst x3
    refine Keeps.step ?_ odSet_keeps rfl
    refine Keeps.step ?_ odBit_keeps rfl
    assumption
  intro _
  try clear_value x3
  extract_lets -merge -useContext -underBinder +onlyGivenNames x4
  refine Keeps.cut (n := 14652032683) (s := s) x4 ?_ ?_
  · subst x4
    refine Keeps.step ?_ rollPrepare_keeps rfl
    refine Keeps.step ?_ writeGaps_keeps rfl
    assumption
  intro _
  try clear_value x4
  extract_lets -merge -useContext -underBinder +onlyGivenNames x5
  refine Keeps.cut (n := 14652032683) (s := s) x5 ?_ ?_
  · subst x5
    refine Keeps.step ?_ odPut_keeps rfl
    refine Keeps.step ?_ bump_keeps rfl
    assumption
  intro _
  try clear_value x5
  extract_lets -merge -useContext -underBinder +onlyGivenNames x6
  refine Keeps.cut (n := 14652032683) (s := s) x6 ?_ ?_
  · subst x6
    refine Keeps.step ?_ recordEvent_keeps rfl
    refine Keeps.step ?_ replaceRequest_keeps rfl
    assumption
  intro _
  try clear_value x6
  refine Keeps.step ?_ startFlush_keeps rfl
  assumption

theorem execMpHeartbeatTimeout_keeps {us s t} (h : execMpHeartbeatTimeout us s = .next t) :
    Keeps 14652032683 s t := by
  delta execMpHeartbeatTimeout at h
  refine keeps_next ?_ h
  refine Keeps.step ?_ processorTakeover_keeps rfl
  exact Keeps.rfl

theorem execMpSelfCheckFail_keeps {us s t} (h : execMpSelfCheckFail us s = .next t) :
    Keeps 14652032683 s t := by
  delta execMpSelfCheckFail at h
  refine keeps_next ?_ h
  refine Keeps.step ?_ processorTakeover_keeps rfl
  exact Keeps.rfl

end Sys2Proof.Machine
end

