-- ==== Sys2Proof/Laws/KeepsWrites.lean ====
section
/-! SUPPORT. What the operations of Machine/Writes.lean leave as it was. -/

namespace Sys2Proof.Machine

theorem afterWrite_keeps {s k} :
    Keeps 1064961 s (afterWrite s k) := by
  delta afterWrite
  refine keeps_ite (fun x => x) ?_ ?_
  · refine Keeps.step ?_ recountYield_keeps rfl
    exact Keeps.rfl
  refine keeps_ite (fun x => x) ?_ ?_
  · refine Keeps.step ?_ checkSpares_keeps rfl
    exact Keeps.rfl
  exact Keeps.rfl

theorem writeScalar_keeps {s i k v} :
    Keeps 135282689 s (writeScalar s i k v) := by
  delta writeScalar
  refine keeps_ite (fun x => x) ?_ ?_
  · refine Keeps.step ?_ setMgmt_keeps rfl
    exact Keeps.rfl
  refine Keeps.step ?_ afterWrite_keeps rfl
  refine Keeps.step ?_ odSet_keeps rfl
  exact Keeps.rfl

theorem runWrite_keeps {rq index sub v s} :
    Keeps 135282689 s (runWrite rq index sub v s).1 := by
  delta runWrite
  extract_lets -merge -useContext -underBinder +onlyGivenNames x1
  try clear_value x1
  split
  · try dsimp -zeta only
    exact Keeps.rfl
  refine keeps_ite (fun (x : (State) × _) => x.1) ?_ ?_
  · try dsimp -zeta only
    exact Keeps.rfl
  extract_lets -merge -useContext -underBinder +onlyGivenNames x2
  try clear_value x2
  refine keeps_ite (fun (x : (State) × _) => x.1) ?_ ?_
  · try dsimp -zeta only
    exact Keeps.rfl
  refine keeps_ite (fun (x : (State) × _) => x.1) ?_ ?_
  · try dsimp -zeta only
    exact Keeps.rfl
  try dsimp -zeta only
  refine Keeps.step ?_ writeScalar_keeps rfl
  exact Keeps.rfl

theorem moduleAction_keeps {k v act s t} (h : moduleAction k v = some act) (ht : act s = .ok t) : Keeps 14662762467 s t := by
  delta moduleAction at h
  by_cases h0 : k = K.devModuleReset
  · rw [if_pos h0] at h
    cases h
    exact onOne_keeps Keeps.rfl (fun _ _ hs h => keeps_ok (Keeps.step hs (keeps_plant _ _) rfl) h) rfl ht
  rw [if_neg h0] at h
  by_cases h1 : k = K.arrCalibrateAll
  · rw [if_pos h1] at h
    cases h
    exact onOne_keeps Keeps.rfl (fun _ _ hs h => keeps_ok (Keeps.step hs queueEveryChain_keeps rfl) h) rfl ht
  rw [if_neg h1] at h
  by_cases h2 : k = K.numClear
  · rw [if_pos h2] at h
    cases h
    exact onOne_keeps Keeps.rfl (fun _ _ hs h => keeps_ok (Keeps.step hs zeroObjects_keeps rfl) h) rfl ht
  rw [if_neg h2] at h
  by_cases h3 : k = K.sessEndSession
  · rw [if_pos h3] at h
    cases h
    exact Keeps.step Keeps.rfl (endNamedSession_keeps ht) rfl
  rw [if_neg h3] at h
  by_cases h4 : k = K.wtUnload
  · rw [if_pos h4] at h
    cases h
    exact Keeps.step Keeps.rfl (unloadNamedSet_keeps ht) rfl
  rw [if_neg h4] at h
  by_cases h5 : k = K.wtReleaseHost
  · rw [if_pos h5] at h
    cases h
    exact Keeps.step Keeps.rfl (releaseBundle_keeps ht) rfl
  rw [if_neg h5] at h
  by_cases h6 : k = K.fabRetrain
  · rw [if_pos h6] at h
    cases h
    exact keeps_ok (Keeps.step Keeps.rfl retrainPort_keeps rfl) ht
  rw [if_neg h6] at h
  by_cases h7 : k = K.pairDetach
  · rw [if_pos h7] at h
    cases h
    exact onOne_keeps Keeps.rfl (fun _ _ hs h => keeps_ok (Keeps.step hs startDetach_keeps rfl) h) rfl ht
  rw [if_neg h7] at h
  by_cases h8 : k = K.pairDrain
  · rw [if_pos h8] at h
    cases h
    exact onOne_keeps Keeps.rfl (fun _ _ hs h => Keeps.step hs (drainNow_keeps h) rfl) rfl ht
  rw [if_neg h8] at h
  by_cases h9 : k = K.yldStackRetrain
  · rw [if_pos h9] at h
    cases h
    exact Keeps.step Keeps.rfl (retrainNamedStack_keeps ht) rfl
  rw [if_neg h9] at h
  by_cases h10 : k = K.yldLinkRetrain
  · rw [if_pos h10] at h
    cases h
    exact Keeps.step Keeps.rfl (retrainNamedLink_keeps ht) rfl
  rw [if_neg h10] at h
  by_cases h11 : k = K.recClear
  · rw [if_pos h11] at h
    cases h
    exact onOne_keeps Keeps.rfl (fun _ _ hs h => keeps_ok (Keeps.step hs effClearLog_keeps rfl) h) rfl ht
  rw [if_neg h11] at h
  by_cases h12 : k = K.recFlushNow
  · rw [if_pos h12] at h
    cases h
    exact onOne_keeps Keeps.rfl (fun _ _ hs h => keeps_ok (Keeps.step hs startFlush_keeps rfl) h) rfl ht
  rw [if_neg h12] at h
  by_cases h13 : k = K.secFwActivate
  · rw [if_pos h13] at h
    cases h
    exact Keeps.step Keeps.rfl (activateSlot_keeps ht) rfl
  rw [if_neg h13] at h
  by_cases h14 : k = K.secAdvanceSecurityVersion
  · rw [if_pos h14] at h
    cases h
    exact onOne_keeps Keeps.rfl (fun _ _ hs h => Keeps.step hs (advanceVersion_keeps h) rfl) rfl ht
  rw [if_neg h14] at h
  by_cases h15 : k = K.pcieRetrain
  · rw [if_pos h15] at h
    cases h
    exact Keeps.step Keeps.rfl (retrainNamedPort_keeps ht) rfl
  rw [if_neg h15] at h
  by_cases h16 : k = K.diagClearBlockEntry
  · rw [if_pos h16] at h
    cases h
    exact Keeps.step Keeps.rfl (clearShort_keeps ht) rfl
  rw [if_neg h16] at h
  cases h

theorem cmdAction_keeps {k v act s t} (h : cmdAction k v = some act) (ht : act s = .ok t) : Keeps 14662762467 s t := by
  delta cmdAction at h
  extract_lets p at h
  by_cases h1 : k = K.partPartitionReset p
  · rw [if_pos h1] at h
    cases h
    exact onOne_keeps Keeps.rfl (fun _ _ hs h => Keeps.step hs (resetNamedPartition_keeps h) rfl) rfl ht
  rw [if_neg h1] at h
  by_cases h2 : k = K.partUnload p
  · rw [if_pos h2] at h
    by_cases h3 : v = 0
    · rw [if_pos h3] at h
      cases h
      exact Keeps.step Keeps.rfl (drainPartition_keeps ht) rfl
    · rw [if_neg h3] at h
      cases h
      exact Keeps.step Keeps.rfl (unloadPartition_keeps ht) rfl
  rw [if_neg h2] at h
  by_cases h4 : k = K.statClear p
  · rw [if_pos h4] at h
    cases h
    exact onOne_keeps Keeps.rfl (fun _ _ hs h => keeps_ok (Keeps.step hs clearLapStats_keeps rfl) h) rfl ht
  rw [if_neg h4] at h
  exact moduleAction_keeps h ht

theorem effWrite_keeps {s rq index sub v} : Keeps 14662762467 s (effWrite s rq index sub v) := by
  delta effWrite
  extract_lets k
  refine keeps_ite (fun x => x) Keeps.rfl ?_
  split
  next act ha =>
    refine Keeps.step ?_ beginTransition_keeps rfl
    refine Keeps.step ?_ takeReset_keeps rfl
    refine request_keeps Keeps.rfl (fun s hs => ?_) rfl
    exact runCmd_keeps hs (fun _ _ hs h => Keeps.step hs (cmdAction_keeps ha h) rfl) rfl
  next =>
    exact request_keeps Keeps.rfl (fun s hs => Keeps.step hs runWrite_keeps rfl) rfl

theorem refuseSegment_keeps {s i k status} :
    Keeps 134217728 s (refuseSegment s i k status).1 := by
  delta refuseSegment
  try dsimp -zeta only
  refine Keeps.step ?_ setMgmt_keeps rfl
  exact Keeps.rfl

theorem finishSegments_keeps {s i o k v} :
    Keeps 134217730 s (finishSegments s i o k v).1 := by
  delta finishSegments
  extract_lets -merge -useContext -underBinder +onlyGivenNames x1
  refine Keeps.cut (n := 134217730) (s := s) x1 ?_ ?_
  · subst x1
    refine Keeps.step ?_ setMgmt_keeps rfl
    exact Keeps.rfl
  intro _
  try clear_value x1
  refine keeps_ite (fun (x : (State) × _) => x.1) ?_ ?_
  · try dsimp -zeta only
    assumption
  refine keeps_ite (fun (x : (State) × _) => x.1) ?_ ?_
  · try dsimp -zeta only
    assumption
  refine keeps_ite (fun (x : (State) × _) => x.1) ?_ ?_
  · try dsimp -zeta only
    assumption
  refine keeps_ite (fun (x : (State) × _) => x.1) ?_ ?_
  · split
    · try dsimp -zeta only
      assumption
    try dsimp -zeta only
    refine Keeps.step ?_ setMgmt_keeps rfl
    assumption
  refine keeps_ite (fun (x : (State) × _) => x.1) ?_ ?_
  · try dsimp -zeta only
    refine Keeps.step ?_ domSet_keeps rfl
    assumption
  try dsimp -zeta only
  assumption

theorem runSegmentWrite_keeps {rq index sub offset bytes last staged s} :
    Keeps 134217730 s (runSegmentWrite rq index sub offset bytes last staged s).1 := by
  delta runSegmentWrite
  extract_lets -merge -useContext -underBinder +onlyGivenNames x1
  try clear_value x1
  extract_lets -merge -useContext -underBinder +onlyGivenNames x2
  try clear_value x2
  extract_lets -merge -useContext -underBinder +onlyGivenNames x3
  try clear_value x3
  extract_lets -merge -useContext -underBinder +onlyGivenNames x4
  try clear_value x4
  extract_lets -merge -useContext -underBinder +onlyGivenNames x5
  try clear_value x5
  split
  · try dsimp -zeta only
    exact Keeps.rfl
  refine keeps_ite (fun (x : (State) × _) => x.1) ?_ ?_
  · refine Keeps.step ?_ refuseSegment_keeps rfl
    exact Keeps.rfl
  refine keeps_ite (fun (x : (State) × _) => x.1) ?_ ?_
  · refine Keeps.step ?_ refuseSegment_keeps rfl
    exact Keeps.rfl
  refine keeps_ite (fun (x : (State) × _) => x.1) ?_ ?_
  · refine Keeps.step ?_ refuseSegment_keeps rfl
    exact Keeps.rfl
  refine keeps_ite (fun (x : (State) × _) => x.1) ?_ ?_
  · refine Keeps.step ?_ refuseSegment_keeps rfl
    exact Keeps.rfl
  refine keeps_ite (fun (x : (State) × _) => x.1) ?_ ?_
  · refine Keeps.step ?_ refuseSegment_keeps rfl
    exact Keeps.rfl
  refine keeps_ite (fun (x : (State) × _) => x.1) ?_ ?_
  · refine Keeps.step ?_ finishSegments_keeps rfl
    exact Keeps.rfl
  extract_lets -merge -useContext -underBinder +onlyGivenNames x6
  try clear_value x6
  try dsimp -zeta only
  refine Keeps.step ?_ setMgmt_keeps rfl
  exact Keeps.rfl

theorem effSegmentWrite_keeps {s rq index sub offset bytes last staged} :
    Keeps 4445962243 s (effSegmentWrite s rq index sub offset bytes last staged) := by
  delta effSegmentWrite
  extract_lets -merge -useContext -underBinder +onlyGivenNames x1
  try clear_value x1
  refine keeps_ite (fun x => x) ?_ ?_
  · exact Keeps.rfl
  refine request_keeps ?_ ?_ rfl
  · exact Keeps.rfl
  intro _ _
  refine Keeps.step ?_ runSegmentWrite_keeps rfl
  assumption

theorem execWrite_keeps {rq index sub v s t} (h : execWrite rq index sub v s = .next t) :
    Keeps 14662762467 s t := by
  delta execWrite at h
  refine keeps_next ?_ h
  refine Keeps.step ?_ effWrite_keeps rfl
  exact Keeps.rfl

theorem execSegmentWrite_keeps {rq index sub offset bytes last staged s t} (h : execSegmentWrite rq index sub offset bytes last staged s = .next t) :
    Keeps 4445962243 s t := by
  delta execSegmentWrite at h
  refine keeps_next ?_ h
  refine Keeps.step ?_ effSegmentWrite_keeps rfl
  exact Keeps.rfl

end Sys2Proof.Machine
end

