-- ==== Sys2Proof/Laws/State.lean ====
section
/-! SUPPORT. What each elementary update of the state leaves in every part of it, and what is read back: the small
lemmas by which a proof never unfolds a record update. -/

namespace Sys2Proof.Machine

/-! ## Sparse maps -/

theorem kvGet_erase_same {α : Type} (d : α) (m : KV α) (k : Nat) : kvGet d (kvErase m k) k = d := by
  induction m with
  | nil => rfl
  | cons e r ih =>
    obtain ⟨a, v⟩ := e
    unfold kvErase at ih ⊢
    simp only [ne_eq, decide_not] at ih
    by_cases h : a = k
    · simp [List.filter, h, ih]
    · have h' : ¬ k = a := fun x => h x.symm
      simp [List.filter, h, h', kvGet, ih]

theorem kvGet_erase_other {α : Type} (d : α) (m : KV α) {k j : Nat} (h : j ≠ k) :
    kvGet d (kvErase m k) j = kvGet d m j := by
  induction m with
  | nil => rfl
  | cons e r ih =>
    obtain ⟨a, v⟩ := e
    unfold kvErase at ih ⊢
    simp only [ne_eq, decide_not] at ih
    by_cases ha : a = k
    · have hj : ¬ j = a := fun x => h (x.trans ha)
      subst ha
      simp [List.filter, kvGet, hj, ih]
    · simp [List.filter, ha, kvGet, ih]

theorem kvGet_put_same {α : Type} (d : α) (m : KV α) (k : Nat) (v : α) : kvGet d (kvPut m k v) k = v := by
  induction m with
  | nil => simp [kvPut, kvGet]
  | cons e r ih =>
    obtain ⟨a, w⟩ := e
    simp only [kvPut]
    split
    · simp [kvGet]
    · split
      · simp [kvGet]
      · next h => simp [kvGet, h, ih]

theorem kvGet_put_other {α : Type} (d : α) (m : KV α) {k j : Nat} (v : α) (h : j ≠ k) :
    kvGet d (kvPut m k v) j = kvGet d m j := by
  induction m with
  | nil => simp [kvPut, kvGet, h]
  | cons e r ih =>
    obtain ⟨a, w⟩ := e
    simp only [kvPut]
    split
    · simp [kvGet, h]
    · split
      · next h1 => subst h1; simp [kvGet, h]
      · simp [kvGet, ih]

/-- What is read from a map after a write. -/
@[simp] theorem kvGet_set {α : Type} [DecidableEq α] (d : α) (m : KV α) (k j : Nat) (v : α) :
    kvGet d (kvSet d m k v) j = if j = k then v else kvGet d m j := by
  unfold kvSet
  by_cases hj : j = k
  · subst hj
    rw [if_pos rfl]
    split
    · next hv => rw [kvGet_erase_same, hv]
    · exact kvGet_put_same d m j v
  · rw [if_neg hj]
    split
    · exact kvGet_erase_other d m hj
    · exact kvGet_put_other d m v hj

/-- A byte read after a byte written. -/
@[simp] theorem memRead_write (m : Memory) (a b : Nat) (x : Byte) :
    memRead (memWrite m a x) b = if b = a then x else memRead m b := kvGet_set zeroByte m a b x

/-- Bytes outside a run that is written read as before. -/
theorem memRead_writeN_other (m : Memory) (a : Nat) (bs : List Byte) (b : Nat) (h : b < a ∨ a + bs.length ≤ b) :
    memRead (memWriteN m a bs) b = memRead m b := by
  induction bs generalizing m a with
  | nil => rfl
  | cons x r ih =>
    simp only [List.length_cons] at h
    rw [memWriteN, ih (memWrite m a x) (a + 1) (by omega), memRead_write, if_neg (by omega)]

/-! ## Reading back -/

variable (s : State)

@[simp] theorem odGet_odSet (k v : Nat) (j : Nat) :
    odGet (odSet s k v) j = if j = k then v else odGet s j := by
  unfold odGet odSet
  by_cases h : j = k
  · subst h; simp
  · simp only [if_neg h]; unfold kvSet; split <;> first | exact kvGet_erase_other _ _ h | exact kvGet_put_other _ _ _ h
@[simp] theorem domGet_odSet (k v : Nat) (k2 : Nat) : domGet (odSet s k v) k2 = domGet s k2 := rfl
@[simp] theorem coreOf_odSet (k v : Nat) (j : Nat) : coreOf (odSet s k v) j = coreOf s j := rfl
@[simp] theorem clusterOf_odSet (k v : Nat) (j : Nat) : clusterOf (odSet s k v) j = clusterOf s j := rfl
@[simp] theorem arrOf_odSet (k v : Nat) (j : Nat) : arrOf (odSet s k v) j = arrOf s j := rfl
@[simp] theorem chainOf_odSet (k v : Nat) (j : Nat) : chainOf (odSet s k v) j = chainOf s j := rfl
@[simp] theorem frameOf_odSet (k v : Nat) (j : Nat) : frameOf (odSet s k v) j = frameOf s j := rfl
@[simp] theorem partOf_odSet (k v : Nat) (j : Nat) : partOf (odSet s k v) j = partOf s j := rfl
@[simp] theorem sessOf_odSet (k v : Nat) (j : Nat) : sessOf (odSet s k v) j = sessOf s j := rfl
@[simp] theorem subOf_odSet (k v : Nat) (j : Nat) : subOf (odSet s k v) j = subOf s j := rfl
@[simp] theorem compOf_odSet (k v : Nat) (j : Nat) : compOf (odSet s k v) j = compOf s j := rfl
@[simp] theorem wsetOf_odSet (k v : Nat) (j : Nat) : wsetOf (odSet s k v) j = wsetOf s j := rfl
@[simp] theorem blkOf_odSet (k v : Nat) (j : Nat) : blkOf (odSet s k v) j = blkOf s j := rfl
@[simp] theorem sensorOf_odSet (k v : Nat) (j : Nat) : sensorOf (odSet s k v) j = sensorOf s j := rfl
@[simp] theorem mgmtOf_odSet (k v : Nat) (j : Nat) : mgmtOf (odSet s k v) j = mgmtOf s j := rfl
@[simp] theorem portOf_odSet (k v : Nat) (j : Nat) : portOf (odSet s k v) j = portOf s j := rfl
@[simp] theorem fnOf_odSet (k v : Nat) (j : Nat) : fnOf (odSet s k v) j = fnOf s j := rfl
@[simp] theorem odGet_domSet (k : Nat) (v : List Byte) (k2 : Nat) : odGet (domSet s k v) k2 = odGet s k2 := rfl
@[simp] theorem domGet_domSet (k : Nat) (v : List Byte) (j : Nat) :
    domGet (domSet s k v) j = if j = k then v else domGet s j := by
  unfold domGet domSet
  by_cases h : j = k
  · subst h; simp
  · simp only [if_neg h]; unfold kvSet; split <;> first | exact kvGet_erase_other _ _ h | exact kvGet_put_other _ _ _ h
@[simp] theorem coreOf_domSet (k : Nat) (v : List Byte) (j : Nat) : coreOf (domSet s k v) j = coreOf s j := rfl
@[simp] theorem clusterOf_domSet (k : Nat) (v : List Byte) (j : Nat) : clusterOf (domSet s k v) j = clusterOf s j := rfl
@[simp] theorem arrOf_domSet (k : Nat) (v : List Byte) (j : Nat) : arrOf (domSet s k v) j = arrOf s j := rfl
@[simp] theorem chainOf_domSet (k : Nat) (v : List Byte) (j : Nat) : chainOf (domSet s k v) j = chainOf s j := rfl
@[simp] theorem frameOf_domSet (k : Nat) (v : List Byte) (j : Nat) : frameOf (domSet s k v) j = frameOf s j := rfl
@[simp] theorem partOf_domSet (k : Nat) (v : List Byte) (j : Nat) : partOf (domSet s k v) j = partOf s j := rfl
@[simp] theorem sessOf_domSet (k : Nat) (v : List Byte) (j : Nat) : sessOf (domSet s k v) j = sessOf s j := rfl
@[simp] theorem subOf_domSet (k : Nat) (v : List Byte) (j : Nat) : subOf (domSet s k v) j = subOf s j := rfl
@[simp] theorem compOf_domSet (k : Nat) (v : List Byte) (j : Nat) : compOf (domSet s k v) j = compOf s j := rfl
@[simp] theorem wsetOf_domSet (k : Nat) (v : List Byte) (j : Nat) : wsetOf (domSet s k v) j = wsetOf s j := rfl
@[simp] theorem blkOf_domSet (k : Nat) (v : List Byte) (j : Nat) : blkOf (domSet s k v) j = blkOf s j := rfl
@[simp] theorem sensorOf_domSet (k : Nat) (v : List Byte) (j : Nat) : sensorOf (domSet s k v) j = sensorOf s j := rfl
@[simp] theorem mgmtOf_domSet (k : Nat) (v : List Byte) (j : Nat) : mgmtOf (domSet s k v) j = mgmtOf s j := rfl
@[simp] theorem portOf_domSet (k : Nat) (v : List Byte) (j : Nat) : portOf (domSet s k v) j = portOf s j := rfl
@[simp] theorem fnOf_domSet (k : Nat) (v : List Byte) (j : Nat) : fnOf (domSet s k v) j = fnOf s j := rfl
@[simp] theorem odGet_setCore (i : Nat) (x : Core) (k : Nat) : odGet (setCore s i x) k = odGet s k := rfl
@[simp] theorem domGet_setCore (i : Nat) (x : Core) (k : Nat) : domGet (setCore s i x) k = domGet s k := rfl
@[simp] theorem coreOf_setCore (i : Nat) (x : Core) (j : Nat) :
    coreOf (setCore s i x) j = if j = i then x else coreOf s j := kvGet_set _ _ _ _ _
@[simp] theorem clusterOf_setCore (i : Nat) (x : Core) (j : Nat) : clusterOf (setCore s i x) j = clusterOf s j := rfl
@[simp] theorem arrOf_setCore (i : Nat) (x : Core) (j : Nat) : arrOf (setCore s i x) j = arrOf s j := rfl
@[simp] theorem chainOf_setCore (i : Nat) (x : Core) (j : Nat) : chainOf (setCore s i x) j = chainOf s j := rfl
@[simp] theorem frameOf_setCore (i : Nat) (x : Core) (j : Nat) : frameOf (setCore s i x) j = frameOf s j := rfl
@[simp] theorem partOf_setCore (i : Nat) (x : Core) (j : Nat) : partOf (setCore s i x) j = partOf s j := rfl
@[simp] theorem sessOf_setCore (i : Nat) (x : Core) (j : Nat) : sessOf (setCore s i x) j = sessOf s j := rfl
@[simp] theorem subOf_setCore (i : Nat) (x : Core) (j : Nat) : subOf (setCore s i x) j = subOf s j := rfl
@[simp] theorem compOf_setCore (i : Nat) (x : Core) (j : Nat) : compOf (setCore s i x) j = compOf s j := rfl
@[simp] theorem wsetOf_setCore (i : Nat) (x : Core) (j : Nat) : wsetOf (setCore s i x) j = wsetOf s j := rfl
@[simp] theorem blkOf_setCore (i : Nat) (x : Core) (j : Nat) : blkOf (setCore s i x) j = blkOf s j := rfl
@[simp] theorem sensorOf_setCore (i : Nat) (x : Core) (j : Nat) : sensorOf (setCore s i x) j = sensorOf s j := rfl
@[simp] theorem mgmtOf_setCore (i : Nat) (x : Core) (j : Nat) : mgmtOf (setCore s i x) j = mgmtOf s j := rfl
@[simp] theorem portOf_setCore (i : Nat) (x : Core) (j : Nat) : portOf (setCore s i x) j = portOf s j := rfl
@[simp] theorem fnOf_setCore (i : Nat) (x : Core) (j : Nat) : fnOf (setCore s i x) j = fnOf s j := rfl
@[simp] theorem odGet_setCluster (i : Nat) (x : Cluster) (k : Nat) : odGet (setCluster s i x) k = odGet s k := rfl
@[simp] theorem domGet_setCluster (i : Nat) (x : Cluster) (k : Nat) : domGet (setCluster s i x) k = domGet s k := rfl
@[simp] theorem coreOf_setCluster (i : Nat) (x : Cluster) (j : Nat) : coreOf (setCluster s i x) j = coreOf s j := rfl
@[simp] theorem clusterOf_setCluster (i : Nat) (x : Cluster) (j : Nat) :
    clusterOf (setCluster s i x) j = if j = i then x else clusterOf s j := kvGet_set _ _ _ _ _
@[simp] theorem arrOf_setCluster (i : Nat) (x : Cluster) (j : Nat) : arrOf (setCluster s i x) j = arrOf s j := rfl
@[simp] theorem chainOf_setCluster (i : Nat) (x : Cluster) (j : Nat) : chainOf (setCluster s i x) j = chainOf s j := rfl
@[simp] theorem frameOf_setCluster (i : Nat) (x : Cluster) (j : Nat) : frameOf (setCluster s i x) j = frameOf s j := rfl
@[simp] theorem partOf_setCluster (i : Nat) (x : Cluster) (j : Nat) : partOf (setCluster s i x) j = partOf s j := rfl
@[simp] theorem sessOf_setCluster (i : Nat) (x : Cluster) (j : Nat) : sessOf (setCluster s i x) j = sessOf s j := rfl
@[simp] theorem subOf_setCluster (i : Nat) (x : Cluster) (j : Nat) : subOf (setCluster s i x) j = subOf s j := rfl
@[simp] theorem compOf_setCluster (i : Nat) (x : Cluster) (j : Nat) : compOf (setCluster s i x) j = compOf s j := rfl
@[simp] theorem wsetOf_setCluster (i : Nat) (x : Cluster) (j : Nat) : wsetOf (setCluster s i x) j = wsetOf s j := rfl
@[simp] theorem blkOf_setCluster (i : Nat) (x : Cluster) (j : Nat) : blkOf (setCluster s i x) j = blkOf s j := rfl
@[simp] theorem sensorOf_setCluster (i : Nat) (x : Cluster) (j : Nat) : sensorOf (setCluster s i x) j = sensorOf s j := rfl
@[simp] theorem mgmtOf_setCluster (i : Nat) (x : Cluster) (j : Nat) : mgmtOf (setCluster s i x) j = mgmtOf s j := rfl
@[simp] theorem portOf_setCluster (i : Nat) (x : Cluster) (j : Nat) : portOf (setCluster s i x) j = portOf s j := rfl
@[simp] theorem fnOf_setCluster (i : Nat) (x : Cluster) (j : Nat) : fnOf (setCluster s i x) j = fnOf s j := rfl
@[simp] theorem odGet_setArr (i : Nat) (x : Arr) (k : Nat) : odGet (setArr s i x) k = odGet s k := rfl
@[simp] theorem domGet_setArr (i : Nat) (x : Arr) (k : Nat) : domGet (setArr s i x) k = domGet s k := rfl
@[simp] theorem coreOf_setArr (i : Nat) (x : Arr) (j : Nat) : coreOf (setArr s i x) j = coreOf s j := rfl
@[simp] theorem clusterOf_setArr (i : Nat) (x : Arr) (j : Nat) : clusterOf (setArr s i x) j = clusterOf s j := rfl
@[simp] theorem arrOf_setArr (i : Nat) (x : Arr) (j : Nat) :
    arrOf (setArr s i x) j = if j = i then x else arrOf s j := kvGet_set _ _ _ _ _
@[simp] theorem chainOf_setArr (i : Nat) (x : Arr) (j : Nat) : chainOf (setArr s i x) j = chainOf s j := rfl
@[simp] theorem frameOf_setArr (i : Nat) (x : Arr) (j : Nat) : frameOf (setArr s i x) j = frameOf s j := rfl
@[simp] theorem partOf_setArr (i : Nat) (x : Arr) (j : Nat) : partOf (setArr s i x) j = partOf s j := rfl
@[simp] theorem sessOf_setArr (i : Nat) (x : Arr) (j : Nat) : sessOf (setArr s i x) j = sessOf s j := rfl
@[simp] theorem subOf_setArr (i : Nat) (x : Arr) (j : Nat) : subOf (setArr s i x) j = subOf s j := rfl
@[simp] theorem compOf_setArr (i : Nat) (x : Arr) (j : Nat) : compOf (setArr s i x) j = compOf s j := rfl
@[simp] theorem wsetOf_setArr (i : Nat) (x : Arr) (j : Nat) : wsetOf (setArr s i x) j = wsetOf s j := rfl
@[simp] theorem blkOf_setArr (i : Nat) (x : Arr) (j : Nat) : blkOf (setArr s i x) j = blkOf s j := rfl
@[simp] theorem sensorOf_setArr (i : Nat) (x : Arr) (j : Nat) : sensorOf (setArr s i x) j = sensorOf s j := rfl
@[simp] theorem mgmtOf_setArr (i : Nat) (x : Arr) (j : Nat) : mgmtOf (setArr s i x) j = mgmtOf s j := rfl
@[simp] theorem portOf_setArr (i : Nat) (x : Arr) (j : Nat) : portOf (setArr s i x) j = portOf s j := rfl
@[simp] theorem fnOf_setArr (i : Nat) (x : Arr) (j : Nat) : fnOf (setArr s i x) j = fnOf s j := rfl
@[simp] theorem odGet_setChain (i : Nat) (x : ChainState) (k : Nat) : odGet (setChain s i x) k = odGet s k := rfl
@[simp] theorem domGet_setChain (i : Nat) (x : ChainState) (k : Nat) : domGet (setChain s i x) k = domGet s k := rfl
@[simp] theorem coreOf_setChain (i : Nat) (x : ChainState) (j : Nat) : coreOf (setChain s i x) j = coreOf s j := rfl
@[simp] theorem clusterOf_setChain (i : Nat) (x : ChainState) (j : Nat) : clusterOf (setChain s i x) j = clusterOf s j := rfl
@[simp] theorem arrOf_setChain (i : Nat) (x : ChainState) (j : Nat) : arrOf (setChain s i x) j = arrOf s j := rfl
@[simp] theorem chainOf_setChain (i : Nat) (x : ChainState) (j : Nat) :
    chainOf (setChain s i x) j = if j = i then x else chainOf s j := kvGet_set _ _ _ _ _
@[simp] theorem frameOf_setChain (i : Nat) (x : ChainState) (j : Nat) : frameOf (setChain s i x) j = frameOf s j := rfl
@[simp] theorem partOf_setChain (i : Nat) (x : ChainState) (j : Nat) : partOf (setChain s i x) j = partOf s j := rfl
@[simp] theorem sessOf_setChain (i : Nat) (x : ChainState) (j : Nat) : sessOf (setChain s i x) j = sessOf s j := rfl
@[simp] theorem subOf_setChain (i : Nat) (x : ChainState) (j : Nat) : subOf (setChain s i x) j = subOf s j := rfl
@[simp] theorem compOf_setChain (i : Nat) (x : ChainState) (j : Nat) : compOf (setChain s i x) j = compOf s j := rfl
@[simp] theorem wsetOf_setChain (i : Nat) (x : ChainState) (j : Nat) : wsetOf (setChain s i x) j = wsetOf s j := rfl
@[simp] theorem blkOf_setChain (i : Nat) (x : ChainState) (j : Nat) : blkOf (setChain s i x) j = blkOf s j := rfl
@[simp] theorem sensorOf_setChain (i : Nat) (x : ChainState) (j : Nat) : sensorOf (setChain s i x) j = sensorOf s j := rfl
@[simp] theorem mgmtOf_setChain (i : Nat) (x : ChainState) (j : Nat) : mgmtOf (setChain s i x) j = mgmtOf s j := rfl
@[simp] theorem portOf_setChain (i : Nat) (x : ChainState) (j : Nat) : portOf (setChain s i x) j = portOf s j := rfl
@[simp] theorem fnOf_setChain (i : Nat) (x : ChainState) (j : Nat) : fnOf (setChain s i x) j = fnOf s j := rfl
@[simp] theorem odGet_setFrame (i : Nat) (x : Frame) (k : Nat) : odGet (setFrame s i x) k = odGet s k := rfl
@[simp] theorem domGet_setFrame (i : Nat) (x : Frame) (k : Nat) : domGet (setFrame s i x) k = domGet s k := rfl
@[simp] theorem coreOf_setFrame (i : Nat) (x : Frame) (j : Nat) : coreOf (setFrame s i x) j = coreOf s j := rfl
@[simp] theorem clusterOf_setFrame (i : Nat) (x : Frame) (j : Nat) : clusterOf (setFrame s i x) j = clusterOf s j := rfl
@[simp] theorem arrOf_setFrame (i : Nat) (x : Frame) (j : Nat) : arrOf (setFrame s i x) j = arrOf s j := rfl
@[simp] theorem chainOf_setFrame (i : Nat) (x : Frame) (j : Nat) : chainOf (setFrame s i x) j = chainOf s j := rfl
@[simp] theorem frameOf_setFrame (i : Nat) (x : Frame) (j : Nat) :
    frameOf (setFrame s i x) j = if j = i then x else frameOf s j := kvGet_set _ _ _ _ _
@[simp] theorem partOf_setFrame (i : Nat) (x : Frame) (j : Nat) : partOf (setFrame s i x) j = partOf s j := rfl
@[simp] theorem sessOf_setFrame (i : Nat) (x : Frame) (j : Nat) : sessOf (setFrame s i x) j = sessOf s j := rfl
@[simp] theorem subOf_setFrame (i : Nat) (x : Frame) (j : Nat) : subOf (setFrame s i x) j = subOf s j := rfl
@[simp] theorem compOf_setFrame (i : Nat) (x : Frame) (j : Nat) : compOf (setFrame s i x) j = compOf s j := rfl
@[simp] theorem wsetOf_setFrame (i : Nat) (x : Frame) (j : Nat) : wsetOf (setFrame s i x) j = wsetOf s j := rfl
@[simp] theorem blkOf_setFrame (i : Nat) (x : Frame) (j : Nat) : blkOf (setFrame s i x) j = blkOf s j := rfl
@[simp] theorem sensorOf_setFrame (i : Nat) (x : Frame) (j : Nat) : sensorOf (setFrame s i x) j = sensorOf s j := rfl
@[simp] theorem mgmtOf_setFrame (i : Nat) (x : Frame) (j : Nat) : mgmtOf (setFrame s i x) j = mgmtOf s j := rfl
@[simp] theorem portOf_setFrame (i : Nat) (x : Frame) (j : Nat) : portOf (setFrame s i x) j = portOf s j := rfl
@[simp] theorem fnOf_setFrame (i : Nat) (x : Frame) (j : Nat) : fnOf (setFrame s i x) j = fnOf s j := rfl
@[simp] theorem odGet_setPart (i : Nat) (x : Part) (k : Nat) : odGet (setPart s i x) k = odGet s k := rfl
@[simp] theorem domGet_setPart (i : Nat) (x : Part) (k : Nat) : domGet (setPart s i x) k = domGet s k := rfl
@[simp] theorem coreOf_setPart (i : Nat) (x : Part) (j : Nat) : coreOf (setPart s i x) j = coreOf s j := rfl
@[simp] theorem clusterOf_setPart (i : Nat) (x : Part) (j : Nat) : clusterOf (setPart s i x) j = clusterOf s j := rfl
@[simp] theorem arrOf_setPart (i : Nat) (x : Part) (j : Nat) : arrOf (setPart s i x) j = arrOf s j := rfl
@[simp] theorem chainOf_setPart (i : Nat) (x : Part) (j : Nat) : chainOf (setPart s i x) j = chainOf s j := rfl
@[simp] theorem frameOf_setPart (i : Nat) (x : Part) (j : Nat) : frameOf (setPart s i x) j = frameOf s j := rfl
@[simp] theorem partOf_setPart (i : Nat) (x : Part) (j : Nat) :
    partOf (setPart s i x) j = if j = i then x else partOf s j := kvGet_set _ _ _ _ _
@[simp] theorem sessOf_setPart (i : Nat) (x : Part) (j : Nat) : sessOf (setPart s i x) j = sessOf s j := rfl
@[simp] theorem subOf_setPart (i : Nat) (x : Part) (j : Nat) : subOf (setPart s i x) j = subOf s j := rfl
@[simp] theorem compOf_setPart (i : Nat) (x : Part) (j : Nat) : compOf (setPart s i x) j = compOf s j := rfl
@[simp] theorem wsetOf_setPart (i : Nat) (x : Part) (j : Nat) : wsetOf (setPart s i x) j = wsetOf s j := rfl
@[simp] theorem blkOf_setPart (i : Nat) (x : Part) (j : Nat) : blkOf (setPart s i x) j = blkOf s j := rfl
@[simp] theorem sensorOf_setPart (i : Nat) (x : Part) (j : Nat) : sensorOf (setPart s i x) j = sensorOf s j := rfl
@[simp] theorem mgmtOf_setPart (i : Nat) (x : Part) (j : Nat) : mgmtOf (setPart s i x) j = mgmtOf s j := rfl
@[simp] theorem portOf_setPart (i : Nat) (x : Part) (j : Nat) : portOf (setPart s i x) j = portOf s j := rfl
@[simp] theorem fnOf_setPart (i : Nat) (x : Part) (j : Nat) : fnOf (setPart s i x) j = fnOf s j := rfl
@[simp] theorem odGet_setSess (i : Nat) (x : Session) (k : Nat) : odGet (setSess s i x) k = odGet s k := rfl
@[simp] theorem domGet_setSess (i : Nat) (x : Session) (k : Nat) : domGet (setSess s i x) k = domGet s k := rfl
@[simp] theorem coreOf_setSess (i : Nat) (x : Session) (j : Nat) : coreOf (setSess s i x) j = coreOf s j := rfl
@[simp] theorem clusterOf_setSess (i : Nat) (x : Session) (j : Nat) : clusterOf (setSess s i x) j = clusterOf s j := rfl
@[simp] theorem arrOf_setSess (i : Nat) (x : Session) (j : Nat) : arrOf (setSess s i x) j = arrOf s j := rfl
@[simp] theorem chainOf_setSess (i : Nat) (x : Session) (j : Nat) : chainOf (setSess s i x) j = chainOf s j := rfl
@[simp] theorem frameOf_setSess (i : Nat) (x : Session) (j : Nat) : frameOf (setSess s i x) j = frameOf s j := rfl
@[simp] theorem partOf_setSess (i : Nat) (x : Session) (j : Nat) : partOf (setSess s i x) j = partOf s j := rfl
@[simp] theorem sessOf_setSess (i : Nat) (x : Session) (j : Nat) :
    sessOf (setSess s i x) j = if j = i then x else sessOf s j := kvGet_set _ _ _ _ _
@[simp] theorem subOf_setSess (i : Nat) (x : Session) (j : Nat) : subOf (setSess s i x) j = subOf s j := rfl
@[simp] theorem compOf_setSess (i : Nat) (x : Session) (j : Nat) : compOf (setSess s i x) j = compOf s j := rfl
@[simp] theorem wsetOf_setSess (i : Nat) (x : Session) (j : Nat) : wsetOf (setSess s i x) j = wsetOf s j := rfl
@[simp] theorem blkOf_setSess (i : Nat) (x : Session) (j : Nat) : blkOf (setSess s i x) j = blkOf s j := rfl
@[simp] theorem sensorOf_setSess (i : Nat) (x : Session) (j : Nat) : sensorOf (setSess s i x) j = sensorOf s j := rfl
@[simp] theorem mgmtOf_setSess (i : Nat) (x : Session) (j : Nat) : mgmtOf (setSess s i x) j = mgmtOf s j := rfl
@[simp] theorem portOf_setSess (i : Nat) (x : Session) (j : Nat) : portOf (setSess s i x) j = portOf s j := rfl
@[simp] theorem fnOf_setSess (i : Nat) (x : Session) (j : Nat) : fnOf (setSess s i x) j = fnOf s j := rfl
@[simp] theorem odGet_setSub (i : Nat) (x : SubRing) (k : Nat) : odGet (setSub s i x) k = odGet s k := rfl
@[simp] theorem domGet_setSub (i : Nat) (x : SubRing) (k : Nat) : domGet (setSub s i x) k = domGet s k := rfl
@[simp] theorem coreOf_setSub (i : Nat) (x : SubRing) (j : Nat) : coreOf (setSub s i x) j = coreOf s j := rfl
@[simp] theorem clusterOf_setSub (i : Nat) (x : SubRing) (j : Nat) : clusterOf (setSub s i x) j = clusterOf s j := rfl
@[simp] theorem arrOf_setSub (i : Nat) (x : SubRing) (j : Nat) : arrOf (setSub s i x) j = arrOf s j := rfl
@[simp] theorem chainOf_setSub (i : Nat) (x : SubRing) (j : Nat) : chainOf (setSub s i x) j = chainOf s j := rfl
@[simp] theorem frameOf_setSub (i : Nat) (x : SubRing) (j : Nat) : frameOf (setSub s i x) j = frameOf s j := rfl
@[simp] theorem partOf_setSub (i : Nat) (x : SubRing) (j : Nat) : partOf (setSub s i x) j = partOf s j := rfl
@[simp] theorem sessOf_setSub (i : Nat) (x : SubRing) (j : Nat) : sessOf (setSub s i x) j = sessOf s j := rfl
@[simp] theorem subOf_setSub (i : Nat) (x : SubRing) (j : Nat) :
    subOf (setSub s i x) j = if j = i then x else subOf s j := kvGet_set _ _ _ _ _
@[simp] theorem compOf_setSub (i : Nat) (x : SubRing) (j : Nat) : compOf (setSub s i x) j = compOf s j := rfl
@[simp] theorem wsetOf_setSub (i : Nat) (x : SubRing) (j : Nat) : wsetOf (setSub s i x) j = wsetOf s j := rfl
@[simp] theorem blkOf_setSub (i : Nat) (x : SubRing) (j : Nat) : blkOf (setSub s i x) j = blkOf s j := rfl
@[simp] theorem sensorOf_setSub (i : Nat) (x : SubRing) (j : Nat) : sensorOf (setSub s i x) j = sensorOf s j := rfl
@[simp] theorem mgmtOf_setSub (i : Nat) (x : SubRing) (j : Nat) : mgmtOf (setSub s i x) j = mgmtOf s j := rfl
@[simp] theorem portOf_setSub (i : Nat) (x : SubRing) (j : Nat) : portOf (setSub s i x) j = portOf s j := rfl
@[simp] theorem fnOf_setSub (i : Nat) (x : SubRing) (j : Nat) : fnOf (setSub s i x) j = fnOf s j := rfl
@[simp] theorem odGet_setComp (i : Nat) (x : CompRing) (k : Nat) : odGet (setComp s i x) k = odGet s k := rfl
@[simp] theorem domGet_setComp (i : Nat) (x : CompRing) (k : Nat) : domGet (setComp s i x) k = domGet s k := rfl
@[simp] theorem coreOf_setComp (i : Nat) (x : CompRing) (j : Nat) : coreOf (setComp s i x) j = coreOf s j := rfl
@[simp] theorem clusterOf_setComp (i : Nat) (x : CompRing) (j : Nat) : clusterOf (setComp s i x) j = clusterOf s j := rfl
@[simp] theorem arrOf_setComp (i : Nat) (x : CompRing) (j : Nat) : arrOf (setComp s i x) j = arrOf s j := rfl
@[simp] theorem chainOf_setComp (i : Nat) (x : CompRing) (j : Nat) : chainOf (setComp s i x) j = chainOf s j := rfl
@[simp] theorem frameOf_setComp (i : Nat) (x : CompRing) (j : Nat) : frameOf (setComp s i x) j = frameOf s j := rfl
@[simp] theorem partOf_setComp (i : Nat) (x : CompRing) (j : Nat) : partOf (setComp s i x) j = partOf s j := rfl
@[simp] theorem sessOf_setComp (i : Nat) (x : CompRing) (j : Nat) : sessOf (setComp s i x) j = sessOf s j := rfl
@[simp] theorem subOf_setComp (i : Nat) (x : CompRing) (j : Nat) : subOf (setComp s i x) j = subOf s j := rfl
@[simp] theorem compOf_setComp (i : Nat) (x : CompRing) (j : Nat) :
    compOf (setComp s i x) j = if j = i then x else compOf s j := kvGet_set _ _ _ _ _
@[simp] theorem wsetOf_setComp (i : Nat) (x : CompRing) (j : Nat) : wsetOf (setComp s i x) j = wsetOf s j := rfl
@[simp] theorem blkOf_setComp (i : Nat) (x : CompRing) (j : Nat) : blkOf (setComp s i x) j = blkOf s j := rfl
@[simp] theorem sensorOf_setComp (i : Nat) (x : CompRing) (j : Nat) : sensorOf (setComp s i x) j = sensorOf s j := rfl
@[simp] theorem mgmtOf_setComp (i : Nat) (x : CompRing) (j : Nat) : mgmtOf (setComp s i x) j = mgmtOf s j := rfl
@[simp] theorem portOf_setComp (i : Nat) (x : CompRing) (j : Nat) : portOf (setComp s i x) j = portOf s j := rfl
@[simp] theorem fnOf_setComp (i : Nat) (x : CompRing) (j : Nat) : fnOf (setComp s i x) j = fnOf s j := rfl
@[simp] theorem odGet_setWset (i : Nat) (x : WSet) (k : Nat) : odGet (setWset s i x) k = odGet s k := rfl
@[simp] theorem domGet_setWset (i : Nat) (x : WSet) (k : Nat) : domGet (setWset s i x) k = domGet s k := rfl
@[simp] theorem coreOf_setWset (i : Nat) (x : WSet) (j : Nat) : coreOf (setWset s i x) j = coreOf s j := rfl
@[simp] theorem clusterOf_setWset (i : Nat) (x : WSet) (j : Nat) : clusterOf (setWset s i x) j = clusterOf s j := rfl
@[simp] theorem arrOf_setWset (i : Nat) (x : WSet) (j : Nat) : arrOf (setWset s i x) j = arrOf s j := rfl
@[simp] theorem chainOf_setWset (i : Nat) (x : WSet) (j : Nat) : chainOf (setWset s i x) j = chainOf s j := rfl
@[simp] theorem frameOf_setWset (i : Nat) (x : WSet) (j : Nat) : frameOf (setWset s i x) j = frameOf s j := rfl
@[simp] theorem partOf_setWset (i : Nat) (x : WSet) (j : Nat) : partOf (setWset s i x) j = partOf s j := rfl
@[simp] theorem sessOf_setWset (i : Nat) (x : WSet) (j : Nat) : sessOf (setWset s i x) j = sessOf s j := rfl
@[simp] theorem subOf_setWset (i : Nat) (x : WSet) (j : Nat) : subOf (setWset s i x) j = subOf s j := rfl
@[simp] theorem compOf_setWset (i : Nat) (x : WSet) (j : Nat) : compOf (setWset s i x) j = compOf s j := rfl
@[simp] theorem wsetOf_setWset (i : Nat) (x : WSet) (j : Nat) :
    wsetOf (setWset s i x) j = if j = i then x else wsetOf s j := kvGet_set _ _ _ _ _
@[simp] theorem blkOf_setWset (i : Nat) (x : WSet) (j : Nat) : blkOf (setWset s i x) j = blkOf s j := rfl
@[simp] theorem sensorOf_setWset (i : Nat) (x : WSet) (j : Nat) : sensorOf (setWset s i x) j = sensorOf s j := rfl
@[simp] theorem mgmtOf_setWset (i : Nat) (x : WSet) (j : Nat) : mgmtOf (setWset s i x) j = mgmtOf s j := rfl
@[simp] theorem portOf_setWset (i : Nat) (x : WSet) (j : Nat) : portOf (setWset s i x) j = portOf s j := rfl
@[simp] theorem fnOf_setWset (i : Nat) (x : WSet) (j : Nat) : fnOf (setWset s i x) j = fnOf s j := rfl
@[simp] theorem odGet_setBlk (i : Nat) (x : Block) (k : Nat) : odGet (setBlk s i x) k = odGet s k := rfl
@[simp] theorem domGet_setBlk (i : Nat) (x : Block) (k : Nat) : domGet (setBlk s i x) k = domGet s k := rfl
@[simp] theorem coreOf_setBlk (i : Nat) (x : Block) (j : Nat) : coreOf (setBlk s i x) j = coreOf s j := rfl
@[simp] theorem clusterOf_setBlk (i : Nat) (x : Block) (j : Nat) : clusterOf (setBlk s i x) j = clusterOf s j := rfl
@[simp] theorem arrOf_setBlk (i : Nat) (x : Block) (j : Nat) : arrOf (setBlk s i x) j = arrOf s j := rfl
@[simp] theorem chainOf_setBlk (i : Nat) (x : Block) (j : Nat) : chainOf (setBlk s i x) j = chainOf s j := rfl
@[simp] theorem frameOf_setBlk (i : Nat) (x : Block) (j : Nat) : frameOf (setBlk s i x) j = frameOf s j := rfl
@[simp] theorem partOf_setBlk (i : Nat) (x : Block) (j : Nat) : partOf (setBlk s i x) j = partOf s j := rfl
@[simp] theorem sessOf_setBlk (i : Nat) (x : Block) (j : Nat) : sessOf (setBlk s i x) j = sessOf s j := rfl
@[simp] theorem subOf_setBlk (i : Nat) (x : Block) (j : Nat) : subOf (setBlk s i x) j = subOf s j := rfl
@[simp] theorem compOf_setBlk (i : Nat) (x : Block) (j : Nat) : compOf (setBlk s i x) j = compOf s j := rfl
@[simp] theorem wsetOf_setBlk (i : Nat) (x : Block) (j : Nat) : wsetOf (setBlk s i x) j = wsetOf s j := rfl
@[simp] theorem blkOf_setBlk (i : Nat) (x : Block) (j : Nat) :
    blkOf (setBlk s i x) j = if j = i then x else blkOf s j := kvGet_set _ _ _ _ _
@[simp] theorem sensorOf_setBlk (i : Nat) (x : Block) (j : Nat) : sensorOf (setBlk s i x) j = sensorOf s j := rfl
@[simp] theorem mgmtOf_setBlk (i : Nat) (x : Block) (j : Nat) : mgmtOf (setBlk s i x) j = mgmtOf s j := rfl
@[simp] theorem portOf_setBlk (i : Nat) (x : Block) (j : Nat) : portOf (setBlk s i x) j = portOf s j := rfl
@[simp] theorem fnOf_setBlk (i : Nat) (x : Block) (j : Nat) : fnOf (setBlk s i x) j = fnOf s j := rfl
@[simp] theorem odGet_setSensor (i : Nat) (x : Sensor) (k : Nat) : odGet (setSensor s i x) k = odGet s k := rfl
@[simp] theorem domGet_setSensor (i : Nat) (x : Sensor) (k : Nat) : domGet (setSensor s i x) k = domGet s k := rfl
@[simp] theorem coreOf_setSensor (i : Nat) (x : Sensor) (j : Nat) : coreOf (setSensor s i x) j = coreOf s j := rfl
@[simp] theorem clusterOf_setSensor (i : Nat) (x : Sensor) (j : Nat) : clusterOf (setSensor s i x) j = clusterOf s j := rfl
@[simp] theorem arrOf_setSensor (i : Nat) (x : Sensor) (j : Nat) : arrOf (setSensor s i x) j = arrOf s j := rfl
@[simp] theorem chainOf_setSensor (i : Nat) (x : Sensor) (j : Nat) : chainOf (setSensor s i x) j = chainOf s j := rfl
@[simp] theorem frameOf_setSensor (i : Nat) (x : Sensor) (j : Nat) : frameOf (setSensor s i x) j = frameOf s j := rfl
@[simp] theorem partOf_setSensor (i : Nat) (x : Sensor) (j : Nat) : partOf (setSensor s i x) j = partOf s j := rfl
@[simp] theorem sessOf_setSensor (i : Nat) (x : Sensor) (j : Nat) : sessOf (setSensor s i x) j = sessOf s j := rfl
@[simp] theorem subOf_setSensor (i : Nat) (x : Sensor) (j : Nat) : subOf (setSensor s i x) j = subOf s j := rfl
@[simp] theorem compOf_setSensor (i : Nat) (x : Sensor) (j : Nat) : compOf (setSensor s i x) j = compOf s j := rfl
@[simp] theorem wsetOf_setSensor (i : Nat) (x : Sensor) (j : Nat) : wsetOf (setSensor s i x) j = wsetOf s j := rfl
@[simp] theorem blkOf_setSensor (i : Nat) (x : Sensor) (j : Nat) : blkOf (setSensor s i x) j = blkOf s j := rfl
@[simp] theorem sensorOf_setSensor (i : Nat) (x : Sensor) (j : Nat) :
    sensorOf (setSensor s i x) j = if j = i then x else sensorOf s j := kvGet_set _ _ _ _ _
@[simp] theorem mgmtOf_setSensor (i : Nat) (x : Sensor) (j : Nat) : mgmtOf (setSensor s i x) j = mgmtOf s j := rfl
@[simp] theorem portOf_setSensor (i : Nat) (x : Sensor) (j : Nat) : portOf (setSensor s i x) j = portOf s j := rfl
@[simp] theorem fnOf_setSensor (i : Nat) (x : Sensor) (j : Nat) : fnOf (setSensor s i x) j = fnOf s j := rfl
@[simp] theorem odGet_setMgmt (i : Nat) (x : Mgmt) (k : Nat) : odGet (setMgmt s i x) k = odGet s k := rfl
@[simp] theorem domGet_setMgmt (i : Nat) (x : Mgmt) (k : Nat) : domGet (setMgmt s i x) k = domGet s k := rfl
@[simp] theorem coreOf_setMgmt (i : Nat) (x : Mgmt) (j : Nat) : coreOf (setMgmt s i x) j = coreOf s j := rfl
@[simp] theorem clusterOf_setMgmt (i : Nat) (x : Mgmt) (j : Nat) : clusterOf (setMgmt s i x) j = clusterOf s j := rfl
@[simp] theorem arrOf_setMgmt (i : Nat) (x : Mgmt) (j : Nat) : arrOf (setMgmt s i x) j = arrOf s j := rfl
@[simp] theorem chainOf_setMgmt (i : Nat) (x : Mgmt) (j : Nat) : chainOf (setMgmt s i x) j = chainOf s j := rfl
@[simp] theorem frameOf_setMgmt (i : Nat) (x : Mgmt) (j : Nat) : frameOf (setMgmt s i x) j = frameOf s j := rfl
@[simp] theorem partOf_setMgmt (i : Nat) (x : Mgmt) (j : Nat) : partOf (setMgmt s i x) j = partOf s j := rfl
@[simp] theorem sessOf_setMgmt (i : Nat) (x : Mgmt) (j : Nat) : sessOf (setMgmt s i x) j = sessOf s j := rfl
@[simp] theorem subOf_setMgmt (i : Nat) (x : Mgmt) (j : Nat) : subOf (setMgmt s i x) j = subOf s j := rfl
@[simp] theorem compOf_setMgmt (i : Nat) (x : Mgmt) (j : Nat) : compOf (setMgmt s i x) j = compOf s j := rfl
@[simp] theorem wsetOf_setMgmt (i : Nat) (x : Mgmt) (j : Nat) : wsetOf (setMgmt s i x) j = wsetOf s j := rfl
@[simp] theorem blkOf_setMgmt (i : Nat) (x : Mgmt) (j : Nat) : blkOf (setMgmt s i x) j = blkOf s j := rfl
@[simp] theorem sensorOf_setMgmt (i : Nat) (x : Mgmt) (j : Nat) : sensorOf (setMgmt s i x) j = sensorOf s j := rfl
@[simp] theorem mgmtOf_setMgmt (i : Nat) (x : Mgmt) (j : Nat) :
    mgmtOf (setMgmt s i x) j = if j = i then x else mgmtOf s j := kvGet_set _ _ _ _ _
@[simp] theorem portOf_setMgmt (i : Nat) (x : Mgmt) (j : Nat) : portOf (setMgmt s i x) j = portOf s j := rfl
@[simp] theorem fnOf_setMgmt (i : Nat) (x : Mgmt) (j : Nat) : fnOf (setMgmt s i x) j = fnOf s j := rfl
@[simp] theorem odGet_updPort (i : Nat) (f : PciePort → PciePort) (k : Nat) : odGet (updPort s i f) k = odGet s k := rfl
@[simp] theorem domGet_updPort (i : Nat) (f : PciePort → PciePort) (k : Nat) : domGet (updPort s i f) k = domGet s k := rfl
@[simp] theorem coreOf_updPort (i : Nat) (f : PciePort → PciePort) (j : Nat) : coreOf (updPort s i f) j = coreOf s j := rfl
@[simp] theorem clusterOf_updPort (i : Nat) (f : PciePort → PciePort) (j : Nat) : clusterOf (updPort s i f) j = clusterOf s j := rfl
@[simp] theorem arrOf_updPort (i : Nat) (f : PciePort → PciePort) (j : Nat) : arrOf (updPort s i f) j = arrOf s j := rfl
@[simp] theorem chainOf_updPort (i : Nat) (f : PciePort → PciePort) (j : Nat) : chainOf (updPort s i f) j = chainOf s j := rfl
@[simp] theorem frameOf_updPort (i : Nat) (f : PciePort → PciePort) (j : Nat) : frameOf (updPort s i f) j = frameOf s j := rfl
@[simp] theorem partOf_updPort (i : Nat) (f : PciePort → PciePort) (j : Nat) : partOf (updPort s i f) j = partOf s j := rfl
@[simp] theorem sessOf_updPort (i : Nat) (f : PciePort → PciePort) (j : Nat) : sessOf (updPort s i f) j = sessOf s j := rfl
@[simp] theorem subOf_updPort (i : Nat) (f : PciePort → PciePort) (j : Nat) : subOf (updPort s i f) j = subOf s j := rfl
@[simp] theorem compOf_updPort (i : Nat) (f : PciePort → PciePort) (j : Nat) : compOf (updPort s i f) j = compOf s j := rfl
@[simp] theorem wsetOf_updPort (i : Nat) (f : PciePort → PciePort) (j : Nat) : wsetOf (updPort s i f) j = wsetOf s j := rfl
@[simp] theorem blkOf_updPort (i : Nat) (f : PciePort → PciePort) (j : Nat) : blkOf (updPort s i f) j = blkOf s j := rfl
@[simp] theorem sensorOf_updPort (i : Nat) (f : PciePort → PciePort) (j : Nat) : sensorOf (updPort s i f) j = sensorOf s j := rfl
@[simp] theorem mgmtOf_updPort (i : Nat) (f : PciePort → PciePort) (j : Nat) : mgmtOf (updPort s i f) j = mgmtOf s j := rfl
@[simp] theorem portOf_updPort (i : Nat) (f : PciePort → PciePort) (j : Nat) :
    portOf (updPort s i f) j = if j = i then f (portOf s i) else portOf s j := kvGet_set _ _ _ _ _
@[simp] theorem fnOf_updPort (i : Nat) (f : PciePort → PciePort) (j : Nat) : fnOf (updPort s i f) j = fnOf s j := rfl
@[simp] theorem odGet_updFn (i : Nat) (f : HostFn → HostFn) (k : Nat) : odGet (updFn s i f) k = odGet s k := rfl
@[simp] theorem domGet_updFn (i : Nat) (f : HostFn → HostFn) (k : Nat) : domGet (updFn s i f) k = domGet s k := rfl
@[simp] theorem coreOf_updFn (i : Nat) (f : HostFn → HostFn) (j : Nat) : coreOf (updFn s i f) j = coreOf s j := rfl
@[simp] theorem clusterOf_updFn (i : Nat) (f : HostFn → HostFn) (j : Nat) : clusterOf (updFn s i f) j = clusterOf s j := rfl
@[simp] theorem arrOf_updFn (i : Nat) (f : HostFn → HostFn) (j : Nat) : arrOf (updFn s i f) j = arrOf s j := rfl
@[simp] theorem chainOf_updFn (i : Nat) (f : HostFn → HostFn) (j : Nat) : chainOf (updFn s i f) j = chainOf s j := rfl
@[simp] theorem frameOf_updFn (i : Nat) (f : HostFn → HostFn) (j : Nat) : frameOf (updFn s i f) j = frameOf s j := rfl
@[simp] theorem partOf_updFn (i : Nat) (f : HostFn → HostFn) (j : Nat) : partOf (updFn s i f) j = partOf s j := rfl
@[simp] theorem sessOf_updFn (i : Nat) (f : HostFn → HostFn) (j : Nat) : sessOf (updFn s i f) j = sessOf s j := rfl
@[simp] theorem subOf_updFn (i : Nat) (f : HostFn → HostFn) (j : Nat) : subOf (updFn s i f) j = subOf s j := rfl
@[simp] theorem compOf_updFn (i : Nat) (f : HostFn → HostFn) (j : Nat) : compOf (updFn s i f) j = compOf s j := rfl
@[simp] theorem wsetOf_updFn (i : Nat) (f : HostFn → HostFn) (j : Nat) : wsetOf (updFn s i f) j = wsetOf s j := rfl
@[simp] theorem blkOf_updFn (i : Nat) (f : HostFn → HostFn) (j : Nat) : blkOf (updFn s i f) j = blkOf s j := rfl
@[simp] theorem sensorOf_updFn (i : Nat) (f : HostFn → HostFn) (j : Nat) : sensorOf (updFn s i f) j = sensorOf s j := rfl
@[simp] theorem mgmtOf_updFn (i : Nat) (f : HostFn → HostFn) (j : Nat) : mgmtOf (updFn s i f) j = mgmtOf s j := rfl
@[simp] theorem portOf_updFn (i : Nat) (f : HostFn → HostFn) (j : Nat) : portOf (updFn s i f) j = portOf s j := rfl
@[simp] theorem fnOf_updFn (i : Nat) (f : HostFn → HostFn) (j : Nat) :
    fnOf (updFn s i f) j = if j = i then f (fnOf s i) else fnOf s j := kvGet_set _ _ _ _ _
@[simp] theorem odGet_emit (m : OutMsg) (k : Nat) : odGet (emit s m) k = odGet s k := rfl
@[simp] theorem domGet_emit (m : OutMsg) (k : Nat) : domGet (emit s m) k = domGet s k := rfl
@[simp] theorem coreOf_emit (m : OutMsg) (j : Nat) : coreOf (emit s m) j = coreOf s j := rfl
@[simp] theorem clusterOf_emit (m : OutMsg) (j : Nat) : clusterOf (emit s m) j = clusterOf s j := rfl
@[simp] theorem arrOf_emit (m : OutMsg) (j : Nat) : arrOf (emit s m) j = arrOf s j := rfl
@[simp] theorem chainOf_emit (m : OutMsg) (j : Nat) : chainOf (emit s m) j = chainOf s j := rfl
@[simp] theorem frameOf_emit (m : OutMsg) (j : Nat) : frameOf (emit s m) j = frameOf s j := rfl
@[simp] theorem partOf_emit (m : OutMsg) (j : Nat) : partOf (emit s m) j = partOf s j := rfl
@[simp] theorem sessOf_emit (m : OutMsg) (j : Nat) : sessOf (emit s m) j = sessOf s j := rfl
@[simp] theorem subOf_emit (m : OutMsg) (j : Nat) : subOf (emit s m) j = subOf s j := rfl
@[simp] theorem compOf_emit (m : OutMsg) (j : Nat) : compOf (emit s m) j = compOf s j := rfl
@[simp] theorem wsetOf_emit (m : OutMsg) (j : Nat) : wsetOf (emit s m) j = wsetOf s j := rfl
@[simp] theorem blkOf_emit (m : OutMsg) (j : Nat) : blkOf (emit s m) j = blkOf s j := rfl
@[simp] theorem sensorOf_emit (m : OutMsg) (j : Nat) : sensorOf (emit s m) j = sensorOf s j := rfl
@[simp] theorem mgmtOf_emit (m : OutMsg) (j : Nat) : mgmtOf (emit s m) j = mgmtOf s j := rfl
@[simp] theorem portOf_emit (m : OutMsg) (j : Nat) : portOf (emit s m) j = portOf s j := rfl
@[simp] theorem fnOf_emit (m : OutMsg) (j : Nat) : fnOf (emit s m) j = fnOf s j := rfl

/-! ## The fields an update leaves -/

@[simp] theorem odSet_dom (k v : Nat) : (odSet s k v).dom = s.dom := rfl
@[simp] theorem odSet_scratch (k v : Nat) : (odSet s k v).scratch = s.scratch := rfl
@[simp] theorem odSet_stack (k v : Nat) : (odSet s k v).stack = s.stack := rfl
@[simp] theorem odSet_stackPoison (k v : Nat) : (odSet s k v).stackPoison = s.stackPoison := rfl
@[simp] theorem odSet_cores (k v : Nat) : (odSet s k v).cores = s.cores := rfl
@[simp] theorem odSet_clusters (k v : Nat) : (odSet s k v).clusters = s.clusters := rfl
@[simp] theorem odSet_arrays (k v : Nat) : (odSet s k v).arrays = s.arrays := rfl
@[simp] theorem odSet_chains (k v : Nat) : (odSet s k v).chains = s.chains := rfl
@[simp] theorem odSet_frames (k v : Nat) : (odSet s k v).frames = s.frames := rfl
@[simp] theorem odSet_parts (k v : Nat) : (odSet s k v).parts = s.parts := rfl
@[simp] theorem odSet_sessions (k v : Nat) : (odSet s k v).sessions = s.sessions := rfl
@[simp] theorem odSet_subRings (k v : Nat) : (odSet s k v).subRings = s.subRings := rfl
@[simp] theorem odSet_compRings (k v : Nat) : (odSet s k v).compRings = s.compRings := rfl
@[simp] theorem odSet_recorder (k v : Nat) : (odSet s k v).recorder = s.recorder := rfl
@[simp] theorem odSet_yield (k v : Nat) : (odSet s k v).yield = s.yield := rfl
@[simp] theorem odSet_sets (k v : Nat) : (odSet s k v).sets = s.sets := rfl
@[simp] theorem odSet_transits (k v : Nat) : (odSet s k v).transits = s.transits := rfl
@[simp] theorem odSet_blocks (k v : Nat) : (odSet s k v).blocks = s.blocks := rfl
@[simp] theorem odSet_sensors (k v : Nat) : (odSet s k v).sensors = s.sensors := rfl
@[simp] theorem odSet_plant (k v : Nat) : (odSet s k v).plant = s.plant := rfl
@[simp] theorem odSet_fabric (k v : Nat) : (odSet s k v).fabric = s.fabric := rfl
@[simp] theorem odSet_pair (k v : Nat) : (odSet s k v).pair = s.pair := rfl
@[simp] theorem odSet_pcie (k v : Nat) : (odSet s k v).pcie = s.pcie := rfl
@[simp] theorem odSet_fns (k v : Nat) : (odSet s k v).fns = s.fns := rfl
@[simp] theorem odSet_served0 (k v : Nat) : (odSet s k v).served0 = s.served0 := rfl
@[simp] theorem odSet_served1 (k v : Nat) : (odSet s k v).served1 = s.served1 := rfl
@[simp] theorem odSet_mgmt (k v : Nat) : (odSet s k v).mgmt = s.mgmt := rfl
@[simp] theorem odSet_nextMgmt (k v : Nat) : (odSet s k v).nextMgmt = s.nextMgmt := rfl
@[simp] theorem odSet_security (k v : Nat) : (odSet s k v).security = s.security := rfl
@[simp] theorem odSet_commits (k v : Nat) : (odSet s k v).commits = s.commits := rfl
@[simp] theorem odSet_stored (k v : Nat) : (odSet s k v).stored = s.stored := rfl
@[simp] theorem odSet_out (k v : Nat) : (odSet s k v).out = s.out := rfl
@[simp] theorem odSet_free (k v : Nat) : (odSet s k v).free = s.free := rfl
@[simp] theorem odSet_pending (k v : Nat) : (odSet s k v).pending = s.pending := rfl
@[simp] theorem domSet_od (k : Nat) (v : List Byte) : (domSet s k v).od = s.od := rfl
@[simp] theorem domSet_scratch (k : Nat) (v : List Byte) : (domSet s k v).scratch = s.scratch := rfl
@[simp] theorem domSet_stack (k : Nat) (v : List Byte) : (domSet s k v).stack = s.stack := rfl
@[simp] theorem domSet_stackPoison (k : Nat) (v : List Byte) : (domSet s k v).stackPoison = s.stackPoison := rfl
@[simp] theorem domSet_cores (k : Nat) (v : List Byte) : (domSet s k v).cores = s.cores := rfl
@[simp] theorem domSet_clusters (k : Nat) (v : List Byte) : (domSet s k v).clusters = s.clusters := rfl
@[simp] theorem domSet_arrays (k : Nat) (v : List Byte) : (domSet s k v).arrays = s.arrays := rfl
@[simp] theorem domSet_chains (k : Nat) (v : List Byte) : (domSet s k v).chains = s.chains := rfl
@[simp] theorem domSet_frames (k : Nat) (v : List Byte) : (domSet s k v).frames = s.frames := rfl
@[simp] theorem domSet_parts (k : Nat) (v : List Byte) : (domSet s k v).parts = s.parts := rfl
@[simp] theorem domSet_sessions (k : Nat) (v : List Byte) : (domSet s k v).sessions = s.sessions := rfl
@[simp] theorem domSet_subRings (k : Nat) (v : List Byte) : (domSet s k v).subRings = s.subRings := rfl
@[simp] theorem domSet_compRings (k : Nat) (v : List Byte) : (domSet s k v).compRings = s.compRings := rfl
@[simp] theorem domSet_recorder (k : Nat) (v : List Byte) : (domSet s k v).recorder = s.recorder := rfl
@[simp] theorem domSet_yield (k : Nat) (v : List Byte) : (domSet s k v).yield = s.yield := rfl
@[simp] theorem domSet_sets (k : Nat) (v : List Byte) : (domSet s k v).sets = s.sets := rfl
@[simp] theorem domSet_transits (k : Nat) (v : List Byte) : (domSet s k v).transits = s.transits := rfl
@[simp] theorem domSet_blocks (k : Nat) (v : List Byte) : (domSet s k v).blocks = s.blocks := rfl
@[simp] theorem domSet_sensors (k : Nat) (v : List Byte) : (domSet s k v).sensors = s.sensors := rfl
@[simp] theorem domSet_plant (k : Nat) (v : List Byte) : (domSet s k v).plant = s.plant := rfl
@[simp] theorem domSet_fabric (k : Nat) (v : List Byte) : (domSet s k v).fabric = s.fabric := rfl
@[simp] theorem domSet_pair (k : Nat) (v : List Byte) : (domSet s k v).pair = s.pair := rfl
@[simp] theorem domSet_pcie (k : Nat) (v : List Byte) : (domSet s k v).pcie = s.pcie := rfl
@[simp] theorem domSet_fns (k : Nat) (v : List Byte) : (domSet s k v).fns = s.fns := rfl
@[simp] theorem domSet_served0 (k : Nat) (v : List Byte) : (domSet s k v).served0 = s.served0 := rfl
@[simp] theorem domSet_served1 (k : Nat) (v : List Byte) : (domSet s k v).served1 = s.served1 := rfl
@[simp] theorem domSet_mgmt (k : Nat) (v : List Byte) : (domSet s k v).mgmt = s.mgmt := rfl
@[simp] theorem domSet_nextMgmt (k : Nat) (v : List Byte) : (domSet s k v).nextMgmt = s.nextMgmt := rfl
@[simp] theorem domSet_security (k : Nat) (v : List Byte) : (domSet s k v).security = s.security := rfl
@[simp] theorem domSet_commits (k : Nat) (v : List Byte) : (domSet s k v).commits = s.commits := rfl
@[simp] theorem domSet_stored (k : Nat) (v : List Byte) : (domSet s k v).stored = s.stored := rfl
@[simp] theorem domSet_out (k : Nat) (v : List Byte) : (domSet s k v).out = s.out := rfl
@[simp] theorem domSet_free (k : Nat) (v : List Byte) : (domSet s k v).free = s.free := rfl
@[simp] theorem domSet_pending (k : Nat) (v : List Byte) : (domSet s k v).pending = s.pending := rfl
@[simp] theorem setCore_od (i : Nat) (x : Core) : (setCore s i x).od = s.od := rfl
@[simp] theorem setCore_dom (i : Nat) (x : Core) : (setCore s i x).dom = s.dom := rfl
@[simp] theorem setCore_scratch (i : Nat) (x : Core) : (setCore s i x).scratch = s.scratch := rfl
@[simp] theorem setCore_stack (i : Nat) (x : Core) : (setCore s i x).stack = s.stack := rfl
@[simp] theorem setCore_stackPoison (i : Nat) (x : Core) : (setCore s i x).stackPoison = s.stackPoison := rfl
@[simp] theorem setCore_clusters (i : Nat) (x : Core) : (setCore s i x).clusters = s.clusters := rfl
@[simp] theorem setCore_arrays (i : Nat) (x : Core) : (setCore s i x).arrays = s.arrays := rfl
@[simp] theorem setCore_chains (i : Nat) (x : Core) : (setCore s i x).chains = s.chains := rfl
@[simp] theorem setCore_frames (i : Nat) (x : Core) : (setCore s i x).frames = s.frames := rfl
@[simp] theorem setCore_parts (i : Nat) (x : Core) : (setCore s i x).parts = s.parts := rfl
@[simp] theorem setCore_sessions (i : Nat) (x : Core) : (setCore s i x).sessions = s.sessions := rfl
@[simp] theorem setCore_subRings (i : Nat) (x : Core) : (setCore s i x).subRings = s.subRings := rfl
@[simp] theorem setCore_compRings (i : Nat) (x : Core) : (setCore s i x).compRings = s.compRings := rfl
@[simp] theorem setCore_recorder (i : Nat) (x : Core) : (setCore s i x).recorder = s.recorder := rfl
@[simp] theorem setCore_yield (i : Nat) (x : Core) : (setCore s i x).yield = s.yield := rfl
@[simp] theorem setCore_sets (i : Nat) (x : Core) : (setCore s i x).sets = s.sets := rfl
@[simp] theorem setCore_transits (i : Nat) (x : Core) : (setCore s i x).transits = s.transits := rfl
@[simp] theorem setCore_blocks (i : Nat) (x : Core) : (setCore s i x).blocks = s.blocks := rfl
@[simp] theorem setCore_sensors (i : Nat) (x : Core) : (setCore s i x).sensors = s.sensors := rfl
@[simp] theorem setCore_plant (i : Nat) (x : Core) : (setCore s i x).plant = s.plant := rfl
@[simp] theorem setCore_fabric (i : Nat) (x : Core) : (setCore s i x).fabric = s.fabric := rfl
@[simp] theorem setCore_pair (i : Nat) (x : Core) : (setCore s i x).pair = s.pair := rfl
@[simp] theorem setCore_pcie (i : Nat) (x : Core) : (setCore s i x).pcie = s.pcie := rfl
@[simp] theorem setCore_fns (i : Nat) (x : Core) : (setCore s i x).fns = s.fns := rfl
@[simp] theorem setCore_served0 (i : Nat) (x : Core) : (setCore s i x).served0 = s.served0 := rfl
@[simp] theorem setCore_served1 (i : Nat) (x : Core) : (setCore s i x).served1 = s.served1 := rfl
@[simp] theorem setCore_mgmt (i : Nat) (x : Core) : (setCore s i x).mgmt = s.mgmt := rfl
@[simp] theorem setCore_nextMgmt (i : Nat) (x : Core) : (setCore s i x).nextMgmt = s.nextMgmt := rfl
@[simp] theorem setCore_security (i : Nat) (x : Core) : (setCore s i x).security = s.security := rfl
@[simp] theorem setCore_commits (i : Nat) (x : Core) : (setCore s i x).commits = s.commits := rfl
@[simp] theorem setCore_stored (i : Nat) (x : Core) : (setCore s i x).stored = s.stored := rfl
@[simp] theorem setCore_out (i : Nat) (x : Core) : (setCore s i x).out = s.out := rfl
@[simp] theorem setCore_free (i : Nat) (x : Core) : (setCore s i x).free = s.free := rfl
@[simp] theorem setCore_pending (i : Nat) (x : Core) : (setCore s i x).pending = s.pending := rfl
@[simp] theorem setCluster_od (i : Nat) (x : Cluster) : (setCluster s i x).od = s.od := rfl
@[simp] theorem setCluster_dom (i : Nat) (x : Cluster) : (setCluster s i x).dom = s.dom := rfl
@[simp] theorem setCluster_scratch (i : Nat) (x : Cluster) : (setCluster s i x).scratch = s.scratch := rfl
@[simp] theorem setCluster_stack (i : Nat) (x : Cluster) : (setCluster s i x).stack = s.stack := rfl
@[simp] theorem setCluster_stackPoison (i : Nat) (x : Cluster) : (setCluster s i x).stackPoison = s.stackPoison := rfl
@[simp] theorem setCluster_cores (i : Nat) (x : Cluster) : (setCluster s i x).cores = s.cores := rfl
@[simp] theorem setCluster_arrays (i : Nat) (x : Cluster) : (setCluster s i x).arrays = s.arrays := rfl
@[simp] theorem setCluster_chains (i : Nat) (x : Cluster) : (setCluster s i x).chains = s.chains := rfl
@[simp] theorem setCluster_frames (i : Nat) (x : Cluster) : (setCluster s i x).frames = s.frames := rfl
@[simp] theorem setCluster_parts (i : Nat) (x : Cluster) : (setCluster s i x).parts = s.parts := rfl
@[simp] theorem setCluster_sessions (i : Nat) (x : Cluster) : (setCluster s i x).sessions = s.sessions := rfl
@[simp] theorem setCluster_subRings (i : Nat) (x : Cluster) : (setCluster s i x).subRings = s.subRings := rfl
@[simp] theorem setCluster_compRings (i : Nat) (x : Cluster) : (setCluster s i x).compRings = s.compRings := rfl
@[simp] theorem setCluster_recorder (i : Nat) (x : Cluster) : (setCluster s i x).recorder = s.recorder := rfl
@[simp] theorem setCluster_yield (i : Nat) (x : Cluster) : (setCluster s i x).yield = s.yield := rfl
@[simp] theorem setCluster_sets (i : Nat) (x : Cluster) : (setCluster s i x).sets = s.sets := rfl
@[simp] theorem setCluster_transits (i : Nat) (x : Cluster) : (setCluster s i x).transits = s.transits := rfl
@[simp] theorem setCluster_blocks (i : Nat) (x : Cluster) : (setCluster s i x).blocks = s.blocks := rfl
@[simp] theorem setCluster_sensors (i : Nat) (x : Cluster) : (setCluster s i x).sensors = s.sensors := rfl
@[simp] theorem setCluster_plant (i : Nat) (x : Cluster) : (setCluster s i x).plant = s.plant := rfl
@[simp] theorem setCluster_fabric (i : Nat) (x : Cluster) : (setCluster s i x).fabric = s.fabric := rfl
@[simp] theorem setCluster_pair (i : Nat) (x : Cluster) : (setCluster s i x).pair = s.pair := rfl
@[simp] theorem setCluster_pcie (i : Nat) (x : Cluster) : (setCluster s i x).pcie = s.pcie := rfl
@[simp] theorem setCluster_fns (i : Nat) (x : Cluster) : (setCluster s i x).fns = s.fns := rfl
@[simp] theorem setCluster_served0 (i : Nat) (x : Cluster) : (setCluster s i x).served0 = s.served0 := rfl
@[simp] theorem setCluster_served1 (i : Nat) (x : Cluster) : (setCluster s i x).served1 = s.served1 := rfl
@[simp] theorem setCluster_mgmt (i : Nat) (x : Cluster) : (setCluster s i x).mgmt = s.mgmt := rfl
@[simp] theorem setCluster_nextMgmt (i : Nat) (x : Cluster) : (setCluster s i x).nextMgmt = s.nextMgmt := rfl
@[simp] theorem setCluster_security (i : Nat) (x : Cluster) : (setCluster s i x).security = s.security := rfl
@[simp] theorem setCluster_commits (i : Nat) (x : Cluster) : (setCluster s i x).commits = s.commits := rfl
@[simp] theorem setCluster_stored (i : Nat) (x : Cluster) : (setCluster s i x).stored = s.stored := rfl
@[simp] theorem setCluster_out (i : Nat) (x : Cluster) : (setCluster s i x).out = s.out := rfl
@[simp] theorem setCluster_free (i : Nat) (x : Cluster) : (setCluster s i x).free = s.free := rfl
@[simp] theorem setCluster_pending (i : Nat) (x : Cluster) : (setCluster s i x).pending = s.pending := rfl
@[simp] theorem setArr_od (i : Nat) (x : Arr) : (setArr s i x).od = s.od := rfl
@[simp] theorem setArr_dom (i : Nat) (x : Arr) : (setArr s i x).dom = s.dom := rfl
@[simp] theorem setArr_scratch (i : Nat) (x : Arr) : (setArr s i x).scratch = s.scratch := rfl
@[simp] theorem setArr_stack (i : Nat) (x : Arr) : (setArr s i x).stack = s.stack := rfl
@[simp] theorem setArr_stackPoison (i : Nat) (x : Arr) : (setArr s i x).stackPoison = s.stackPoison := rfl
@[simp] theorem setArr_cores (i : Nat) (x : Arr) : (setArr s i x).cores = s.cores := rfl
@[simp] theorem setArr_clusters (i : Nat) (x : Arr) : (setArr s i x).clusters = s.clusters := rfl
@[simp] theorem setArr_chains (i : Nat) (x : Arr) : (setArr s i x).chains = s.chains := rfl
@[simp] theorem setArr_frames (i : Nat) (x : Arr) : (setArr s i x).frames = s.frames := rfl
@[simp] theorem setArr_parts (i : Nat) (x : Arr) : (setArr s i x).parts = s.parts := rfl
@[simp] theorem setArr_sessions (i : Nat) (x : Arr) : (setArr s i x).sessions = s.sessions := rfl
@[simp] theorem setArr_subRings (i : Nat) (x : Arr) : (setArr s i x).subRings = s.subRings := rfl
@[simp] theorem setArr_compRings (i : Nat) (x : Arr) : (setArr s i x).compRings = s.compRings := rfl
@[simp] theorem setArr_recorder (i : Nat) (x : Arr) : (setArr s i x).recorder = s.recorder := rfl
@[simp] theorem setArr_yield (i : Nat) (x : Arr) : (setArr s i x).yield = s.yield := rfl
@[simp] theorem setArr_sets (i : Nat) (x : Arr) : (setArr s i x).sets = s.sets := rfl
@[simp] theorem setArr_transits (i : Nat) (x : Arr) : (setArr s i x).transits = s.transits := rfl
@[simp] theorem setArr_blocks (i : Nat) (x : Arr) : (setArr s i x).blocks = s.blocks := rfl
@[simp] theorem setArr_sensors (i : Nat) (x : Arr) : (setArr s i x).sensors = s.sensors := rfl
@[simp] theorem setArr_plant (i : Nat) (x : Arr) : (setArr s i x).plant = s.plant := rfl
@[simp] theorem setArr_fabric (i : Nat) (x : Arr) : (setArr s i x).fabric = s.fabric := rfl
@[simp] theorem setArr_pair (i : Nat) (x : Arr) : (setArr s i x).pair = s.pair := rfl
@[simp] theorem setArr_pcie (i : Nat) (x : Arr) : (setArr s i x).pcie = s.pcie := rfl
@[simp] theorem setArr_fns (i : Nat) (x : Arr) : (setArr s i x).fns = s.fns := rfl
@[simp] theorem setArr_served0 (i : Nat) (x : Arr) : (setArr s i x).served0 = s.served0 := rfl
@[simp] theorem setArr_served1 (i : Nat) (x : Arr) : (setArr s i x).served1 = s.served1 := rfl
@[simp] theorem setArr_mgmt (i : Nat) (x : Arr) : (setArr s i x).mgmt = s.mgmt := rfl
@[simp] theorem setArr_nextMgmt (i : Nat) (x : Arr) : (setArr s i x).nextMgmt = s.nextMgmt := rfl
@[simp] theorem setArr_security (i : Nat) (x : Arr) : (setArr s i x).security = s.security := rfl
@[simp] theorem setArr_commits (i : Nat) (x : Arr) : (setArr s i x).commits = s.commits := rfl
@[simp] theorem setArr_stored (i : Nat) (x : Arr) : (setArr s i x).stored = s.stored := rfl
@[simp] theorem setArr_out (i : Nat) (x : Arr) : (setArr s i x).out = s.out := rfl
@[simp] theorem setArr_free (i : Nat) (x : Arr) : (setArr s i x).free = s.free := rfl
@[simp] theorem setArr_pending (i : Nat) (x : Arr) : (setArr s i x).pending = s.pending := rfl
@[simp] theorem setChain_od (i : Nat) (x : ChainState) : (setChain s i x).od = s.od := rfl
@[simp] theorem setChain_dom (i : Nat) (x : ChainState) : (setChain s i x).dom = s.dom := rfl
@[simp] theorem setChain_scratch (i : Nat) (x : ChainState) : (setChain s i x).scratch = s.scratch := rfl
@[simp] theorem setChain_stack (i : Nat) (x : ChainState) : (setChain s i x).stack = s.stack := rfl
@[simp] theorem setChain_stackPoison (i : Nat) (x : ChainState) : (setChain s i x).stackPoison = s.stackPoison := rfl
@[simp] theorem setChain_cores (i : Nat) (x : ChainState) : (setChain s i x).cores = s.cores := rfl
@[simp] theorem setChain_clusters (i : Nat) (x : ChainState) : (setChain s i x).clusters = s.clusters := rfl
@[simp] theorem setChain_arrays (i : Nat) (x : ChainState) : (setChain s i x).arrays = s.arrays := rfl
@[simp] theorem setChain_frames (i : Nat) (x : ChainState) : (setChain s i x).frames = s.frames := rfl
@[simp] theorem setChain_parts (i : Nat) (x : ChainState) : (setChain s i x).parts = s.parts := rfl
@[simp] theorem setChain_sessions (i : Nat) (x : ChainState) : (setChain s i x).sessions = s.sessions := rfl
@[simp] theorem setChain_subRings (i : Nat) (x : ChainState) : (setChain s i x).subRings = s.subRings := rfl
@[simp] theorem setChain_compRings (i : Nat) (x : ChainState) : (setChain s i x).compRings = s.compRings := rfl
@[simp] theorem setChain_recorder (i : Nat) (x : ChainState) : (setChain s i x).recorder = s.recorder := rfl
@[simp] theorem setChain_yield (i : Nat) (x : ChainState) : (setChain s i x).yield = s.yield := rfl
@[simp] theorem setChain_sets (i : Nat) (x : ChainState) : (setChain s i x).sets = s.sets := rfl
@[simp] theorem setChain_transits (i : Nat) (x : ChainState) : (setChain s i x).transits = s.transits := rfl
@[simp] theorem setChain_blocks (i : Nat) (x : ChainState) : (setChain s i x).blocks = s.blocks := rfl
@[simp] theorem setChain_sensors (i : Nat) (x : ChainState) : (setChain s i x).sensors = s.sensors := rfl
@[simp] theorem setChain_plant (i : Nat) (x : ChainState) : (setChain s i x).plant = s.plant := rfl
@[simp] theorem setChain_fabric (i : Nat) (x : ChainState) : (setChain s i x).fabric = s.fabric := rfl
@[simp] theorem setChain_pair (i : Nat) (x : ChainState) : (setChain s i x).pair = s.pair := rfl
@[simp] theorem setChain_pcie (i : Nat) (x : ChainState) : (setChain s i x).pcie = s.pcie := rfl
@[simp] theorem setChain_fns (i : Nat) (x : ChainState) : (setChain s i x).fns = s.fns := rfl
@[simp] theorem setChain_served0 (i : Nat) (x : ChainState) : (setChain s i x).served0 = s.served0 := rfl
@[simp] theorem setChain_served1 (i : Nat) (x : ChainState) : (setChain s i x).served1 = s.served1 := rfl
@[simp] theorem setChain_mgmt (i : Nat) (x : ChainState) : (setChain s i x).mgmt = s.mgmt := rfl
@[simp] theorem setChain_nextMgmt (i : Nat) (x : ChainState) : (setChain s i x).nextMgmt = s.nextMgmt := rfl
@[simp] theorem setChain_security (i : Nat) (x : ChainState) : (setChain s i x).security = s.security := rfl
@[simp] theorem setChain_commits (i : Nat) (x : ChainState) : (setChain s i x).commits = s.commits := rfl
@[simp] theorem setChain_stored (i : Nat) (x : ChainState) : (setChain s i x).stored = s.stored := rfl
@[simp] theorem setChain_out (i : Nat) (x : ChainState) : (setChain s i x).out = s.out := rfl
@[simp] theorem setChain_free (i : Nat) (x : ChainState) : (setChain s i x).free = s.free := rfl
@[simp] theorem setChain_pending (i : Nat) (x : ChainState) : (setChain s i x).pending = s.pending := rfl
@[simp] theorem setFrame_od (i : Nat) (x : Frame) : (setFrame s i x).od = s.od := rfl
@[simp] theorem setFrame_dom (i : Nat) (x : Frame) : (setFrame s i x).dom = s.dom := rfl
@[simp] theorem setFrame_scratch (i : Nat) (x : Frame) : (setFrame s i x).scratch = s.scratch := rfl
@[simp] theorem setFrame_stack (i : Nat) (x : Frame) : (setFrame s i x).stack = s.stack := rfl
@[simp] theorem setFrame_stackPoison (i : Nat) (x : Frame) : (setFrame s i x).stackPoison = s.stackPoison := rfl
@[simp] theorem setFrame_cores (i : Nat) (x : Frame) : (setFrame s i x).cores = s.cores := rfl
@[simp] theorem setFrame_clusters (i : Nat) (x : Frame) : (setFrame s i x).clusters = s.clusters := rfl
@[simp] theorem setFrame_arrays (i : Nat) (x : Frame) : (setFrame s i x).arrays = s.arrays := rfl
@[simp] theorem setFrame_chains (i : Nat) (x : Frame) : (setFrame s i x).chains = s.chains := rfl
@[simp] theorem setFrame_parts (i : Nat) (x : Frame) : (setFrame s i x).parts = s.parts := rfl
@[simp] theorem setFrame_sessions (i : Nat) (x : Frame) : (setFrame s i x).sessions = s.sessions := rfl
@[simp] theorem setFrame_subRings (i : Nat) (x : Frame) : (setFrame s i x).subRings = s.subRings := rfl
@[simp] theorem setFrame_compRings (i : Nat) (x : Frame) : (setFrame s i x).compRings = s.compRings := rfl
@[simp] theorem setFrame_recorder (i : Nat) (x : Frame) : (setFrame s i x).recorder = s.recorder := rfl
@[simp] theorem setFrame_yield (i : Nat) (x : Frame) : (setFrame s i x).yield = s.yield := rfl
@[simp] theorem setFrame_sets (i : Nat) (x : Frame) : (setFrame s i x).sets = s.sets := rfl
@[simp] theorem setFrame_transits (i : Nat) (x : Frame) : (setFrame s i x).transits = s.transits := rfl
@[simp] theorem setFrame_blocks (i : Nat) (x : Frame) : (setFrame s i x).blocks = s.blocks := rfl
@[simp] theorem setFrame_sensors (i : Nat) (x : Frame) : (setFrame s i x).sensors = s.sensors := rfl
@[simp] theorem setFrame_plant (i : Nat) (x : Frame) : (setFrame s i x).plant = s.plant := rfl
@[simp] theorem setFrame_fabric (i : Nat) (x : Frame) : (setFrame s i x).fabric = s.fabric := rfl
@[simp] theorem setFrame_pair (i : Nat) (x : Frame) : (setFrame s i x).pair = s.pair := rfl
@[simp] theorem setFrame_pcie (i : Nat) (x : Frame) : (setFrame s i x).pcie = s.pcie := rfl
@[simp] theorem setFrame_fns (i : Nat) (x : Frame) : (setFrame s i x).fns = s.fns := rfl
@[simp] theorem setFrame_served0 (i : Nat) (x : Frame) : (setFrame s i x).served0 = s.served0 := rfl
@[simp] theorem setFrame_served1 (i : Nat) (x : Frame) : (setFrame s i x).served1 = s.served1 := rfl
@[simp] theorem setFrame_mgmt (i : Nat) (x : Frame) : (setFrame s i x).mgmt = s.mgmt := rfl
@[simp] theorem setFrame_nextMgmt (i : Nat) (x : Frame) : (setFrame s i x).nextMgmt = s.nextMgmt := rfl
@[simp] theorem setFrame_security (i : Nat) (x : Frame) : (setFrame s i x).security = s.security := rfl
@[simp] theorem setFrame_commits (i : Nat) (x : Frame) : (setFrame s i x).commits = s.commits := rfl
@[simp] theorem setFrame_stored (i : Nat) (x : Frame) : (setFrame s i x).stored = s.stored := rfl
@[simp] theorem setFrame_out (i : Nat) (x : Frame) : (setFrame s i x).out = s.out := rfl
@[simp] theorem setFrame_free (i : Nat) (x : Frame) : (setFrame s i x).free = s.free := rfl
@[simp] theorem setFrame_pending (i : Nat) (x : Frame) : (setFrame s i x).pending = s.pending := rfl
@[simp] theorem setPart_od (i : Nat) (x : Part) : (setPart s i x).od = s.od := rfl
@[simp] theorem setPart_dom (i : Nat) (x : Part) : (setPart s i x).dom = s.dom := rfl
@[simp] theorem setPart_scratch (i : Nat) (x : Part) : (setPart s i x).scratch = s.scratch := rfl
@[simp] theorem setPart_stack (i : Nat) (x : Part) : (setPart s i x).stack = s.stack := rfl
@[simp] theorem setPart_stackPoison (i : Nat) (x : Part) : (setPart s i x).stackPoison = s.stackPoison := rfl
@[simp] theorem setPart_cores (i : Nat) (x : Part) : (setPart s i x).cores = s.cores := rfl
@[simp] theorem setPart_clusters (i : Nat) (x : Part) : (setPart s i x).clusters = s.clusters := rfl
@[simp] theorem setPart_arrays (i : Nat) (x : Part) : (setPart s i x).arrays = s.arrays := rfl
@[simp] theorem setPart_chains (i : Nat) (x : Part) : (setPart s i x).chains = s.chains := rfl
@[simp] theorem setPart_frames (i : Nat) (x : Part) : (setPart s i x).frames = s.frames := rfl
@[simp] theorem setPart_sessions (i : Nat) (x : Part) : (setPart s i x).sessions = s.sessions := rfl
@[simp] theorem setPart_subRings (i : Nat) (x : Part) : (setPart s i x).subRings = s.subRings := rfl
@[simp] theorem setPart_compRings (i : Nat) (x : Part) : (setPart s i x).compRings = s.compRings := rfl
@[simp] theorem setPart_recorder (i : Nat) (x : Part) : (setPart s i x).recorder = s.recorder := rfl
@[simp] theorem setPart_yield (i : Nat) (x : Part) : (setPart s i x).yield = s.yield := rfl
@[simp] theorem setPart_sets (i : Nat) (x : Part) : (setPart s i x).sets = s.sets := rfl
@[simp] theorem setPart_transits (i : Nat) (x : Part) : (setPart s i x).transits = s.transits := rfl
@[simp] theorem setPart_blocks (i : Nat) (x : Part) : (setPart s i x).blocks = s.blocks := rfl
@[simp] theorem setPart_sensors (i : Nat) (x : Part) : (setPart s i x).sensors = s.sensors := rfl
@[simp] theorem setPart_plant (i : Nat) (x : Part) : (setPart s i x).plant = s.plant := rfl
@[simp] theorem setPart_fabric (i : Nat) (x : Part) : (setPart s i x).fabric = s.fabric := rfl
@[simp] theorem setPart_pair (i : Nat) (x : Part) : (setPart s i x).pair = s.pair := rfl
@[simp] theorem setPart_pcie (i : Nat) (x : Part) : (setPart s i x).pcie = s.pcie := rfl
@[simp] theorem setPart_fns (i : Nat) (x : Part) : (setPart s i x).fns = s.fns := rfl
@[simp] theorem setPart_served0 (i : Nat) (x : Part) : (setPart s i x).served0 = s.served0 := rfl
@[simp] theorem setPart_served1 (i : Nat) (x : Part) : (setPart s i x).served1 = s.served1 := rfl
@[simp] theorem setPart_mgmt (i : Nat) (x : Part) : (setPart s i x).mgmt = s.mgmt := rfl
@[simp] theorem setPart_nextMgmt (i : Nat) (x : Part) : (setPart s i x).nextMgmt = s.nextMgmt := rfl
@[simp] theorem setPart_security (i : Nat) (x : Part) : (setPart s i x).security = s.security := rfl
@[simp] theorem setPart_commits (i : Nat) (x : Part) : (setPart s i x).commits = s.commits := rfl
@[simp] theorem setPart_stored (i : Nat) (x : Part) : (setPart s i x).stored = s.stored := rfl
@[simp] theorem setPart_out (i : Nat) (x : Part) : (setPart s i x).out = s.out := rfl
@[simp] theorem setPart_free (i : Nat) (x : Part) : (setPart s i x).free = s.free := rfl
@[simp] theorem setPart_pending (i : Nat) (x : Part) : (setPart s i x).pending = s.pending := rfl
@[simp] theorem setSess_od (i : Nat) (x : Session) : (setSess s i x).od = s.od := rfl
@[simp] theorem setSess_dom (i : Nat) (x : Session) : (setSess s i x).dom = s.dom := rfl
@[simp] theorem setSess_scratch (i : Nat) (x : Session) : (setSess s i x).scratch = s.scratch := rfl
@[simp] theorem setSess_stack (i : Nat) (x : Session) : (setSess s i x).stack = s.stack := rfl
@[simp] theorem setSess_stackPoison (i : Nat) (x : Session) : (setSess s i x).stackPoison = s.stackPoison := rfl
@[simp] theorem setSess_cores (i : Nat) (x : Session) : (setSess s i x).cores = s.cores := rfl
@[simp] theorem setSess_clusters (i : Nat) (x : Session) : (setSess s i x).clusters = s.clusters := rfl
@[simp] theorem setSess_arrays (i : Nat) (x : Session) : (setSess s i x).arrays = s.arrays := rfl
@[simp] theorem setSess_chains (i : Nat) (x : Session) : (setSess s i x).chains = s.chains := rfl
@[simp] theorem setSess_frames (i : Nat) (x : Session) : (setSess s i x).frames = s.frames := rfl
@[simp] theorem setSess_parts (i : Nat) (x : Session) : (setSess s i x).parts = s.parts := rfl
@[simp] theorem setSess_subRings (i : Nat) (x : Session) : (setSess s i x).subRings = s.subRings := rfl
@[simp] theorem setSess_compRings (i : Nat) (x : Session) : (setSess s i x).compRings = s.compRings := rfl
@[simp] theorem setSess_recorder (i : Nat) (x : Session) : (setSess s i x).recorder = s.recorder := rfl
@[simp] theorem setSess_yield (i : Nat) (x : Session) : (setSess s i x).yield = s.yield := rfl
@[simp] theorem setSess_sets (i : Nat) (x : Session) : (setSess s i x).sets = s.sets := rfl
@[simp] theorem setSess_transits (i : Nat) (x : Session) : (setSess s i x).transits = s.transits := rfl
@[simp] theorem setSess_blocks (i : Nat) (x : Session) : (setSess s i x).blocks = s.blocks := rfl
@[simp] theorem setSess_sensors (i : Nat) (x : Session) : (setSess s i x).sensors = s.sensors := rfl
@[simp] theorem setSess_plant (i : Nat) (x : Session) : (setSess s i x).plant = s.plant := rfl
@[simp] theorem setSess_fabric (i : Nat) (x : Session) : (setSess s i x).fabric = s.fabric := rfl
@[simp] theorem setSess_pair (i : Nat) (x : Session) : (setSess s i x).pair = s.pair := rfl
@[simp] theorem setSess_pcie (i : Nat) (x : Session) : (setSess s i x).pcie = s.pcie := rfl
@[simp] theorem setSess_fns (i : Nat) (x : Session) : (setSess s i x).fns = s.fns := rfl
@[simp] theorem setSess_served0 (i : Nat) (x : Session) : (setSess s i x).served0 = s.served0 := rfl
@[simp] theorem setSess_served1 (i : Nat) (x : Session) : (setSess s i x).served1 = s.served1 := rfl
@[simp] theorem setSess_mgmt (i : Nat) (x : Session) : (setSess s i x).mgmt = s.mgmt := rfl
@[simp] theorem setSess_nextMgmt (i : Nat) (x : Session) : (setSess s i x).nextMgmt = s.nextMgmt := rfl
@[simp] theorem setSess_security (i : Nat) (x : Session) : (setSess s i x).security = s.security := rfl
@[simp] theorem setSess_commits (i : Nat) (x : Session) : (setSess s i x).commits = s.commits := rfl
@[simp] theorem setSess_stored (i : Nat) (x : Session) : (setSess s i x).stored = s.stored := rfl
@[simp] theorem setSess_out (i : Nat) (x : Session) : (setSess s i x).out = s.out := rfl
@[simp] theorem setSess_free (i : Nat) (x : Session) : (setSess s i x).free = s.free := rfl
@[simp] theorem setSess_pending (i : Nat) (x : Session) : (setSess s i x).pending = s.pending := rfl
@[simp] theorem setSub_od (i : Nat) (x : SubRing) : (setSub s i x).od = s.od := rfl
@[simp] theorem setSub_dom (i : Nat) (x : SubRing) : (setSub s i x).dom = s.dom := rfl
@[simp] theorem setSub_scratch (i : Nat) (x : SubRing) : (setSub s i x).scratch = s.scratch := rfl
@[simp] theorem setSub_stack (i : Nat) (x : SubRing) : (setSub s i x).stack = s.stack := rfl
@[simp] theorem setSub_stackPoison (i : Nat) (x : SubRing) : (setSub s i x).stackPoison = s.stackPoison := rfl
@[simp] theorem setSub_cores (i : Nat) (x : SubRing) : (setSub s i x).cores = s.cores := rfl
@[simp] theorem setSub_clusters (i : Nat) (x : SubRing) : (setSub s i x).clusters = s.clusters := rfl
@[simp] theorem setSub_arrays (i : Nat) (x : SubRing) : (setSub s i x).arrays = s.arrays := rfl
@[simp] theorem setSub_chains (i : Nat) (x : SubRing) : (setSub s i x).chains = s.chains := rfl
@[simp] theorem setSub_frames (i : Nat) (x : SubRing) : (setSub s i x).frames = s.frames := rfl
@[simp] theorem setSub_parts (i : Nat) (x : SubRing) : (setSub s i x).parts = s.parts := rfl
@[simp] theorem setSub_sessions (i : Nat) (x : SubRing) : (setSub s i x).sessions = s.sessions := rfl
@[simp] theorem setSub_compRings (i : Nat) (x : SubRing) : (setSub s i x).compRings = s.compRings := rfl
@[simp] theorem setSub_recorder (i : Nat) (x : SubRing) : (setSub s i x).recorder = s.recorder := rfl
@[simp] theorem setSub_yield (i : Nat) (x : SubRing) : (setSub s i x).yield = s.yield := rfl
@[simp] theorem setSub_sets (i : Nat) (x : SubRing) : (setSub s i x).sets = s.sets := rfl
@[simp] theorem setSub_transits (i : Nat) (x : SubRing) : (setSub s i x).transits = s.transits := rfl
@[simp] theorem setSub_blocks (i : Nat) (x : SubRing) : (setSub s i x).blocks = s.blocks := rfl
@[simp] theorem setSub_sensors (i : Nat) (x : SubRing) : (setSub s i x).sensors = s.sensors := rfl
@[simp] theorem setSub_plant (i : Nat) (x : SubRing) : (setSub s i x).plant = s.plant := rfl
@[simp] theorem setSub_fabric (i : Nat) (x : SubRing) : (setSub s i x).fabric = s.fabric := rfl
@[simp] theorem setSub_pair (i : Nat) (x : SubRing) : (setSub s i x).pair = s.pair := rfl
@[simp] theorem setSub_pcie (i : Nat) (x : SubRing) : (setSub s i x).pcie = s.pcie := rfl
@[simp] theorem setSub_fns (i : Nat) (x : SubRing) : (setSub s i x).fns = s.fns := rfl
@[simp] theorem setSub_served0 (i : Nat) (x : SubRing) : (setSub s i x).served0 = s.served0 := rfl
@[simp] theorem setSub_served1 (i : Nat) (x : SubRing) : (setSub s i x).served1 = s.served1 := rfl
@[simp] theorem setSub_mgmt (i : Nat) (x : SubRing) : (setSub s i x).mgmt = s.mgmt := rfl
@[simp] theorem setSub_nextMgmt (i : Nat) (x : SubRing) : (setSub s i x).nextMgmt = s.nextMgmt := rfl
@[simp] theorem setSub_security (i : Nat) (x : SubRing) : (setSub s i x).security = s.security := rfl
@[simp] theorem setSub_commits (i : Nat) (x : SubRing) : (setSub s i x).commits = s.commits := rfl
@[simp] theorem setSub_stored (i : Nat) (x : SubRing) : (setSub s i x).stored = s.stored := rfl
@[simp] theorem setSub_out (i : Nat) (x : SubRing) : (setSub s i x).out = s.out := rfl
@[simp] theorem setSub_free (i : Nat) (x : SubRing) : (setSub s i x).free = s.free := rfl
@[simp] theorem setSub_pending (i : Nat) (x : SubRing) : (setSub s i x).pending = s.pending := rfl
@[simp] theorem setComp_od (i : Nat) (x : CompRing) : (setComp s i x).od = s.od := rfl
@[simp] theorem setComp_dom (i : Nat) (x : CompRing) : (setComp s i x).dom = s.dom := rfl
@[simp] theorem setComp_scratch (i : Nat) (x : CompRing) : (setComp s i x).scratch = s.scratch := rfl
@[simp] theorem setComp_stack (i : Nat) (x : CompRing) : (setComp s i x).stack = s.stack := rfl
@[simp] theorem setComp_stackPoison (i : Nat) (x : CompRing) : (setComp s i x).stackPoison = s.stackPoison := rfl
@[simp] theorem setComp_cores (i : Nat) (x : CompRing) : (setComp s i x).cores = s.cores := rfl
@[simp] theorem setComp_clusters (i : Nat) (x : CompRing) : (setComp s i x).clusters = s.clusters := rfl
@[simp] theorem setComp_arrays (i : Nat) (x : CompRing) : (setComp s i x).arrays = s.arrays := rfl
@[simp] theorem setComp_chains (i : Nat) (x : CompRing) : (setComp s i x).chains = s.chains := rfl
@[simp] theorem setComp_frames (i : Nat) (x : CompRing) : (setComp s i x).frames = s.frames := rfl
@[simp] theorem setComp_parts (i : Nat) (x : CompRing) : (setComp s i x).parts = s.parts := rfl
@[simp] theorem setComp_sessions (i : Nat) (x : CompRing) : (setComp s i x).sessions = s.sessions := rfl
@[simp] theorem setComp_subRings (i : Nat) (x : CompRing) : (setComp s i x).subRings = s.subRings := rfl
@[simp] theorem setComp_recorder (i : Nat) (x : CompRing) : (setComp s i x).recorder = s.recorder := rfl
@[simp] theorem setComp_yield (i : Nat) (x : CompRing) : (setComp s i x).yield = s.yield := rfl
@[simp] theorem setComp_sets (i : Nat) (x : CompRing) : (setComp s i x).sets = s.sets := rfl
@[simp] theorem setComp_transits (i : Nat) (x : CompRing) : (setComp s i x).transits = s.transits := rfl
@[simp] theorem setComp_blocks (i : Nat) (x : CompRing) : (setComp s i x).blocks = s.blocks := rfl
@[simp] theorem setComp_sensors (i : Nat) (x : CompRing) : (setComp s i x).sensors = s.sensors := rfl
@[simp] theorem setComp_plant (i : Nat) (x : CompRing) : (setComp s i x).plant = s.plant := rfl
@[simp] theorem setComp_fabric (i : Nat) (x : CompRing) : (setComp s i x).fabric = s.fabric := rfl
@[simp] theorem setComp_pair (i : Nat) (x : CompRing) : (setComp s i x).pair = s.pair := rfl
@[simp] theorem setComp_pcie (i : Nat) (x : CompRing) : (setComp s i x).pcie = s.pcie := rfl
@[simp] theorem setComp_fns (i : Nat) (x : CompRing) : (setComp s i x).fns = s.fns := rfl
@[simp] theorem setComp_served0 (i : Nat) (x : CompRing) : (setComp s i x).served0 = s.served0 := rfl
@[simp] theorem setComp_served1 (i : Nat) (x : CompRing) : (setComp s i x).served1 = s.served1 := rfl
@[simp] theorem setComp_mgmt (i : Nat) (x : CompRing) : (setComp s i x).mgmt = s.mgmt := rfl
@[simp] theorem setComp_nextMgmt (i : Nat) (x : CompRing) : (setComp s i x).nextMgmt = s.nextMgmt := rfl
@[simp] theorem setComp_security (i : Nat) (x : CompRing) : (setComp s i x).security = s.security := rfl
@[simp] theorem setComp_commits (i : Nat) (x : CompRing) : (setComp s i x).commits = s.commits := rfl
@[simp] theorem setComp_stored (i : Nat) (x : CompRing) : (setComp s i x).stored = s.stored := rfl
@[simp] theorem setComp_out (i : Nat) (x : CompRing) : (setComp s i x).out = s.out := rfl
@[simp] theorem setComp_free (i : Nat) (x : CompRing) : (setComp s i x).free = s.free := rfl
@[simp] theorem setComp_pending (i : Nat) (x : CompRing) : (setComp s i x).pending = s.pending := rfl
@[simp] theorem setWset_od (i : Nat) (x : WSet) : (setWset s i x).od = s.od := rfl
@[simp] theorem setWset_dom (i : Nat) (x : WSet) : (setWset s i x).dom = s.dom := rfl
@[simp] theorem setWset_scratch (i : Nat) (x : WSet) : (setWset s i x).scratch = s.scratch := rfl
@[simp] theorem setWset_stack (i : Nat) (x : WSet) : (setWset s i x).stack = s.stack := rfl
@[simp] theorem setWset_stackPoison (i : Nat) (x : WSet) : (setWset s i x).stackPoison = s.stackPoison := rfl
@[simp] theorem setWset_cores (i : Nat) (x : WSet) : (setWset s i x).cores = s.cores := rfl
@[simp] theorem setWset_clusters (i : Nat) (x : WSet) : (setWset s i x).clusters = s.clusters := rfl
@[simp] theorem setWset_arrays (i : Nat) (x : WSet) : (setWset s i x).arrays = s.arrays := rfl
@[simp] theorem setWset_chains (i : Nat) (x : WSet) : (setWset s i x).chains = s.chains := rfl
@[simp] theorem setWset_frames (i : Nat) (x : WSet) : (setWset s i x).frames = s.frames := rfl
@[simp] theorem setWset_parts (i : Nat) (x : WSet) : (setWset s i x).parts = s.parts := rfl
@[simp] theorem setWset_sessions (i : Nat) (x : WSet) : (setWset s i x).sessions = s.sessions := rfl
@[simp] theorem setWset_subRings (i : Nat) (x : WSet) : (setWset s i x).subRings = s.subRings := rfl
@[simp] theorem setWset_compRings (i : Nat) (x : WSet) : (setWset s i x).compRings = s.compRings := rfl
@[simp] theorem setWset_recorder (i : Nat) (x : WSet) : (setWset s i x).recorder = s.recorder := rfl
@[simp] theorem setWset_yield (i : Nat) (x : WSet) : (setWset s i x).yield = s.yield := rfl
@[simp] theorem setWset_transits (i : Nat) (x : WSet) : (setWset s i x).transits = s.transits := rfl
@[simp] theorem setWset_blocks (i : Nat) (x : WSet) : (setWset s i x).blocks = s.blocks := rfl
@[simp] theorem setWset_sensors (i : Nat) (x : WSet) : (setWset s i x).sensors = s.sensors := rfl
@[simp] theorem setWset_plant (i : Nat) (x : WSet) : (setWset s i x).plant = s.plant := rfl
@[simp] theorem setWset_fabric (i : Nat) (x : WSet) : (setWset s i x).fabric = s.fabric := rfl
@[simp] theorem setWset_pair (i : Nat) (x : WSet) : (setWset s i x).pair = s.pair := rfl
@[simp] theorem setWset_pcie (i : Nat) (x : WSet) : (setWset s i x).pcie = s.pcie := rfl
@[simp] theorem setWset_fns (i : Nat) (x : WSet) : (setWset s i x).fns = s.fns := rfl
@[simp] theorem setWset_served0 (i : Nat) (x : WSet) : (setWset s i x).served0 = s.served0 := rfl
@[simp] theorem setWset_served1 (i : Nat) (x : WSet) : (setWset s i x).served1 = s.served1 := rfl
@[simp] theorem setWset_mgmt (i : Nat) (x : WSet) : (setWset s i x).mgmt = s.mgmt := rfl
@[simp] theorem setWset_nextMgmt (i : Nat) (x : WSet) : (setWset s i x).nextMgmt = s.nextMgmt := rfl
@[simp] theorem setWset_security (i : Nat) (x : WSet) : (setWset s i x).security = s.security := rfl
@[simp] theorem setWset_commits (i : Nat) (x : WSet) : (setWset s i x).commits = s.commits := rfl
@[simp] theorem setWset_stored (i : Nat) (x : WSet) : (setWset s i x).stored = s.stored := rfl
@[simp] theorem setWset_out (i : Nat) (x : WSet) : (setWset s i x).out = s.out := rfl
@[simp] theorem setWset_free (i : Nat) (x : WSet) : (setWset s i x).free = s.free := rfl
@[simp] theorem setWset_pending (i : Nat) (x : WSet) : (setWset s i x).pending = s.pending := rfl
@[simp] theorem setBlk_od (i : Nat) (x : Block) : (setBlk s i x).od = s.od := rfl
@[simp] theorem setBlk_dom (i : Nat) (x : Block) : (setBlk s i x).dom = s.dom := rfl
@[simp] theorem setBlk_scratch (i : Nat) (x : Block) : (setBlk s i x).scratch = s.scratch := rfl
@[simp] theorem setBlk_stack (i : Nat) (x : Block) : (setBlk s i x).stack = s.stack := rfl
@[simp] theorem setBlk_stackPoison (i : Nat) (x : Block) : (setBlk s i x).stackPoison = s.stackPoison := rfl
@[simp] theorem setBlk_cores (i : Nat) (x : Block) : (setBlk s i x).cores = s.cores := rfl
@[simp] theorem setBlk_clusters (i : Nat) (x : Block) : (setBlk s i x).clusters = s.clusters := rfl
@[simp] theorem setBlk_arrays (i : Nat) (x : Block) : (setBlk s i x).arrays = s.arrays := rfl
@[simp] theorem setBlk_chains (i : Nat) (x : Block) : (setBlk s i x).chains = s.chains := rfl
@[simp] theorem setBlk_frames (i : Nat) (x : Block) : (setBlk s i x).frames = s.frames := rfl
@[simp] theorem setBlk_parts (i : Nat) (x : Block) : (setBlk s i x).parts = s.parts := rfl
@[simp] theorem setBlk_sessions (i : Nat) (x : Block) : (setBlk s i x).sessions = s.sessions := rfl
@[simp] theorem setBlk_subRings (i : Nat) (x : Block) : (setBlk s i x).subRings = s.subRings := rfl
@[simp] theorem setBlk_compRings (i : Nat) (x : Block) : (setBlk s i x).compRings = s.compRings := rfl
@[simp] theorem setBlk_recorder (i : Nat) (x : Block) : (setBlk s i x).recorder = s.recorder := rfl
@[simp] theorem setBlk_yield (i : Nat) (x : Block) : (setBlk s i x).yield = s.yield := rfl
@[simp] theorem setBlk_sets (i : Nat) (x : Block) : (setBlk s i x).sets = s.sets := rfl
@[simp] theorem setBlk_transits (i : Nat) (x : Block) : (setBlk s i x).transits = s.transits := rfl
@[simp] theorem setBlk_sensors (i : Nat) (x : Block) : (setBlk s i x).sensors = s.sensors := rfl
@[simp] theorem setBlk_plant (i : Nat) (x : Block) : (setBlk s i x).plant = s.plant := rfl
@[simp] theorem setBlk_fabric (i : Nat) (x : Block) : (setBlk s i x).fabric = s.fabric := rfl
@[simp] theorem setBlk_pair (i : Nat) (x : Block) : (setBlk s i x).pair = s.pair := rfl
@[simp] theorem setBlk_pcie (i : Nat) (x : Block) : (setBlk s i x).pcie = s.pcie := rfl
@[simp] theorem setBlk_fns (i : Nat) (x : Block) : (setBlk s i x).fns = s.fns := rfl
@[simp] theorem setBlk_served0 (i : Nat) (x : Block) : (setBlk s i x).served0 = s.served0 := rfl
@[simp] theorem setBlk_served1 (i : Nat) (x : Block) : (setBlk s i x).served1 = s.served1 := rfl
@[simp] theorem setBlk_mgmt (i : Nat) (x : Block) : (setBlk s i x).mgmt = s.mgmt := rfl
@[simp] theorem setBlk_nextMgmt (i : Nat) (x : Block) : (setBlk s i x).nextMgmt = s.nextMgmt := rfl
@[simp] theorem setBlk_security (i : Nat) (x : Block) : (setBlk s i x).security = s.security := rfl
@[simp] theorem setBlk_commits (i : Nat) (x : Block) : (setBlk s i x).commits = s.commits := rfl
@[simp] theorem setBlk_stored (i : Nat) (x : Block) : (setBlk s i x).stored = s.stored := rfl
@[simp] theorem setBlk_out (i : Nat) (x : Block) : (setBlk s i x).out = s.out := rfl
@[simp] theorem setBlk_free (i : Nat) (x : Block) : (setBlk s i x).free = s.free := rfl
@[simp] theorem setBlk_pending (i : Nat) (x : Block) : (setBlk s i x).pending = s.pending := rfl
@[simp] theorem setSensor_od (i : Nat) (x : Sensor) : (setSensor s i x).od = s.od := rfl
@[simp] theorem setSensor_dom (i : Nat) (x : Sensor) : (setSensor s i x).dom = s.dom := rfl
@[simp] theorem setSensor_scratch (i : Nat) (x : Sensor) : (setSensor s i x).scratch = s.scratch := rfl
@[simp] theorem setSensor_stack (i : Nat) (x : Sensor) : (setSensor s i x).stack = s.stack := rfl
@[simp] theorem setSensor_stackPoison (i : Nat) (x : Sensor) : (setSensor s i x).stackPoison = s.stackPoison := rfl
@[simp] theorem setSensor_cores (i : Nat) (x : Sensor) : (setSensor s i x).cores = s.cores := rfl
@[simp] theorem setSensor_clusters (i : Nat) (x : Sensor) : (setSensor s i x).clusters = s.clusters := rfl
@[simp] theorem setSensor_arrays (i : Nat) (x : Sensor) : (setSensor s i x).arrays = s.arrays := rfl
@[simp] theorem setSensor_chains (i : Nat) (x : Sensor) : (setSensor s i x).chains = s.chains := rfl
@[simp] theorem setSensor_frames (i : Nat) (x : Sensor) : (setSensor s i x).frames = s.frames := rfl
@[simp] theorem setSensor_parts (i : Nat) (x : Sensor) : (setSensor s i x).parts = s.parts := rfl
@[simp] theorem setSensor_sessions (i : Nat) (x : Sensor) : (setSensor s i x).sessions = s.sessions := rfl
@[simp] theorem setSensor_subRings (i : Nat) (x : Sensor) : (setSensor s i x).subRings = s.subRings := rfl
@[simp] theorem setSensor_compRings (i : Nat) (x : Sensor) : (setSensor s i x).compRings = s.compRings := rfl
@[simp] theorem setSensor_recorder (i : Nat) (x : Sensor) : (setSensor s i x).recorder = s.recorder := rfl
@[simp] theorem setSensor_yield (i : Nat) (x : Sensor) : (setSensor s i x).yield = s.yield := rfl
@[simp] theorem setSensor_sets (i : Nat) (x : Sensor) : (setSensor s i x).sets = s.sets := rfl
@[simp] theorem setSensor_transits (i : Nat) (x : Sensor) : (setSensor s i x).transits = s.transits := rfl
@[simp] theorem setSensor_blocks (i : Nat) (x : Sensor) : (setSensor s i x).blocks = s.blocks := rfl
@[simp] theorem setSensor_plant (i : Nat) (x : Sensor) : (setSensor s i x).plant = s.plant := rfl
@[simp] theorem setSensor_fabric (i : Nat) (x : Sensor) : (setSensor s i x).fabric = s.fabric := rfl
@[simp] theorem setSensor_pair (i : Nat) (x : Sensor) : (setSensor s i x).pair = s.pair := rfl
@[simp] theorem setSensor_pcie (i : Nat) (x : Sensor) : (setSensor s i x).pcie = s.pcie := rfl
@[simp] theorem setSensor_fns (i : Nat) (x : Sensor) : (setSensor s i x).fns = s.fns := rfl
@[simp] theorem setSensor_served0 (i : Nat) (x : Sensor) : (setSensor s i x).served0 = s.served0 := rfl
@[simp] theorem setSensor_served1 (i : Nat) (x : Sensor) : (setSensor s i x).served1 = s.served1 := rfl
@[simp] theorem setSensor_mgmt (i : Nat) (x : Sensor) : (setSensor s i x).mgmt = s.mgmt := rfl
@[simp] theorem setSensor_nextMgmt (i : Nat) (x : Sensor) : (setSensor s i x).nextMgmt = s.nextMgmt := rfl
@[simp] theorem setSensor_security (i : Nat) (x : Sensor) : (setSensor s i x).security = s.security := rfl
@[simp] theorem setSensor_commits (i : Nat) (x : Sensor) : (setSensor s i x).commits = s.commits := rfl
@[simp] theorem setSensor_stored (i : Nat) (x : Sensor) : (setSensor s i x).stored = s.stored := rfl
@[simp] theorem setSensor_out (i : Nat) (x : Sensor) : (setSensor s i x).out = s.out := rfl
@[simp] theorem setSensor_free (i : Nat) (x : Sensor) : (setSensor s i x).free = s.free := rfl
@[simp] theorem setSensor_pending (i : Nat) (x : Sensor) : (setSensor s i x).pending = s.pending := rfl
@[simp] theorem setMgmt_od (i : Nat) (x : Mgmt) : (setMgmt s i x).od = s.od := rfl
@[simp] theorem setMgmt_dom (i : Nat) (x : Mgmt) : (setMgmt s i x).dom = s.dom := rfl
@[simp] theorem setMgmt_scratch (i : Nat) (x : Mgmt) : (setMgmt s i x).scratch = s.scratch := rfl
@[simp] theorem setMgmt_stack (i : Nat) (x : Mgmt) : (setMgmt s i x).stack = s.stack := rfl
@[simp] theorem setMgmt_stackPoison (i : Nat) (x : Mgmt) : (setMgmt s i x).stackPoison = s.stackPoison := rfl
@[simp] theorem setMgmt_cores (i : Nat) (x : Mgmt) : (setMgmt s i x).cores = s.cores := rfl
@[simp] theorem setMgmt_clusters (i : Nat) (x : Mgmt) : (setMgmt s i x).clusters = s.clusters := rfl
@[simp] theorem setMgmt_arrays (i : Nat) (x : Mgmt) : (setMgmt s i x).arrays = s.arrays := rfl
@[simp] theorem setMgmt_chains (i : Nat) (x : Mgmt) : (setMgmt s i x).chains = s.chains := rfl
@[simp] theorem setMgmt_frames (i : Nat) (x : Mgmt) : (setMgmt s i x).frames = s.frames := rfl
@[simp] theorem setMgmt_parts (i : Nat) (x : Mgmt) : (setMgmt s i x).parts = s.parts := rfl
@[simp] theorem setMgmt_sessions (i : Nat) (x : Mgmt) : (setMgmt s i x).sessions = s.sessions := rfl
@[simp] theorem setMgmt_subRings (i : Nat) (x : Mgmt) : (setMgmt s i x).subRings = s.subRings := rfl
@[simp] theorem setMgmt_compRings (i : Nat) (x : Mgmt) : (setMgmt s i x).compRings = s.compRings := rfl
@[simp] theorem setMgmt_recorder (i : Nat) (x : Mgmt) : (setMgmt s i x).recorder = s.recorder := rfl
@[simp] theorem setMgmt_yield (i : Nat) (x : Mgmt) : (setMgmt s i x).yield = s.yield := rfl
@[simp] theorem setMgmt_sets (i : Nat) (x : Mgmt) : (setMgmt s i x).sets = s.sets := rfl
@[simp] theorem setMgmt_transits (i : Nat) (x : Mgmt) : (setMgmt s i x).transits = s.transits := rfl
@[simp] theorem setMgmt_blocks (i : Nat) (x : Mgmt) : (setMgmt s i x).blocks = s.blocks := rfl
@[simp] theorem setMgmt_sensors (i : Nat) (x : Mgmt) : (setMgmt s i x).sensors = s.sensors := rfl
@[simp] theorem setMgmt_plant (i : Nat) (x : Mgmt) : (setMgmt s i x).plant = s.plant := rfl
@[simp] theorem setMgmt_fabric (i : Nat) (x : Mgmt) : (setMgmt s i x).fabric = s.fabric := rfl
@[simp] theorem setMgmt_pair (i : Nat) (x : Mgmt) : (setMgmt s i x).pair = s.pair := rfl
@[simp] theorem setMgmt_pcie (i : Nat) (x : Mgmt) : (setMgmt s i x).pcie = s.pcie := rfl
@[simp] theorem setMgmt_fns (i : Nat) (x : Mgmt) : (setMgmt s i x).fns = s.fns := rfl
@[simp] theorem setMgmt_served0 (i : Nat) (x : Mgmt) : (setMgmt s i x).served0 = s.served0 := rfl
@[simp] theorem setMgmt_served1 (i : Nat) (x : Mgmt) : (setMgmt s i x).served1 = s.served1 := rfl
@[simp] theorem setMgmt_nextMgmt (i : Nat) (x : Mgmt) : (setMgmt s i x).nextMgmt = s.nextMgmt := rfl
@[simp] theorem setMgmt_security (i : Nat) (x : Mgmt) : (setMgmt s i x).security = s.security := rfl
@[simp] theorem setMgmt_commits (i : Nat) (x : Mgmt) : (setMgmt s i x).commits = s.commits := rfl
@[simp] theorem setMgmt_stored (i : Nat) (x : Mgmt) : (setMgmt s i x).stored = s.stored := rfl
@[simp] theorem setMgmt_out (i : Nat) (x : Mgmt) : (setMgmt s i x).out = s.out := rfl
@[simp] theorem setMgmt_free (i : Nat) (x : Mgmt) : (setMgmt s i x).free = s.free := rfl
@[simp] theorem setMgmt_pending (i : Nat) (x : Mgmt) : (setMgmt s i x).pending = s.pending := rfl
@[simp] theorem updPort_od (i : Nat) (f : PciePort → PciePort) : (updPort s i f).od = s.od := rfl
@[simp] theorem updPort_dom (i : Nat) (f : PciePort → PciePort) : (updPort s i f).dom = s.dom := rfl
@[simp] theorem updPort_scratch (i : Nat) (f : PciePort → PciePort) : (updPort s i f).scratch = s.scratch := rfl
@[simp] theorem updPort_stack (i : Nat) (f : PciePort → PciePort) : (updPort s i f).stack = s.stack := rfl
@[simp] theorem updPort_stackPoison (i : Nat) (f : PciePort → PciePort) : (updPort s i f).stackPoison = s.stackPoison := rfl
@[simp] theorem updPort_cores (i : Nat) (f : PciePort → PciePort) : (updPort s i f).cores = s.cores := rfl
@[simp] theorem updPort_clusters (i : Nat) (f : PciePort → PciePort) : (updPort s i f).clusters = s.clusters := rfl
@[simp] theorem updPort_arrays (i : Nat) (f : PciePort → PciePort) : (updPort s i f).arrays = s.arrays := rfl
@[simp] theorem updPort_chains (i : Nat) (f : PciePort → PciePort) : (updPort s i f).chains = s.chains := rfl
@[simp] theorem updPort_frames (i : Nat) (f : PciePort → PciePort) : (updPort s i f).frames = s.frames := rfl
@[simp] theorem updPort_parts (i : Nat) (f : PciePort → PciePort) : (updPort s i f).parts = s.parts := rfl
@[simp] theorem updPort_sessions (i : Nat) (f : PciePort → PciePort) : (updPort s i f).sessions = s.sessions := rfl
@[simp] theorem updPort_subRings (i : Nat) (f : PciePort → PciePort) : (updPort s i f).subRings = s.subRings := rfl
@[simp] theorem updPort_compRings (i : Nat) (f : PciePort → PciePort) : (updPort s i f).compRings = s.compRings := rfl
@[simp] theorem updPort_recorder (i : Nat) (f : PciePort → PciePort) : (updPort s i f).recorder = s.recorder := rfl
@[simp] theorem updPort_yield (i : Nat) (f : PciePort → PciePort) : (updPort s i f).yield = s.yield := rfl
@[simp] theorem updPort_sets (i : Nat) (f : PciePort → PciePort) : (updPort s i f).sets = s.sets := rfl
@[simp] theorem updPort_transits (i : Nat) (f : PciePort → PciePort) : (updPort s i f).transits = s.transits := rfl
@[simp] theorem updPort_blocks (i : Nat) (f : PciePort → PciePort) : (updPort s i f).blocks = s.blocks := rfl
@[simp] theorem updPort_sensors (i : Nat) (f : PciePort → PciePort) : (updPort s i f).sensors = s.sensors := rfl
@[simp] theorem updPort_plant (i : Nat) (f : PciePort → PciePort) : (updPort s i f).plant = s.plant := rfl
@[simp] theorem updPort_fabric (i : Nat) (f : PciePort → PciePort) : (updPort s i f).fabric = s.fabric := rfl
@[simp] theorem updPort_pair (i : Nat) (f : PciePort → PciePort) : (updPort s i f).pair = s.pair := rfl
@[simp] theorem updPort_fns (i : Nat) (f : PciePort → PciePort) : (updPort s i f).fns = s.fns := rfl
@[simp] theorem updPort_served0 (i : Nat) (f : PciePort → PciePort) : (updPort s i f).served0 = s.served0 := rfl
@[simp] theorem updPort_served1 (i : Nat) (f : PciePort → PciePort) : (updPort s i f).served1 = s.served1 := rfl
@[simp] theorem updPort_mgmt (i : Nat) (f : PciePort → PciePort) : (updPort s i f).mgmt = s.mgmt := rfl
@[simp] theorem updPort_nextMgmt (i : Nat) (f : PciePort → PciePort) : (updPort s i f).nextMgmt = s.nextMgmt := rfl
@[simp] theorem updPort_security (i : Nat) (f : PciePort → PciePort) : (updPort s i f).security = s.security := rfl
@[simp] theorem updPort_commits (i : Nat) (f : PciePort → PciePort) : (updPort s i f).commits = s.commits := rfl
@[simp] theorem updPort_stored (i : Nat) (f : PciePort → PciePort) : (updPort s i f).stored = s.stored := rfl
@[simp] theorem updPort_out (i : Nat) (f : PciePort → PciePort) : (updPort s i f).out = s.out := rfl
@[simp] theorem updPort_free (i : Nat) (f : PciePort → PciePort) : (updPort s i f).free = s.free := rfl
@[simp] theorem updPort_pending (i : Nat) (f : PciePort → PciePort) : (updPort s i f).pending = s.pending := rfl
@[simp] theorem updFn_od (i : Nat) (f : HostFn → HostFn) : (updFn s i f).od = s.od := rfl
@[simp] theorem updFn_dom (i : Nat) (f : HostFn → HostFn) : (updFn s i f).dom = s.dom := rfl
@[simp] theorem updFn_scratch (i : Nat) (f : HostFn → HostFn) : (updFn s i f).scratch = s.scratch := rfl
@[simp] theorem updFn_stack (i : Nat) (f : HostFn → HostFn) : (updFn s i f).stack = s.stack := rfl
@[simp] theorem updFn_stackPoison (i : Nat) (f : HostFn → HostFn) : (updFn s i f).stackPoison = s.stackPoison := rfl
@[simp] theorem updFn_cores (i : Nat) (f : HostFn → HostFn) : (updFn s i f).cores = s.cores := rfl
@[simp] theorem updFn_clusters (i : Nat) (f : HostFn → HostFn) : (updFn s i f).clusters = s.clusters := rfl
@[simp] theorem updFn_arrays (i : Nat) (f : HostFn → HostFn) : (updFn s i f).arrays = s.arrays := rfl
@[simp] theorem updFn_chains (i : Nat) (f : HostFn → HostFn) : (updFn s i f).chains = s.chains := rfl
@[simp] theorem updFn_frames (i : Nat) (f : HostFn → HostFn) : (updFn s i f).frames = s.frames := rfl
@[simp] theorem updFn_parts (i : Nat) (f : HostFn → HostFn) : (updFn s i f).parts = s.parts := rfl
@[simp] theorem updFn_sessions (i : Nat) (f : HostFn → HostFn) : (updFn s i f).sessions = s.sessions := rfl
@[simp] theorem updFn_subRings (i : Nat) (f : HostFn → HostFn) : (updFn s i f).subRings = s.subRings := rfl
@[simp] theorem updFn_compRings (i : Nat) (f : HostFn → HostFn) : (updFn s i f).compRings = s.compRings := rfl
@[simp] theorem updFn_recorder (i : Nat) (f : HostFn → HostFn) : (updFn s i f).recorder = s.recorder := rfl
@[simp] theorem updFn_yield (i : Nat) (f : HostFn → HostFn) : (updFn s i f).yield = s.yield := rfl
@[simp] theorem updFn_sets (i : Nat) (f : HostFn → HostFn) : (updFn s i f).sets = s.sets := rfl
@[simp] theorem updFn_transits (i : Nat) (f : HostFn → HostFn) : (updFn s i f).transits = s.transits := rfl
@[simp] theorem updFn_blocks (i : Nat) (f : HostFn → HostFn) : (updFn s i f).blocks = s.blocks := rfl
@[simp] theorem updFn_sensors (i : Nat) (f : HostFn → HostFn) : (updFn s i f).sensors = s.sensors := rfl
@[simp] theorem updFn_plant (i : Nat) (f : HostFn → HostFn) : (updFn s i f).plant = s.plant := rfl
@[simp] theorem updFn_fabric (i : Nat) (f : HostFn → HostFn) : (updFn s i f).fabric = s.fabric := rfl
@[simp] theorem updFn_pair (i : Nat) (f : HostFn → HostFn) : (updFn s i f).pair = s.pair := rfl
@[simp] theorem updFn_pcie (i : Nat) (f : HostFn → HostFn) : (updFn s i f).pcie = s.pcie := rfl
@[simp] theorem updFn_served0 (i : Nat) (f : HostFn → HostFn) : (updFn s i f).served0 = s.served0 := rfl
@[simp] theorem updFn_served1 (i : Nat) (f : HostFn → HostFn) : (updFn s i f).served1 = s.served1 := rfl
@[simp] theorem updFn_mgmt (i : Nat) (f : HostFn → HostFn) : (updFn s i f).mgmt = s.mgmt := rfl
@[simp] theorem updFn_nextMgmt (i : Nat) (f : HostFn → HostFn) : (updFn s i f).nextMgmt = s.nextMgmt := rfl
@[simp] theorem updFn_security (i : Nat) (f : HostFn → HostFn) : (updFn s i f).security = s.security := rfl
@[simp] theorem updFn_commits (i : Nat) (f : HostFn → HostFn) : (updFn s i f).commits = s.commits := rfl
@[simp] theorem updFn_stored (i : Nat) (f : HostFn → HostFn) : (updFn s i f).stored = s.stored := rfl
@[simp] theorem updFn_out (i : Nat) (f : HostFn → HostFn) : (updFn s i f).out = s.out := rfl
@[simp] theorem updFn_free (i : Nat) (f : HostFn → HostFn) : (updFn s i f).free = s.free := rfl
@[simp] theorem updFn_pending (i : Nat) (f : HostFn → HostFn) : (updFn s i f).pending = s.pending := rfl
@[simp] theorem emit_od (m : OutMsg) : (emit s m).od = s.od := rfl
@[simp] theorem emit_dom (m : OutMsg) : (emit s m).dom = s.dom := rfl
@[simp] theorem emit_scratch (m : OutMsg) : (emit s m).scratch = s.scratch := rfl
@[simp] theorem emit_stack (m : OutMsg) : (emit s m).stack = s.stack := rfl
@[simp] theorem emit_stackPoison (m : OutMsg) : (emit s m).stackPoison = s.stackPoison := rfl
@[simp] theorem emit_cores (m : OutMsg) : (emit s m).cores = s.cores := rfl
@[simp] theorem emit_clusters (m : OutMsg) : (emit s m).clusters = s.clusters := rfl
@[simp] theorem emit_arrays (m : OutMsg) : (emit s m).arrays = s.arrays := rfl
@[simp] theorem emit_chains (m : OutMsg) : (emit s m).chains = s.chains := rfl
@[simp] theorem emit_frames (m : OutMsg) : (emit s m).frames = s.frames := rfl
@[simp] theorem emit_parts (m : OutMsg) : (emit s m).parts = s.parts := rfl
@[simp] theorem emit_sessions (m : OutMsg) : (emit s m).sessions = s.sessions := rfl
@[simp] theorem emit_subRings (m : OutMsg) : (emit s m).subRings = s.subRings := rfl
@[simp] theorem emit_compRings (m : OutMsg) : (emit s m).compRings = s.compRings := rfl
@[simp] theorem emit_recorder (m : OutMsg) : (emit s m).recorder = s.recorder := rfl
@[simp] theorem emit_yield (m : OutMsg) : (emit s m).yield = s.yield := rfl
@[simp] theorem emit_sets (m : OutMsg) : (emit s m).sets = s.sets := rfl
@[simp] theorem emit_transits (m : OutMsg) : (emit s m).transits = s.transits := rfl
@[simp] theorem emit_blocks (m : OutMsg) : (emit s m).blocks = s.blocks := rfl
@[simp] theorem emit_sensors (m : OutMsg) : (emit s m).sensors = s.sensors := rfl
@[simp] theorem emit_plant (m : OutMsg) : (emit s m).plant = s.plant := rfl
@[simp] theorem emit_fabric (m : OutMsg) : (emit s m).fabric = s.fabric := rfl
@[simp] theorem emit_pair (m : OutMsg) : (emit s m).pair = s.pair := rfl
@[simp] theorem emit_pcie (m : OutMsg) : (emit s m).pcie = s.pcie := rfl
@[simp] theorem emit_fns (m : OutMsg) : (emit s m).fns = s.fns := rfl
@[simp] theorem emit_served0 (m : OutMsg) : (emit s m).served0 = s.served0 := rfl
@[simp] theorem emit_served1 (m : OutMsg) : (emit s m).served1 = s.served1 := rfl
@[simp] theorem emit_mgmt (m : OutMsg) : (emit s m).mgmt = s.mgmt := rfl
@[simp] theorem emit_nextMgmt (m : OutMsg) : (emit s m).nextMgmt = s.nextMgmt := rfl
@[simp] theorem emit_security (m : OutMsg) : (emit s m).security = s.security := rfl
@[simp] theorem emit_commits (m : OutMsg) : (emit s m).commits = s.commits := rfl
@[simp] theorem emit_stored (m : OutMsg) : (emit s m).stored = s.stored := rfl
@[simp] theorem emit_free (m : OutMsg) : (emit s m).free = s.free := rfl
@[simp] theorem emit_pending (m : OutMsg) : (emit s m).pending = s.pending := rfl
@[simp] theorem emit_out (m : OutMsg) : (emit s m).out = s.out ++ [m] := rfl

/-! ## Updates as writes -/

theorem updCore_eq (i : Nat) (f : Core → Core) : updCore s i f = setCore s i (f (coreOf s i)) := rfl
@[simp] theorem coreOf_updCore (i j : Nat) (f : Core → Core) :
    coreOf (updCore s i f) j = if j = i then f (coreOf s i) else coreOf s j := kvGet_set _ _ _ _ _
@[simp] theorem updCore_od (i : Nat) (f : Core → Core) : (updCore s i f).od = s.od := rfl
@[simp] theorem updCore_dom (i : Nat) (f : Core → Core) : (updCore s i f).dom = s.dom := rfl
@[simp] theorem updCore_scratch (i : Nat) (f : Core → Core) : (updCore s i f).scratch = s.scratch := rfl
@[simp] theorem updCore_stack (i : Nat) (f : Core → Core) : (updCore s i f).stack = s.stack := rfl
@[simp] theorem updCore_stackPoison (i : Nat) (f : Core → Core) : (updCore s i f).stackPoison = s.stackPoison := rfl
@[simp] theorem updCore_clusters (i : Nat) (f : Core → Core) : (updCore s i f).clusters = s.clusters := rfl
@[simp] theorem updCore_arrays (i : Nat) (f : Core → Core) : (updCore s i f).arrays = s.arrays := rfl
@[simp] theorem updCore_chains (i : Nat) (f : Core → Core) : (updCore s i f).chains = s.chains := rfl
@[simp] theorem updCore_frames (i : Nat) (f : Core → Core) : (updCore s i f).frames = s.frames := rfl
@[simp] theorem updCore_parts (i : Nat) (f : Core → Core) : (updCore s i f).parts = s.parts := rfl
@[simp] theorem updCore_sessions (i : Nat) (f : Core → Core) : (updCore s i f).sessions = s.sessions := rfl
@[simp] theorem updCore_subRings (i : Nat) (f : Core → Core) : (updCore s i f).subRings = s.subRings := rfl
@[simp] theorem updCore_compRings (i : Nat) (f : Core → Core) : (updCore s i f).compRings = s.compRings := rfl
@[simp] theorem updCore_recorder (i : Nat) (f : Core → Core) : (updCore s i f).recorder = s.recorder := rfl
@[simp] theorem updCore_yield (i : Nat) (f : Core → Core) : (updCore s i f).yield = s.yield := rfl
@[simp] theorem updCore_sets (i : Nat) (f : Core → Core) : (updCore s i f).sets = s.sets := rfl
@[simp] theorem updCore_transits (i : Nat) (f : Core → Core) : (updCore s i f).transits = s.transits := rfl
@[simp] theorem updCore_blocks (i : Nat) (f : Core → Core) : (updCore s i f).blocks = s.blocks := rfl
@[simp] theorem updCore_sensors (i : Nat) (f : Core → Core) : (updCore s i f).sensors = s.sensors := rfl
@[simp] theorem updCore_plant (i : Nat) (f : Core → Core) : (updCore s i f).plant = s.plant := rfl
@[simp] theorem updCore_fabric (i : Nat) (f : Core → Core) : (updCore s i f).fabric = s.fabric := rfl
@[simp] theorem updCore_pair (i : Nat) (f : Core → Core) : (updCore s i f).pair = s.pair := rfl
@[simp] theorem updCore_pcie (i : Nat) (f : Core → Core) : (updCore s i f).pcie = s.pcie := rfl
@[simp] theorem updCore_fns (i : Nat) (f : Core → Core) : (updCore s i f).fns = s.fns := rfl
@[simp] theorem updCore_served0 (i : Nat) (f : Core → Core) : (updCore s i f).served0 = s.served0 := rfl
@[simp] theorem updCore_served1 (i : Nat) (f : Core → Core) : (updCore s i f).served1 = s.served1 := rfl
@[simp] theorem updCore_mgmt (i : Nat) (f : Core → Core) : (updCore s i f).mgmt = s.mgmt := rfl
@[simp] theorem updCore_nextMgmt (i : Nat) (f : Core → Core) : (updCore s i f).nextMgmt = s.nextMgmt := rfl
@[simp] theorem updCore_security (i : Nat) (f : Core → Core) : (updCore s i f).security = s.security := rfl
@[simp] theorem updCore_commits (i : Nat) (f : Core → Core) : (updCore s i f).commits = s.commits := rfl
@[simp] theorem updCore_stored (i : Nat) (f : Core → Core) : (updCore s i f).stored = s.stored := rfl
@[simp] theorem updCore_out (i : Nat) (f : Core → Core) : (updCore s i f).out = s.out := rfl
@[simp] theorem updCore_free (i : Nat) (f : Core → Core) : (updCore s i f).free = s.free := rfl
@[simp] theorem updCore_pending (i : Nat) (f : Core → Core) : (updCore s i f).pending = s.pending := rfl
@[simp] theorem odGet_updCore (i : Nat) (f : Core → Core) (k : Nat) : odGet (updCore s i f) k = odGet s k := rfl
@[simp] theorem domGet_updCore (i : Nat) (f : Core → Core) (k : Nat) : domGet (updCore s i f) k = domGet s k := rfl
@[simp] theorem clusterOf_updCore (i : Nat) (f : Core → Core) (j : Nat) : clusterOf (updCore s i f) j = clusterOf s j := rfl
@[simp] theorem arrOf_updCore (i : Nat) (f : Core → Core) (j : Nat) : arrOf (updCore s i f) j = arrOf s j := rfl
@[simp] theorem chainOf_updCore (i : Nat) (f : Core → Core) (j : Nat) : chainOf (updCore s i f) j = chainOf s j := rfl
@[simp] theorem frameOf_updCore (i : Nat) (f : Core → Core) (j : Nat) : frameOf (updCore s i f) j = frameOf s j := rfl
@[simp] theorem partOf_updCore (i : Nat) (f : Core → Core) (j : Nat) : partOf (updCore s i f) j = partOf s j := rfl
@[simp] theorem sessOf_updCore (i : Nat) (f : Core → Core) (j : Nat) : sessOf (updCore s i f) j = sessOf s j := rfl
@[simp] theorem subOf_updCore (i : Nat) (f : Core → Core) (j : Nat) : subOf (updCore s i f) j = subOf s j := rfl
@[simp] theorem compOf_updCore (i : Nat) (f : Core → Core) (j : Nat) : compOf (updCore s i f) j = compOf s j := rfl
@[simp] theorem wsetOf_updCore (i : Nat) (f : Core → Core) (j : Nat) : wsetOf (updCore s i f) j = wsetOf s j := rfl
@[simp] theorem blkOf_updCore (i : Nat) (f : Core → Core) (j : Nat) : blkOf (updCore s i f) j = blkOf s j := rfl
@[simp] theorem sensorOf_updCore (i : Nat) (f : Core → Core) (j : Nat) : sensorOf (updCore s i f) j = sensorOf s j := rfl
@[simp] theorem mgmtOf_updCore (i : Nat) (f : Core → Core) (j : Nat) : mgmtOf (updCore s i f) j = mgmtOf s j := rfl
@[simp] theorem portOf_updCore (i : Nat) (f : Core → Core) (j : Nat) : portOf (updCore s i f) j = portOf s j := rfl
@[simp] theorem fnOf_updCore (i : Nat) (f : Core → Core) (j : Nat) : fnOf (updCore s i f) j = fnOf s j := rfl
theorem updCluster_eq (i : Nat) (f : Cluster → Cluster) : updCluster s i f = setCluster s i (f (clusterOf s i)) := rfl
@[simp] theorem clusterOf_updCluster (i j : Nat) (f : Cluster → Cluster) :
    clusterOf (updCluster s i f) j = if j = i then f (clusterOf s i) else clusterOf s j := kvGet_set _ _ _ _ _
@[simp] theorem updCluster_od (i : Nat) (f : Cluster → Cluster) : (updCluster s i f).od = s.od := rfl
@[simp] theorem updCluster_dom (i : Nat) (f : Cluster → Cluster) : (updCluster s i f).dom = s.dom := rfl
@[simp] theorem updCluster_scratch (i : Nat) (f : Cluster → Cluster) : (updCluster s i f).scratch = s.scratch := rfl
@[simp] theorem updCluster_stack (i : Nat) (f : Cluster → Cluster) : (updCluster s i f).stack = s.stack := rfl
@[simp] theorem updCluster_stackPoison (i : Nat) (f : Cluster → Cluster) : (updCluster s i f).stackPoison = s.stackPoison := rfl
@[simp] theorem updCluster_cores (i : Nat) (f : Cluster → Cluster) : (updCluster s i f).cores = s.cores := rfl
@[simp] theorem updCluster_arrays (i : Nat) (f : Cluster → Cluster) : (updCluster s i f).arrays = s.arrays := rfl
@[simp] theorem updCluster_chains (i : Nat) (f : Cluster → Cluster) : (updCluster s i f).chains = s.chains := rfl
@[simp] theorem updCluster_frames (i : Nat) (f : Cluster → Cluster) : (updCluster s i f).frames = s.frames := rfl
@[simp] theorem updCluster_parts (i : Nat) (f : Cluster → Cluster) : (updCluster s i f).parts = s.parts := rfl
@[simp] theorem updCluster_sessions (i : Nat) (f : Cluster → Cluster) : (updCluster s i f).sessions = s.sessions := rfl
@[simp] theorem updCluster_subRings (i : Nat) (f : Cluster → Cluster) : (updCluster s i f).subRings = s.subRings := rfl
@[simp] theorem updCluster_compRings (i : Nat) (f : Cluster → Cluster) : (updCluster s i f).compRings = s.compRings := rfl
@[simp] theorem updCluster_recorder (i : Nat) (f : Cluster → Cluster) : (updCluster s i f).recorder = s.recorder := rfl
@[simp] theorem updCluster_yield (i : Nat) (f : Cluster → Cluster) : (updCluster s i f).yield = s.yield := rfl
@[simp] theorem updCluster_sets (i : Nat) (f : Cluster → Cluster) : (updCluster s i f).sets = s.sets := rfl
@[simp] theorem updCluster_transits (i : Nat) (f : Cluster → Cluster) : (updCluster s i f).transits = s.transits := rfl
@[simp] theorem updCluster_blocks (i : Nat) (f : Cluster → Cluster) : (updCluster s i f).blocks = s.blocks := rfl
@[simp] theorem updCluster_sensors (i : Nat) (f : Cluster → Cluster) : (updCluster s i f).sensors = s.sensors := rfl
@[simp] theorem updCluster_plant (i : Nat) (f : Cluster → Cluster) : (updCluster s i f).plant = s.plant := rfl
@[simp] theorem updCluster_fabric (i : Nat) (f : Cluster → Cluster) : (updCluster s i f).fabric = s.fabric := rfl
@[simp] theorem updCluster_pair (i : Nat) (f : Cluster → Cluster) : (updCluster s i f).pair = s.pair := rfl
@[simp] theorem updCluster_pcie (i : Nat) (f : Cluster → Cluster) : (updCluster s i f).pcie = s.pcie := rfl
@[simp] theorem updCluster_fns (i : Nat) (f : Cluster → Cluster) : (updCluster s i f).fns = s.fns := rfl
@[simp] theorem updCluster_served0 (i : Nat) (f : Cluster → Cluster) : (updCluster s i f).served0 = s.served0 := rfl
@[simp] theorem updCluster_served1 (i : Nat) (f : Cluster → Cluster) : (updCluster s i f).served1 = s.served1 := rfl
@[simp] theorem updCluster_mgmt (i : Nat) (f : Cluster → Cluster) : (updCluster s i f).mgmt = s.mgmt := rfl
@[simp] theorem updCluster_nextMgmt (i : Nat) (f : Cluster → Cluster) : (updCluster s i f).nextMgmt = s.nextMgmt := rfl
@[simp] theorem updCluster_security (i : Nat) (f : Cluster → Cluster) : (updCluster s i f).security = s.security := rfl
@[simp] theorem updCluster_commits (i : Nat) (f : Cluster → Cluster) : (updCluster s i f).commits = s.commits := rfl
@[simp] theorem updCluster_stored (i : Nat) (f : Cluster → Cluster) : (updCluster s i f).stored = s.stored := rfl
@[simp] theorem updCluster_out (i : Nat) (f : Cluster → Cluster) : (updCluster s i f).out = s.out := rfl
@[simp] theorem updCluster_free (i : Nat) (f : Cluster → Cluster) : (updCluster s i f).free = s.free := rfl
@[simp] theorem updCluster_pending (i : Nat) (f : Cluster → Cluster) : (updCluster s i f).pending = s.pending := rfl
@[simp] theorem odGet_updCluster (i : Nat) (f : Cluster → Cluster) (k : Nat) : odGet (updCluster s i f) k = odGet s k := rfl
@[simp] theorem domGet_updCluster (i : Nat) (f : Cluster → Cluster) (k : Nat) : domGet (updCluster s i f) k = domGet s k := rfl
@[simp] theorem coreOf_updCluster (i : Nat) (f : Cluster → Cluster) (j : Nat) : coreOf (updCluster s i f) j = coreOf s j := rfl
@[simp] theorem arrOf_updCluster (i : Nat) (f : Cluster → Cluster) (j : Nat) : arrOf (updCluster s i f) j = arrOf s j := rfl
@[simp] theorem chainOf_updCluster (i : Nat) (f : Cluster → Cluster) (j : Nat) : chainOf (updCluster s i f) j = chainOf s j := rfl
@[simp] theorem frameOf_updCluster (i : Nat) (f : Cluster → Cluster) (j : Nat) : frameOf (updCluster s i f) j = frameOf s j := rfl
@[simp] theorem partOf_updCluster (i : Nat) (f : Cluster → Cluster) (j : Nat) : partOf (updCluster s i f) j = partOf s j := rfl
@[simp] theorem sessOf_updCluster (i : Nat) (f : Cluster → Cluster) (j : Nat) : sessOf (updCluster s i f) j = sessOf s j := rfl
@[simp] theorem subOf_updCluster (i : Nat) (f : Cluster → Cluster) (j : Nat) : subOf (updCluster s i f) j = subOf s j := rfl
@[simp] theorem compOf_updCluster (i : Nat) (f : Cluster → Cluster) (j : Nat) : compOf (updCluster s i f) j = compOf s j := rfl
@[simp] theorem wsetOf_updCluster (i : Nat) (f : Cluster → Cluster) (j : Nat) : wsetOf (updCluster s i f) j = wsetOf s j := rfl
@[simp] theorem blkOf_updCluster (i : Nat) (f : Cluster → Cluster) (j : Nat) : blkOf (updCluster s i f) j = blkOf s j := rfl
@[simp] theorem sensorOf_updCluster (i : Nat) (f : Cluster → Cluster) (j : Nat) : sensorOf (updCluster s i f) j = sensorOf s j := rfl
@[simp] theorem mgmtOf_updCluster (i : Nat) (f : Cluster → Cluster) (j : Nat) : mgmtOf (updCluster s i f) j = mgmtOf s j := rfl
@[simp] theorem portOf_updCluster (i : Nat) (f : Cluster → Cluster) (j : Nat) : portOf (updCluster s i f) j = portOf s j := rfl
@[simp] theorem fnOf_updCluster (i : Nat) (f : Cluster → Cluster) (j : Nat) : fnOf (updCluster s i f) j = fnOf s j := rfl
theorem updArr_eq (i : Nat) (f : Arr → Arr) : updArr s i f = setArr s i (f (arrOf s i)) := rfl
@[simp] theorem arrOf_updArr (i j : Nat) (f : Arr → Arr) :
    arrOf (updArr s i f) j = if j = i then f (arrOf s i) else arrOf s j := kvGet_set _ _ _ _ _
@[simp] theorem updArr_od (i : Nat) (f : Arr → Arr) : (updArr s i f).od = s.od := rfl
@[simp] theorem updArr_dom (i : Nat) (f : Arr → Arr) : (updArr s i f).dom = s.dom := rfl
@[simp] theorem updArr_scratch (i : Nat) (f : Arr → Arr) : (updArr s i f).scratch = s.scratch := rfl
@[simp] theorem updArr_stack (i : Nat) (f : Arr → Arr) : (updArr s i f).stack = s.stack := rfl
@[simp] theorem updArr_stackPoison (i : Nat) (f : Arr → Arr) : (updArr s i f).stackPoison = s.stackPoison := rfl
@[simp] theorem updArr_cores (i : Nat) (f : Arr → Arr) : (updArr s i f).cores = s.cores := rfl
@[simp] theorem updArr_clusters (i : Nat) (f : Arr → Arr) : (updArr s i f).clusters = s.clusters := rfl
@[simp] theorem updArr_chains (i : Nat) (f : Arr → Arr) : (updArr s i f).chains = s.chains := rfl
@[simp] theorem updArr_frames (i : Nat) (f : Arr → Arr) : (updArr s i f).frames = s.frames := rfl
@[simp] theorem updArr_parts (i : Nat) (f : Arr → Arr) : (updArr s i f).parts = s.parts := rfl
@[simp] theorem updArr_sessions (i : Nat) (f : Arr → Arr) : (updArr s i f).sessions = s.sessions := rfl
@[simp] theorem updArr_subRings (i : Nat) (f : Arr → Arr) : (updArr s i f).subRings = s.subRings := rfl
@[simp] theorem updArr_compRings (i : Nat) (f : Arr → Arr) : (updArr s i f).compRings = s.compRings := rfl
@[simp] theorem updArr_recorder (i : Nat) (f : Arr → Arr) : (updArr s i f).recorder = s.recorder := rfl
@[simp] theorem updArr_yield (i : Nat) (f : Arr → Arr) : (updArr s i f).yield = s.yield := rfl
@[simp] theorem updArr_sets (i : Nat) (f : Arr → Arr) : (updArr s i f).sets = s.sets := rfl
@[simp] theorem updArr_transits (i : Nat) (f : Arr → Arr) : (updArr s i f).transits = s.transits := rfl
@[simp] theorem updArr_blocks (i : Nat) (f : Arr → Arr) : (updArr s i f).blocks = s.blocks := rfl
@[simp] theorem updArr_sensors (i : Nat) (f : Arr → Arr) : (updArr s i f).sensors = s.sensors := rfl
@[simp] theorem updArr_plant (i : Nat) (f : Arr → Arr) : (updArr s i f).plant = s.plant := rfl
@[simp] theorem updArr_fabric (i : Nat) (f : Arr → Arr) : (updArr s i f).fabric = s.fabric := rfl
@[simp] theorem updArr_pair (i : Nat) (f : Arr → Arr) : (updArr s i f).pair = s.pair := rfl
@[simp] theorem updArr_pcie (i : Nat) (f : Arr → Arr) : (updArr s i f).pcie = s.pcie := rfl
@[simp] theorem updArr_fns (i : Nat) (f : Arr → Arr) : (updArr s i f).fns = s.fns := rfl
@[simp] theorem updArr_served0 (i : Nat) (f : Arr → Arr) : (updArr s i f).served0 = s.served0 := rfl
@[simp] theorem updArr_served1 (i : Nat) (f : Arr → Arr) : (updArr s i f).served1 = s.served1 := rfl
@[simp] theorem updArr_mgmt (i : Nat) (f : Arr → Arr) : (updArr s i f).mgmt = s.mgmt := rfl
@[simp] theorem updArr_nextMgmt (i : Nat) (f : Arr → Arr) : (updArr s i f).nextMgmt = s.nextMgmt := rfl
@[simp] theorem updArr_security (i : Nat) (f : Arr → Arr) : (updArr s i f).security = s.security := rfl
@[simp] theorem updArr_commits (i : Nat) (f : Arr → Arr) : (updArr s i f).commits = s.commits := rfl
@[simp] theorem updArr_stored (i : Nat) (f : Arr → Arr) : (updArr s i f).stored = s.stored := rfl
@[simp] theorem updArr_out (i : Nat) (f : Arr → Arr) : (updArr s i f).out = s.out := rfl
@[simp] theorem updArr_free (i : Nat) (f : Arr → Arr) : (updArr s i f).free = s.free := rfl
@[simp] theorem updArr_pending (i : Nat) (f : Arr → Arr) : (updArr s i f).pending = s.pending := rfl
@[simp] theorem odGet_updArr (i : Nat) (f : Arr → Arr) (k : Nat) : odGet (updArr s i f) k = odGet s k := rfl
@[simp] theorem domGet_updArr (i : Nat) (f : Arr → Arr) (k : Nat) : domGet (updArr s i f) k = domGet s k := rfl
@[simp] theorem coreOf_updArr (i : Nat) (f : Arr → Arr) (j : Nat) : coreOf (updArr s i f) j = coreOf s j := rfl
@[simp] theorem clusterOf_updArr (i : Nat) (f : Arr → Arr) (j : Nat) : clusterOf (updArr s i f) j = clusterOf s j := rfl
@[simp] theorem chainOf_updArr (i : Nat) (f : Arr → Arr) (j : Nat) : chainOf (updArr s i f) j = chainOf s j := rfl
@[simp] theorem frameOf_updArr (i : Nat) (f : Arr → Arr) (j : Nat) : frameOf (updArr s i f) j = frameOf s j := rfl
@[simp] theorem partOf_updArr (i : Nat) (f : Arr → Arr) (j : Nat) : partOf (updArr s i f) j = partOf s j := rfl
@[simp] theorem sessOf_updArr (i : Nat) (f : Arr → Arr) (j : Nat) : sessOf (updArr s i f) j = sessOf s j := rfl
@[simp] theorem subOf_updArr (i : Nat) (f : Arr → Arr) (j : Nat) : subOf (updArr s i f) j = subOf s j := rfl
@[simp] theorem compOf_updArr (i : Nat) (f : Arr → Arr) (j : Nat) : compOf (updArr s i f) j = compOf s j := rfl
@[simp] theorem wsetOf_updArr (i : Nat) (f : Arr → Arr) (j : Nat) : wsetOf (updArr s i f) j = wsetOf s j := rfl
@[simp] theorem blkOf_updArr (i : Nat) (f : Arr → Arr) (j : Nat) : blkOf (updArr s i f) j = blkOf s j := rfl
@[simp] theorem sensorOf_updArr (i : Nat) (f : Arr → Arr) (j : Nat) : sensorOf (updArr s i f) j = sensorOf s j := rfl
@[simp] theorem mgmtOf_updArr (i : Nat) (f : Arr → Arr) (j : Nat) : mgmtOf (updArr s i f) j = mgmtOf s j := rfl
@[simp] theorem portOf_updArr (i : Nat) (f : Arr → Arr) (j : Nat) : portOf (updArr s i f) j = portOf s j := rfl
@[simp] theorem fnOf_updArr (i : Nat) (f : Arr → Arr) (j : Nat) : fnOf (updArr s i f) j = fnOf s j := rfl
theorem updChain_eq (i : Nat) (f : ChainState → ChainState) : updChain s i f = setChain s i (f (chainOf s i)) := rfl
@[simp] theorem chainOf_updChain (i j : Nat) (f : ChainState → ChainState) :
    chainOf (updChain s i f) j = if j = i then f (chainOf s i) else chainOf s j := kvGet_set _ _ _ _ _
@[simp] theorem updChain_od (i : Nat) (f : ChainState → ChainState) : (updChain s i f).od = s.od := rfl
@[simp] theorem updChain_dom (i : Nat) (f : ChainState → ChainState) : (updChain s i f).dom = s.dom := rfl
@[simp] theorem updChain_scratch (i : Nat) (f : ChainState → ChainState) : (updChain s i f).scratch = s.scratch := rfl
@[simp] theorem updChain_stack (i : Nat) (f : ChainState → ChainState) : (updChain s i f).stack = s.stack := rfl
@[simp] theorem updChain_stackPoison (i : Nat) (f : ChainState → ChainState) : (updChain s i f).stackPoison = s.stackPoison := rfl
@[simp] theorem updChain_cores (i : Nat) (f : ChainState → ChainState) : (updChain s i f).cores = s.cores := rfl
@[simp] theorem updChain_clusters (i : Nat) (f : ChainState → ChainState) : (updChain s i f).clusters = s.clusters := rfl
@[simp] theorem updChain_arrays (i : Nat) (f : ChainState → ChainState) : (updChain s i f).arrays = s.arrays := rfl
@[simp] theorem updChain_frames (i : Nat) (f : ChainState → ChainState) : (updChain s i f).frames = s.frames := rfl
@[simp] theorem updChain_parts (i : Nat) (f : ChainState → ChainState) : (updChain s i f).parts = s.parts := rfl
@[simp] theorem updChain_sessions (i : Nat) (f : ChainState → ChainState) : (updChain s i f).sessions = s.sessions := rfl
@[simp] theorem updChain_subRings (i : Nat) (f : ChainState → ChainState) : (updChain s i f).subRings = s.subRings := rfl
@[simp] theorem updChain_compRings (i : Nat) (f : ChainState → ChainState) : (updChain s i f).compRings = s.compRings := rfl
@[simp] theorem updChain_recorder (i : Nat) (f : ChainState → ChainState) : (updChain s i f).recorder = s.recorder := rfl
@[simp] theorem updChain_yield (i : Nat) (f : ChainState → ChainState) : (updChain s i f).yield = s.yield := rfl
@[simp] theorem updChain_sets (i : Nat) (f : ChainState → ChainState) : (updChain s i f).sets = s.sets := rfl
@[simp] theorem updChain_transits (i : Nat) (f : ChainState → ChainState) : (updChain s i f).transits = s.transits := rfl
@[simp] theorem updChain_blocks (i : Nat) (f : ChainState → ChainState) : (updChain s i f).blocks = s.blocks := rfl
@[simp] theorem updChain_sensors (i : Nat) (f : ChainState → ChainState) : (updChain s i f).sensors = s.sensors := rfl
@[simp] theorem updChain_plant (i : Nat) (f : ChainState → ChainState) : (updChain s i f).plant = s.plant := rfl
@[simp] theorem updChain_fabric (i : Nat) (f : ChainState → ChainState) : (updChain s i f).fabric = s.fabric := rfl
@[simp] theorem updChain_pair (i : Nat) (f : ChainState → ChainState) : (updChain s i f).pair = s.pair := rfl
@[simp] theorem updChain_pcie (i : Nat) (f : ChainState → ChainState) : (updChain s i f).pcie = s.pcie := rfl
@[simp] theorem updChain_fns (i : Nat) (f : ChainState → ChainState) : (updChain s i f).fns = s.fns := rfl
@[simp] theorem updChain_served0 (i : Nat) (f : ChainState → ChainState) : (updChain s i f).served0 = s.served0 := rfl
@[simp] theorem updChain_served1 (i : Nat) (f : ChainState → ChainState) : (updChain s i f).served1 = s.served1 := rfl
@[simp] theorem updChain_mgmt (i : Nat) (f : ChainState → ChainState) : (updChain s i f).mgmt = s.mgmt := rfl
@[simp] theorem updChain_nextMgmt (i : Nat) (f : ChainState → ChainState) : (updChain s i f).nextMgmt = s.nextMgmt := rfl
@[simp] theorem updChain_security (i : Nat) (f : ChainState → ChainState) : (updChain s i f).security = s.security := rfl
@[simp] theorem updChain_commits (i : Nat) (f : ChainState → ChainState) : (updChain s i f).commits = s.commits := rfl
@[simp] theorem updChain_stored (i : Nat) (f : ChainState → ChainState) : (updChain s i f).stored = s.stored := rfl
@[simp] theorem updChain_out (i : Nat) (f : ChainState → ChainState) : (updChain s i f).out = s.out := rfl
@[simp] theorem updChain_free (i : Nat) (f : ChainState → ChainState) : (updChain s i f).free = s.free := rfl
@[simp] theorem updChain_pending (i : Nat) (f : ChainState → ChainState) : (updChain s i f).pending = s.pending := rfl
@[simp] theorem odGet_updChain (i : Nat) (f : ChainState → ChainState) (k : Nat) : odGet (updChain s i f) k = odGet s k := rfl
@[simp] theorem domGet_updChain (i : Nat) (f : ChainState → ChainState) (k : Nat) : domGet (updChain s i f) k = domGet s k := rfl
@[simp] theorem coreOf_updChain (i : Nat) (f : ChainState → ChainState) (j : Nat) : coreOf (updChain s i f) j = coreOf s j := rfl
@[simp] theorem clusterOf_updChain (i : Nat) (f : ChainState → ChainState) (j : Nat) : clusterOf (updChain s i f) j = clusterOf s j := rfl
@[simp] theorem arrOf_updChain (i : Nat) (f : ChainState → ChainState) (j : Nat) : arrOf (updChain s i f) j = arrOf s j := rfl
@[simp] theorem frameOf_updChain (i : Nat) (f : ChainState → ChainState) (j : Nat) : frameOf (updChain s i f) j = frameOf s j := rfl
@[simp] theorem partOf_updChain (i : Nat) (f : ChainState → ChainState) (j : Nat) : partOf (updChain s i f) j = partOf s j := rfl
@[simp] theorem sessOf_updChain (i : Nat) (f : ChainState → ChainState) (j : Nat) : sessOf (updChain s i f) j = sessOf s j := rfl
@[simp] theorem subOf_updChain (i : Nat) (f : ChainState → ChainState) (j : Nat) : subOf (updChain s i f) j = subOf s j := rfl
@[simp] theorem compOf_updChain (i : Nat) (f : ChainState → ChainState) (j : Nat) : compOf (updChain s i f) j = compOf s j := rfl
@[simp] theorem wsetOf_updChain (i : Nat) (f : ChainState → ChainState) (j : Nat) : wsetOf (updChain s i f) j = wsetOf s j := rfl
@[simp] theorem blkOf_updChain (i : Nat) (f : ChainState → ChainState) (j : Nat) : blkOf (updChain s i f) j = blkOf s j := rfl
@[simp] theorem sensorOf_updChain (i : Nat) (f : ChainState → ChainState) (j : Nat) : sensorOf (updChain s i f) j = sensorOf s j := rfl
@[simp] theorem mgmtOf_updChain (i : Nat) (f : ChainState → ChainState) (j : Nat) : mgmtOf (updChain s i f) j = mgmtOf s j := rfl
@[simp] theorem portOf_updChain (i : Nat) (f : ChainState → ChainState) (j : Nat) : portOf (updChain s i f) j = portOf s j := rfl
@[simp] theorem fnOf_updChain (i : Nat) (f : ChainState → ChainState) (j : Nat) : fnOf (updChain s i f) j = fnOf s j := rfl
theorem updFrame_eq (i : Nat) (f : Frame → Frame) : updFrame s i f = setFrame s i (f (frameOf s i)) := rfl
@[simp] theorem frameOf_updFrame (i j : Nat) (f : Frame → Frame) :
    frameOf (updFrame s i f) j = if j = i then f (frameOf s i) else frameOf s j := kvGet_set _ _ _ _ _
@[simp] theorem updFrame_od (i : Nat) (f : Frame → Frame) : (updFrame s i f).od = s.od := rfl
@[simp] theorem updFrame_dom (i : Nat) (f : Frame → Frame) : (updFrame s i f).dom = s.dom := rfl
@[simp] theorem updFrame_scratch (i : Nat) (f : Frame → Frame) : (updFrame s i f).scratch = s.scratch := rfl
@[simp] theorem updFrame_stack (i : Nat) (f : Frame → Frame) : (updFrame s i f).stack = s.stack := rfl
@[simp] theorem updFrame_stackPoison (i : Nat) (f : Frame → Frame) : (updFrame s i f).stackPoison = s.stackPoison := rfl
@[simp] theorem updFrame_cores (i : Nat) (f : Frame → Frame) : (updFrame s i f).cores = s.cores := rfl
@[simp] theorem updFrame_clusters (i : Nat) (f : Frame → Frame) : (updFrame s i f).clusters = s.clusters := rfl
@[simp] theorem updFrame_arrays (i : Nat) (f : Frame → Frame) : (updFrame s i f).arrays = s.arrays := rfl
@[simp] theorem updFrame_chains (i : Nat) (f : Frame → Frame) : (updFrame s i f).chains = s.chains := rfl
@[simp] theorem updFrame_parts (i : Nat) (f : Frame → Frame) : (updFrame s i f).parts = s.parts := rfl
@[simp] theorem updFrame_sessions (i : Nat) (f : Frame → Frame) : (updFrame s i f).sessions = s.sessions := rfl
@[simp] theorem updFrame_subRings (i : Nat) (f : Frame → Frame) : (updFrame s i f).subRings = s.subRings := rfl
@[simp] theorem updFrame_compRings (i : Nat) (f : Frame → Frame) : (updFrame s i f).compRings = s.compRings := rfl
@[simp] theorem updFrame_recorder (i : Nat) (f : Frame → Frame) : (updFrame s i f).recorder = s.recorder := rfl
@[simp] theorem updFrame_yield (i : Nat) (f : Frame → Frame) : (updFrame s i f).yield = s.yield := rfl
@[simp] theorem updFrame_sets (i : Nat) (f : Frame → Frame) : (updFrame s i f).sets = s.sets := rfl
@[simp] theorem updFrame_transits (i : Nat) (f : Frame → Frame) : (updFrame s i f).transits = s.transits := rfl
@[simp] theorem updFrame_blocks (i : Nat) (f : Frame → Frame) : (updFrame s i f).blocks = s.blocks := rfl
@[simp] theorem updFrame_sensors (i : Nat) (f : Frame → Frame) : (updFrame s i f).sensors = s.sensors := rfl
@[simp] theorem updFrame_plant (i : Nat) (f : Frame → Frame) : (updFrame s i f).plant = s.plant := rfl
@[simp] theorem updFrame_fabric (i : Nat) (f : Frame → Frame) : (updFrame s i f).fabric = s.fabric := rfl
@[simp] theorem updFrame_pair (i : Nat) (f : Frame → Frame) : (updFrame s i f).pair = s.pair := rfl
@[simp] theorem updFrame_pcie (i : Nat) (f : Frame → Frame) : (updFrame s i f).pcie = s.pcie := rfl
@[simp] theorem updFrame_fns (i : Nat) (f : Frame → Frame) : (updFrame s i f).fns = s.fns := rfl
@[simp] theorem updFrame_served0 (i : Nat) (f : Frame → Frame) : (updFrame s i f).served0 = s.served0 := rfl
@[simp] theorem updFrame_served1 (i : Nat) (f : Frame → Frame) : (updFrame s i f).served1 = s.served1 := rfl
@[simp] theorem updFrame_mgmt (i : Nat) (f : Frame → Frame) : (updFrame s i f).mgmt = s.mgmt := rfl
@[simp] theorem updFrame_nextMgmt (i : Nat) (f : Frame → Frame) : (updFrame s i f).nextMgmt = s.nextMgmt := rfl
@[simp] theorem updFrame_security (i : Nat) (f : Frame → Frame) : (updFrame s i f).security = s.security := rfl
@[simp] theorem updFrame_commits (i : Nat) (f : Frame → Frame) : (updFrame s i f).commits = s.commits := rfl
@[simp] theorem updFrame_stored (i : Nat) (f : Frame → Frame) : (updFrame s i f).stored = s.stored := rfl
@[simp] theorem updFrame_out (i : Nat) (f : Frame → Frame) : (updFrame s i f).out = s.out := rfl
@[simp] theorem updFrame_free (i : Nat) (f : Frame → Frame) : (updFrame s i f).free = s.free := rfl
@[simp] theorem updFrame_pending (i : Nat) (f : Frame → Frame) : (updFrame s i f).pending = s.pending := rfl
@[simp] theorem odGet_updFrame (i : Nat) (f : Frame → Frame) (k : Nat) : odGet (updFrame s i f) k = odGet s k := rfl
@[simp] theorem domGet_updFrame (i : Nat) (f : Frame → Frame) (k : Nat) : domGet (updFrame s i f) k = domGet s k := rfl
@[simp] theorem coreOf_updFrame (i : Nat) (f : Frame → Frame) (j : Nat) : coreOf (updFrame s i f) j = coreOf s j := rfl
@[simp] theorem clusterOf_updFrame (i : Nat) (f : Frame → Frame) (j : Nat) : clusterOf (updFrame s i f) j = clusterOf s j := rfl
@[simp] theorem arrOf_updFrame (i : Nat) (f : Frame → Frame) (j : Nat) : arrOf (updFrame s i f) j = arrOf s j := rfl
@[simp] theorem chainOf_updFrame (i : Nat) (f : Frame → Frame) (j : Nat) : chainOf (updFrame s i f) j = chainOf s j := rfl
@[simp] theorem partOf_updFrame (i : Nat) (f : Frame → Frame) (j : Nat) : partOf (updFrame s i f) j = partOf s j := rfl
@[simp] theorem sessOf_updFrame (i : Nat) (f : Frame → Frame) (j : Nat) : sessOf (updFrame s i f) j = sessOf s j := rfl
@[simp] theorem subOf_updFrame (i : Nat) (f : Frame → Frame) (j : Nat) : subOf (updFrame s i f) j = subOf s j := rfl
@[simp] theorem compOf_updFrame (i : Nat) (f : Frame → Frame) (j : Nat) : compOf (updFrame s i f) j = compOf s j := rfl
@[simp] theorem wsetOf_updFrame (i : Nat) (f : Frame → Frame) (j : Nat) : wsetOf (updFrame s i f) j = wsetOf s j := rfl
@[simp] theorem blkOf_updFrame (i : Nat) (f : Frame → Frame) (j : Nat) : blkOf (updFrame s i f) j = blkOf s j := rfl
@[simp] theorem sensorOf_updFrame (i : Nat) (f : Frame → Frame) (j : Nat) : sensorOf (updFrame s i f) j = sensorOf s j := rfl
@[simp] theorem mgmtOf_updFrame (i : Nat) (f : Frame → Frame) (j : Nat) : mgmtOf (updFrame s i f) j = mgmtOf s j := rfl
@[simp] theorem portOf_updFrame (i : Nat) (f : Frame → Frame) (j : Nat) : portOf (updFrame s i f) j = portOf s j := rfl
@[simp] theorem fnOf_updFrame (i : Nat) (f : Frame → Frame) (j : Nat) : fnOf (updFrame s i f) j = fnOf s j := rfl
theorem updPart_eq (i : Nat) (f : Part → Part) : updPart s i f = setPart s i (f (partOf s i)) := rfl
@[simp] theorem partOf_updPart (i j : Nat) (f : Part → Part) :
    partOf (updPart s i f) j = if j = i then f (partOf s i) else partOf s j := kvGet_set _ _ _ _ _
@[simp] theorem updPart_od (i : Nat) (f : Part → Part) : (updPart s i f).od = s.od := rfl
@[simp] theorem updPart_dom (i : Nat) (f : Part → Part) : (updPart s i f).dom = s.dom := rfl
@[simp] theorem updPart_scratch (i : Nat) (f : Part → Part) : (updPart s i f).scratch = s.scratch := rfl
@[simp] theorem updPart_stack (i : Nat) (f : Part → Part) : (updPart s i f).stack = s.stack := rfl
@[simp] theorem updPart_stackPoison (i : Nat) (f : Part → Part) : (updPart s i f).stackPoison = s.stackPoison := rfl
@[simp] theorem updPart_cores (i : Nat) (f : Part → Part) : (updPart s i f).cores = s.cores := rfl
@[simp] theorem updPart_clusters (i : Nat) (f : Part → Part) : (updPart s i f).clusters = s.clusters := rfl
@[simp] theorem updPart_arrays (i : Nat) (f : Part → Part) : (updPart s i f).arrays = s.arrays := rfl
@[simp] theorem updPart_chains (i : Nat) (f : Part → Part) : (updPart s i f).chains = s.chains := rfl
@[simp] theorem updPart_frames (i : Nat) (f : Part → Part) : (updPart s i f).frames = s.frames := rfl
@[simp] theorem updPart_sessions (i : Nat) (f : Part → Part) : (updPart s i f).sessions = s.sessions := rfl
@[simp] theorem updPart_subRings (i : Nat) (f : Part → Part) : (updPart s i f).subRings = s.subRings := rfl
@[simp] theorem updPart_compRings (i : Nat) (f : Part → Part) : (updPart s i f).compRings = s.compRings := rfl
@[simp] theorem updPart_recorder (i : Nat) (f : Part → Part) : (updPart s i f).recorder = s.recorder := rfl
@[simp] theorem updPart_yield (i : Nat) (f : Part → Part) : (updPart s i f).yield = s.yield := rfl
@[simp] theorem updPart_sets (i : Nat) (f : Part → Part) : (updPart s i f).sets = s.sets := rfl
@[simp] theorem updPart_transits (i : Nat) (f : Part → Part) : (updPart s i f).transits = s.transits := rfl
@[simp] theorem updPart_blocks (i : Nat) (f : Part → Part) : (updPart s i f).blocks = s.blocks := rfl
@[simp] theorem updPart_sensors (i : Nat) (f : Part → Part) : (updPart s i f).sensors = s.sensors := rfl
@[simp] theorem updPart_plant (i : Nat) (f : Part → Part) : (updPart s i f).plant = s.plant := rfl
@[simp] theorem updPart_fabric (i : Nat) (f : Part → Part) : (updPart s i f).fabric = s.fabric := rfl
@[simp] theorem updPart_pair (i : Nat) (f : Part → Part) : (updPart s i f).pair = s.pair := rfl
@[simp] theorem updPart_pcie (i : Nat) (f : Part → Part) : (updPart s i f).pcie = s.pcie := rfl
@[simp] theorem updPart_fns (i : Nat) (f : Part → Part) : (updPart s i f).fns = s.fns := rfl
@[simp] theorem updPart_served0 (i : Nat) (f : Part → Part) : (updPart s i f).served0 = s.served0 := rfl
@[simp] theorem updPart_served1 (i : Nat) (f : Part → Part) : (updPart s i f).served1 = s.served1 := rfl
@[simp] theorem updPart_mgmt (i : Nat) (f : Part → Part) : (updPart s i f).mgmt = s.mgmt := rfl
@[simp] theorem updPart_nextMgmt (i : Nat) (f : Part → Part) : (updPart s i f).nextMgmt = s.nextMgmt := rfl
@[simp] theorem updPart_security (i : Nat) (f : Part → Part) : (updPart s i f).security = s.security := rfl
@[simp] theorem updPart_commits (i : Nat) (f : Part → Part) : (updPart s i f).commits = s.commits := rfl
@[simp] theorem updPart_stored (i : Nat) (f : Part → Part) : (updPart s i f).stored = s.stored := rfl
@[simp] theorem updPart_out (i : Nat) (f : Part → Part) : (updPart s i f).out = s.out := rfl
@[simp] theorem updPart_free (i : Nat) (f : Part → Part) : (updPart s i f).free = s.free := rfl
@[simp] theorem updPart_pending (i : Nat) (f : Part → Part) : (updPart s i f).pending = s.pending := rfl
@[simp] theorem odGet_updPart (i : Nat) (f : Part → Part) (k : Nat) : odGet (updPart s i f) k = odGet s k := rfl
@[simp] theorem domGet_updPart (i : Nat) (f : Part → Part) (k : Nat) : domGet (updPart s i f) k = domGet s k := rfl
@[simp] theorem coreOf_updPart (i : Nat) (f : Part → Part) (j : Nat) : coreOf (updPart s i f) j = coreOf s j := rfl
@[simp] theorem clusterOf_updPart (i : Nat) (f : Part → Part) (j : Nat) : clusterOf (updPart s i f) j = clusterOf s j := rfl
@[simp] theorem arrOf_updPart (i : Nat) (f : Part → Part) (j : Nat) : arrOf (updPart s i f) j = arrOf s j := rfl
@[simp] theorem chainOf_updPart (i : Nat) (f : Part → Part) (j : Nat) : chainOf (updPart s i f) j = chainOf s j := rfl
@[simp] theorem frameOf_updPart (i : Nat) (f : Part → Part) (j : Nat) : frameOf (updPart s i f) j = frameOf s j := rfl
@[simp] theorem sessOf_updPart (i : Nat) (f : Part → Part) (j : Nat) : sessOf (updPart s i f) j = sessOf s j := rfl
@[simp] theorem subOf_updPart (i : Nat) (f : Part → Part) (j : Nat) : subOf (updPart s i f) j = subOf s j := rfl
@[simp] theorem compOf_updPart (i : Nat) (f : Part → Part) (j : Nat) : compOf (updPart s i f) j = compOf s j := rfl
@[simp] theorem wsetOf_updPart (i : Nat) (f : Part → Part) (j : Nat) : wsetOf (updPart s i f) j = wsetOf s j := rfl
@[simp] theorem blkOf_updPart (i : Nat) (f : Part → Part) (j : Nat) : blkOf (updPart s i f) j = blkOf s j := rfl
@[simp] theorem sensorOf_updPart (i : Nat) (f : Part → Part) (j : Nat) : sensorOf (updPart s i f) j = sensorOf s j := rfl
@[simp] theorem mgmtOf_updPart (i : Nat) (f : Part → Part) (j : Nat) : mgmtOf (updPart s i f) j = mgmtOf s j := rfl
@[simp] theorem portOf_updPart (i : Nat) (f : Part → Part) (j : Nat) : portOf (updPart s i f) j = portOf s j := rfl
@[simp] theorem fnOf_updPart (i : Nat) (f : Part → Part) (j : Nat) : fnOf (updPart s i f) j = fnOf s j := rfl
theorem updSess_eq (i : Nat) (f : Session → Session) : updSess s i f = setSess s i (f (sessOf s i)) := rfl
@[simp] theorem sessOf_updSess (i j : Nat) (f : Session → Session) :
    sessOf (updSess s i f) j = if j = i then f (sessOf s i) else sessOf s j := kvGet_set _ _ _ _ _
@[simp] theorem updSess_od (i : Nat) (f : Session → Session) : (updSess s i f).od = s.od := rfl
@[simp] theorem updSess_dom (i : Nat) (f : Session → Session) : (updSess s i f).dom = s.dom := rfl
@[simp] theorem updSess_scratch (i : Nat) (f : Session → Session) : (updSess s i f).scratch = s.scratch := rfl
@[simp] theorem updSess_stack (i : Nat) (f : Session → Session) : (updSess s i f).stack = s.stack := rfl
@[simp] theorem updSess_stackPoison (i : Nat) (f : Session → Session) : (updSess s i f).stackPoison = s.stackPoison := rfl
@[simp] theorem updSess_cores (i : Nat) (f : Session → Session) : (updSess s i f).cores = s.cores := rfl
@[simp] theorem updSess_clusters (i : Nat) (f : Session → Session) : (updSess s i f).clusters = s.clusters := rfl
@[simp] theorem updSess_arrays (i : Nat) (f : Session → Session) : (updSess s i f).arrays = s.arrays := rfl
@[simp] theorem updSess_chains (i : Nat) (f : Session → Session) : (updSess s i f).chains = s.chains := rfl
@[simp] theorem updSess_frames (i : Nat) (f : Session → Session) : (updSess s i f).frames = s.frames := rfl
@[simp] theorem updSess_parts (i : Nat) (f : Session → Session) : (updSess s i f).parts = s.parts := rfl
@[simp] theorem updSess_subRings (i : Nat) (f : Session → Session) : (updSess s i f).subRings = s.subRings := rfl
@[simp] theorem updSess_compRings (i : Nat) (f : Session → Session) : (updSess s i f).compRings = s.compRings := rfl
@[simp] theorem updSess_recorder (i : Nat) (f : Session → Session) : (updSess s i f).recorder = s.recorder := rfl
@[simp] theorem updSess_yield (i : Nat) (f : Session → Session) : (updSess s i f).yield = s.yield := rfl
@[simp] theorem updSess_sets (i : Nat) (f : Session → Session) : (updSess s i f).sets = s.sets := rfl
@[simp] theorem updSess_transits (i : Nat) (f : Session → Session) : (updSess s i f).transits = s.transits := rfl
@[simp] theorem updSess_blocks (i : Nat) (f : Session → Session) : (updSess s i f).blocks = s.blocks := rfl
@[simp] theorem updSess_sensors (i : Nat) (f : Session → Session) : (updSess s i f).sensors = s.sensors := rfl
@[simp] theorem updSess_plant (i : Nat) (f : Session → Session) : (updSess s i f).plant = s.plant := rfl
@[simp] theorem updSess_fabric (i : Nat) (f : Session → Session) : (updSess s i f).fabric = s.fabric := rfl
@[simp] theorem updSess_pair (i : Nat) (f : Session → Session) : (updSess s i f).pair = s.pair := rfl
@[simp] theorem updSess_pcie (i : Nat) (f : Session → Session) : (updSess s i f).pcie = s.pcie := rfl
@[simp] theorem updSess_fns (i : Nat) (f : Session → Session) : (updSess s i f).fns = s.fns := rfl
@[simp] theorem updSess_served0 (i : Nat) (f : Session → Session) : (updSess s i f).served0 = s.served0 := rfl
@[simp] theorem updSess_served1 (i : Nat) (f : Session → Session) : (updSess s i f).served1 = s.served1 := rfl
@[simp] theorem updSess_mgmt (i : Nat) (f : Session → Session) : (updSess s i f).mgmt = s.mgmt := rfl
@[simp] theorem updSess_nextMgmt (i : Nat) (f : Session → Session) : (updSess s i f).nextMgmt = s.nextMgmt := rfl
@[simp] theorem updSess_security (i : Nat) (f : Session → Session) : (updSess s i f).security = s.security := rfl
@[simp] theorem updSess_commits (i : Nat) (f : Session → Session) : (updSess s i f).commits = s.commits := rfl
@[simp] theorem updSess_stored (i : Nat) (f : Session → Session) : (updSess s i f).stored = s.stored := rfl
@[simp] theorem updSess_out (i : Nat) (f : Session → Session) : (updSess s i f).out = s.out := rfl
@[simp] theorem updSess_free (i : Nat) (f : Session → Session) : (updSess s i f).free = s.free := rfl
@[simp] theorem updSess_pending (i : Nat) (f : Session → Session) : (updSess s i f).pending = s.pending := rfl
@[simp] theorem odGet_updSess (i : Nat) (f : Session → Session) (k : Nat) : odGet (updSess s i f) k = odGet s k := rfl
@[simp] theorem domGet_updSess (i : Nat) (f : Session → Session) (k : Nat) : domGet (updSess s i f) k = domGet s k := rfl
@[simp] theorem coreOf_updSess (i : Nat) (f : Session → Session) (j : Nat) : coreOf (updSess s i f) j = coreOf s j := rfl
@[simp] theorem clusterOf_updSess (i : Nat) (f : Session → Session) (j : Nat) : clusterOf (updSess s i f) j = clusterOf s j := rfl
@[simp] theorem arrOf_updSess (i : Nat) (f : Session → Session) (j : Nat) : arrOf (updSess s i f) j = arrOf s j := rfl
@[simp] theorem chainOf_updSess (i : Nat) (f : Session → Session) (j : Nat) : chainOf (updSess s i f) j = chainOf s j := rfl
@[simp] theorem frameOf_updSess (i : Nat) (f : Session → Session) (j : Nat) : frameOf (updSess s i f) j = frameOf s j := rfl
@[simp] theorem partOf_updSess (i : Nat) (f : Session → Session) (j : Nat) : partOf (updSess s i f) j = partOf s j := rfl
@[simp] theorem subOf_updSess (i : Nat) (f : Session → Session) (j : Nat) : subOf (updSess s i f) j = subOf s j := rfl
@[simp] theorem compOf_updSess (i : Nat) (f : Session → Session) (j : Nat) : compOf (updSess s i f) j = compOf s j := rfl
@[simp] theorem wsetOf_updSess (i : Nat) (f : Session → Session) (j : Nat) : wsetOf (updSess s i f) j = wsetOf s j := rfl
@[simp] theorem blkOf_updSess (i : Nat) (f : Session → Session) (j : Nat) : blkOf (updSess s i f) j = blkOf s j := rfl
@[simp] theorem sensorOf_updSess (i : Nat) (f : Session → Session) (j : Nat) : sensorOf (updSess s i f) j = sensorOf s j := rfl
@[simp] theorem mgmtOf_updSess (i : Nat) (f : Session → Session) (j : Nat) : mgmtOf (updSess s i f) j = mgmtOf s j := rfl
@[simp] theorem portOf_updSess (i : Nat) (f : Session → Session) (j : Nat) : portOf (updSess s i f) j = portOf s j := rfl
@[simp] theorem fnOf_updSess (i : Nat) (f : Session → Session) (j : Nat) : fnOf (updSess s i f) j = fnOf s j := rfl
theorem updSub_eq (i : Nat) (f : SubRing → SubRing) : updSub s i f = setSub s i (f (subOf s i)) := rfl
@[simp] theorem subOf_updSub (i j : Nat) (f : SubRing → SubRing) :
    subOf (updSub s i f) j = if j = i then f (subOf s i) else subOf s j := kvGet_set _ _ _ _ _
@[simp] theorem updSub_od (i : Nat) (f : SubRing → SubRing) : (updSub s i f).od = s.od := rfl
@[simp] theorem updSub_dom (i : Nat) (f : SubRing → SubRing) : (updSub s i f).dom = s.dom := rfl
@[simp] theorem updSub_scratch (i : Nat) (f : SubRing → SubRing) : (updSub s i f).scratch = s.scratch := rfl
@[simp] theorem updSub_stack (i : Nat) (f : SubRing → SubRing) : (updSub s i f).stack = s.stack := rfl
@[simp] theorem updSub_stackPoison (i : Nat) (f : SubRing → SubRing) : (updSub s i f).stackPoison = s.stackPoison := rfl
@[simp] theorem updSub_cores (i : Nat) (f : SubRing → SubRing) : (updSub s i f).cores = s.cores := rfl
@[simp] theorem updSub_clusters (i : Nat) (f : SubRing → SubRing) : (updSub s i f).clusters = s.clusters := rfl
@[simp] theorem updSub_arrays (i : Nat) (f : SubRing → SubRing) : (updSub s i f).arrays = s.arrays := rfl
@[simp] theorem updSub_chains (i : Nat) (f : SubRing → SubRing) : (updSub s i f).chains = s.chains := rfl
@[simp] theorem updSub_frames (i : Nat) (f : SubRing → SubRing) : (updSub s i f).frames = s.frames := rfl
@[simp] theorem updSub_parts (i : Nat) (f : SubRing → SubRing) : (updSub s i f).parts = s.parts := rfl
@[simp] theorem updSub_sessions (i : Nat) (f : SubRing → SubRing) : (updSub s i f).sessions = s.sessions := rfl
@[simp] theorem updSub_compRings (i : Nat) (f : SubRing → SubRing) : (updSub s i f).compRings = s.compRings := rfl
@[simp] theorem updSub_recorder (i : Nat) (f : SubRing → SubRing) : (updSub s i f).recorder = s.recorder := rfl
@[simp] theorem updSub_yield (i : Nat) (f : SubRing → SubRing) : (updSub s i f).yield = s.yield := rfl
@[simp] theorem updSub_sets (i : Nat) (f : SubRing → SubRing) : (updSub s i f).sets = s.sets := rfl
@[simp] theorem updSub_transits (i : Nat) (f : SubRing → SubRing) : (updSub s i f).transits = s.transits := rfl
@[simp] theorem updSub_blocks (i : Nat) (f : SubRing → SubRing) : (updSub s i f).blocks = s.blocks := rfl
@[simp] theorem updSub_sensors (i : Nat) (f : SubRing → SubRing) : (updSub s i f).sensors = s.sensors := rfl
@[simp] theorem updSub_plant (i : Nat) (f : SubRing → SubRing) : (updSub s i f).plant = s.plant := rfl
@[simp] theorem updSub_fabric (i : Nat) (f : SubRing → SubRing) : (updSub s i f).fabric = s.fabric := rfl
@[simp] theorem updSub_pair (i : Nat) (f : SubRing → SubRing) : (updSub s i f).pair = s.pair := rfl
@[simp] theorem updSub_pcie (i : Nat) (f : SubRing → SubRing) : (updSub s i f).pcie = s.pcie := rfl
@[simp] theorem updSub_fns (i : Nat) (f : SubRing → SubRing) : (updSub s i f).fns = s.fns := rfl
@[simp] theorem updSub_served0 (i : Nat) (f : SubRing → SubRing) : (updSub s i f).served0 = s.served0 := rfl
@[simp] theorem updSub_served1 (i : Nat) (f : SubRing → SubRing) : (updSub s i f).served1 = s.served1 := rfl
@[simp] theorem updSub_mgmt (i : Nat) (f : SubRing → SubRing) : (updSub s i f).mgmt = s.mgmt := rfl
@[simp] theorem updSub_nextMgmt (i : Nat) (f : SubRing → SubRing) : (updSub s i f).nextMgmt = s.nextMgmt := rfl
@[simp] theorem updSub_security (i : Nat) (f : SubRing → SubRing) : (updSub s i f).security = s.security := rfl
@[simp] theorem updSub_commits (i : Nat) (f : SubRing → SubRing) : (updSub s i f).commits = s.commits := rfl
@[simp] theorem updSub_stored (i : Nat) (f : SubRing → SubRing) : (updSub s i f).stored = s.stored := rfl
@[simp] theorem updSub_out (i : Nat) (f : SubRing → SubRing) : (updSub s i f).out = s.out := rfl
@[simp] theorem updSub_free (i : Nat) (f : SubRing → SubRing) : (updSub s i f).free = s.free := rfl
@[simp] theorem updSub_pending (i : Nat) (f : SubRing → SubRing) : (updSub s i f).pending = s.pending := rfl
@[simp] theorem odGet_updSub (i : Nat) (f : SubRing → SubRing) (k : Nat) : odGet (updSub s i f) k = odGet s k := rfl
@[simp] theorem domGet_updSub (i : Nat) (f : SubRing → SubRing) (k : Nat) : domGet (updSub s i f) k = domGet s k := rfl
@[simp] theorem coreOf_updSub (i : Nat) (f : SubRing → SubRing) (j : Nat) : coreOf (updSub s i f) j = coreOf s j := rfl
@[simp] theorem clusterOf_updSub (i : Nat) (f : SubRing → SubRing) (j : Nat) : clusterOf (updSub s i f) j = clusterOf s j := rfl
@[simp] theorem arrOf_updSub (i : Nat) (f : SubRing → SubRing) (j : Nat) : arrOf (updSub s i f) j = arrOf s j := rfl
@[simp] theorem chainOf_updSub (i : Nat) (f : SubRing → SubRing) (j : Nat) : chainOf (updSub s i f) j = chainOf s j := rfl
@[simp] theorem frameOf_updSub (i : Nat) (f : SubRing → SubRing) (j : Nat) : frameOf (updSub s i f) j = frameOf s j := rfl
@[simp] theorem partOf_updSub (i : Nat) (f : SubRing → SubRing) (j : Nat) : partOf (updSub s i f) j = partOf s j := rfl
@[simp] theorem sessOf_updSub (i : Nat) (f : SubRing → SubRing) (j : Nat) : sessOf (updSub s i f) j = sessOf s j := rfl
@[simp] theorem compOf_updSub (i : Nat) (f : SubRing → SubRing) (j : Nat) : compOf (updSub s i f) j = compOf s j := rfl
@[simp] theorem wsetOf_updSub (i : Nat) (f : SubRing → SubRing) (j : Nat) : wsetOf (updSub s i f) j = wsetOf s j := rfl
@[simp] theorem blkOf_updSub (i : Nat) (f : SubRing → SubRing) (j : Nat) : blkOf (updSub s i f) j = blkOf s j := rfl
@[simp] theorem sensorOf_updSub (i : Nat) (f : SubRing → SubRing) (j : Nat) : sensorOf (updSub s i f) j = sensorOf s j := rfl
@[simp] theorem mgmtOf_updSub (i : Nat) (f : SubRing → SubRing) (j : Nat) : mgmtOf (updSub s i f) j = mgmtOf s j := rfl
@[simp] theorem portOf_updSub (i : Nat) (f : SubRing → SubRing) (j : Nat) : portOf (updSub s i f) j = portOf s j := rfl
@[simp] theorem fnOf_updSub (i : Nat) (f : SubRing → SubRing) (j : Nat) : fnOf (updSub s i f) j = fnOf s j := rfl
theorem updComp_eq (i : Nat) (f : CompRing → CompRing) : updComp s i f = setComp s i (f (compOf s i)) := rfl
@[simp] theorem compOf_updComp (i j : Nat) (f : CompRing → CompRing) :
    compOf (updComp s i f) j = if j = i then f (compOf s i) else compOf s j := kvGet_set _ _ _ _ _
@[simp] theorem updComp_od (i : Nat) (f : CompRing → CompRing) : (updComp s i f).od = s.od := rfl
@[simp] theorem updComp_dom (i : Nat) (f : CompRing → CompRing) : (updComp s i f).dom = s.dom := rfl
@[simp] theorem updComp_scratch (i : Nat) (f : CompRing → CompRing) : (updComp s i f).scratch = s.scratch := rfl
@[simp] theorem updComp_stack (i : Nat) (f : CompRing → CompRing) : (updComp s i f).stack = s.stack := rfl
@[simp] theorem updComp_stackPoison (i : Nat) (f : CompRing → CompRing) : (updComp s i f).stackPoison = s.stackPoison := rfl
@[simp] theorem updComp_cores (i : Nat) (f : CompRing → CompRing) : (updComp s i f).cores = s.cores := rfl
@[simp] theorem updComp_clusters (i : Nat) (f : CompRing → CompRing) : (updComp s i f).clusters = s.clusters := rfl
@[simp] theorem updComp_arrays (i : Nat) (f : CompRing → CompRing) : (updComp s i f).arrays = s.arrays := rfl
@[simp] theorem updComp_chains (i : Nat) (f : CompRing → CompRing) : (updComp s i f).chains = s.chains := rfl
@[simp] theorem updComp_frames (i : Nat) (f : CompRing → CompRing) : (updComp s i f).frames = s.frames := rfl
@[simp] theorem updComp_parts (i : Nat) (f : CompRing → CompRing) : (updComp s i f).parts = s.parts := rfl
@[simp] theorem updComp_sessions (i : Nat) (f : CompRing → CompRing) : (updComp s i f).sessions = s.sessions := rfl
@[simp] theorem updComp_subRings (i : Nat) (f : CompRing → CompRing) : (updComp s i f).subRings = s.subRings := rfl
@[simp] theorem updComp_recorder (i : Nat) (f : CompRing → CompRing) : (updComp s i f).recorder = s.recorder := rfl
@[simp] theorem updComp_yield (i : Nat) (f : CompRing → CompRing) : (updComp s i f).yield = s.yield := rfl
@[simp] theorem updComp_sets (i : Nat) (f : CompRing → CompRing) : (updComp s i f).sets = s.sets := rfl
@[simp] theorem updComp_transits (i : Nat) (f : CompRing → CompRing) : (updComp s i f).transits = s.transits := rfl
@[simp] theorem updComp_blocks (i : Nat) (f : CompRing → CompRing) : (updComp s i f).blocks = s.blocks := rfl
@[simp] theorem updComp_sensors (i : Nat) (f : CompRing → CompRing) : (updComp s i f).sensors = s.sensors := rfl
@[simp] theorem updComp_plant (i : Nat) (f : CompRing → CompRing) : (updComp s i f).plant = s.plant := rfl
@[simp] theorem updComp_fabric (i : Nat) (f : CompRing → CompRing) : (updComp s i f).fabric = s.fabric := rfl
@[simp] theorem updComp_pair (i : Nat) (f : CompRing → CompRing) : (updComp s i f).pair = s.pair := rfl
@[simp] theorem updComp_pcie (i : Nat) (f : CompRing → CompRing) : (updComp s i f).pcie = s.pcie := rfl
@[simp] theorem updComp_fns (i : Nat) (f : CompRing → CompRing) : (updComp s i f).fns = s.fns := rfl
@[simp] theorem updComp_served0 (i : Nat) (f : CompRing → CompRing) : (updComp s i f).served0 = s.served0 := rfl
@[simp] theorem updComp_served1 (i : Nat) (f : CompRing → CompRing) : (updComp s i f).served1 = s.served1 := rfl
@[simp] theorem updComp_mgmt (i : Nat) (f : CompRing → CompRing) : (updComp s i f).mgmt = s.mgmt := rfl
@[simp] theorem updComp_nextMgmt (i : Nat) (f : CompRing → CompRing) : (updComp s i f).nextMgmt = s.nextMgmt := rfl
@[simp] theorem updComp_security (i : Nat) (f : CompRing → CompRing) : (updComp s i f).security = s.security := rfl
@[simp] theorem updComp_commits (i : Nat) (f : CompRing → CompRing) : (updComp s i f).commits = s.commits := rfl
@[simp] theorem updComp_stored (i : Nat) (f : CompRing → CompRing) : (updComp s i f).stored = s.stored := rfl
@[simp] theorem updComp_out (i : Nat) (f : CompRing → CompRing) : (updComp s i f).out = s.out := rfl
@[simp] theorem updComp_free (i : Nat) (f : CompRing → CompRing) : (updComp s i f).free = s.free := rfl
@[simp] theorem updComp_pending (i : Nat) (f : CompRing → CompRing) : (updComp s i f).pending = s.pending := rfl
@[simp] theorem odGet_updComp (i : Nat) (f : CompRing → CompRing) (k : Nat) : odGet (updComp s i f) k = odGet s k := rfl
@[simp] theorem domGet_updComp (i : Nat) (f : CompRing → CompRing) (k : Nat) : domGet (updComp s i f) k = domGet s k := rfl
@[simp] theorem coreOf_updComp (i : Nat) (f : CompRing → CompRing) (j : Nat) : coreOf (updComp s i f) j = coreOf s j := rfl
@[simp] theorem clusterOf_updComp (i : Nat) (f : CompRing → CompRing) (j : Nat) : clusterOf (updComp s i f) j = clusterOf s j := rfl
@[simp] theorem arrOf_updComp (i : Nat) (f : CompRing → CompRing) (j : Nat) : arrOf (updComp s i f) j = arrOf s j := rfl
@[simp] theorem chainOf_updComp (i : Nat) (f : CompRing → CompRing) (j : Nat) : chainOf (updComp s i f) j = chainOf s j := rfl
@[simp] theorem frameOf_updComp (i : Nat) (f : CompRing → CompRing) (j : Nat) : frameOf (updComp s i f) j = frameOf s j := rfl
@[simp] theorem partOf_updComp (i : Nat) (f : CompRing → CompRing) (j : Nat) : partOf (updComp s i f) j = partOf s j := rfl
@[simp] theorem sessOf_updComp (i : Nat) (f : CompRing → CompRing) (j : Nat) : sessOf (updComp s i f) j = sessOf s j := rfl
@[simp] theorem subOf_updComp (i : Nat) (f : CompRing → CompRing) (j : Nat) : subOf (updComp s i f) j = subOf s j := rfl
@[simp] theorem wsetOf_updComp (i : Nat) (f : CompRing → CompRing) (j : Nat) : wsetOf (updComp s i f) j = wsetOf s j := rfl
@[simp] theorem blkOf_updComp (i : Nat) (f : CompRing → CompRing) (j : Nat) : blkOf (updComp s i f) j = blkOf s j := rfl
@[simp] theorem sensorOf_updComp (i : Nat) (f : CompRing → CompRing) (j : Nat) : sensorOf (updComp s i f) j = sensorOf s j := rfl
@[simp] theorem mgmtOf_updComp (i : Nat) (f : CompRing → CompRing) (j : Nat) : mgmtOf (updComp s i f) j = mgmtOf s j := rfl
@[simp] theorem portOf_updComp (i : Nat) (f : CompRing → CompRing) (j : Nat) : portOf (updComp s i f) j = portOf s j := rfl
@[simp] theorem fnOf_updComp (i : Nat) (f : CompRing → CompRing) (j : Nat) : fnOf (updComp s i f) j = fnOf s j := rfl
theorem updWset_eq (i : Nat) (f : WSet → WSet) : updWset s i f = setWset s i (f (wsetOf s i)) := rfl
@[simp] theorem wsetOf_updWset (i j : Nat) (f : WSet → WSet) :
    wsetOf (updWset s i f) j = if j = i then f (wsetOf s i) else wsetOf s j := kvGet_set _ _ _ _ _
@[simp] theorem updWset_od (i : Nat) (f : WSet → WSet) : (updWset s i f).od = s.od := rfl
@[simp] theorem updWset_dom (i : Nat) (f : WSet → WSet) : (updWset s i f).dom = s.dom := rfl
@[simp] theorem updWset_scratch (i : Nat) (f : WSet → WSet) : (updWset s i f).scratch = s.scratch := rfl
@[simp] theorem updWset_stack (i : Nat) (f : WSet → WSet) : (updWset s i f).stack = s.stack := rfl
@[simp] theorem updWset_stackPoison (i : Nat) (f : WSet → WSet) : (updWset s i f).stackPoison = s.stackPoison := rfl
@[simp] theorem updWset_cores (i : Nat) (f : WSet → WSet) : (updWset s i f).cores = s.cores := rfl
@[simp] theorem updWset_clusters (i : Nat) (f : WSet → WSet) : (updWset s i f).clusters = s.clusters := rfl
@[simp] theorem updWset_arrays (i : Nat) (f : WSet → WSet) : (updWset s i f).arrays = s.arrays := rfl
@[simp] theorem updWset_chains (i : Nat) (f : WSet → WSet) : (updWset s i f).chains = s.chains := rfl
@[simp] theorem updWset_frames (i : Nat) (f : WSet → WSet) : (updWset s i f).frames = s.frames := rfl
@[simp] theorem updWset_parts (i : Nat) (f : WSet → WSet) : (updWset s i f).parts = s.parts := rfl
@[simp] theorem updWset_sessions (i : Nat) (f : WSet → WSet) : (updWset s i f).sessions = s.sessions := rfl
@[simp] theorem updWset_subRings (i : Nat) (f : WSet → WSet) : (updWset s i f).subRings = s.subRings := rfl
@[simp] theorem updWset_compRings (i : Nat) (f : WSet → WSet) : (updWset s i f).compRings = s.compRings := rfl
@[simp] theorem updWset_recorder (i : Nat) (f : WSet → WSet) : (updWset s i f).recorder = s.recorder := rfl
@[simp] theorem updWset_yield (i : Nat) (f : WSet → WSet) : (updWset s i f).yield = s.yield := rfl
@[simp] theorem updWset_transits (i : Nat) (f : WSet → WSet) : (updWset s i f).transits = s.transits := rfl
@[simp] theorem updWset_blocks (i : Nat) (f : WSet → WSet) : (updWset s i f).blocks = s.blocks := rfl
@[simp] theorem updWset_sensors (i : Nat) (f : WSet → WSet) : (updWset s i f).sensors = s.sensors := rfl
@[simp] theorem updWset_plant (i : Nat) (f : WSet → WSet) : (updWset s i f).plant = s.plant := rfl
@[simp] theorem updWset_fabric (i : Nat) (f : WSet → WSet) : (updWset s i f).fabric = s.fabric := rfl
@[simp] theorem updWset_pair (i : Nat) (f : WSet → WSet) : (updWset s i f).pair = s.pair := rfl
@[simp] theorem updWset_pcie (i : Nat) (f : WSet → WSet) : (updWset s i f).pcie = s.pcie := rfl
@[simp] theorem updWset_fns (i : Nat) (f : WSet → WSet) : (updWset s i f).fns = s.fns := rfl
@[simp] theorem updWset_served0 (i : Nat) (f : WSet → WSet) : (updWset s i f).served0 = s.served0 := rfl
@[simp] theorem updWset_served1 (i : Nat) (f : WSet → WSet) : (updWset s i f).served1 = s.served1 := rfl
@[simp] theorem updWset_mgmt (i : Nat) (f : WSet → WSet) : (updWset s i f).mgmt = s.mgmt := rfl
@[simp] theorem updWset_nextMgmt (i : Nat) (f : WSet → WSet) : (updWset s i f).nextMgmt = s.nextMgmt := rfl
@[simp] theorem updWset_security (i : Nat) (f : WSet → WSet) : (updWset s i f).security = s.security := rfl
@[simp] theorem updWset_commits (i : Nat) (f : WSet → WSet) : (updWset s i f).commits = s.commits := rfl
@[simp] theorem updWset_stored (i : Nat) (f : WSet → WSet) : (updWset s i f).stored = s.stored := rfl
@[simp] theorem updWset_out (i : Nat) (f : WSet → WSet) : (updWset s i f).out = s.out := rfl
@[simp] theorem updWset_free (i : Nat) (f : WSet → WSet) : (updWset s i f).free = s.free := rfl
@[simp] theorem updWset_pending (i : Nat) (f : WSet → WSet) : (updWset s i f).pending = s.pending := rfl
@[simp] theorem odGet_updWset (i : Nat) (f : WSet → WSet) (k : Nat) : odGet (updWset s i f) k = odGet s k := rfl
@[simp] theorem domGet_updWset (i : Nat) (f : WSet → WSet) (k : Nat) : domGet (updWset s i f) k = domGet s k := rfl
@[simp] theorem coreOf_updWset (i : Nat) (f : WSet → WSet) (j : Nat) : coreOf (updWset s i f) j = coreOf s j := rfl
@[simp] theorem clusterOf_updWset (i : Nat) (f : WSet → WSet) (j : Nat) : clusterOf (updWset s i f) j = clusterOf s j := rfl
@[simp] theorem arrOf_updWset (i : Nat) (f : WSet → WSet) (j : Nat) : arrOf (updWset s i f) j = arrOf s j := rfl
@[simp] theorem chainOf_updWset (i : Nat) (f : WSet → WSet) (j : Nat) : chainOf (updWset s i f) j = chainOf s j := rfl
@[simp] theorem frameOf_updWset (i : Nat) (f : WSet → WSet) (j : Nat) : frameOf (updWset s i f) j = frameOf s j := rfl
@[simp] theorem partOf_updWset (i : Nat) (f : WSet → WSet) (j : Nat) : partOf (updWset s i f) j = partOf s j := rfl
@[simp] theorem sessOf_updWset (i : Nat) (f : WSet → WSet) (j : Nat) : sessOf (updWset s i f) j = sessOf s j := rfl
@[simp] theorem subOf_updWset (i : Nat) (f : WSet → WSet) (j : Nat) : subOf (updWset s i f) j = subOf s j := rfl
@[simp] theorem compOf_updWset (i : Nat) (f : WSet → WSet) (j : Nat) : compOf (updWset s i f) j = compOf s j := rfl
@[simp] theorem blkOf_updWset (i : Nat) (f : WSet → WSet) (j : Nat) : blkOf (updWset s i f) j = blkOf s j := rfl
@[simp] theorem sensorOf_updWset (i : Nat) (f : WSet → WSet) (j : Nat) : sensorOf (updWset s i f) j = sensorOf s j := rfl
@[simp] theorem mgmtOf_updWset (i : Nat) (f : WSet → WSet) (j : Nat) : mgmtOf (updWset s i f) j = mgmtOf s j := rfl
@[simp] theorem portOf_updWset (i : Nat) (f : WSet → WSet) (j : Nat) : portOf (updWset s i f) j = portOf s j := rfl
@[simp] theorem fnOf_updWset (i : Nat) (f : WSet → WSet) (j : Nat) : fnOf (updWset s i f) j = fnOf s j := rfl
theorem updBlk_eq (i : Nat) (f : Block → Block) : updBlk s i f = setBlk s i (f (blkOf s i)) := rfl
@[simp] theorem blkOf_updBlk (i j : Nat) (f : Block → Block) :
    blkOf (updBlk s i f) j = if j = i then f (blkOf s i) else blkOf s j := kvGet_set _ _ _ _ _
@[simp] theorem updBlk_od (i : Nat) (f : Block → Block) : (updBlk s i f).od = s.od := rfl
@[simp] theorem updBlk_dom (i : Nat) (f : Block → Block) : (updBlk s i f).dom = s.dom := rfl
@[simp] theorem updBlk_scratch (i : Nat) (f : Block → Block) : (updBlk s i f).scratch = s.scratch := rfl
@[simp] theorem updBlk_stack (i : Nat) (f : Block → Block) : (updBlk s i f).stack = s.stack := rfl
@[simp] theorem updBlk_stackPoison (i : Nat) (f : Block → Block) : (updBlk s i f).stackPoison = s.stackPoison := rfl
@[simp] theorem updBlk_cores (i : Nat) (f : Block → Block) : (updBlk s i f).cores = s.cores := rfl
@[simp] theorem updBlk_clusters (i : Nat) (f : Block → Block) : (updBlk s i f).clusters = s.clusters := rfl
@[simp] theorem updBlk_arrays (i : Nat) (f : Block → Block) : (updBlk s i f).arrays = s.arrays := rfl
@[simp] theorem updBlk_chains (i : Nat) (f : Block → Block) : (updBlk s i f).chains = s.chains := rfl
@[simp] theorem updBlk_frames (i : Nat) (f : Block → Block) : (updBlk s i f).frames = s.frames := rfl
@[simp] theorem updBlk_parts (i : Nat) (f : Block → Block) : (updBlk s i f).parts = s.parts := rfl
@[simp] theorem updBlk_sessions (i : Nat) (f : Block → Block) : (updBlk s i f).sessions = s.sessions := rfl
@[simp] theorem updBlk_subRings (i : Nat) (f : Block → Block) : (updBlk s i f).subRings = s.subRings := rfl
@[simp] theorem updBlk_compRings (i : Nat) (f : Block → Block) : (updBlk s i f).compRings = s.compRings := rfl
@[simp] theorem updBlk_recorder (i : Nat) (f : Block → Block) : (updBlk s i f).recorder = s.recorder := rfl
@[simp] theorem updBlk_yield (i : Nat) (f : Block → Block) : (updBlk s i f).yield = s.yield := rfl
@[simp] theorem updBlk_sets (i : Nat) (f : Block → Block) : (updBlk s i f).sets = s.sets := rfl
@[simp] theorem updBlk_transits (i : Nat) (f : Block → Block) : (updBlk s i f).transits = s.transits := rfl
@[simp] theorem updBlk_sensors (i : Nat) (f : Block → Block) : (updBlk s i f).sensors = s.sensors := rfl
@[simp] theorem updBlk_plant (i : Nat) (f : Block → Block) : (updBlk s i f).plant = s.plant := rfl
@[simp] theorem updBlk_fabric (i : Nat) (f : Block → Block) : (updBlk s i f).fabric = s.fabric := rfl
@[simp] theorem updBlk_pair (i : Nat) (f : Block → Block) : (updBlk s i f).pair = s.pair := rfl
@[simp] theorem updBlk_pcie (i : Nat) (f : Block → Block) : (updBlk s i f).pcie = s.pcie := rfl
@[simp] theorem updBlk_fns (i : Nat) (f : Block → Block) : (updBlk s i f).fns = s.fns := rfl
@[simp] theorem updBlk_served0 (i : Nat) (f : Block → Block) : (updBlk s i f).served0 = s.served0 := rfl
@[simp] theorem updBlk_served1 (i : Nat) (f : Block → Block) : (updBlk s i f).served1 = s.served1 := rfl
@[simp] theorem updBlk_mgmt (i : Nat) (f : Block → Block) : (updBlk s i f).mgmt = s.mgmt := rfl
@[simp] theorem updBlk_nextMgmt (i : Nat) (f : Block → Block) : (updBlk s i f).nextMgmt = s.nextMgmt := rfl
@[simp] theorem updBlk_security (i : Nat) (f : Block → Block) : (updBlk s i f).security = s.security := rfl
@[simp] theorem updBlk_commits (i : Nat) (f : Block → Block) : (updBlk s i f).commits = s.commits := rfl
@[simp] theorem updBlk_stored (i : Nat) (f : Block → Block) : (updBlk s i f).stored = s.stored := rfl
@[simp] theorem updBlk_out (i : Nat) (f : Block → Block) : (updBlk s i f).out = s.out := rfl
@[simp] theorem updBlk_free (i : Nat) (f : Block → Block) : (updBlk s i f).free = s.free := rfl
@[simp] theorem updBlk_pending (i : Nat) (f : Block → Block) : (updBlk s i f).pending = s.pending := rfl
@[simp] theorem odGet_updBlk (i : Nat) (f : Block → Block) (k : Nat) : odGet (updBlk s i f) k = odGet s k := rfl
@[simp] theorem domGet_updBlk (i : Nat) (f : Block → Block) (k : Nat) : domGet (updBlk s i f) k = domGet s k := rfl
@[simp] theorem coreOf_updBlk (i : Nat) (f : Block → Block) (j : Nat) : coreOf (updBlk s i f) j = coreOf s j := rfl
@[simp] theorem clusterOf_updBlk (i : Nat) (f : Block → Block) (j : Nat) : clusterOf (updBlk s i f) j = clusterOf s j := rfl
@[simp] theorem arrOf_updBlk (i : Nat) (f : Block → Block) (j : Nat) : arrOf (updBlk s i f) j = arrOf s j := rfl
@[simp] theorem chainOf_updBlk (i : Nat) (f : Block → Block) (j : Nat) : chainOf (updBlk s i f) j = chainOf s j := rfl
@[simp] theorem frameOf_updBlk (i : Nat) (f : Block → Block) (j : Nat) : frameOf (updBlk s i f) j = frameOf s j := rfl
@[simp] theorem partOf_updBlk (i : Nat) (f : Block → Block) (j : Nat) : partOf (updBlk s i f) j = partOf s j := rfl
@[simp] theorem sessOf_updBlk (i : Nat) (f : Block → Block) (j : Nat) : sessOf (updBlk s i f) j = sessOf s j := rfl
@[simp] theorem subOf_updBlk (i : Nat) (f : Block → Block) (j : Nat) : subOf (updBlk s i f) j = subOf s j := rfl
@[simp] theorem compOf_updBlk (i : Nat) (f : Block → Block) (j : Nat) : compOf (updBlk s i f) j = compOf s j := rfl
@[simp] theorem wsetOf_updBlk (i : Nat) (f : Block → Block) (j : Nat) : wsetOf (updBlk s i f) j = wsetOf s j := rfl
@[simp] theorem sensorOf_updBlk (i : Nat) (f : Block → Block) (j : Nat) : sensorOf (updBlk s i f) j = sensorOf s j := rfl
@[simp] theorem mgmtOf_updBlk (i : Nat) (f : Block → Block) (j : Nat) : mgmtOf (updBlk s i f) j = mgmtOf s j := rfl
@[simp] theorem portOf_updBlk (i : Nat) (f : Block → Block) (j : Nat) : portOf (updBlk s i f) j = portOf s j := rfl
@[simp] theorem fnOf_updBlk (i : Nat) (f : Block → Block) (j : Nat) : fnOf (updBlk s i f) j = fnOf s j := rfl
theorem updSensor_eq (i : Nat) (f : Sensor → Sensor) : updSensor s i f = setSensor s i (f (sensorOf s i)) := rfl
@[simp] theorem sensorOf_updSensor (i j : Nat) (f : Sensor → Sensor) :
    sensorOf (updSensor s i f) j = if j = i then f (sensorOf s i) else sensorOf s j := kvGet_set _ _ _ _ _
@[simp] theorem updSensor_od (i : Nat) (f : Sensor → Sensor) : (updSensor s i f).od = s.od := rfl
@[simp] theorem updSensor_dom (i : Nat) (f : Sensor → Sensor) : (updSensor s i f).dom = s.dom := rfl
@[simp] theorem updSensor_scratch (i : Nat) (f : Sensor → Sensor) : (updSensor s i f).scratch = s.scratch := rfl
@[simp] theorem updSensor_stack (i : Nat) (f : Sensor → Sensor) : (updSensor s i f).stack = s.stack := rfl
@[simp] theorem updSensor_stackPoison (i : Nat) (f : Sensor → Sensor) : (updSensor s i f).stackPoison = s.stackPoison := rfl
@[simp] theorem updSensor_cores (i : Nat) (f : Sensor → Sensor) : (updSensor s i f).cores = s.cores := rfl
@[simp] theorem updSensor_clusters (i : Nat) (f : Sensor → Sensor) : (updSensor s i f).clusters = s.clusters := rfl
@[simp] theorem updSensor_arrays (i : Nat) (f : Sensor → Sensor) : (updSensor s i f).arrays = s.arrays := rfl
@[simp] theorem updSensor_chains (i : Nat) (f : Sensor → Sensor) : (updSensor s i f).chains = s.chains := rfl
@[simp] theorem updSensor_frames (i : Nat) (f : Sensor → Sensor) : (updSensor s i f).frames = s.frames := rfl
@[simp] theorem updSensor_parts (i : Nat) (f : Sensor → Sensor) : (updSensor s i f).parts = s.parts := rfl
@[simp] theorem updSensor_sessions (i : Nat) (f : Sensor → Sensor) : (updSensor s i f).sessions = s.sessions := rfl
@[simp] theorem updSensor_subRings (i : Nat) (f : Sensor → Sensor) : (updSensor s i f).subRings = s.subRings := rfl
@[simp] theorem updSensor_compRings (i : Nat) (f : Sensor → Sensor) : (updSensor s i f).compRings = s.compRings := rfl
@[simp] theorem updSensor_recorder (i : Nat) (f : Sensor → Sensor) : (updSensor s i f).recorder = s.recorder := rfl
@[simp] theorem updSensor_yield (i : Nat) (f : Sensor → Sensor) : (updSensor s i f).yield = s.yield := rfl
@[simp] theorem updSensor_sets (i : Nat) (f : Sensor → Sensor) : (updSensor s i f).sets = s.sets := rfl
@[simp] theorem updSensor_transits (i : Nat) (f : Sensor → Sensor) : (updSensor s i f).transits = s.transits := rfl
@[simp] theorem updSensor_blocks (i : Nat) (f : Sensor → Sensor) : (updSensor s i f).blocks = s.blocks := rfl
@[simp] theorem updSensor_plant (i : Nat) (f : Sensor → Sensor) : (updSensor s i f).plant = s.plant := rfl
@[simp] theorem updSensor_fabric (i : Nat) (f : Sensor → Sensor) : (updSensor s i f).fabric = s.fabric := rfl
@[simp] theorem updSensor_pair (i : Nat) (f : Sensor → Sensor) : (updSensor s i f).pair = s.pair := rfl
@[simp] theorem updSensor_pcie (i : Nat) (f : Sensor → Sensor) : (updSensor s i f).pcie = s.pcie := rfl
@[simp] theorem updSensor_fns (i : Nat) (f : Sensor → Sensor) : (updSensor s i f).fns = s.fns := rfl
@[simp] theorem updSensor_served0 (i : Nat) (f : Sensor → Sensor) : (updSensor s i f).served0 = s.served0 := rfl
@[simp] theorem updSensor_served1 (i : Nat) (f : Sensor → Sensor) : (updSensor s i f).served1 = s.served1 := rfl
@[simp] theorem updSensor_mgmt (i : Nat) (f : Sensor → Sensor) : (updSensor s i f).mgmt = s.mgmt := rfl
@[simp] theorem updSensor_nextMgmt (i : Nat) (f : Sensor → Sensor) : (updSensor s i f).nextMgmt = s.nextMgmt := rfl
@[simp] theorem updSensor_security (i : Nat) (f : Sensor → Sensor) : (updSensor s i f).security = s.security := rfl
@[simp] theorem updSensor_commits (i : Nat) (f : Sensor → Sensor) : (updSensor s i f).commits = s.commits := rfl
@[simp] theorem updSensor_stored (i : Nat) (f : Sensor → Sensor) : (updSensor s i f).stored = s.stored := rfl
@[simp] theorem updSensor_out (i : Nat) (f : Sensor → Sensor) : (updSensor s i f).out = s.out := rfl
@[simp] theorem updSensor_free (i : Nat) (f : Sensor → Sensor) : (updSensor s i f).free = s.free := rfl
@[simp] theorem updSensor_pending (i : Nat) (f : Sensor → Sensor) : (updSensor s i f).pending = s.pending := rfl
@[simp] theorem odGet_updSensor (i : Nat) (f : Sensor → Sensor) (k : Nat) : odGet (updSensor s i f) k = odGet s k := rfl
@[simp] theorem domGet_updSensor (i : Nat) (f : Sensor → Sensor) (k : Nat) : domGet (updSensor s i f) k = domGet s k := rfl
@[simp] theorem coreOf_updSensor (i : Nat) (f : Sensor → Sensor) (j : Nat) : coreOf (updSensor s i f) j = coreOf s j := rfl
@[simp] theorem clusterOf_updSensor (i : Nat) (f : Sensor → Sensor) (j : Nat) : clusterOf (updSensor s i f) j = clusterOf s j := rfl
@[simp] theorem arrOf_updSensor (i : Nat) (f : Sensor → Sensor) (j : Nat) : arrOf (updSensor s i f) j = arrOf s j := rfl
@[simp] theorem chainOf_updSensor (i : Nat) (f : Sensor → Sensor) (j : Nat) : chainOf (updSensor s i f) j = chainOf s j := rfl
@[simp] theorem frameOf_updSensor (i : Nat) (f : Sensor → Sensor) (j : Nat) : frameOf (updSensor s i f) j = frameOf s j := rfl
@[simp] theorem partOf_updSensor (i : Nat) (f : Sensor → Sensor) (j : Nat) : partOf (updSensor s i f) j = partOf s j := rfl
@[simp] theorem sessOf_updSensor (i : Nat) (f : Sensor → Sensor) (j : Nat) : sessOf (updSensor s i f) j = sessOf s j := rfl
@[simp] theorem subOf_updSensor (i : Nat) (f : Sensor → Sensor) (j : Nat) : subOf (updSensor s i f) j = subOf s j := rfl
@[simp] theorem compOf_updSensor (i : Nat) (f : Sensor → Sensor) (j : Nat) : compOf (updSensor s i f) j = compOf s j := rfl
@[simp] theorem wsetOf_updSensor (i : Nat) (f : Sensor → Sensor) (j : Nat) : wsetOf (updSensor s i f) j = wsetOf s j := rfl
@[simp] theorem blkOf_updSensor (i : Nat) (f : Sensor → Sensor) (j : Nat) : blkOf (updSensor s i f) j = blkOf s j := rfl
@[simp] theorem mgmtOf_updSensor (i : Nat) (f : Sensor → Sensor) (j : Nat) : mgmtOf (updSensor s i f) j = mgmtOf s j := rfl
@[simp] theorem portOf_updSensor (i : Nat) (f : Sensor → Sensor) (j : Nat) : portOf (updSensor s i f) j = portOf s j := rfl
@[simp] theorem fnOf_updSensor (i : Nat) (f : Sensor → Sensor) (j : Nat) : fnOf (updSensor s i f) j = fnOf s j := rfl
theorem updMgmt_eq (i : Nat) (f : Mgmt → Mgmt) : updMgmt s i f = setMgmt s i (f (mgmtOf s i)) := rfl
@[simp] theorem mgmtOf_updMgmt (i j : Nat) (f : Mgmt → Mgmt) :
    mgmtOf (updMgmt s i f) j = if j = i then f (mgmtOf s i) else mgmtOf s j := kvGet_set _ _ _ _ _
@[simp] theorem updMgmt_od (i : Nat) (f : Mgmt → Mgmt) : (updMgmt s i f).od = s.od := rfl
@[simp] theorem updMgmt_dom (i : Nat) (f : Mgmt → Mgmt) : (updMgmt s i f).dom = s.dom := rfl
@[simp] theorem updMgmt_scratch (i : Nat) (f : Mgmt → Mgmt) : (updMgmt s i f).scratch = s.scratch := rfl
@[simp] theorem updMgmt_stack (i : Nat) (f : Mgmt → Mgmt) : (updMgmt s i f).stack = s.stack := rfl
@[simp] theorem updMgmt_stackPoison (i : Nat) (f : Mgmt → Mgmt) : (updMgmt s i f).stackPoison = s.stackPoison := rfl
@[simp] theorem updMgmt_cores (i : Nat) (f : Mgmt → Mgmt) : (updMgmt s i f).cores = s.cores := rfl
@[simp] theorem updMgmt_clusters (i : Nat) (f : Mgmt → Mgmt) : (updMgmt s i f).clusters = s.clusters := rfl
@[simp] theorem updMgmt_arrays (i : Nat) (f : Mgmt → Mgmt) : (updMgmt s i f).arrays = s.arrays := rfl
@[simp] theorem updMgmt_chains (i : Nat) (f : Mgmt → Mgmt) : (updMgmt s i f).chains = s.chains := rfl
@[simp] theorem updMgmt_frames (i : Nat) (f : Mgmt → Mgmt) : (updMgmt s i f).frames = s.frames := rfl
@[simp] theorem updMgmt_parts (i : Nat) (f : Mgmt → Mgmt) : (updMgmt s i f).parts = s.parts := rfl
@[simp] theorem updMgmt_sessions (i : Nat) (f : Mgmt → Mgmt) : (updMgmt s i f).sessions = s.sessions := rfl
@[simp] theorem updMgmt_subRings (i : Nat) (f : Mgmt → Mgmt) : (updMgmt s i f).subRings = s.subRings := rfl
@[simp] theorem updMgmt_compRings (i : Nat) (f : Mgmt → Mgmt) : (updMgmt s i f).compRings = s.compRings := rfl
@[simp] theorem updMgmt_recorder (i : Nat) (f : Mgmt → Mgmt) : (updMgmt s i f).recorder = s.recorder := rfl
@[simp] theorem updMgmt_yield (i : Nat) (f : Mgmt → Mgmt) : (updMgmt s i f).yield = s.yield := rfl
@[simp] theorem updMgmt_sets (i : Nat) (f : Mgmt → Mgmt) : (updMgmt s i f).sets = s.sets := rfl
@[simp] theorem updMgmt_transits (i : Nat) (f : Mgmt → Mgmt) : (updMgmt s i f).transits = s.transits := rfl
@[simp] theorem updMgmt_blocks (i : Nat) (f : Mgmt → Mgmt) : (updMgmt s i f).blocks = s.blocks := rfl
@[simp] theorem updMgmt_sensors (i : Nat) (f : Mgmt → Mgmt) : (updMgmt s i f).sensors = s.sensors := rfl
@[simp] theorem updMgmt_plant (i : Nat) (f : Mgmt → Mgmt) : (updMgmt s i f).plant = s.plant := rfl
@[simp] theorem updMgmt_fabric (i : Nat) (f : Mgmt → Mgmt) : (updMgmt s i f).fabric = s.fabric := rfl
@[simp] theorem updMgmt_pair (i : Nat) (f : Mgmt → Mgmt) : (updMgmt s i f).pair = s.pair := rfl
@[simp] theorem updMgmt_pcie (i : Nat) (f : Mgmt → Mgmt) : (updMgmt s i f).pcie = s.pcie := rfl
@[simp] theorem updMgmt_fns (i : Nat) (f : Mgmt → Mgmt) : (updMgmt s i f).fns = s.fns := rfl
@[simp] theorem updMgmt_served0 (i : Nat) (f : Mgmt → Mgmt) : (updMgmt s i f).served0 = s.served0 := rfl
@[simp] theorem updMgmt_served1 (i : Nat) (f : Mgmt → Mgmt) : (updMgmt s i f).served1 = s.served1 := rfl
@[simp] theorem updMgmt_nextMgmt (i : Nat) (f : Mgmt → Mgmt) : (updMgmt s i f).nextMgmt = s.nextMgmt := rfl
@[simp] theorem updMgmt_security (i : Nat) (f : Mgmt → Mgmt) : (updMgmt s i f).security = s.security := rfl
@[simp] theorem updMgmt_commits (i : Nat) (f : Mgmt → Mgmt) : (updMgmt s i f).commits = s.commits := rfl
@[simp] theorem updMgmt_stored (i : Nat) (f : Mgmt → Mgmt) : (updMgmt s i f).stored = s.stored := rfl
@[simp] theorem updMgmt_out (i : Nat) (f : Mgmt → Mgmt) : (updMgmt s i f).out = s.out := rfl
@[simp] theorem updMgmt_free (i : Nat) (f : Mgmt → Mgmt) : (updMgmt s i f).free = s.free := rfl
@[simp] theorem updMgmt_pending (i : Nat) (f : Mgmt → Mgmt) : (updMgmt s i f).pending = s.pending := rfl
@[simp] theorem odGet_updMgmt (i : Nat) (f : Mgmt → Mgmt) (k : Nat) : odGet (updMgmt s i f) k = odGet s k := rfl
@[simp] theorem domGet_updMgmt (i : Nat) (f : Mgmt → Mgmt) (k : Nat) : domGet (updMgmt s i f) k = domGet s k := rfl
@[simp] theorem coreOf_updMgmt (i : Nat) (f : Mgmt → Mgmt) (j : Nat) : coreOf (updMgmt s i f) j = coreOf s j := rfl
@[simp] theorem clusterOf_updMgmt (i : Nat) (f : Mgmt → Mgmt) (j : Nat) : clusterOf (updMgmt s i f) j = clusterOf s j := rfl
@[simp] theorem arrOf_updMgmt (i : Nat) (f : Mgmt → Mgmt) (j : Nat) : arrOf (updMgmt s i f) j = arrOf s j := rfl
@[simp] theorem chainOf_updMgmt (i : Nat) (f : Mgmt → Mgmt) (j : Nat) : chainOf (updMgmt s i f) j = chainOf s j := rfl
@[simp] theorem frameOf_updMgmt (i : Nat) (f : Mgmt → Mgmt) (j : Nat) : frameOf (updMgmt s i f) j = frameOf s j := rfl
@[simp] theorem partOf_updMgmt (i : Nat) (f : Mgmt → Mgmt) (j : Nat) : partOf (updMgmt s i f) j = partOf s j := rfl
@[simp] theorem sessOf_updMgmt (i : Nat) (f : Mgmt → Mgmt) (j : Nat) : sessOf (updMgmt s i f) j = sessOf s j := rfl
@[simp] theorem subOf_updMgmt (i : Nat) (f : Mgmt → Mgmt) (j : Nat) : subOf (updMgmt s i f) j = subOf s j := rfl
@[simp] theorem compOf_updMgmt (i : Nat) (f : Mgmt → Mgmt) (j : Nat) : compOf (updMgmt s i f) j = compOf s j := rfl
@[simp] theorem wsetOf_updMgmt (i : Nat) (f : Mgmt → Mgmt) (j : Nat) : wsetOf (updMgmt s i f) j = wsetOf s j := rfl
@[simp] theorem blkOf_updMgmt (i : Nat) (f : Mgmt → Mgmt) (j : Nat) : blkOf (updMgmt s i f) j = blkOf s j := rfl
@[simp] theorem sensorOf_updMgmt (i : Nat) (f : Mgmt → Mgmt) (j : Nat) : sensorOf (updMgmt s i f) j = sensorOf s j := rfl
@[simp] theorem portOf_updMgmt (i : Nat) (f : Mgmt → Mgmt) (j : Nat) : portOf (updMgmt s i f) j = portOf s j := rfl
@[simp] theorem fnOf_updMgmt (i : Nat) (f : Mgmt → Mgmt) (j : Nat) : fnOf (updMgmt s i f) j = fnOf s j := rfl

end Sys2Proof.Machine
end

