-- ==== Sys2Proof/Laws/Maps.lean ====
section
/-! SUPPORT. Writes to a map in canonical form: writing back what a key holds changes nothing, and of two writes at
one key the last one stands. -/

namespace Sys2Proof.Machine

theorem kvPut_eq_self {α : Type} (m : KV α) (k : Nat) (d : α) (hr : kvRising m = true) (hne : ∀ e ∈ m, e.2 ≠ d)
    (hk : kvGet d m k ≠ d) : kvPut m k (kvGet d m k) = m := by
  induction m with
  | nil => exact absurd rfl hk
  | cons e r ih =>
    obtain ⟨a, v⟩ := e
    by_cases h : k = a
    · subst h; simp [kvPut, kvGet]
    · have hk' : kvGet d r k ≠ d := by simpa [kvGet, h] using hk
      have hlt : ¬ k < a := by
        intro hlt
        apply hk'
        have : ∀ e ∈ r, k ≠ e.1 := fun e he => by have := kvRising_head_lt hr e he; simp at this; omega
        clear ih hk hk' hr hne
        induction r with
        | nil => rfl
        | cons e r ih => 
          obtain ⟨b,w⟩ := e
          have h1 := this (b,w) (by simp)
          simp [kvGet]
          rw [if_neg (by simpa using h1)]
          exact ih (fun e he => this e (by simp [he]))
      simp [kvPut, kvGet, h, hlt]
      exact ih (kvRising_tail hr) (fun e he => hne e (by simp [he])) hk'

theorem kvErase_eq_self {α : Type} (m : KV α) (k : Nat) (d : α) (hr : kvRising m = true) (hne : ∀ e ∈ m, e.2 ≠ d)
    (hk : kvGet d m k = d) : kvErase m k = m := by
  unfold kvErase
  rw [List.filter_eq_self]
  intro e he
  simp
  rintro rfl
  induction m with
  | nil => simp at he
  | cons b r ih =>
    obtain ⟨b1, b2⟩ := b
    rcases List.mem_cons.1 he with h | h
    · subst h; simp [kvGet] at hk; exact hne (b1, b2) (by simp) hk
    · have := kvRising_head_lt hr e h
      simp at this
      have h2 : e.1 ≠ b1 := by omega
      simp [kvGet, h2] at hk
      exact ih (kvRising_tail hr) (fun e he => hne e (by simp [he])) h hk

theorem kvSet_get_self {α : Type} [DecidableEq α] (m : KV α) (k : Nat) (d : α) (h : kvWf d m = true) :
    kvSet d m k (kvGet d m k) = m := by
  simp [kvWf] at h
  unfold kvSet
  split
  · exact kvErase_eq_self m k d h.1 (by simpa using h.2) ‹_›
  · exact kvPut_eq_self m k d h.1 (by simpa using h.2) ‹_›

theorem kvErase_put {α : Type} (m : KV α) (k : Nat) (v : α) : kvErase (kvPut m k v) k = kvErase m k := by
  unfold kvErase
  induction m with
  | nil => simp [kvPut]
  | cons e r ih =>
    obtain ⟨a, w⟩ := e
    simp only [kvPut]
    split
    · simp [List.filter]
    · split
      · next h => subst h; simp [List.filter]
      · simp only [List.filter]; rw [ih]
theorem kvErase_erase {α : Type} (m : KV α) (k : Nat) : kvErase (kvErase m k) k = kvErase m k := by
  unfold kvErase; simp
theorem kvPut_put {α : Type} (m : KV α) (k : Nat) (v w : α) : kvPut (kvPut m k v) k w = kvPut m k w := by
  induction m with
  | nil => simp [kvPut]
  | cons e r ih =>
    obtain ⟨a, x⟩ := e
    simp only [kvPut]
    split
    · simp [kvPut]
    · split
      · simp [kvPut]
      · next h1 h2 => simp [kvPut, h1, h2, ih]
theorem kvPut_erase {α : Type} (m : KV α) (k : Nat) (w : α) (hr : kvRising m = true) : kvPut (kvErase m k) k w = kvPut m k w := by
  unfold kvErase
  induction m with
  | nil => simp [kvPut]
  | cons e r ih =>
    obtain ⟨a, x⟩ := e
    have hlt := kvRising_head_lt hr
    have ih := ih (kvRising_tail hr)
    by_cases h : a = k
    · subst h
      have : List.filter (fun e : Nat × α => decide (e.1 ≠ a)) r = r := by
        rw [List.filter_eq_self]; intro e he; have := hlt e he; simp at this ⊢; omega
      simp only [List.filter, ne_eq, not_true_eq_false, decide_false]
      simp only [ne_eq] at this
      rw [this]
      cases r with
      | nil => simp [kvPut]
      | cons b r =>
        obtain ⟨b1,b2⟩ := b
        have := hlt (b1,b2) (by simp)
        simp at this
        simp [kvPut, this]
    · simp only [List.filter, ne_eq, h, not_false_eq_true, decide_true, kvPut]
      simp only [ne_eq] at ih
      rw [ih]
      by_cases hk : k < a
      · have : List.filter (fun e : Nat × α => decide (e.1 ≠ k)) r = r := by
          rw [List.filter_eq_self]; intro e he; have := hlt e he; simp at this ⊢; omega
        simp only [ne_eq] at this
        rw [this]
      · have : ¬ k = a := fun x => h x.symm
        rw [if_neg hk, if_neg this, if_neg hk, if_neg this]

theorem kvSet_set {α : Type} [DecidableEq α] (m : KV α) (k : Nat) (d v w : α) (h : kvWf d m = true) :
    kvSet d (kvSet d m k v) k w = kvSet d m k w := by
  simp [kvWf] at h
  unfold kvSet
  split <;> split <;> simp [kvErase_put, kvErase_erase, kvPut_put, kvPut_erase, h.1]

theorem setCore_setCore (s : State) (i : Nat) (x y : Core) (h : s.Canonical) : setCore (setCore s i x) i y = setCore s i y := by
  unfold setCore; simp only [kvSet_set _ _ _ _ _ h.cores]
theorem setCore_self (s : State) (i : Nat) (h : s.Canonical) : setCore s i (coreOf s i) = s := by
  unfold setCore coreOf; rw [kvSet_get_self _ _ _ h.cores]

end Sys2Proof.Machine
end

