-- ==== Sys2Proof/Laws/PerInstr.lean ====
section
/-! SUPPORT. No statement of this package is made about every command as syntax. -/
end

