-- ==== Sys2Proof/Laws/Sequencer.lean ====
section
/-! SUPPORT. The sequencer: what a command that issues as it arrives, and meets no error, does to the state (R25, R66,
R67). -/

namespace Sys2Proof.Machine

theorem setCore_kvself {s : State} {i : Nat} {c : Core} (h : s.Canonical) (hc : c = coreOf s i) : setCore s i c = s := by
  subst hc; exact setCore_self s i h

/-- The state after a command has issued: the sequencer has moved past it, it has had its effect, and it stands in
its engine's queue. -/
def issueRes (s : State) (p ci : Nat) (w : Waiting) : State :=
  enqueue (cmdEffect (advance s ci) p ci (coreOf s ci).pos w) p ci w (coreOf s ci).nextXfer

theorem readArea_setCore (s : State) (ci i : Nat) (c' : Core) (d : W64) (n : Nat) :
    readArea (setCore s i c') ci d n = readArea s ci d n := rfl
theorem areaNat_setCore (s : State) (ci i : Nat) (c' : Core) (d : W64) (n : Nat) :
    areaNat (setCore s i c') ci d n = areaNat s ci d n := rfl
theorem readRows_setCore (s : State) (ci i : Nat) (c' : Core) (d : W64) (n m : Nat) :
    readRows (setCore s i c') ci d n m = readRows s ci d n m := rfl
theorem precisionOf_setCore (s : State) (ci i j : Nat) (c' : Core) :
    precisionOf (setCore s i c') ci j = precisionOf s ci j := rfl
theorem programOf_setCore (s : State) (ci i : Nat) (c' : Core) :
    programOf (setCore s i c') ci = programOf s ci := rfl
theorem streamed_setCore (s : State) (ci i : Nat) (c' : Core) :
    streamed (setCore s i c') ci = streamed s ci := rfl
theorem staticList_setCore (s : State) (ci i j : Nat) (c' : Core) :
    staticList (setCore s i c') ci j = staticList s ci j := rfl

theorem attnRows_setCore (s : State) (ci : Nat) (c' : Core) (a : AttnArgs) (h : c'.descs = (coreOf s ci).descs) :
    attnRows (setCore s ci c') ci a = attnRows s ci a := by
  unfold attnRows laneEntries
  simp only [readArea_setCore, coreOf_setCore, if_true, descOf, h]

theorem laneEntries_setCore (s : State) (ci : Nat) (c' : Core) (a : AttnArgs) (h : c'.descs = (coreOf s ci).descs) :
    laneEntries (setCore s ci c') ci a = laneEntries s ci a := by
  unfold laneEntries
  simp only [readArea_setCore, coreOf_setCore, if_true, descOf, h]

theorem cmdUses_setCore (s : State) (ci : Nat) (c' : Core) (cmd : CoreCmd) (h : c'.descs = (coreOf s ci).descs) :
    cmdUses (setCore s ci c') ci cmd = cmdUses s ci cmd := by
  cases cmd <;>
  simp only [cmdUses, mmaUses, attnUses, arrMvmUses, arrWriteUses, vecUses, gatherUses, coreOf_setCore, if_true,
    useOf, rowsUse, rawUse, descOf, h, attnRows_setCore _ _ _ _ h, laneEntries_setCore _ _ _ _ h, precisionOf_setCore]

theorem touchesBank_setCore (s : State) (ci : Nat) (c' : Core) (cmd : CoreCmd) (f : BankPower → Bool)
    (h : c'.descs = (coreOf s ci).descs) (hb : c'.banks = (coreOf s ci).banks) :
    touchesBank (setCore s ci c') ci cmd f = touchesBank s ci cmd f := by
  unfold touchesBank
  simp only [cmdUses_setCore _ _ _ _ h, coreOf_setCore, if_true, bankOf, hb]

theorem readyToIssue_setCore (s : State) (ci : Nat) (x : List Waiting) (cmd : CoreCmd) :
    readyToIssue (setCore s ci { coreOf s ci with waiting := x }) ci cmd = readyToIssue s ci cmd := by
  have h1 := touchesBank_setCore s ci { coreOf s ci with waiting := x } cmd (fun x => decide (x = .poweringUp)) rfl rfl
  have h2 : coreOf (setCore s ci { coreOf s ci with waiting := x }) ci = { coreOf s ci with waiting := x } := by
    rw [coreOf_setCore, if_pos rfl]
  delta readyToIssue
  simp only [h2, h1, streamed_setCore]
  rfl

theorem skippedCheck_setCore (s : State) (p ci i : Nat) (c' : Core) (cmd : CoreCmd) :
    skippedCheck (setCore s i c') p ci cmd = skippedCheck s p ci cmd := rfl

theorem commandErrors_clean (s : State) (p ci idx : Nat) (who : Requester) (env : CoreEnv) (l : List Nat)
    (h1 : env.parity = []) (h2 : env.conflicts = []) (h3 : ∀ a ∈ (coreOf s ci).poison, a ∉ l) :
    commandErrors s p ci idx who env l = s := by
  unfold commandErrors parityErrors
  have : (coreOf s ci).poison.filter (fun a => l.contains a) = [] := by
    rw [List.filter_eq_nil_iff]; intro a ha; simpa using h3 a ha
  rw [h1, h2, this]
  rfl

theorem advance_eq (s : State) (ci : Nat) : advance s ci = setCore s ci ((coreOf s ci).past (streamed s ci)) := rfl

theorem issueCmd_clean {s : State} {p : Nat} {at_ : CoreRef} {env : CoreEnv} {cmd : CoreCmd} {bad : List (Nat × Nat)}
    (h : Issues s p at_ env cmd) (hm : ∀ a, cmd = .arrMvm a → chainIn s (coreIndex at_) a = true) :
    issueCmd s p (coreIndex at_) (waitingFor cmd env bad) =
      match cmd with
      | .arrMvm a => updCore (issueRes s p (coreIndex at_) (waitingFor cmd env bad)) (coreIndex at_) (fun c => { c with skip := a.fbSkip.toNat })
      | _ => issueRes s p (coreIndex at_) (waitingFor cmd env bad) := by
  obtain ⟨_, _, _, _, _, _, _, _, _, _, hp, h1, h2, h3⟩ := h
  have hb : touchesBank (advance s (coreIndex at_)) (coreIndex at_) cmd (fun x => decide (x = .off)) = false := by
    exact (touchesBank_setCore s _ ((coreOf s (coreIndex at_)).past (streamed s (coreIndex at_))) cmd _ rfl rfl).trans hp
  have hc : ∀ idx, commandErrors (advance s (coreIndex at_)) p (coreIndex at_) idx (cmdRequester cmd) env (readAddrs (coreIndex at_) (cmdUses (advance s (coreIndex at_)) (coreIndex at_) cmd)) = advance s (coreIndex at_) := by
    intro idx
    apply commandErrors_clean _ _ _ _ _ _ _ h1 h2
    rw [advance_eq, cmdUses_setCore s _ ((coreOf s (coreIndex at_)).past (streamed s (coreIndex at_))) cmd rfl, coreOf_setCore, if_pos rfl]
    exact h3
  have hn : (coreOf (advance s (coreIndex at_)) (coreIndex at_)).nextXfer = (coreOf s (coreIndex at_)).nextXfer := by
    rw [advance_eq, coreOf_setCore, if_pos rfl]; rfl
  unfold issueCmd
  cases cmd <;> simp only [waitingFor] at hb hc ⊢ <;> 
    try (simp only [hb, hc, hn, Bool.false_eq_true, if_false]; rfl)
  · have := hm _ rfl
    have : chainIn (advance s (coreIndex at_)) (coreIndex at_) _ = true := this
    simp only [this, hb, hc, hn, Bool.not_true, Bool.false_eq_true, if_false]; rfl

theorem noteArrivals_same {s t : State} {p : Nat} (h : t.parts = s.parts) : noteArrivals s t p = t := by
  have e : partOf t p = partOf s p := by unfold partOf; rw [h]
  unfold noteArrivals
  simp only [e]
  rw [if_pos (Or.inl ⟨trivial, trivial, trivial⟩)]

/-- A command that issues as it arrives leaves the state that its issue leaves. -/
theorem coreStep_clean {s : State} {p : Nat} {at_ : CoreRef} {env : CoreEnv} {cmd : CoreCmd} {bad : List (Nat × Nat)}
    (h : Issues s p at_ env cmd) (t : State)
    (ht : issueCmd s p (coreIndex at_) (waitingFor cmd env bad) = t)
    (hp : partAt t (coreIndex at_ / 16) = some p) (hw : (coreOf t (coreIndex at_)).waiting = []) :
    atCore s at_ (runCore s (coreIndex at_) (waitingFor cmd env bad)) = .next (noteArrivals s t p) := by
  have hI := h
  obtain ⟨hcan, hpres, hpart, hruns, hhold, hwait, hskip, hsamp, hready, hcred, hpow, h1, h2, h3⟩ := h
  generalize hci : coreIndex at_ = ci at *
  unfold atCore atUnit
  rw [hpres, if_pos rfl]
  congr 1
  have e1 : coreCmd s ci (waitingFor cmd env bad) = t := by
    unfold coreCmd
    rw [hpart]
    simp only
    rw [if_pos hruns]
    have hsc : updCore s ci (fun c => { c with waiting := [] ++ [waitingFor cmd env bad] }) = setCore s ci { coreOf s ci with waiting := [waitingFor cmd env bad] } := rfl
    have hsc' : updCore s ci (fun c => { c with waiting := c.waiting ++ [waitingFor cmd env bad] }) = setCore s ci { coreOf s ci with waiting := [waitingFor cmd env bad] } := by
      unfold updCore; simp only [hwait]; rfl
    rw [hsc']
    have hr3 := (readyToIssue_setCore s ci [waitingFor cmd env bad] cmd).trans hready
    have hp2 : partAt (setCore s ci { coreOf s ci with waiting := [waitingFor cmd env bad] }) (ci / 16) = some p := hpart
    have hr2 : (partOf (setCore s ci { coreOf s ci with waiting := [waitingFor cmd env bad] }) p).runs = true := hruns
    have ho : overdraws (setCore s ci { coreOf s ci with waiting := [waitingFor cmd env bad] }) ci (waitingFor cmd env bad) = false := hcred
    have hback : updCore (setCore s ci { coreOf s ci with waiting := [waitingFor cmd env bad] }) ci (fun c => { c with waiting := [] }) = s := by
      unfold updCore
      rw [coreOf_setCore, if_pos rfl, setCore_setCore _ _ _ _ hcan]
      apply setCore_kvself hcan
      rw [← hwait]
    have hcore : coreOf (setCore s ci { coreOf s ci with waiting := [waitingFor cmd env bad] }) ci = { coreOf s ci with waiting := [waitingFor cmd env bad] } := by
      rw [coreOf_setCore, if_pos rfl]
    have hw1 : (coreOf (setCore s ci { coreOf s ci with waiting := [waitingFor cmd env bad] }) ci).waiting = [waitingFor cmd env bad] := by rw [hcore]
    have hh1 : (coreOf (setCore s ci { coreOf s ci with waiting := [waitingFor cmd env bad] }) ci).hold = .none := by rw [hcore]; exact hhold
    have hk1 : (coreOf (setCore s ci { coreOf s ci with waiting := [waitingFor cmd env bad] }) ci).skip = 0 := by rw [hcore]; exact hskip
    have hs1 := (skippedCheck_setCore s p ci ci { coreOf s ci with waiting := [waitingFor cmd env bad] } cmd).trans hsamp
    generalize setCore s ci { coreOf s ci with waiting := [waitingFor cmd env bad] } = s1 at *
    unfold resume
    rw [hp2]
    simp only
    rw [if_pos hr2, hw1]
    simp only [List.length_singleton, drain]
    rw [hw1]
    simp only [hh1, hk1, ne_eq, not_true_eq_false, if_false, Nat.lt_irrefl]
    have hr4 : readyToIssue s1 ci (waitingFor cmd env bad).cmd = true := hr3
    have hs4 : skippedCheck s1 p ci (waitingFor cmd env bad).cmd = none := hs1
    rw [hs4, hr4, ho, hback]
    simp only [Bool.not_true, Bool.false_eq_true, if_false]
    exact ht
  unfold runCore goOn
  rw [e1]
  have e2 : resume t ci = t := by
    unfold resume
    rw [hp]
    simp only
    split
    · rw [hw]; rfl
    · rfl
  simp only [e2, hp]

/-- A CHECK that the lap leaves out: the sequencer moves past it and will skip its block. -/
theorem coreStep_passed {s : State} {p : Nat} {at_ : CoreRef} {env : CoreEnv} {a : VecArgs} {bad : List (Nat × Nat)}
    (h : Passes s p at_) (hs : skippedCheck s p (coreIndex at_) (.vec .check a) = some a) :
    atCore s at_ (runCore s (coreIndex at_) (waitingFor (.vec .check a) env bad)) =
      .next (updCore s (coreIndex at_) (fun c => { c.past (streamed s (coreIndex at_)) with skip := vRows a - 1 })) := by
  obtain ⟨hcan, hpres, hpart, hruns, hhold, hwait, hskip⟩ := h
  generalize coreIndex at_ = ci at *
  unfold atCore atUnit
  rw [hpres, if_pos rfl]
  congr 1
  let w := waitingFor (.vec .check a) env bad
  let s1 := setCore s ci { coreOf s ci with waiting := [w] }
  let t := updCore s ci (fun c => { c.past (streamed s ci) with skip := vRows a - 1 })
  have hcore : coreOf s1 ci = { coreOf s ci with waiting := [w] } := by
    show coreOf (setCore _ _ _) ci = _
    rw [coreOf_setCore, if_pos rfl]
  have hback : updCore s1 ci (fun c => { c with waiting := [] }) = s := by
    unfold updCore
    rw [hcore, setCore_setCore _ _ _ _ hcan]
    apply setCore_kvself hcan
    rw [← hwait]
  have hpass : passCheck s ci a = t := by
    unfold passCheck skipBlock updCore
    rw [advance_eq, coreOf_setCore, if_pos rfl, setCore_setCore _ _ _ _ hcan]
    rfl
  have hdone : resume t ci = t := by
    have hw : (coreOf t ci).waiting = [] := by
      show (coreOf (updCore _ _ _) ci).waiting = _
      rw [coreOf_updCore, if_pos rfl]
      exact hwait
    unfold resume
    split
    · split
      · rw [hw]; rfl
      · rfl
    · rfl
  have e1 : coreCmd s ci w = t := by
    unfold coreCmd
    rw [hpart]
    simp only
    rw [if_pos hruns]
    have hs1 : updCore s ci (fun c => { c with waiting := c.waiting ++ [w] }) = s1 := by
      unfold updCore; simp only [hwait]; rfl
    have hp1 : partAt s1 (ci / 16) = some p := hpart
    have hr1 : (partOf s1 p).runs = true := hruns
    have hq : skippedCheck s1 p ci w.cmd = some a := hs
    rw [hs1]
    unfold resume
    rw [hp1]
    simp only
    rw [if_pos hr1, hcore]
    simp only [List.length_singleton, drain]
    rw [hcore]
    simp only [hhold, hskip, ne_eq, not_true_eq_false, if_false, Nat.lt_irrefl, hq]
    rw [hback, hpass]
  unfold runCore goOn
  rw [e1, hdone]
  have hp2 : partAt t (ci / 16) = some p := hpart
  simp only [hp2]
  exact noteArrivals_same rfl

end Sys2Proof.Machine
end

