-- ==== Sys2Proof/Tests/Slice0.lean ====
section
/-! SUPPORT. Tests of the model: encodings written out bit by bit from R70 to R120 and R179, terms that the checks of
R69 refuse, single steps whose results the manual's words give, and for each statement a state and operands that meet
its hypotheses, clause by clause. -/

namespace Sys2Proof.Tests

open Sys2Proof Sys2Proof.Machine

-- One theorem after another: each evaluates a whole State.
set_option Elab.async false

/-! ## Helpers -/

/-- A property of a map's default and of its listed values holds of every value read. -/
theorem kvGet_all {α : Type} (P : α → Prop) (d : α) (m : KV α) (hd : P d) (h : ∀ e ∈ m, P e.2) (k : Nat) :
    P (kvGet d m k) := by
  induction m with
  | nil => exact hd
  | cons a r ih =>
    obtain ⟨a1, a2⟩ := a
    unfold kvGet
    split
    · exact h (a1, a2) (List.mem_cons_self ..)
    · exact ih (fun e he => h e (List.mem_cons_of_mem _ he))

theorem idle_cores {s : State} (h : ∀ e ∈ s.cores, e.2.waiting = []) : ∀ k, (coreOf s k).waiting = [] :=
  kvGet_all (fun c : Core => c.waiting = []) {} s.cores rfl h

def core0 : CoreRef := { cluster := 0, core := 0 }

/-- A module with partition 0 running on cluster 0. -/
def lap : State := { State.reset with parts := [(0, { state := .running, width := 1, height := 1 })] }

/-- A module with partition 0 running on block 0. -/
def lap6 : State := { State.reset with parts := [(0, { state := .running, width := 3, height := 2 })] }

/-- The hypotheses of Issues, evaluated. -/
def issuesNow (s : State) (p : Nat) (c : CoreRef) (env : CoreEnv) (cmd : CoreCmd) : Bool :=
  let x := coreOf s (coreIndex c)
  coreExists s c && decide (partAt s (coreIndex c / 16) = some p) && (partOf s p).runs && decide (x.hold = .none) &&
    decide (x.waiting = []) && decide (x.skip = 0) && (skippedCheck s p (coreIndex c) cmd).isNone &&
    readyToIssue s (coreIndex c) cmd &&
    !(overdraws s (coreIndex c) (waitingFor cmd env)) &&
    !(touchesBank s (coreIndex c) cmd (fun x => decide (x = .off))) && decide (env.parity = []) &&
    decide (env.conflicts = []) && decide (x.poison = [])

theorem issues_of {s : State} {p : Nat} {c : CoreRef} {env : CoreEnv} {cmd : CoreCmd} (hc : s.Canonical)
    (h : issuesNow s p c env cmd = true) : Issues s p c env cmd := by
  simp only [issuesNow, Bool.and_eq_true, decide_eq_true_eq, Bool.not_eq_true', Option.isNone_iff_eq_none] at h
  obtain ⟨⟨⟨⟨⟨⟨⟨⟨⟨⟨⟨⟨h1, h2⟩, h3⟩, h4⟩, h5⟩, h6⟩, h0⟩, h7⟩, h8⟩, h9⟩, h10⟩, h11⟩, h12⟩ := h
  exact ⟨hc, h1, h2, h3, h4, h5, h6, h0, h7, h8, h9, h10, h11, by simp [h12]⟩

theorem lap_canonical : lap.Canonical := by constructor <;> decide
theorem lap6_canonical : lap6.Canonical := by constructor <;> decide

def vecArgs : VecArgs :=
  { async := false, dst := 3, a := 0, b := 1, c := 2, rows := 1, length := 1, imm := 0, param := 0 }

/-! ## Hypotheses met: commands of a core -/

theorem witness_VecExactElementwise : vecArgs.a ≠ noDesc ∧
    ∀ f ∈ [VecFn.copy, .add, .sub, .mul, .fma, .max, .min, .scale], Issues lap 0 core0 {} (.vec f vecArgs) :=
  ⟨by decide, fun f hf => issues_of lap_canonical (by revert f; decide)⟩

theorem witness_VecBoundedElementwise : vecArgs.a ≠ noDesc ∧
    ∀ f ∈ [VecFn.exp, .recip, .rsqrt, .silu, .gelu, .sigmoid, .tanh], Issues lap 0 core0 {} (.vec f vecArgs) :=
  ⟨by decide, fun f hf => issues_of lap_canonical (by revert f; decide)⟩

theorem witness_VecReductionsAndTopk : vecArgs.a ≠ noDesc ∧ vecArgs.b ≠ noDesc ∧
    ∀ f ∈ [VecFn.sum, .maxr, .sumsq, .dequant, .topk], Issues lap 0 core0 {} (.vec f { vecArgs with param := 1 }) :=
  ⟨by decide, by decide, fun f hf => issues_of lap_canonical (by revert f; decide)⟩

theorem witness_VecRowFunctions : vecArgs.a ≠ noDesc ∧ vecArgs.b ≠ noDesc ∧ vecArgs.c ≠ noDesc ∧
    ∀ f ∈ [VecFn.rmsnorm, .layernorm, .softmax, .rope], Issues lap 0 core0 {} (.vec f vecArgs) :=
  ⟨by decide, by decide, by decide, fun f hf => issues_of lap_canonical (by revert f; decide)⟩

theorem witness_VecQuant : vecArgs.a ≠ noDesc ∧ Issues lap 0 core0 {} (.vec .quant vecArgs) :=
  ⟨by decide, issues_of lap_canonical (by decide)⟩

def guardArgs : VecArgs := { vecArgs with a := 63, b := 63, c := 63, param := 31 * 64 }

/-- A sampled CHECK of candidate 1, where the lap's candidate is 0. -/
def laterArgs : VecArgs := { vecArgs with param := 64 }

theorem witness_VecOutlierCheck : Issues lap 0 core0 {} (.vec .outlier vecArgs) ∧ vecArgs.b ≠ noDesc ∧
    vecArgs.dst ≠ noDesc ∧ Issues lap 0 core0 {} (.vec .check vecArgs) ∧ vecArgs.param.toNat / 64 ≠ 31 ∧
    Issues lap 0 core0 {} (.vec .check guardArgs) ∧ guardArgs.param.toNat / 64 = 31 ∧
    (Passes lap 0 core0 ∧ laterArgs.param.toNat / 64 ≠ 31 ∧ laterArgs.param.toNat / 64 ≠
      (partOf lap 0).lap % (pCandidates (precisionOf lap 0 (laterArgs.param.toNat % 64)) + 1)) ∧
    (Passes (odSet lap K.numCheckerMode 0) 0 core0 ∧ inForce (odSet lap K.numCheckerMode 0) 0 K.numCheckerMode = 0) :=
  ⟨issues_of lap_canonical (by decide +kernel), by decide, by decide, issues_of lap_canonical (by decide +kernel), by decide,
    issues_of lap_canonical (by decide +kernel), by decide,
    ⟨⟨lap_canonical, by decide, by decide, by decide, by decide, by decide, by decide⟩, by decide +kernel⟩,
    ⟨⟨by constructor <;> decide +kernel, by decide, by decide, by decide, by decide, by decide, by decide⟩, by decide +kernel⟩⟩

def mmaArgs : MmaArgs :=
  { async := false, a := 0, w := 1, out := 2, scale := 63, m := 1, k := 1, n := 1, accumulate := false, rounding := 0 }

theorem witness_MmaResult : mmaArgs.out ≠ noDesc ∧ Issues lap 0 core0 {} (.mma mmaArgs) :=
  ⟨by decide, issues_of lap_canonical (by decide)⟩

/-- A lap program of one cluster whose core 0 has the given body and one chain of one array. -/
def program (body : List CmdWord) : LapProgram :=
  { signatureOk := true, measurement := [], width := 1, height := 1, hurdles := 2, checkpoints := [], jobHurdles := []
    segmentNs := [], nominalLapNs := 100, variants := [16], writeMapOk := true
    cores := [{ dx := 0, dy := 0, core := 0, even := body, chains := [{ first := 0, count := 1 }] }]
    tokens := [], lanes := 1, prefillMax := 1, maxDraft := 0, shareVariants := 1, stages := 1, models := []
    vocabulary := 10, widenReserveNs := 0, flipGapNs := 0, slotShapes := [], adapterShape := none, claims := []
    stackImage := [], arrays := [], streamWriters := [] }

/-- Partition 0 runs that program. -/
def lapP : State :=
  { State.reset with parts := [(0, { state := .running, width := 1, height := 1, program := some (program []) })] }

theorem lapP_canonical : lapP.Canonical := by constructor <;> decide

/-- A chain whose array is outside the lap mask. -/
def lapOff : State := { lapP with arrays := [(0, { masked := false })] }

def mvmArgs : ArrMvmArgs :=
  { async := false, inp := 0, out := 1, scale := 2, firstArray := 0, count := 1, rowsLast := 0, group := false, m := 1
    accumulate := false, canary := 63, fbSkip := 1, wfmt := 0, env := 63 }

theorem witness_ArrMvmResult : mvmArgs.out ≠ noDesc ∧
    (Issues lapP 0 core0 {} (.arrMvm mvmArgs) ∧ chainIn lapP 0 mvmArgs = true ∧
      chainNumber lapP 0 mvmArgs.firstArray.toNat mvmArgs.count.toNat = some 0 ∧ 0 < mvmArgs.count.toNat ∧
      (∀ x ∈ chainArrays lapP 0 0, (arrOf lapP x).wfmt = mvmArgs.wfmt.toNat) ∧ mvmArgs.canary = noDesc) ∧
    (Issues lapOff 0 core0 {} (.arrMvm mvmArgs) ∧ chainIn lapOff 0 mvmArgs = false) :=
  ⟨by decide, ⟨issues_of lapP_canonical (by decide), by decide⟩,
    ⟨issues_of (by constructor <;> decide) (by decide), by decide⟩⟩

def arrWriteArgs : ArrWriteArgs :=
  { async := false, src := 0, array := 31, firstRow := 511, rows := 0, verify := true, persist := true
    repair := .phys 0 0, scale := 63 }

/-- The last array of core 0 is retired. -/
def lapRetired : State := { lap with arrays := [(31, { state := .retired })] }

theorem witness_ArrWriteResult :
    (Issues lap 0 core0 {} (.arrWrite arrWriteArgs) ∧ (arrOf lap 31).state ≠ .retired ∧ ({} : CoreEnv).cells = []) ∧
    (Issues lapRetired 0 core0 {} (.arrWrite arrWriteArgs) ∧ (arrOf lapRetired 31).state = .retired) :=
  ⟨⟨issues_of lap_canonical (by decide), by decide⟩, ⟨issues_of (by constructor <;> decide) (by decide), by decide⟩⟩

def attnArgs : AttnArgs :=
  { async := false, q := 0, out := 1, lane := 2, work := 63, stream := 0, group := 0, dim := false, half := false
    scale := 0, window := 0, lanes := 0, kvbuf := 3, split := false, parts := 0, part := 0, sel := 1 }

theorem witness_AttnResults :
    (∀ op ∈ [(0 : BitVec 2), 1, 2], Issues lap 0 core0 {} (.attn op attnArgs)) ∧
    Issues lap 0 core0 {} (.attn 0 { attnArgs with split := true }) ∧
    (∀ l ∈ (laneEntries lap 0 attnArgs).filter (laneTaken attnArgs), l.block ≤ 8192) ∧
    ∀ a ∈ [attnArgs, { attnArgs with split := true }],
      (fetchLanes (advance lap 0) 0 0 a [] ((laneEntries lap 0 a).filter (laneTaken a))).1 = .inl [] := by
  refine ⟨fun op h => issues_of lap_canonical (by revert op; decide), issues_of lap_canonical (by decide), by decide,
    fun a h => ?_⟩
  rw [show (laneEntries lap 0 a).filter (laneTaken a) = [] from by revert a; decide]
  rfl

theorem witness_ControlCommands :
    ∀ c ∈ [CoreCmd.nop, .fence 15, .dmaWait 15 0, .desc { index := 62, desc := 0 }, .bankPower false 1,
      .bankPower true 0xFFFFFFFF, .cinval], Issues lap 0 core0 {} c :=
  fun c h => issues_of lap_canonical (by revert c; decide)

def hurdleArgs : HurdleArgs := { hurdle := 0, checkpoint := false, verdict := false, swapMask := 0 }

theorem witness_HurdleCommands :
    (∀ form ∈ [(0 : BitVec 2), 1, 2], Issues lap 0 core0 {} (.hurdle form hurdleArgs)) ∧
    hurdleArgs.hurdle.toNat = (partOf lap 0).hurdle ∧
    (∀ form ∈ [(0 : BitVec 2), 1], Issues lap 0 core0 {} (.hurdle form { hurdleArgs with hurdle := 4095 })) ∧
    ({ hurdleArgs with hurdle := 4095 } : HurdleArgs).hurdle.toNat ≠ (partOf lap 0).hurdle ∧ (partOf lap 0).fault = none :=
  ⟨fun f h => issues_of lap_canonical (by revert f; decide), by decide,
    fun f h => issues_of lap_canonical (by revert f; decide), by decide, by decide⟩

def checkpointArgs : HurdleArgs := { hurdle := 0, checkpoint := true, verdict := false, swapMask := 0 }

def writing : Transfer := { id := 0, kind := .stackWrite, counter := 0, sync := false, dst := [], data := [] }

/-- Core 0 has one DMA write in flight, and the given commands wait. -/
def lapWriting (w : List Waiting) : State :=
  { lap with cores := [(0, { transfers := [writing], nextXfer := 1, counters := [(0, 1)], waiting := w })] }

theorem witness_CheckpointArrival :
    let w := waitingFor (.hurdle 0 checkpointArgs) {}
    (lapWriting []).Canonical ∧ (lapWriting [w]).Canonical ∧
    (∀ s ∈ [lapWriting [], lapWriting [w]], coreExists s core0 = true ∧ partAt s 0 = some 0 ∧ (partOf s 0).runs = true ∧
      (partOf s 0).hurdle = checkpointArgs.hurdle.toNat ∧ (streamed s 0 = true → 0 < (coreOf s 0).ahead) ∧
      (coreOf s 0).skip = 0 ∧ (coreOf s 0).hold = .none ∧ (coreOf s 0).idle 7 = true ∧ writesInFlight (coreOf s 0) ≠ 0) ∧
    (coreOf (lapWriting []) 0).waiting = [] ∧ (coreOf (lapWriting [w]) 0).waiting = [w] ∧
    (coreOf (lapWriting [w]) 0).transfers[0]? = some writing ∧ writing.ready = true ∧ writing.kind = .stackWrite ∧
    awaitsBank (lapWriting [w]) writing = false ∧ (∀ g ∈ writing.dst, powerAt (lapWriting [w]) g.addr ≠ .off) ∧
    (∀ k, k ≠ 0 → (coreOf (lapWriting [w]) k).waiting = []) ∧
    writesInFlight { coreOf (lapWriting [w]) 0 with transfers := [] } = 0 := by
  refine ⟨by constructor <;> decide, by constructor <;> decide, by decide, by decide, by decide, by decide, by decide, by decide,
    by decide, by decide, fun k hk => ?_, by decide⟩
  simp [coreOf, lapWriting, kvGet, hk]

def stackArgs (r : DmaStack) : DmaStackArgs :=
  { async := false, loc := 0, tentative := false, counter := 15, remote := r }
def coreArgs : DmaCoreArgs := { async := false, loc := 0, counter := 0, cluster := 0, core := 15, desc := 1 }
def edgeArgs (ch : BitVec 8) : DmaEdgeArgs := { async := false, loc := 0, counter := 0, channel := ch, granule := 0 }

/-- Session 0 has a page at address 0, whose translation cluster 0 holds. -/
def lapPage : State :=
  { lap6 with
    sessions := [(0, { state := .active })], clusters := [(0, { tlb := [(tlbKey 0 0, leafEntry 0 5 0 0)] })] }

/-- Slot 0 holds set 0, whose piece 0 lies in frame 7; channel 0 is to the host and channel 1 to a neighbour; lane 0
runs on no adapter and lane 1 on adapter set 0. -/
def lapSlots : State :=
  let s := { lap6 with
    parts := [(0, { state := .running, width := 3, height := 2, lanes := [(1, { session := 2 })] })]
    sessions := [(2, { state := .active, adapter := some 0 })] }
  let s := domSet s (K.partSlotMap 0) (natLe 0 2)
  let s := domSet s (K.partChannelTable 0)
    (natLe 1 1 ++ natLe 0 3 ++ natLe 1 4 ++ natLe 0 8 ++ natLe 2 1 ++ natLe 0 3 ++ natLe 1 4 ++ natLe 0 1 ++ natLe 9 4 ++
      natLe 0 3)
  setWset s 0 { state := .loaded, imageBytes := 65536, pieces := 1, table := [(0, 1 + 7 * 2 ^ 16)] }

theorem lapSlots_canonical : lapSlots.Canonical := by constructor <;> decide

/-- The same, with the set's piece quarantined. -/
def lapHeld : State := updWset lapSlots 0 (fun w => { w with table := [(0, 3 + 7 * 2 ^ 16)] })

theorem witness_DmaCopies :
    (Issues lap6 0 core0 {} (.dmaLoad (stackArgs (.phys 0 0))) ∧ 0 ∈ (partOf lap6 0).blocks ∧
      (0 + areaSize (descOf (coreOf lap6 0) 0)) * 64 ≤ stackBytes ∧ cutOff lap6 0 true (farBlock lap6 0 0 1) = false) ∧
    (Issues lapPage 0 core0 {} (.dmaLoad (stackArgs (.session 0 0))) ∧ sessionHere lapPage 0 0 = true ∧
      ∃ r w, sessionRead (advance lapPage 0) 0 0 0 0 (areaSize (descOf (coreOf lapPage 0) 0)) = (r, none, w) ∧
        w.parts = lapPage.parts ∧ w.cores = (advance lapPage 0).cores ∧
        cutOff w 0 true (farAddrs w 0 (r.2.map (·.2))) = false) ∧
    (Issues lapSlots 0 core0 {} (.dmaLoad (stackArgs (.set 0 0))) ∧ handleOf lapSlots 0 0 = .slot 0 ∧
      handleOf lapSlots 0 0xF000 = .lane 0 0xFFFF ∧ handleOf lapSlots 0 0xF001 = .lane 1 0 ∧
      Issues lapSlots 0 core0 {} (.dmaLoad (stackArgs (.set 0xF000 0))) ∧
      Issues lapSlots 0 core0 {} (.dmaLoad (stackArgs (.set 0xF001 0))) ∧
      cutOff lapSlots 0 true (farSet lapSlots 0 0 0 1) = false ∧
      ∃ x, setRead lapSlots 0 0 (areaSize (descOf (coreOf lapSlots 0) 0)) = .at_ x) ∧
    (Issues lapHeld 0 core0 {} (.dmaLoad (stackArgs (.set 0 0))) ∧ handleOf lapHeld 0 0 = .slot 0 ∧
      setRead lapHeld 0 0 (areaSize (descOf (coreOf lapHeld 0) 0)) = .held) ∧
    (Issues lap6 0 core0 {} (.dmaStore (stackArgs (.phys 0 (2 ^ 20)))) ∧
      regionFrames lap6 0 * 65536 ≤ 2 ^ 20 * 64 ∧ cutOff lap6 0 false (farAddrs lap6 0 [some (physAddr 0 (2 ^ 20))]) = false ∧
      (2 ^ 20 + (sourceArea lap6 0 {} (descOf (coreOf lap6 0) 0)).length) * 64 ≤ stackBytes) ∧
    (Issues lapPage 0 core0 {} (.dmaStore (stackArgs (.session 0 0))) ∧
      ∃ l w, sessionWrite (advance lapPage 0) 0 0 0 0 false (sourceArea lapPage 0 {} (descOf (coreOf lapPage 0) 0)) =
        (l, none, w) ∧ w.parts = lapPage.parts ∧ w.cores = (advance lapPage 0).cores ∧
        cutOff w 0 false (farAddrs w 0 (l.map (fun e => some e.1.addr))) = false) ∧
    (Issues lap6 0 core0 {} (.dmaCore coreArgs) ∧ (partOf lap6 0).holds 0 = true ∧ 15 < (clusterOf lap6 0).presented ∧
      cutOff lap6 0 false [0] = false) ∧
    (∀ ch ∈ [(0 : BitVec 8), 1], Issues lapSlots 0 core0 {} (.dmaEdgeIn (edgeArgs ch)) ∧
      Issues lapSlots 0 core0 {} (.dmaEdgeOut (edgeArgs ch)) ∧
      0 + areaSize (descOf (coreOf lapSlots 0) 0) ≤ fieldLe (channelOf lapSlots 0 ch.toNat) 4 4 ∧
      fieldLe (channelOf lapSlots 0 ch.toNat) 0 1 = ch.toNat + 1 ∧
      cutOff lapSlots 0 false (farPorts (channelOf lapSlots 0 ch.toNat) 1) = false ∧
      cutOff lapSlots 0 true (farPorts (channelOf lapSlots 0 0) 1) = false ∧
      cutOff lapSlots 0 true (farBlock lapSlots 0 (fieldLe (channelOf lapSlots 0 1) 8 1) 1) = false) :=
  ⟨⟨issues_of lap6_canonical (by decide), by decide +kernel⟩,
    ⟨issues_of (by constructor <;> decide) (by decide), by decide, _, lapPage |> (advance · 0), rfl, rfl, rfl, by decide +kernel⟩,
    ⟨issues_of lapSlots_canonical (by decide), by decide, by decide, by decide, issues_of lapSlots_canonical (by decide),
      issues_of lapSlots_canonical (by decide), by decide +kernel, _, rfl⟩,
    ⟨issues_of (by constructor <;> decide) (by decide), by decide⟩,
    ⟨issues_of lap6_canonical (by decide), by decide +kernel⟩,
    ⟨issues_of (by constructor <;> decide) (by decide), _, advance lapPage 0, rfl, rfl, rfl, by decide +kernel⟩,
    ⟨issues_of lap6_canonical (by decide), by decide +kernel⟩,
    fun ch h => ⟨issues_of lapSlots_canonical (by revert ch; decide), issues_of lapSlots_canonical (by revert ch; decide),
      by revert ch; decide +kernel⟩⟩

def gatherArgs (t : StackPlace) : GatherArgs :=
  { async := false, idx := 0, dst := 1, table := t, rowBytes := 16, count := 1, counter := 0 }

theorem witness_Gathers :
    (Issues lap6 0 core0 {} (.gather (gatherArgs (.set 0xF000 0))) ∧ zeroTable lap6 0 (.set 0xF000 0) = true) ∧
    (Issues lap6 0 core0 {} (.gather (gatherArgs (.phys 0 0))) ∧ zeroTable lap6 0 (.phys 0 0) = false ∧
      fieldLe (readArea lap6 0 0 4) 0 4 = 0 ∧ 0 + 16 ≤ tableLimit lap6 0 (.phys 0 0) ∧ (coreOf lap6 0).lines = [] ∧
      (let misses := rowParts (spaceKey lap6 0 (.phys 0 0)) 0 16 0 2
       misses ≠ [] ∧ (∀ w ∈ misses, findWay (coreOf lap6 0) w.1 = none ∧ lineSource lap6 w.1 ≠ .lost) ∧
        cutOff lap6 0 true (farLines lap6 0 1 misses) = false)) :=
  ⟨⟨issues_of lap6_canonical (by decide), by decide⟩, ⟨issues_of lap6_canonical (by decide), by decide +kernel⟩⟩

/-- Core 0 has a command in its vector queue, and banks that power up and wait to go off. -/
def lapBanks : State :=
  { lap with cores := [(0, { qVector := 1, hold := .engine .vector 1
                             banks := [(0, { power := .poweringUp }), (31, { power := .pendingOff })] })] }

/-- A write on its way to bank 31 of core 0, which waits to go off. -/
def lapLate : State :=
  { lap with cores := [(0, { banks := [(31, { power := .pendingOff })]
                             transfers := [{ writing with kind := .coreWrite, dst := [{ addr := 31 * 2 ^ 16 }] }] })] }

theorem witness_CoreEvents : coreExists lapBanks core0 = true ∧ (coreOf lapBanks 0).waiting = [] ∧
    (coreOf lapBanks 0).queue .vector = 0 + 1 ∧ (bankOf (coreOf lapBanks 0) 0).power = .poweringUp ∧
    (bankOf (coreOf lapBanks 0) 31).power = .pendingOff ∧ bankIncoming lapBanks 0 31 = 0 ∧
    (coreOf lapLate 0).waiting = [] ∧ bankIncoming lapLate 0 31 ≠ 0 := by decide

/-- Core 0 fetches a line of block 0, and reads of the stack are in flight. -/
def lapReading : State :=
  { lap with cores := [(0, { fetching := [0], cacheBanks := 1, transfers := [{ writing with kind := .stackRead }] })] }

/-- The same, with the line's first granule poisoned. -/
def lapPoisoned : State := { lapReading with stackPoison := [0] }

theorem witness_TransferCompletion : lapReading.Canonical ∧ (lapWriting []).Canonical ∧ lapLate.Canonical ∧
    (coreExists lapReading core0 = true ∧ (coreOf lapReading 0).transfers[0]? = some { writing with kind := .stackRead } ∧
      awaitsBank lapReading { writing with kind := .stackRead } = false) ∧
    ((coreOf lapReading 0).fetching[0]? = some 0 ∧ partAt lapReading 0 = some 0 ∧ lineSource lapReading 0 = .at_ 0 ∧
      linePoison lapReading 0 = [] ∧ lineCurrent lapReading 0 0 = true ∧ linePoison lapPoisoned 0 ≠ []) ∧
    ((coreOf (lapWriting []) 0).transfers[0]? = some writing ∧ writing.ready = true ∧ ∀ g ∈ writing.dst, g.gen = none) ∧
    (targetExists lapLate (.bank core0 31) = true ∧ partAt lapLate 0 = some 0 ∧ IsLate lapLate (.bank core0 31)) ∧
    Sends lapLate (.bank core0 31) 0 :=
  ⟨by constructor <;> decide, by constructor <;> decide, by constructor <;> decide, by decide, by decide, by decide,
    ⟨by decide, by decide, by unfold IsLate; decide⟩,
    ⟨_, List.mem_singleton_self _, by decide, _, List.mem_singleton_self _, by decide, by decide⟩⟩

/-! ## Hypotheses met: laps, arrays and management commands -/

/-- Partition 0 runs on one cluster that presents one core. -/
def lap1 (pt : Part) (c : Core) : State :=
  { State.reset with
    clusters := [(0, { presented := 1 })], cores := [(0, c)], parts := [(0, { pt with state := .running, width := 1, height := 1 })] }

/-- Its core has arrived at hurdle `h`. -/
def arrived (h : Nat) (a : HurdleArgs) (pt : Part := {}) (replay : Bool := false) : State :=
  lap1 { pt with hurdle := h, arrived := [0] } { arrived := some h, arrival := some a, hold := .hurdle h, sentReplay := replay }

def verdictArgs : HurdleArgs := { hurdle := 3, checkpoint := true, verdict := true, swapMask := 0 }

theorem witness_HurdleClears :
    (∀ s ∈ [arrived 2 hurdleArgs, arrived 0 hurdleArgs, arrived 1 checkpointArgs, arrived 1 checkpointArgs {} true,
        arrived 3 verdictArgs], (partOf s 0).runs = true ∧ (partOf s 0).fault = none ∧ mayClear s 0 = true ∧
        ∀ e ∈ s.cores, e.2.waiting = []) ∧
    hurdleKind (arrived 2 hurdleArgs) 0 = (false, false) ∧ (hurdleKind (arrived 0 hurdleArgs) 0).2 = false ∧
    (hurdleKind (arrived 1 checkpointArgs) 0 = (true, false) ∧ anyReplay (arrived 1 checkpointArgs) 0 = false) ∧
    (hurdleKind (arrived 1 checkpointArgs {} true) 0 = (true, false) ∧
      anyReplay (arrived 1 checkpointArgs {} true) 0 = true ∧ jobOf (arrived 1 checkpointArgs {} true) 0 = 0 ∧
      0 < inForce (arrived 1 checkpointArgs {} true) 0 (K.partReplayLimit 0)) ∧
    ((hurdleKind (arrived 3 verdictArgs) 0).2 = true ∧ anyReplay (arrived 3 verdictArgs) 0 = false) := by decide +kernel

theorem witness_BatonsAndTimeouts :
    (∀ v ∈ [Verdict.replay, .commit, .abort], let s := lap1 { verdict := some v } {}
      (partOf s 0).runs = true ∧ (partOf s 0).fault = none ∧ (∀ e ∈ s.cores, e.2.waiting = []) ∧ pairState s ≠ 4 ∧
      s.security.transition = none ∧ (partOf s 0).verdict = some v ∧ (partOf s 0).lanes = [] ∧ (partOf s 0).aborts = [] ∧
      fencedSessions s 0 = [] ∧ openOf s 0 = [] ∧ (partOf s 0).flip = none ∧ s.commits = []) ∧
    (let s := { lap with parts := [(0, { state := .running, width := 1, height := 1, arrived := [0] })] }
     (partOf s 0).runs = true ∧ (partOf s 0).arrived ≠ [] ∧ (partOf s 0).timerHolds = 0 ∧ (partOf s 0).verdict = none ∧
      missingClusters s 0 ≠ []) := by decide +kernel

def record : TokRec := { token := 1, position := 0, logprob := 0, tag := 0, last := false, stop := false, draft := false, lap := 0 }
def oldCompl : Compl := { tag := 0, opcode := 1, status := 0, sq := 0, sqHead := 0, session := 0, flags := 0, result := [] }

/-- A session that samples in a lap of partition 0, with a record to release, and a completion to post. -/
def sampler : State :=
  { State.reset with
    parts := [(0, { state := .running, inLap := true
                    lanes := [(0, { session := 5, kind := .decode, samples := true, block := 1 })] })]
    sessions := [(5, { state := .active, records := [record]
                       cmds := [{ ring := 0, tag := 0, opcode := 3, bytes := [], running := true }] })]
    compRings := [(0, { sizeLog2 := 6, ready := [oldCompl] })] }

theorem witness_RecordsAndPosts :
    ((sessOf sampler 5).records = [record] ∧ record.mirror = false ∧ portHeld sampler (sessOf sampler 5).port = false ∧
      (sessOf sampler 5).mirrored = false) ∧
    ((compOf sampler 0).ready = [oldCompl] ∧ ringDist 64 0 0 < 63 ∧ recordsOut sampler oldCompl = true ∧
      inOrder sampler 0 oldCompl = true ∧ portHeld sampler ((fnOfComp sampler 0).getD 0 / 64) = false ∧
      mirroredRing sampler 0 = false) ∧
    (laneWith sampler 0 5 = some (0, { session := 5, kind := .decode, samples := true, block := 1 }) ∧
      (sessOf sampler 5).running.isSome = true ∧ (partOf sampler 0).inLap = true ∧ (sessOf sampler 5).state = .active ∧
      (sessOf sampler 5).shadow = false ∧ 5 ∉ (partOf sampler 0).cutSessions ∧
      ([⟨[0]⟩] : List SampleIn).length = (sessOf sampler 5).drafts.length + 1) := by decide +kernel

/-- Chain 0 of core 0 holds array 0, in the given state. -/
def chained (x : ArrState) : State := { lapP with arrays := if x = .ready then [] else [(0, { state := x })] }

/-- A SUSPECT array that its calibration checks. -/
def doubted : State := { lapP with arrays := [(0, { state := .suspect, checking := true })] }

theorem witness_ArrayEvents : coreExists lapP core0 = true ∧ chainArrays lapP 0 0 = [0] ∧
    (chainOf lapP 0).queued = false ∧ (arrOf lapP 0).state = .ready ∧
    (chainOf { lapP with chains := [(0, { queued := true })] } 0).queued = true ∧
    chainArrays (chained .calibrating) 0 0 = [0] ∧ (arrOf (chained .calibrating) 0).state = .calibrating ∧
    (arrOf (chained .calibrating) 0).passed = false ∧
    (chainArrays doubted 0 0 = [0] ∧ (arrOf doubted 0).state = .suspect ∧ (arrOf doubted 0).checking = true ∧
      (arrOf doubted 0).persist = false) ∧
    (arrOf (chained .writing) 0).state = .writing ∧
    repairOf (chained .writing) 0 ≠ some .lost ∧ repairOf (chained .writing) 0 ≠ some .held := by decide +kernel

/-- A module that is READY, with management session 1 open over the mailbox of function 0. -/
def managed : State :=
  { odSet (odSet State.reset K.devBringUpState 8) K.hlthMpState 1 with
    mgmt := [(1, { live := true, isOpen := true })], nextMgmt := 2 }

def rq0 : Rq := { session := 1, seq := 0 }

/-- The hypotheses of Executes and Accepts, evaluated. -/
def executesNow (s : State) (rq : Rq) : Bool :=
  let m := mgmtOf s rq.session
  mpUp s && served s m.transport && m.isOpen && rq.tagOk && inWindow m rq.seq && !rq.inFlightFull && !rq.overRate

def acceptsNow (s : State) (rq : Rq) (k v : Nat) : Bool :=
  executesNow s rq && moduleReady s && permitted s (mgmtOf s rq.session) k (.write (natLe v (cmdWidth k))) &&
    (match objOf k with
     | some o => decide (o.access = .cmd) && decide (v < 256 ^ widthOf o.type) && scalarInRange s o k v
     | none => false) && decide (k % 256 ≠ 0)

theorem executes_of {s : State} {rq : Rq} (h : executesNow s rq = true) : Executes s rq := by
  simp only [executesNow, Bool.and_eq_true, Bool.not_eq_true'] at h
  obtain ⟨⟨⟨⟨⟨⟨h1, h2⟩, h3⟩, h4⟩, h5⟩, h6⟩, h7⟩ := h
  exact ⟨h1, h2, h3, h4, h5, h6, h7⟩

theorem accepts_of {s : State} {rq : Rq} {k v : Nat} (h : acceptsNow s rq k v = true) : Accepts s rq k v := by
  simp only [acceptsNow, Bool.and_eq_true, decide_eq_true_eq] at h
  obtain ⟨⟨⟨⟨h1, h2⟩, h3⟩, h4⟩, h5⟩ := h
  refine ⟨executes_of h1, h2, h3, ?_, h5⟩
  split at h4
  next o ho =>
    simp only [Bool.and_eq_true, decide_eq_true_eq] at h4
    exact ⟨o, ho, h4.1.1, h4.1.2, h4.2⟩
  · cases h4

theorem witness_ArrayCommands : ∀ e ∈ [(K.numClear, 1), (K.numClear, 0), (K.statClear 47, 1), (K.statClear 47, 0),
    (K.arrCalibrateAll, 1), (K.arrCalibrateAll, 0)], Accepts managed rq0 e.1 e.2 :=
  fun e h => accepts_of (by revert e; decide +kernel)

/-! ## Hypotheses met: rings, sessions and weights -/

/-- A module that is READY, whose function 0 has rings and sessions 0 to 7, with partition 0 running. -/
def host : State :=
  let s := domSet managed K.pcieRingRanges (natLe 0 2 ++ natLe 8 2 ++ natLe 0 2 ++ natLe 8 2)
  let s := domSet s K.sessSessionRanges (natLe 0 2 ++ natLe 8 2)
  domSet (setPart s 0 { state := .running, width := 1, height := 1, program := some (program []) }) (K.clsFunctions 0)
    (padTo 16 [1])

/-- A context of 64 entries at address 4096: submission ring of priority 1, or completion ring. -/
def context : List Byte := padTo 32 (natLe 4096 8 ++ natLe 6 1 ++ natLe 1 1 ++ natLe 0 2)

def hostRings : State :=
  setComp (setSub host 0 { ctx := context }) 0 { ctx := context }

/-- Ring 0 is enabled. -/
def ringOn : State := setSub host 0 { ctx := context, enable := true, sizeLog2 := 6, tail := 1 }

theorem witness_RingContexts :
    (inRange (subRange host 0) 0 = true ∧ (subOf host 0).enable = false ∧ (subOf host 0).ctx.length = 32 ∧
      subCtxOk host 0 (contextBytes (subOf host 0).ctx 8 [6] [12, 16, 17]) (touches 8 1) = true) ∧
    (inRange (compRange host 0) 0 = true ∧ (compOf host 0).enable = false ∧ (compOf host 0).ctx.length = 32 ∧
      compCtxOk 0 (contextBytes (compOf host 0).ctx 8 [6] [14, 16, 17]) (touches 8 1) = true) ∧
    inRange (subRange host 0) 8 = false ∧ (subOf ringOn 0).enable = true ∧
    (moduleReady hostRings = true ∧ (subOf hostRings 0).enable = false ∧
      subCtxOk hostRings 0 (subOf hostRings 0).ctx (fun _ _ => true) = true ∧ (compOf hostRings 0).enable = false ∧
      compCtxOk 0 (compOf hostRings 0).ctx (fun _ _ => true) = true) ∧
    subCtxOk host 0 (subOf host 0).ctx (fun _ _ => true) = false ∧ compInUse host 0 = false ∧ compInUse ringOn 0 = true := by
  decide +kernel

/-- Rings of 64 entries, one entry fetched and two completions posted; session 0 has a token ring and a bitmap. -/
def belled : State :=
  setSess (setComp (setSub host 0 { sizeLog2 := 6, fetch := 1, tail := 3 }) 0 { sizeLog2 := 6, written := 2 }) 0
    { state := .active, tokenLog2 := 6, tokW := 2, bitmapBase := some 4096, bitmapLog2 := 6 }

theorem witness_Doorbells : inRange (subRange belled 0) 0 = true ∧ inRange (compRange belled 0) 0 = true ∧
    inRange (sessRange belled 0) 0 = true ∧
    (∀ d ∈ [({ value := 0 } : Doorbell), { value := 2 }, { value := 3 }, { value := 63 }],
      doorbellOk d (2 ^ (subOf belled 0).sizeLog2) = true) ∧
    (ringDist 64 1 3 ≤ ringDist 64 1 63 ∧ ringDist 64 1 2 < ringDist 64 1 3) ∧
    (ringDist 64 0 2 ≤ ringDist 64 0 (2 % 64) ∧ ringDist 64 0 (2 % 64) < ringDist 64 0 3) ∧
    ((sessOf belled 0).state ≠ .free ∧ ringDist 64 0 2 ≤ ringDist 64 0 ((sessOf belled 0).tokW % 64)) ∧
    ((sessOf belled 0).bitmapBase = some 4096 ∧ (sessOf belled 0).shadow = false) ∧
    (doorbellOk { value := 64 } 64 = false ∧ doorbellOk { value := 0, aligned := false } 64 = false) := by decide +kernel

/-- An entry of a submission ring. -/
def entry (op : Nat) (body : List Byte := []) (sess part : Nat := 0) : List Byte :=
  padTo 64 (natLe op 2 ++ natLe 9 2 ++ natLe sess 2 ++ natLe part 2 ++ body)

/-- A session whose prompt block waits to be read, and one whose GENERATE waits for its logit biases. -/
def reading : State :=
  let s := odSet host (K.strVocabulary 0) 10
  let s := setPart s 0 { state := .running, lanes := [(0, { session := 0, kind := .prefill, block := 2 }), (1, { session := 1, kind := .prefill, block := 1 })] }
  setComp (setSess (setSess (setSess s 0 { state := .active }) 1 { state := .active, holdAfter := true }) 2
    { state := .active, cmds := [{ ring := 0, tag := 0, opcode := 3, bytes := padTo 64 (padTo 40 [] ++ [1]) }] }) 0
    { uncoalesced := 1 }

theorem witness_FetchesAndHostReads :
    (nextRing ringOn = some 0 ∧ mirroredRing ringOn 0 = false ∧ (entry 1).length = 64 ∧ knownOpcode (fieldLe (entry 1) 0 1) = true ∧
      (entry 7).length = 64 ∧ knownOpcode (fieldLe (entry 7) 0 1) = false) ∧
    ((compOf reading 0).uncoalesced ≠ 0 ∧ fnOfComp reading 0 = some 0) ∧
    ((sessOf reading 0).state ≠ .free ∧
      laneWith reading 0 0 = some (0, { session := 0, kind := .prefill, block := 2 }) ∧ (sessOf reading 0).blockRead = false ∧
      (9 : W32).toNat < odGet reading (K.strVocabulary 0) ∧ (sessOf reading 0).holdAfter = false) ∧
    (laneWith reading 0 1 = some (1, { session := 1, kind := .prefill, block := 1 }) ∧ (sessOf reading 1).blockRead = false ∧
      (sessOf reading 1).holdAfter = true) ∧
    ((sessOf reading 2).state ≠ .free ∧ ∃ g, (sessOf reading 2).cmds = [g] ∧ g.opcode = 3 ∧ fieldLe g.bytes 40 2 ≠ 0 ∧
      g.biasRead = false) :=
  ⟨by decide +kernel, by decide +kernel, by decide +kernel, by decide +kernel, by decide +kernel, _, rfl, by decide +kernel⟩

/-- Ring 0 has fetched one entry, and session 0 is as given. -/
def fetched (e : List Byte) (x : Session := {}) : State :=
  setSess (setSub host 0 { dispatch := [e], outstanding := 1, sizeLog2 := 6, fetch := 1 }) 0 x

theorem names_of {s : State} {ring : Nat} {e : List Byte} {ok : Bool}
    (h : ok = true ∧ namesSession s ring (eSess e) = none ∧ closing (sessOf s (eSess e)) = false) : Names s ring e ok :=
  ⟨h.1, h.2.1, h.2.2⟩

def opening (sess : Nat := 0) (cls : Nat := 0) : List Byte := entry 1 (natLe 0 8 ++ [6] ++ natLe cls 1 ++ natLe 0xFFFF 2) sess
def forking : List Byte := entry 4 (natLe 1 2 ++ [0xFF] ++ padTo 13 [] ++ [6])
def openNow : Session := { state := .active, len := 1 }
def evictedNow : Session := { state := .evicted }

theorem witness_SessionOpens :
    (Front (fetched opening) 0 1 opening [] ∧ openOk opening = true ∧ (fieldLe opening 20 1).testBit 0 = false ∧
      openChecks (fetched opening) (ringFn (fetched opening) 0) 0 0 0 0xFFFF = none) ∧
    (Front (fetched (entry 1)) 0 1 (entry 1) [] ∧ openOk (entry 1) = false) ∧
    (Front (fetched (opening 8)) 0 1 (opening 8) [] ∧ openOk (opening 8) = true ∧ (fieldLe (opening 8) 20 1).testBit 0 = false ∧
      inRange (sessRange (fetched (opening 8)) 0) 8 = false) ∧
    ((sessOf (fetched opening openNow) 0).state ≠ .free ∧ inRange (sessRange (fetched opening openNow) 0) 0 = true) ∧
    (let s := setPart (fetched opening) 0 {}
     Front s 0 1 opening [] ∧ (partOf s 0).state ≠ .running) ∧
    (let s := domSet (fetched (opening 0 1)) (K.clsFunctions 1) (padTo 16 [])
     Front s 0 1 (opening 0 1) [] ∧ openOk (opening 0 1) = true ∧ classPermitted s 0 1 = false) ∧
    (Front (fetched forking openNow) 0 4 forking [] ∧ Names (fetched forking openNow) 0 forking (forkOk forking) ∧
      paged openNow = false ∧ openNow.mirrored = false ∧ fieldLe forking 8 2 = 1 ∧ fieldLe forking 10 1 = 0xFF ∧
      openChecks (fetched forking openNow) 0 1 0 0 0xFFFF = none) := by
  refine ⟨by unfold Front; decide +kernel, by unfold Front; decide +kernel, by unfold Front; decide +kernel,
    by decide +kernel, by unfold Front; decide +kernel, by unfold Front; decide +kernel,
    by unfold Front; decide +kernel, names_of (by decide +kernel), by decide +kernel⟩

def prompting (n : Nat) : List Byte := entry 2 (natLe 0 8 ++ natLe n 4)
def generating : List Byte := entry 3 (natLe 1 4 ++ padTo 31 [] ++ [4])
def closer : SessCmd := { ring := 0, tag := 0, opcode := 6, bytes := [] }

theorem witness_SessionCommands :
    (∀ n ∈ [1, 1048576], Front (fetched (prompting n) openNow) 0 2 (prompting n) [] ∧
      Names (fetched (prompting n) openNow) 0 (prompting n) (promptOk (prompting n))) ∧
    (openNow.shadowUsed = 0 ∧ openNow.cmds = [] ∧ positionsOf (fetched (prompting 1) openNow) 0 + 1 ≤ kvMax (fetched (prompting 1) openNow) 0 ∧
      kvMax (fetched (prompting 1048576) openNow) 0 < positionsOf (fetched (prompting 1048576) openNow) 0 + 1048576) ∧
    (Front (fetched generating openNow) 0 3 generating [] ∧ Names (fetched generating openNow) 0 generating
      (generateOk generating (odGet (fetched generating openNow) (K.strMaxDraft 0))) ∧
      (fieldLe generating 43 1).testBit 0 = false ∧ 0 < openNow.len ∧ 1 + 0 < kvMax (fetched generating openNow) 0) ∧
    (∀ op ∈ [5, 6, 0x10], Front (fetched (entry op) openNow) 0 op (entry op) [] ∧
      Names (fetched (entry op) openNow) 0 (entry op) (plainOk (entry op))) ∧
    (pagingCmd openNow = none ∧ openNow.mirrored = false ∧ paged openNow = false ∧ willEvict openNow = false) ∧
    (let x := { openNow with cmds := [closer] }
     Front (fetched (entry 6) x) 0 6 (entry 6) [] ∧ namesSession (fetched (entry 6) x) 0 0 = none ∧ closing x = true) ∧
    (let x := { openNow with mirrored := true }
     Front (fetched (entry 0x10) x) 0 0x10 (entry 0x10) [] ∧ namesSession (fetched (entry 0x10) x) 0 0 = none) ∧
    (Front (fetched (entry 0x11) evictedNow) 0 0x11 (entry 0x11) [] ∧
      Names (fetched (entry 0x11) evictedNow) 0 (entry 0x11) (plainOk (entry 0x11)) ∧ paged evictedNow = true) ∧
    (Front (fetched (entry 0x11) openNow) 0 0x11 (entry 0x11) [] ∧ namesSession (fetched (entry 0x11) openNow) 0 0 = none) ∧
    (Front (fetched (entry 6)) 0 6 (entry 6) [] ∧ inRange (sessRange (fetched (entry 6)) 0) 0 = true ∧
      (sessOf (fetched (entry 6)) 0).state = .free) ∧
    (let x : Session := { state := .ending, closed := true }
     Front (fetched (entry 6) x) 0 6 (entry 6) [] ∧ inRange (sessRange (fetched (entry 6) x) 0) 0 = true ∧
      x.fn = ringFn (fetched (entry 6) x) 0) ∧
    (let x := { evictedNow with cmds := [{ closer with opcode := 0x11 }] }
     Front (fetched (entry 0x10) x) 0 0x10 (entry 0x10) [] ∧ Names (fetched (entry 0x10) x) 0 (entry 0x10) (plainOk (entry 0x10)) ∧
      x.mirrored = false ∧ ∃ c ∈ x.cmds, c.opcode = 0x11) ∧
    (let x := { openNow with cmds := [{ closer with opcode := 0x10 }] }
     Front (fetched (entry 0x11) x) 0 0x11 (entry 0x11) [] ∧ Names (fetched (entry 0x11) x) 0 (entry 0x11) (plainOk (entry 0x11)) ∧
      willEvict x = true ∧ ∀ c ∈ x.cmds, c.opcode ≠ 0x11) ∧
    (Front (fetched (entry 0x30)) 0 0x30 (entry 0x30) [] ∧ plainOk (entry 0x30) = true ∧ host.pair.unacked = [] ∧
      (subOf (fetched (entry 0x30)) 0).outstanding ≤ (subOf (fetched (entry 0x30)) 0).dispatch.length) ∧
    (let s := setSub host 0 { dispatch := [entry 0x30], outstanding := 2 }
     Front s 0 0x30 (entry 0x30) [] ∧ (subOf s 0).dispatch.length < (subOf s 0).outstanding) := by
  refine ⟨fun n h => ⟨?_, names_of ?_⟩, by decide +kernel, ⟨by unfold Front; decide +kernel, names_of (by decide +kernel),
    by decide +kernel⟩, fun op h => ⟨?_, names_of ?_⟩, by decide, by unfold Front; decide +kernel, by unfold Front; decide +kernel,
    ⟨by unfold Front; decide +kernel, names_of (by decide +kernel), by decide +kernel⟩, by unfold Front; decide +kernel,
    by unfold Front; decide +kernel, by unfold Front; decide +kernel,
    ⟨by unfold Front; decide +kernel, names_of (by decide +kernel), by decide +kernel⟩,
    ⟨by unfold Front; decide +kernel, names_of (by decide +kernel), by decide +kernel⟩,
    by unfold Front; decide +kernel, by unfold Front; decide +kernel⟩
  · unfold Front; revert n; decide +kernel
  · revert n; decide +kernel
  · unfold Front; revert op; decide +kernel
  · revert op; decide +kernel

def staging (set : Nat) : List Byte := entry 0x20 (natLe set 2 ++ padTo 6 [] ++ natLe 65536 8 ++ natLe 8192 8)
def flipping (set : Nat) : List Byte := entry 0x21 ([0, 0] ++ natLe set 2)

/-- Set 1 is loaded, with the shape that partition 0 declares for slot 0. -/
def flippable (e : List Byte) (pt : PartState) : State :=
  let s := setWset (fetched e) 1 { state := .loaded, shapeId := 7 }
  setPart s 0 { state := pt, width := 1, height := 1, program := some { program [] with slotShapes := [(0, 7)] } }

theorem witness_WeightCommands :
    (Front (fetched (staging 0)) 0 0x20 (staging 0) [] ∧ stageOk (staging 0) = true ∧
      (wsetOf (fetched (staging 0)) 0).state = .empty) ∧
    (Front (flippable (staging 1) .running) 0 0x20 (staging 1) [] ∧ stageOk (staging 1) = true ∧
      (wsetOf (flippable (staging 1) .running) 1).state ≠ .empty) ∧
    (let s := flippable (flipping 1) .running
     Front s 0 0x21 (flipping 1) [] ∧ flipOk (flipping 1) = true ∧ flipChecks s 0 0 1 = none ∧ jobOf s 0 = 0 ∧
      mirroredOf s 0 = []) ∧
    (let s := odSet (flippable (flipping 1) .running) (K.partJobId 0) 3
     Front s 0 0x21 (flipping 1) [] ∧ flipChecks s 0 0 1 = none ∧ jobOf s 0 ≠ 0 ∧ mirroring s = false) ∧
    (Front (flippable (flipping 1) .empty) 0 0x21 (flipping 1) [] ∧
      (partOf (flippable (flipping 1) .empty) 0).state ≠ .running) ∧
    (Front (flippable (flipping 0) .running) 0 0x21 (flipping 0) [] ∧ flipOk (flipping 0) = true ∧
      (partOf (flippable (flipping 0) .running) 0).state = .running ∧ (wsetOf (flippable (flipping 0) .running) 0).state ≠ .loaded) := by
  unfold Front; decide +kernel

def cancelled : Session := { state := .active, cancel := some (0, 9), mirrored := true }

theorem witness_SessionEnds :
    (let s := fetched (entry 5) cancelled
     (sessOf s 0).cancel ≠ none ∧ (sessOf s 0).waveSent = false ∧ (sessOf s 0).state = .active ∧ byWave s 0 = true) ∧
    (let x := { cancelled with waveSent := true }
     x.twinAbort = false ∧ x.hostLost = false ∧ x.cancel ≠ none) ∧
    (let x : Session := { state := .ending, waveSent := true, hostLost := true }
     x.twinAbort = false ∧ x.hostLost = true) ∧
    (byWave (fetched (entry 5) { state := .ending, hostLost := true, mirrored := true }) 0 = true) ∧
    Accepts (fetched (entry 5) openNow) rq0 K.sessEndSession 0 ∧
    (∀ st ∈ [SessState.evicting, .restoring], (sessOf (fetched (entry 5) { state := st }) 0).state = st) ∧
    (sessOf belled 0).state = .active ∧ (sessOf belled 0).bitmapBase ≠ none ∧ (sessOf belled 0).shadow = false := by
  refine ⟨by decide +kernel, by decide +kernel, by decide +kernel, by decide +kernel, accepts_of (by decide +kernel), by decide +kernel,
    by decide +kernel⟩

/-- The weight regions have eight frames in each of blocks 0 to 6, and none elsewhere; or none at all. -/
def regions (s : State) : State := domSet s K.wtRegionFrames ((List.range 7).flatMap (fun _ => natLe 8 4))
def noRegions (s : State) : State := domSet s K.wtRegionFrames [0]

/-- The head of a bundle of one piece in block 0, whose image has `image` bytes and one chunk. -/
def bundle (image : Nat) (digest : List Byte := []) : BundleHead :=
  { headerBytes := padTo 256 (asciiBytes "VWS1" ++ natLe 1 2 ++ [0, 0] ++ natLe 7 8 ++ natLe image 8 ++ natLe 1 4 ++ natLe 1 4)
    digests := [digest], placements := [{ first := 0, pieces := 1, block := 0 }], signature := [] }

/-- Set 0 as given, with the weight regions laid out. -/
def withSet (w : WSet) : State := setWset (regions host) 0 w

def byte0 : List Byte := [0]

/-- A set that loads, whose image is one byte long. -/
def tiny : WSet := { state := .loading, head := some (bundle 65536 (sha3 byte0)), imageBytes := 1, pieces := 1 }

/-- A chunk of zeros, and a set of two chunks whose first it is. -/
def zeroChunk : List Byte := List.replicate 16777216 0
def large : WSet := { state := .loading, head := some (bundle 65536 (sha3 zeroChunk)), imageBytes := 33554432 }

theorem chunk_good {w : WSet} {n : Nat} {data : List Byte} (hw : w.head = some (bundle n (sha3 data)))
    (hl : data.length = chunkLen w 0) : chunkGood w 0 data = true := by
  have hd : (bundle n (sha3 data)).digests = [sha3 data] := rfl
  have hg : ∀ x : List Byte, getAt [] [x] 0 = x := fun _ => rfl
  simp only [chunkGood, hw, hl, hd, hg, beq_self_eq_true, Bool.and_self]

theorem zeroChunk_length : zeroChunk.length = chunkLen large 0 := by
  rw [show chunkLen large 0 = 16777216 by decide +kernel]
  exact List.length_replicate ..

theorem large_good : chunkGood large 0 zeroChunk = true := chunk_good (n := 65536) rfl zeroChunk_length
theorem tiny_good : chunkGood tiny 0 byte0 = true := chunk_good (n := 65536) rfl (by decide)

theorem withSet_canonical : (withSet { state := .verifying }).Canonical ∧ (withSet tiny).Canonical ∧ (withSet large).Canonical := by
  refine ⟨?_, ?_, ?_⟩ <;> constructor <;> decide +kernel

theorem absorb_length (a : List W64) (b : List Byte) : (sha3Absorb a b).length = 25 := rfl

theorem flat_length (l : List W64) : (l.flatMap (fun w => natLe w.toNat 8)).length = 8 * l.length := by
  induction l with
  | nil => rfl
  | cons a r ih =>
    have w : (natLe a.toNat 8).length = 8 := rfl
    rw [List.flatMap_cons, List.length_append, ih, w, List.length_cons]
    omega

theorem sha3_length (bs : List Byte) : (sha3 bs).length = 64 := by
  have h : ∀ (l : List (List Byte)) (a : List W64), a.length = 25 → (l.foldl sha3Absorb a).length = 25 := by
    intro l
    induction l with
    | nil => exact fun _ h => h
    | cons b r ih => exact fun a _ => ih _ (absorb_length a b)
  unfold sha3
  rw [flat_length, List.length_take, h _ _ List.length_replicate]
  rfl

theorem keyId_length (bs : List Byte) : (keyIdOf bs).length = 8 := by
  rw [keyIdOf, List.length_take, sha3_length]
  rfl

/-- An operator key that may sign weight sets, its entry of the key table, and a bundle's head that names it. -/
def opKey : List Byte := List.replicate 2592 7
def opEntry : List Byte := natLe 8 8 ++ opKey
def named (key : List Byte) : BundleHead := { bundle 65536 with headerBytes := List.replicate 32 1 ++ (key ++ List.replicate 216 0) }
def signed : BundleHead := named (keyIdOf opKey)

/-- Module state that holds the operator key. -/
def keyed (s : State) : State := domSet s K.secOperatorKeys opEntry

theorem named_slice (key : List Byte) (h : key.length = 8) : slice (named key).headerBytes 32 8 = key := by
  simp [named, slice, List.drop_append, h]

/-- A set whose bundle's head has been read. -/
def headed : WSet := { state := .verifying, head := some (bundle 65536), pieces := 1, stage := some (0, 9), owner := 0 }

/-- A set of one piece whose header has been read, and whose key is the operator's. -/
def vouched (relayed : Bool) : WSet := { headed with head := some signed, relayedIn := relayed }

theorem keyOk_of (s : State) (key : List Byte) (hl : key.length = 2592) :
    setKeyOk (domSet s K.secOperatorKeys (natLe 8 8 ++ key)) (named (keyIdOf key)) = true := by
  have hn : (natLe 8 8 ++ key).length = 2600 := by
    rw [List.length_append, hl]
    rfl
  have ht : slice (natLe 8 8 ++ key) (2600 * 0) 2600 = natLe 8 8 ++ key := List.take_of_length_le (Nat.le_of_eq hn)
  have hr : List.range (2600 / 2600) = [0] := rfl
  have h : operatorKeys (domSet s K.secOperatorKeys (natLe 8 8 ++ key)) = [natLe 8 8 ++ key] := by
    simp only [operatorKeys, domGet_domSet, if_true, hn, hr, List.map_cons, List.map_nil, ht]
  have hd : (natLe 8 8 ++ key).drop 8 = key := List.drop_left (l₁ := natLe 8 8)
  have hs : slice (named (keyIdOf key)).headerBytes 32 8 = keyIdOf key := named_slice _ (keyId_length _)
  have hf : fieldLe (natLe 8 8 ++ key) 0 1 = 8 := rfl
  simp only [setKeyOk, keyUsage, h, hs, List.find?_cons, hd, beq_self_eq_true, Option.map_some, hf]
  rfl

theorem signed_keyOk (s : State) : setKeyOk (keyed s) signed = true := keyOk_of s opKey List.length_replicate

theorem witness_WeightStaging : (withSet { state := .verifying, owner := 0 }).Canonical ∧
    (let s := withSet { state := .verifying, owner := 0 }
     let w := wsetOf s 0
     w.state = .verifying ∧ w.head = none ∧ w.relayedIn = false ∧ hField (bundle 65536) 16 8 ≤ imageLimit ∧
      headerGood (bundle 65536) = true ∧ hField (bundle 65536) 6 1 = 0 ∧ w.owner % 64 = 0 ∧
      duplicateOf s 0 (measure (bundle 65536)) = none) ∧
    imageLimit < hField (bundle (imageLimit + 65536)) 16 8 ∧
    (hField (bundle 1) 16 8 ≤ imageLimit ∧ headerGood (bundle 1) = false) ∧
    (let s := setWset (withSet { state := .verifying, owner := 0 }) 1 { state := .loaded, measurement := measure (bundle 65536) }
     (wsetOf s 0).state = .verifying ∧ duplicateOf s 0 (measure (bundle 65536)) = some 1) ∧
    (let s := keyed (withSet (vouched false))
     s.Canonical ∧ (wsetOf s 0).state = .verifying ∧ (wsetOf s 0).head = some signed ∧ (wsetOf s 0).relayedIn = false ∧
      setKeyOk s signed = true ∧ duplicateOf s 0 (wsetOf s 0).measurement = none ∧ (reserveSet s 0).isSome = true) ∧
    (let s := keyed (setWset (noRegions host) 0 (vouched false))
     setKeyOk s signed = true ∧ duplicateOf s 0 (wsetOf s 0).measurement = none ∧ reserveSet s 0 = none) ∧
    setKeyOk (withSet headed) (bundle 65536) = false ∧
    (large.state = .loading ∧ large.relayedIn = false ∧ large.reread = [] ∧ nextChunk large = some 0 ∧
      (0 + 1) * 16777216 < large.imageBytes ∧ large.again = false) ∧
    chunkGood large 0 zeroChunk = true ∧ (withSet large).Canonical ∧
    (tiny.state = .loading ∧ nextChunk tiny = some 0 ∧ tiny.imageBytes ≤ (0 + 1) * 16777216 ∧ tiny.ownerLost = false) ∧
    chunkGood tiny 0 byte0 = true ∧ chunkGood tiny 0 [] = false := by
  refine ⟨by constructor <;> decide +kernel, by decide +kernel, by decide +kernel, by decide +kernel, ⟨by decide +kernel, ?_⟩,
    ⟨by constructor <;> decide +kernel, rfl, rfl, rfl, signed_keyOk _, by decide +kernel, by decide +kernel⟩,
    ⟨signed_keyOk _, by decide +kernel, by decide +kernel⟩, by decide +kernel, by decide +kernel, large_good,
    withSet_canonical.2.2, by decide +kernel, tiny_good, by decide +kernel⟩
  have h : ∀ m : List Byte, duplicateOf (setWset (withSet { state := .verifying, owner := 0 }) 1 { state := .loaded, measurement := m }) 0 m = some 1 := by
    intro m
    simp [duplicateOf, setWset, withSet, regions, domSet, host, managed, odSet, kvSet, kvPut, setPart, State.reset]
  exact h _

def relayed (w : WSet) (again : Bool := false) : WSet := { w with relayedIn := true, again }

/-- Partition 0 has a flip under way. -/
def inFlip (f : Flip) : State := setPart host 0 { state := .running, flip := some f }

/-- Set 0 only passes through, in one chunk of 65,536 zeros. -/
def zeroPiece : List Byte := List.replicate 65536 0
def passing (again : Bool) : Transit := { set := 0, head := bundle 65536 (sha3 zeroPiece), again }
def transiting (again : Bool := false) : State := { host with transits := [passing again] }

/-- The gap of a flip of slot 0, in which array 0 is written from piece 0 of the set. -/
def gapFlip : Flip := { slot := 0, policy := 0, set := 0, gap := true, origin := some (0, 9) }
def inGap (entry : Nat) : State :=
  let s := setPart lapSlots 0 { state := .running, width := 3, height := 2, flip := some gapFlip }
  let s := setWset s 0 { state := .loaded, imageBytes := 65536, pieces := 1, table := [(0, entry)] }
  setArr s 0 { persist := true, repair := some (.set 0 0) }

theorem witness_RelaysAndFlips :
    (let s := domSet (domSet (regions host) K.fabTorusDims (natLe 4 3)) K.relayRelayBox (natLe 0 3 ++ natLe 4 3)
     (wsetOf s 0).state = .empty ∧ headerGood (bundle 65536) = true ∧ hField (bundle 65536) 16 8 ≤ imageLimit ∧
      duplicateOf s 0 (measure (bundle 65536)) = none ∧ relayDirs s (some 0) ≠ []) ∧
    ((wsetOf (withSet tiny) 0).state ≠ .empty ∧ headerGood (bundle 1) = false) ∧
    (let s := keyed (withSet (vouched true))
     (wsetOf s 0).state = .verifying ∧ (wsetOf s 0).relayedIn = true ∧ (wsetOf s 0).head = some signed ∧ (wsetOf s 0).early = [] ∧
      setKeyOk s signed = true ∧ duplicateOf s 0 (wsetOf s 0).measurement = none ∧ (reserveSet s 0).isSome = true) ∧
    (transitOf (transiting) 0 = some (passing false) ∧ transitOf (transiting true) 0 = some (passing true) ∧
      headerGood (passing false).head = true ∧
      chunkGood { imageBytes := hField (passing false).head 16 8, head := some (passing false).head } 0 zeroPiece = true ∧
      chunkGood { imageBytes := hField (passing false).head 16 8, head := some (passing false).head } 0 [] = false) ∧
    (transitOf (withSet (vouched true)) 0 = none ∧ transitOf (withSet (relayed large)) 0 = none ∧
      (relayed large).state = .loading ∧ nextChunk (relayed large) = some 0 ∧
      (relayed large).reread = [] ∧ (0 + 1) * 16777216 < (relayed large).imageBytes) ∧
    chunkGood (relayed large) 0 zeroChunk = true ∧
    (nextChunk (relayed tiny) = some 0 ∧ chunkGood (relayed tiny) 0 [] = false ∧ (relayed tiny).again = false ∧
      nextChunk (relayed tiny true) = some 0 ∧ chunkGood (relayed tiny true) 0 [] = false ∧ (relayed tiny true).again = true) ∧
    ((partOf (inFlip { slot := 0, policy := 0, set := 1, origin := some (0, 9) }) 0).flip =
      some { slot := 0, policy := 0, set := 1, origin := some (0, 9) } ∧
      (jobOf (inFlip { slot := 0, policy := 0, set := 1, origin := some (0, 9) }) 0 = 0)) ∧
    ((partOf (inGap 1) 0).flip = some gapFlip ∧ gapHeld (inGap 3) 0 0 = true ∧ (partOf (inGap 1) 0).fault = none ∧
      gapArrays (inGap 1) 0 0 = [(0, .set 0 0)] ∧ (∃ l, readPlace (inGap 1) 0 (.set 0 0) (repairGranules (arrOf (inGap 1) 0).wfmt) = .bytes l)) ∧
    ∀ c, (coreOf (inGap 1) c).waiting = [] := by
  refine ⟨?_, by decide +kernel, ⟨rfl, rfl, rfl, rfl, signed_keyOk _, by decide +kernel, by decide +kernel⟩,
    ⟨rfl, rfl, by decide +kernel, ?_, by decide +kernel⟩, by decide +kernel, ?_, by decide +kernel, by decide +kernel,
    ⟨rfl, by decide +kernel, rfl, by decide +kernel, ?_⟩, idle_cores (by decide +kernel)⟩
  · decide +kernel
  · have hl : zeroPiece.length = 65536 := List.length_replicate ..
    have hd : (passing false).head.digests = [sha3 zeroPiece] := rfl
    have hi : hField (passing false).head 16 8 = 65536 := by decide +kernel
    have hg : ∀ x : List Byte, getAt [] [x] 0 = x := fun _ => rfl
    simp [chunkGood, chunkLen, chunkBytes, hl, hd, hi, hg]
  · exact chunk_good (n := 65536) rfl (zeroChunk_length.trans (by decide +kernel))
  · have hh : handleOf (inGap 1) 0 0 = .slot 0 := by decide +kernel
    have hr : ∃ a, setRead (inGap 1) 0 0 (repairGranules (arrOf (inGap 1) 0).wfmt) = .at_ a := by
      refine ⟨7 * 0, ?_⟩
      decide +kernel
    obtain ⟨a, ha⟩ := hr
    have hh' : handleOf (inGap 1) 0 (0 : BitVec 16).toNat = .slot 0 := hh
    have ha' : setRead (inGap 1) 0 (64 * (0 : BitVec 31).toNat) (repairGranules (arrOf (inGap 1) 0).wfmt) = .at_ a := ha
    simp only [readPlace, hh', ha']
    exact ⟨_, rfl⟩

/-- A loaded set whose one piece is quarantined. -/
def ill : WSet := { tiny with state := .loaded, quarantine := [(0, 1)] }

/-- Set 0 is bound to slot 0 of partition 0. -/
def bound : State := domSet (withSet { state := .loaded }) (K.partSlotMap 0) (natLe 0 2)

theorem witness_WeightSets :
    (∀ w ∈ [({ state := .loaded } : WSet), {}, { state := .loading }, { state := .verifying }],
      Accepts (withSet w) rq0 K.wtUnload 0 ∧ Accepts (withSet w) rq0 K.wtReleaseHost 0) ∧
    bindCount (withSet { state := .loaded }) 0 = 0 ∧ (Accepts bound rq0 K.wtUnload 0 ∧ bindCount bound 0 ≠ 0) ∧
    (wsetOf (withSet { state := .wiping }) 0).state = .wiping ∧
    (∀ c, (coreOf (withSet { state := .wiping }) c).waiting = []) ∧
    (ill.state = .loaded ∧ kvGet 0 ill.quarantine 0 ≠ 0 ∧ chooseBlock (withSet ill) (preferred ill 0) (fun _ => false) = some 0 ∧
      chunkGood ill (0 / 256) [] = false) ∧
    chunkGood ill (0 / 256) byte0 = true ∧
    (let x := { ill with retained := true }
     ((repairSources (withSet x) x).filter (fun k => decide (kvGet 0 x.asked 0 + 1 ≤ k))).head? = none ∧
     let y := { ill with relayedIn := true }
     ((repairSources (withSet y) y).filter (fun k => decide (kvGet 0 y.asked 0 + 1 ≤ k))).head? = some 1) := by
  refine ⟨fun w h => ⟨accepts_of ?_, accepts_of ?_⟩, by decide +kernel, ⟨accepts_of (by decide +kernel), by decide +kernel⟩,
    by decide +kernel, idle_cores (by decide +kernel), by decide +kernel, chunk_good (n := 65536) rfl (by decide), by decide +kernel⟩
  all_goals (revert w; decide +kernel)

/-! ## Hypotheses met: the fabric, jobs, the mesh and the pair -/

/-- Port `i` is in a state, after some attempts. -/
def ported (i : Nat) (st : PortState) (attempts : Nat := 0) : State :=
  { odSet host K.fabPortEnable (2 ^ 28 - 1) with fabric := { ports := [(i, { state := st, attempts })] } }

def cut (l cl : Nat) : State := { host with fabric := { links := [(l, { failed := true })], routers := [cl] } }

theorem cut_canonical : host.Canonical ∧ (cut 1697 863).Canonical := by
  refine ⟨?_, ?_⟩ <;> constructor <;> decide +kernel

theorem witness_PortsAndFailures : host.Canonical ∧ (cut 1697 863).Canonical ∧
    (∀ a ∈ [0, 1, 2], (geannaOf (ported 0 .training a) 0).state = .training ∧ (geannaOf (ported 0 .training a) 0).attempts = a) ∧
    (portDir 27 = 6 ∧ portDir 0 < 6 ∧ (1, 2, 3) ≠ expectedPos (ported 0 .training) (portDir 0) ∧
      (geannaOf (ported 27 .training) 27).state = .training) ∧
    (∀ st ∈ [PortState.up8, .up6, .up4], portUp (geannaOf (ported 0 st) 0).state = true) ∧
    (Accepts (ported 0 .down) rq0 K.fabRetrain 0 ∧ portEnabled (ported 0 .down) 0 = true ∧
      (geannaOf (ported 0 .down) 0).state ≠ .training) ∧
    ((linkOf host 1697).failed = false ∧ (linkOf (cut 1697 0) 1697).failed = true ∧ 1697 < linkCount) ∧
    (863 ∉ host.fabric.routers ∧ 863 ∈ (cut 0 863).fabric.routers) ∧
    (partAt host 0 = some 0 ∧ (partOf host 0).runs = true ∧ (partOf host 0).fault = none ∧ 0 ∉ host.fabric.routers) := by
  refine ⟨cut_canonical.1, cut_canonical.2, by decide +kernel, by decide +kernel, by decide +kernel,
    ⟨accepts_of (by decide +kernel), by decide +kernel⟩, by decide +kernel, by decide +kernel, by decide +kernel⟩

/-- Partition 0 is a member of job 3; this module is at a position, and channel 0 of the partition takes two granules. -/
def member (pos : Nat) (pt : Part := {}) : State :=
  let s := setPart State.reset 0 { pt with state := .running, width := 1, height := 1 }
  let s := domSet (domSet (odSet s (K.partJobId 0) 3) K.fabTorusPosition (natLe pos 4)) (K.partJobBox 0) (natLe 0 6)
  domSet s (K.partChannelTable 0) (natLe 2 1 ++ natLe 0 3 ++ natLe 2 4 ++ natLe 0 1 ++ natLe 9 4 ++ natLe 0 3)

theorem member_canonical : (member 0).Canonical ∧ (member 1 { hurdle := 5 }).Canonical := by
  refine ⟨?_, ?_⟩ <;> constructor <;> decide +kernel

theorem witness_JobMessages : (member 0).Canonical ∧ (member 1 { hurdle := 5 }).Canonical ∧
    (partsOfJob (member 0) 3 = [0] ∧ partsOfJob (member 0) 4 = [] ∧ (partOf (member 0) 0).fault = none ∧
      odGet (member 0) K.meshMarkCount = 0 ∧ jobRoot (member 0) 0 = true) ∧
    (partsOfJob (member 1 { hurdle := 5 }) 3 = [0] ∧ jobRoot (member 1 { hurdle := 5 }) 0 = false ∧
      (partOf (member 1 { hurdle := 5 }) 0).hurdle ≠ 0) ∧
    ((partOf (member 0) 0).runs = true ∧ fieldLe (channelOf (member 0) 0 0) 0 1 = 2 ∧
      1 + ceilDiv byte0.length 64 ≤ fieldLe (channelOf (member 0) 0 0) 4 4 ∧
      fieldLe (channelOf (member 0) 0 0) 4 4 < 2 + ceilDiv byte0.length 64) :=
  ⟨member_canonical.1, member_canonical.2, by decide +kernel, by decide +kernel, by decide +kernel⟩

/-- The mesh is in a state, and the module in bring-up state `b`. -/
def meshed (n : Nat) (b : Nat := 4) (plant : Plant := {}) : State :=
  { odSet (odSet State.reset K.meshMeshState n) K.devBringUpState b with plant }

theorem insertNat_keeps (n x : Nat) (l : List Nat) (h : x ∈ l) : x ∈ insertNat n l := by
  induction l with
  | nil => cases h
  | cons a r ih =>
    unfold insertNat
    split
    · exact List.mem_cons_of_mem _ h
    · split
      · exact h
      · cases h with
        | head => exact List.mem_cons_self ..
        | tail _ h => exact List.mem_cons_of_mem _ (ih h)

theorem foldl_keeps {α : Type} (x : Nat) (f : List Nat → α → List Nat) (hf : ∀ l a, x ∈ l → x ∈ f l a) (as : List α)
    (l : List Nat) (h : x ∈ l) : x ∈ as.foldl f l := by
  induction as generalizing l with
  | nil => exact h
  | cons a r ih => exact ih _ (hf l a h)

theorem oscSpread_keeps (s : State) (x n : Nat) (l : List Nat) (h : x ∈ l) : x ∈ oscSpread s n l := by
  induction n generalizing l with
  | zero => exact h
  | succ n ih =>
    refine ih _ (foldl_keeps x _ (fun l a h => foldl_keeps x _ (fun l a h => ?_) _ l h) l l h)
    split
    · exact insertNat_keeps _ _ _ h
    · exact h

theorem witness_MeshEvents :
    (meshState (meshed 1) = 1 ∧ (meshed 1).plant.heldBringUp = none ∧ odGet (meshed 1) K.devBringUpState = 4) ∧
    (let s := meshed 1 4 { heldBringUp := some {} }
     s.plant.heldBringUp = some {} ∧ ({} : BringUp).stacksLost = [] ∧ lostStacks s ≤ 24) ∧
    (∀ n ∈ [2, 3], meshState (meshed n) = n) ∧ chattering (meshed 3) .rackReference = false ∧
    (meshed 1 4 {}).plant.refArmed = true ∧ (meshed 3 4 { slewing := true }).plant.slewing = true ∧
    (∀ n ∈ [2, 3], (oscConnected (meshed n)).contains 0 = true) ∧
    ((meshed 2).plant.alignDue = false ∧ (meshed 2).plant.alignSend = [] ∧ (meshed 2 4 { alignDue := true }).plant.alignDue = true) ∧
    (let s := meshed 2 4 { markerRun := 2, markerAt := 1023 }
     s.plant.markerRun = 2 ∧ s.plant.markerAt = 2047 % 1024 ∧ 2047 % 1024 ≠ 0) := by
  refine ⟨by decide +kernel, by decide +kernel, by decide +kernel, by decide +kernel, by decide, by decide, fun n _ => ?_,
    by decide, by decide⟩
  refine List.contains_iff_mem.2 (oscSpread_keeps _ 0 _ _ (List.mem_filter.2 ⟨by decide, ?_⟩))
  exact (show oscActive (meshed n) 0 = oscActive State.reset 0 from rfl).trans (by decide +kernel)

/-- A powered module of a pair in a state, as the pair sees it. -/
def paired (n : Nat) (x : Pair := {}) (up : Bool := true) : State :=
  { odSet managed K.pairPairState n with
    pair := x, plant := { powered := true }, fabric := { ports := if up then [(24, { state := .up8 })] else [] } }

def frame1 : FrameIn := {}

theorem witness_PairFrames :
    (frame1.viaBus = true ∧ pairState (paired 3) = 3 ∧ thahaUp (paired 3) = true ∧ pairState (paired 1) = 1) ∧
    (({ viaBus := false } : FrameIn).viaBus = false ∧ pairState (paired 2) = 2) ∧
    ((paired 2).plant.powered = true ∧ (paired 2).plant.powerFail = false ∧ (paired 2).plant.resetting = false) ∧
    ({ secondCopy := true } : FrameIn).secondCopy = true := by decide +kernel

/-- Partition 0 mirrors session 1, and session 0 is the twin's. -/
def mirrors : State :=
  let s := setPart (paired 2 { unacked := [(7, .entry 0 (entry 1))] }) 0 { state := .running, width := 1, height := 1 }
  let s := odSet s K.pairMirrorLossPolicy 1
  { s with
    sessions := [(0, { state := .active, shadow := true, root := [(0, tableEntry 0 1)] }),
      (1, { state := .active, mirrored := true, records := [{ record with mirror := true }] })]
    clusters := [(0, { tlb := [(tlbKey 0 0, leafEntry 0 5 0 0)] })] }

theorem witness_PairMirroring : frame1.secondCopy = false ∧
    ((partOf mirrors 0).runs = true ∧ pairState mirrors ≠ 4 ∧ odGet mirrors K.pairMirrorLossPolicy = 1 ∧
      1 ∈ mirroredOf mirrors 0 ∧ 1 ∈ openOf mirrors 0 ∧
      ((sessOf mirrors 1).records.any (fun r => r.mirror && r.lap == 0)) = true) ∧
    (∀ c, (coreOf mirrors c).waiting = []) ∧
    (mirrors.pair.unacked.find? (fun m => m.1 == 7) = some (7, .entry 0 (entry 1)) ∧
      knownOpcode (fieldLe (entry 1) 0 1) = true) ∧
    ((sessOf mirrors 0).shadow = true ∧ (sessOf mirrors 0).mirrorFailed = false ∧ (sessOf mirrors 1).shadow = false) ∧
    (∃ a gen u, translate mirrors (sessOf mirrors 0).part (streamCluster mirrors (sessOf mirrors 0).part (bitsOf 0 47 29)) 0 0
      true false = (.phys a gen, u)) ∧
    (entry 1).length = 64 :=
  ⟨rfl, by decide +kernel, idle_cores (by decide +kernel), by decide +kernel, by decide +kernel,
    ⟨frameAddr 0 5, 0, mirrors, rfl⟩, by decide +kernel⟩

def readyPair : Pair := { prHigh := false, busUp := true }

/-- What a twin tells that is set up as a module in state `s`. -/
def twinOf (s : State) : TwinInfo :=
  { rings := domGet s K.pairMirroredRings, sides := domGet s K.pairRingSide, interval := odGet s K.pairHeartbeatInterval
    timeout := odGet s K.pairHeartbeatTimeout }

theorem witness_PairAttach :
    (Accepts (paired 0 readyPair) rq0 K.pairAttach 1 ∧ pairState (paired 0 readyPair) = 0 ∧ attachCheck (paired 0 readyPair) (twinOf (paired 0 readyPair)) = 0 ∧
      readyPair.fence = false) ∧
    (Accepts (paired 0) rq0 K.pairAttach 1 ∧ attachCheck (paired 0) {} = 2 ∧ attachCheck (paired 0 readyPair) {} = 4 ∧
      attachCheck (paired 0 readyPair) { twinOf (paired 0) with parts := [{ partition := 0, map := 0, program := [], slots := [] }] } = 5) ∧
    (Accepts (paired 1 readyPair) rq0 K.pairAttach 1 ∧ pairState (paired 1 readyPair) = 1 ∧ readyPair.busUp = true ∧
      thahaUp (paired 1 readyPair) = true) ∧
    (Accepts (paired 2) rq0 K.pairDrain 1 ∧ mirroring (paired 2) = true) ∧
    (Accepts (paired 1) rq0 K.pairDrain 1 ∧ mirroring (paired 1) = false) ∧
    (∀ n ∈ [0, 1, 2, 5, 6, 7], Accepts (paired n) rq0 K.pairDetach 1 ∧ pairState (paired n) = n) ∧
    ((∀ e ∈ (paired 2 { owned := [0] }).parts, e.2.runs = true → mirroredOf (paired 2 { owned := [0] }) e.1 = []) ∧
      ownedMirrored (paired 2 { owned := [0] }) = [] ∧ (paired 2 { owned := [0] }).pair.unacked = []) ∧
    (let s := domSet (paired 2 { handing := [9] }) K.pairMirroredRings [1]
     mirroring s = true ∧ domBit s K.pairMirroredRings 0 = true ∧ 9 ∈ s.pair.handing) ∧
    mirrorPart (paired 2) 0 = none ∧
    (partOf (inFlip { slot := 0, policy := 0, set := 1, toTwin := true }) 0).flip =
      some { slot := 0, policy := 0, set := 1, toTwin := true } := by
  refine ⟨⟨accepts_of (by decide +kernel), by decide +kernel⟩, ⟨accepts_of (by decide +kernel), by decide +kernel⟩,
    ⟨accepts_of (by decide +kernel), by decide +kernel⟩, ⟨accepts_of (by decide +kernel), by decide +kernel⟩,
    ⟨accepts_of (by decide +kernel), by decide +kernel⟩, fun n h => ⟨accepts_of ?_, ?_⟩, by decide +kernel, by decide +kernel,
    by decide +kernel, by decide +kernel⟩
  all_goals (revert n; decide +kernel)

/-- A pair of which this module is a side, that may be taken over or not. -/
def losing (sd enable : Nat) (x : Pair := { prHigh := false }) : State :=
  odSet (odSet (paired 2 x) K.pairSide sd) K.pairTakeoverEnable enable

theorem witness_PairLoss :
    (∀ sd ∈ [0, 1], mirroring (losing sd 1) = true ∧ odGet (losing sd 1) K.pairTakeoverEnable ≠ 0 ∧
      (losing sd 1).pair.prHigh = false ∧ side (losing sd 1) = sd) ∧
    (mirroring (losing 0 0) = true ∧ odGet (losing 0 0) K.pairTakeoverEnable = 0) ∧ pairState (paired 1) = 1 ∧
    (∀ f ∈ [false, true], (losing 1 1 { waiting := true, fence := f }).pair.waiting = true) ∧
    (side (losing 0 1) ≠ 1 ∧ (losing 0 1).pair.fence = false ∧ pairState (losing 0 1) ≠ 0 ∧ pairState (paired 0) = 0) ∧
    ((odGet (losing 0 1) K.pairStuckInputs).testBit 1 = false ∧
      (odGet (odSet (losing 0 1) K.pairStuckInputs 2) K.pairStuckInputs).testBit 1 = true) ∧
    (chattering (losing 0 1) .pr0 = false ∧ chattering (losing 0 1) .pr1 = false ∧
      chattering (markChatter (losing 0 1) .pr0) .pr0 = true ∧ side (markChatter (losing 0 1) .pr0) = 0) := by decide +kernel

/-! ## Hypotheses met: power, heat and resets -/

/-- Block 0 as given. -/
def block (x : Block) : State := setBlk State.reset 0 x

def conn (group permille : Nat) : ConnReading := { block := 0, group, permille, judged := true }

theorem witness_PowerSupply :
    (coreOn (blkOf (block {}) 0) = true ∧ 10 * 0 < 10 * targetMv (block {}) 0 ∧
      (blkOf (block { setPoint := 5500 }) 0).setPoint + 25 ≤ 10 * odGet (block {}) K.gradeCoreRailCeiling ∧
      10 * odGet (block {}) K.gradeCoreRailCeiling < (blkOf (block { setPoint := 60000 }) 0).setPoint + 25) ∧
    coreOn (blkOf (block { run := .idleOff }) 0) = false ∧
    ((odGet (block {}) K.pwrConvertersFailed).testBit 15 = false ∧
      (odGet (odSet State.reset K.pwrConvertersFailed (2 ^ 15)) K.pwrConvertersFailed).testBit 15 = true) ∧
    (7 < domainPhases .core ∧ 7 ∉ failedPhases (blkOf (block {}) 0) .core ∧ (blkOf (block {}) 0).mainOpen = false ∧
      (blkOf (block {}) 0).transitOpen = false ∧ (failedPhases (blkOf (block {}) 0) .core).length = 0) ∧
    (let x : Block := { phases := [(0, [0, 1])] }
     7 ∉ failedPhases x .core ∧ 3 ≤ (failedPhases x .core).length + 1 ∧ x.run = .on ∧ x.drain = none) ∧
    (let x : Block := { phases := [(domainCode .transit, [0, 1]), (domainCode .array, [0])] }
     2 < domainPhases .transit ∧ 2 ∉ failedPhases x .transit ∧ (failedPhases x .transit).length + 1 = 3 ∧ 1 < domainPhases .array ∧
      1 ∉ failedPhases x .array ∧ (failedPhases x .array).length + 1 = 2) ∧
    (let s := block { capped := true }
     (blkOf s 0).capped = true ∧ capW s < capW s + 1 ∧ 550 < targetMv s 0) ∧
    (∀ r ∈ [conn 8 2001, conn 0 2001, conn 11 1301, conn 11 2000, conn 11 0], r.block = 0 ∧ r.judged = true ∧ r.group < 12 ∧
      kvGet 0 (blkOf (block {}) 0).connState r.group = 0) ∧
    (odGet State.reset K.pwrGovernorDerate < derateTop State.reset) ∧
    (let s := odSet (odSet State.reset K.pwrGovernorDerate (derateTop State.reset)) K.pwrGovernorHalved 1
     derateTop s ≤ odGet s K.pwrGovernorDerate ∧ odGet s K.pwrGovernorHalved = 1 ∧ 0 < odGet s K.pwrGovernorDerate ∧
      100 * 0 ≤ 95 * governorLimit s ∧ 95 * governorLimit s < 100 * (governorLimit s + 1)) := by decide +kernel

/-- Partition 0 runs on block 0, of which something is on its way. -/
def incomingBlock : State := { block { drain := some .supply } with
  cores := [(0, { transfers := [{ writing with dst := [{ addr := 0 }] }] })] }

theorem witness_PowerSwitching :
    ((blkOf (block {}) 0).mainOpen = false ∧ partOfBlock lap6 0 = some 0 ∧ (blkOf lap6 0).mainOpen = false ∧
      (partOf lap6 0).runs = true ∧ (partOf lap6 0).fault = none ∧ (blkOf (block {}) 0).transitOpen = false) ∧
    ((blkOf (block { mainOpen := true }) 0).mainOpen = true ∧ (blkOf (block { transitOpen := true }) 0).transitOpen = true) ∧
    blockIncoming incomingBlock 0 ≠ 0 ∧
    (∀ d ∈ [DrainCause.supply, .idle, .heat], blockIncoming (block { drain := some d }) 0 = 0 ∧
      (blkOf (block { drain := some d }) 0).drain = some d ∧ (blkOf (block { drain := some d }) 0).drainStack = false) ∧
    (let s := odSet (block { setPoint := 8000 }) K.pwrIdleOffDelay 1
     odGet s K.pwrIdleOffDelay ≠ 0 ∧ partOfBlock s 0 = none ∧ (blkOf s 0).run = .on ∧ (blkOf s 0).drain = none) ∧
    (blkOf (block { run := .idleOff }) 0).run ≠ .on ∧ (block {}).cores = [] ∧
    (let x := blkOf (block { run := .waking }) 0
     x.run = .waking ∧ x.wakeDue = false) ∧
    (let s : State := { State.reset with plant := { powered := true } }
     s.plant.powered = true ∧ s.plant.powerFail = false) := by decide +kernel

/-- Block 0 as given, with its four sensors of cluster 0 and of its stack reading `v`. -/
def heated (v : Int) (x : Block := {}) : State :=
  { block x with
    sensors := [(0, { value := v, seen := true }), (1, { value := v, seen := true }), (1728, { value := v, seen := true }),
      (1729, { value := v, seen := true })] }

theorem witness_HeatThrottling :
    (∀ r ∈ [SensorRef.junction 863 1, .stack 143 1, .junction 0 0], sensorExists r = true) ∧
    ((sensorOf (heated 250) 0).failed = false ∧ 200 < (500 - (sensorOf (heated 250) 0).value).natAbs) ∧
    (let s : State := { State.reset with sensors := [(0, { apart := true })] }
     (sensorOf s (sensorKey (lowerOf s (.junction 0 0)) / 2 * 2)).apart = true ∧
      (sensorOf s (sensorKey (lowerOf s (.junction 0 0)))).suspect = false) ∧
    ((blkOf (heated 2000) 0).level < calledLevel (heated 2000) 0 ∧ calledLevel (heated 250 { level := 4 }) 0 ≤ 4) ∧
    (let s := heated 250 { level := 4 }
     levelFloor s 0 < 4 ∧ (blockJunction s 0).all (fun v => decide (v < thresholdOf s K.heatJunctionThresholds 3 - 10 * odGet s K.heatHysteresis)) = true ∧
      (blockStack s 0).all (fun v => decide (v < thresholdOf s K.heatStackThresholds 3 - 10 * odGet s K.heatHysteresis)) = true) ∧
    (∀ st ∈ [BlockRun.on, .waking], let s := heated 2000 { level := 4, run := st }
      (blockJunction s 0).any (fun v => decide (thresholdOf s K.heatJunctionThresholds 4 ≤ v)) = true ∧
      (blockStack s 0).any (fun v => decide (thresholdOf s K.heatStackThresholds 4 ≤ v)) = true ∧ (blkOf s 0).drain = none ∧
      (blkOf s 0).wakeDue = false) ∧
    (let s := heated 250 { run := .heatOff }
     s.plant.shutdown = false ∧ s.plant.stopActive = false ∧ dieWaking s 0 = false ∧
      (blockJunction s 0).any (fun v => decide (v < thresholdOf s K.heatJunctionThresholds 0 - 10 * odGet s K.heatHysteresis)) = true ∧
      (blockStack s 0).any (fun v => decide (v < thresholdOf s K.heatStackThresholds 0 - 10 * odGet s K.heatHysteresis)) = true) ∧
    dieWaking (setBlk (heated 250 { run := .heatOff }) 1 { run := .waking }) 0 = true ∧
    (sensorBlock (.junction 0 0) = 0 ∧ (sensorOf (heated 250) (sensorKey (.junction 0 0))).failed = false ∧
      (blkOf (heated 250) 0).mainOpen = false) ∧
    (sensorOf { State.reset with sensors := [(0, { failed := true })] } (sensorKey (.junction 0 0))).failed = true := by
  decide +kernel

/-- A powered module with the coolant in a state. -/
def cooled (n : Nat) (x : Plant := { powered := true }) (bits : Nat := 0) : State :=
  { odSet (odSet State.reset K.coolCoolantState n) K.hlthInputStatus bits with plant := x }

theorem witness_CoolantAndInterlocks :
    (let s := cooled 0
     coolantRow s (some (odGet s K.coolFlowRequired)) 250 250 ≤ odGet s K.coolCoolantState ∧
      odGet s K.coolCoolantState < coolantRow s none 250 250 ∧ coolantRow s none 250 250 < 4 ∧
      odGet s K.coolCoolantState < coolantRow s none 250 701 ∧ coolantRow s none 250 701 = 4 ∧ s.plant.shutdown = false ∧
      s.plant.heldBringUp = none ∧ s.plant.coolRow < 4 ∧ s.plant.stopActive = false) ∧
    (coolantCalls (cooled 1) < odGet (cooled 1) K.coolCoolantState ∧ odGet (cooled 0) K.coolCoolantState ≤ coolantCalls (cooled 0)) ∧
    (cooled 4 { shutdown := true }).plant.shutdown = true ∧
    (chattering (cooled 0) .ilkCool = false ∧ chattering (cooled 0) .ilkStop = false) ∧
    ((blkOf (cooled 0) 143).run = .on ∧ (blkOf (cooled 0) 143).drain = none ∧ (blkOf (cooled 0) 143).wakeDue = false) ∧
    (cooled 0 { stopActive := true }).plant.stopActive = true ∧
    ((odGet (cooled 0) K.hlthInputStatus).testBit 16 = false ∧ (odGet (cooled 0) K.hlthInputStatus).testBit 17 = false) ∧
    (let s := cooled 0 {} (3 * 2 ^ 16)
     (odGet s K.hlthInputStatus).testBit 16 = true ∧ (odGet s K.hlthInputStatus).testBit 17 = true ∧
      (odGet s K.hlthInputStatus).testBit 4 = false) ∧
    chatterBit .ilkStop = some 13 := by decide +kernel

/-- A powered module, READY, with the given supervision and stored input bits. -/
def powered (x : Plant := { powered := true }) (bits : Nat := 0) : State :=
  { odSet managed K.hlthInputStatus bits with plant := x }

/-- A module in reset, before its first release, with working slots. -/
def unpowered : State := { State.reset with security := { slot0 := { valid := true }, slot1 := { valid := true } } }

theorem witness_Resets :
    (Accepts (powered) rq0 K.devModuleReset 1 ∧ (powered).plant.powered = true ∧ (powered).plant.powerFail = false ∧
      (powered).plant.resetting = false) ∧
    (Accepts (powered) rq0 K.devModuleReset 0 ∧ (powered).plant.resetDue = none) ∧
    (chattering (powered) .mrst = false ∧ chattering (powered { powered := true } (2 ^ 11)) .mrst = true) ∧
    (odGet (powered) K.devResetInputStuck ≠ 1 ∧ odGet (odSet (powered) K.devResetInputStuck 1) K.devResetInputStuck = 1) ∧
    (powered { powered := true, resetting := true }).plant.resetting = true ∧
    (let s : State := { State.reset with plant := { powered := true, resetting := true } }
     s.plant.resetting = true ∧ odGet s K.devBringUpState = 0 ∧ s.plant.heldBringUp = none) ∧
    (let f : BringUp := { slotOk0 := false, slotOk1 := false }
     f.slotOk0 = false ∧ f.slotOk1 = false ∧ (f.mpFailA && f.mpFailB) = false) ∧
    (unpowered.plant.powered = false ∧ unpowered.stored = [] ∧ unpowered.security.transition = none ∧
      lifecycle unpowered ≠ lcDisposed ∧ unpowered.security.activate = none ∧ odGet unpowered K.devFirmwareSlot = 0 ∧
      unpowered.security.slot0.valid = true ∧ odGet unpowered K.secFwFuseVersion ≤ unpowered.security.slot0.version) := by
  refine ⟨⟨accepts_of (by decide +kernel), by decide⟩, ⟨accepts_of (by decide +kernel), by decide⟩, by decide +kernel,
    by decide +kernel, by decide, by decide +kernel, by decide, by decide +kernel⟩

/-- A sum of base draws is bounded by any bound of the blocks. -/
theorem baseOf_le {w : Nat} (h : ∀ b, Config.baseDraw b ≤ w) (l : List Nat) : baseOf l ≤ w * l.length := by
  have go : ∀ (l : List Nat) (n : Nat), l.foldl (fun n b => n + Config.baseDraw b) n ≤ n + w * l.length := by
    intro l
    induction l with
    | nil => intro n; simp
    | cons a r ih =>
      intro n
      have := ih (n + Config.baseDraw a)
      have := h a
      simp only [List.foldl_cons, List.length_cons, Nat.mul_add, Nat.mul_one]
      omega
  exact Nat.le_trans (go l 0) (by simp)

/-- The power clauses of a bring-up (R380): which one holds depends on the base draws measured at the factory. -/
theorem witness_Resets_power :
    ((∀ b, Config.baseDraw b ≤ 100) → baseOf (List.range 144) * 121 ≤ 16 * 200000) ∧
    (Config.baseDraw 0 ≠ 0 → 0 * 200000 < baseOf (List.range 144) * 121) := by
  refine ⟨fun h => ?_, fun h => ?_⟩
  · have := baseOf_le h (List.range 144)
    simp only [List.length_range] at this
    omega
  · have go : ∀ (l : List Nat) (n : Nat), n ≤ l.foldl (fun n b => n + Config.baseDraw b) n := by
      intro l
      induction l with
      | nil => intro n; simp
      | cons a r ih => intro n; exact Nat.le_trans (Nat.le_add_right _ _) (ih _)
    have : Config.baseDraw 0 ≤ baseOf (List.range 144) := by
      have e : List.range 144 = 0 :: (List.range 143).map (· + 1) := by decide
      unfold baseOf
      rw [e, List.foldl_cons, Nat.zero_add]
      exact go _ _
    omega

/-- Partition 0 of a READY module, as given. -/
def ending (pt : Part) : State := setPart managed 0 { pt with width := 3, height := 2 }

theorem witness_PartitionEnds : managed.security.transition = none ∧
    (∀ st ∈ [PartState.running, .loading, .faulted, .empty, .resetting],
      Accepts (ending { state := st }) rq0 (K.partPartitionReset 0) 1 ∧ (partOf (ending { state := st }) 0).state = st) ∧
    (partOf (ending { state := .running }) 0).runs = true ∧
    (let s := ending { state := .running, fault := some (7, 0) }
     (partOf s 0).fault = some (7, 0) ∧ (partOf s 0).state ≠ .faulted ∧ s.commits = []) ∧
    (let s := ending { state := .running }
     (partOf s 0).fault = none ∧ (partOf s 0).holds 0 = true ∧ partAt s 0 = some 0 ∧ pairState s ≠ 4) ∧
    (let s := ending { state := .resetting }
     wipeDue s 0 = true ∧ partIncoming s 0 = 0 ∧ (partOf s 0).state ≠ .draining) ∧
    wipeDue (ending { state := .running }) 0 = false := by
  refine ⟨rfl, fun st h => ⟨accepts_of ?_, ?_⟩, by decide +kernel, by decide +kernel, by decide +kernel, by decide +kernel,
    by decide +kernel⟩
  all_goals (revert st; decide +kernel)

/-- Partition 0 runs on the clusters of blocks 0 and 1, with or without class-0 lanes. -/
def spanning (lanes : Nat) : State :=
  odSet (setPart managed 0 { state := .running, width := 6, height := 2 }) (K.strClass0Lanes 0) lanes

theorem spanning_canonical : (spanning 0).Canonical ∧ (spanning 1).Canonical := by
  refine ⟨?_, ?_⟩ <;> constructor <;> decide +kernel

def retraining : State := setBlk (updLink (spanning 0) 2 (fun y => { y with retraining := true })) 0 { stack := .retraining }

theorem witness_RetrainsAndTakeovers : (spanning 0).Canonical ∧ (spanning 1).Canonical ∧
    (∀ n ∈ [0, 1], odGet (spanning n) K.yldStackErrorRate < odGet (spanning n) K.yldStackErrorRate + 1 ∧
      (blkOf (spanning n) 0).stack = .trained ∧ (stackUsers (spanning n) 0).any (hasClass0 (spanning n)) = decide (n = 1) ∧
      dieRetraining (spanning n) 0 = false ∧ stitched 2 = true ∧ (linkOf (spanning n) 2).failed = false ∧
      (linkOf (spanning n) 2).retraining = false ∧
      (linkOwner (spanning n) 2).toList.any (hasClass0 (spanning n)) = decide (n = 1)) ∧
    (∀ n ∈ [0, 1], Accepts (spanning n) rq0 K.yldStackRetrain 0 ∧ Accepts (spanning n) rq0 K.yldLinkRetrain 2) ∧
    ((blkOf retraining 0).stack = .retraining ∧ (blkOf retraining 0).retrainDue = false ∧
      (linkOf retraining 2).retraining = true ∧ (linkOf retraining 2).failed = false) ∧
    retraining.Canonical ∧ (∀ p, (partOf retraining p).state ≠ .loading) ∧
    ((blkOf (spanning 0) 0).timersHeld = [] ∧ stitched 0 = false) ∧
    (linkUsers (spanning 0) 2 = [0] ∧ boundSpares retraining 2 0 < 64 ∧ boundSpares retraining 2 1 < 64 ∧
      64 < boundSpares retraining 2 1 + (List.range 65).length) ∧
    (∀ n ∈ [1, 3], let s := odSet managed K.hlthMpState n
      odGet s K.devPrimaryMp = 0 ∧ preparing s = none ∧ mpIsUp s false = true ∧ mpIsUp s true = decide (n = 3)) ∧
    mpIsUp (odSet managed K.hlthMpState 2) false = false := by
  refine ⟨spanning_canonical.1, spanning_canonical.2, by decide +kernel, fun n h => ⟨accepts_of ?_, accepts_of ?_⟩, by decide +kernel,
    by constructor <;> decide +kernel, ?_, by decide +kernel, by decide +kernel, by decide +kernel, by decide +kernel⟩
  · revert n; decide +kernel
  · revert n; decide +kernel
  · exact kvGet_all (fun p : Part => p.state ≠ .loading) {} retraining.parts (by decide) (by decide +kernel)

/-! ## Hypotheses met: the recorder and security -/

/-- A READY module whose recorder is as given. -/
def recorded (r : Recorder) : State := { managed with recorder := r }

def event1 : Event := { code := 0x5300, source := .mpA }
def window1 : SuppressWindow := { code := 0x5300, location := 0xFFFF, isOpen := true, count := 0 }

theorem witness_RecorderSlots :
    ((recorded {}).recorder.accepting = true ∧ neverSuppressed event1.code = false ∧
      (recorded {}).recorder.inWindow event1.code event1.location = false ∧ (recorded {}).recorder.slots.length + 2 < logSlots ∧
      odGet (odSet (recorded {}) K.recSuppressWindow 1000) K.recSuppressWindow ≠ 0) ∧
    (recorded { windows := [window1] }).recorder.inWindow event1.code event1.location = true ∧
    (recorded { accepting := false }).recorder.accepting = false ∧
    (slotReserved { slots := [{ reserved := some true }] } 0 = some true ∧ slotReserved {} 0 = none) ∧
    (∀ f ∈ [none, some 0], (recorded { flushing := f }).recorder.flushing = f ∧
      Accepts (recorded { flushing := f }) rq0 K.recClear 1 ∧ Accepts (recorded { flushing := f }) rq0 K.recFlushNow 1 ∧
      (recorded { flushing := f }).recorder.clearing = false) := by
  refine ⟨by decide +kernel, by decide, by decide, by decide, fun f h => ⟨rfl, accepts_of ?_, accepts_of ?_, rfl⟩⟩
  all_goals (revert f; decide +kernel)

/-- A log of `n` slots. -/
def logged (n : Nat) (w : List SuppressWindow := []) : Recorder := { slots := List.replicate n {}, windows := w }

theorem witness_FullLog : (logged 1048574).accepting = true ∧ (logged 1048574).slots.length + 2 = 1048576 ∧
    1048576 ≤ (logged 1048576).slots.length ∧ (logged 1048574).inWindow event1.code event1.location = false ∧
    neverSuppressed event1.code = false ∧ (logged 1048576 [window1]).inWindow event1.code event1.location = true ∧
    neverSuppressed 0xB004 = true := by
  refine ⟨rfl, ?_, ?_, rfl, by decide, rfl, by decide⟩ <;> simp only [logged, List.length_replicate, Nat.reduceAdd, Nat.le_refl]

/-- The hypotheses of AcceptsWhole, evaluated. -/
def wholeNow (s : State) (rq : Rq) (k : Nat) (v : List Byte) : Bool :=
  executesNow s rq && (moduleReady s || firmwareObject k) && permitted s (mgmtOf s rq.session) k (.write v) &&
    (match objOf k with
     | some o => decide (v.length ≤ o.size) && domainLength o k v.length
     | none => false) && decide (k % 256 ≠ 0)

theorem whole_of {s : State} {rq : Rq} {k : Nat} {v : List Byte} (h : wholeNow s rq k v = true) : AcceptsWhole s rq k v := by
  simp only [wholeNow, Bool.and_eq_true, Bool.or_eq_true, decide_eq_true_eq] at h
  obtain ⟨⟨⟨⟨h1, h2⟩, h3⟩, h4⟩, h5⟩ := h
  refine ⟨executes_of h1, h2, h3, ?_, h5⟩
  split at h4
  next o ho =>
    simp only [Bool.and_eq_true, decide_eq_true_eq] at h4
    exact ⟨o, ho, h4.1, h4.2⟩
  · cases h4

theorem at80 (pre mid post : List Byte) (h : pre.length = 80) (hm : mid.length = 8) : slice (pre ++ (mid ++ post)) 80 8 = mid := by
  rw [slice, ← h, List.drop_left, ← hm, List.take_left]

/-- A token of Balhel for the transition from BLANK to PROVISIONED. -/
def token : List Byte :=
  padTo 80 (asciiBytes "VWLC" ++ [1, 0, 0, 0, 1]) ++ (keyIdOf Config.balhelKey ++ padTo 4627 [])

theorem token_asks (s : State) (h : lifecycle s = lcBlank) (hm : odGet s K.fabModuleId = 1)
    (hc : s.security.challenge = some (padTo 64 [])) : tokenAsks s token true = some (lcProvisioned, false) := by
  have h4 : fieldLe token 4 1 = 1 := rfl
  have h5 : fieldLe token 5 1 = 0 := rfl
  have h6 : fieldLe token 6 2 = 0 := rfl
  have h8 : fieldLe token 8 8 = 1 := rfl
  have h0 : slice token 0 4 = asciiBytes "VWLC" := rfl
  have h16 : slice token 16 64 = padTo 64 [] := rfl
  have h80 : slice token 80 8 = keyIdOf Config.balhelKey := at80 _ _ _ rfl (keyId_length _)
  simp [tokenAsks, h4, h5, h6, h8, h0, h16, h80, h, hm, hc, transitionRule, lcBlank, lcProvisioned, lcService,
    signerOk, isBalhelKey]

theorem pad_length (n : Nat) : (padTo n []).length = n := by simp [padTo]

theorem token_length : token.length = 4715 := by
  have h : (padTo 80 (asciiBytes "VWLC" ++ [1, 0, 0, 0, 1])).length = 80 := rfl
  rw [token, List.length_append, List.length_append, keyId_length, h, pad_length]

/-- A module in a life-cycle state that has issued a challenge, and is powered. -/
def challenged (n : Nat) : State :=
  { odSet managed K.secLifecycleState n with
    security := { challenge := some (padTo 64 []), slot0 := { valid := true }, slot1 := { valid := true, version := 1 } }
    plant := { powered := true } }

/-- A management session that waits for order 3. -/
def shaking (claim : Bool) : State := { managed with mgmt := [(1, { live := true, claim })] }

theorem witness_Security :
    AcceptsWhole (challenged 0) rq0 K.secAttest (padTo 64 []) ∧
    (Executes (challenged 0) rq0 ∧ permitted (challenged 0) (mgmtOf (challenged 0) 1) K.secLcChallenge (.read 0 64) = true) ∧
    (AcceptsWhole (challenged 0) rq0 K.secLcRequest token ∧ tokenAsks (challenged 0) token true = some (lcProvisioned, false) ∧
      (challenged 0).security.transition = none ∧ (challenged 0).commits = [] ∧ (challenged 0).plant.powered = true ∧
      (challenged 0).plant.powerFail = false ∧ (challenged 0).plant.resetting = false ∧ lcProvisioned ≠ lifecycle (challenged 0)) ∧
    (AcceptsWhole (challenged 0) rq0 K.secLcRequest (padTo 4715 []) ∧ tokenAsks (challenged 0) (padTo 4715 []) true = none) ∧
    (∀ n ∈ [1, 65], let g : FwImage := { version := n, balhelOk := true, cosignOk := true, bytes := [0], measurement := [] }
      AcceptsWhole (challenged 0) rq0 K.secFwImage g.bytes ∧ imageSigned (challenged 0) g = true ∧
        odGet (challenged 0) K.secFwFuseVersion ≤ g.version) ∧
    ((challenged 0).plant.resetDue = none ∧ inRecovery (challenged 0) = false ∧ Accepts (challenged 0) rq0 K.secFwActivate 1) ∧
    (Accepts (challenged 0) rq0 K.secAdvanceSecurityVersion 1 ∧ (slotAt (challenged 0) (idleSlot (challenged 0))).valid = true ∧
      odGet (challenged 0) K.secFwSecurityVersion ≤ (slotAt (challenged 0) (idleSlot (challenged 0))).version) ∧
    (let s := odSet (challenged 0) K.secFwSecurityVersion 2
     Accepts s rq0 K.secAdvanceSecurityVersion 1 ∧ (slotAt s (idleSlot s)).version < odGet s K.secFwSecurityVersion) ∧
    (served managed (.mailbox 127) = true ∧ mpUp managed = true ∧ mpUp State.reset = false ∧
      (managed.mgmt.filter (fun e => e.2.live)).length < odGet managed K.mgmtMaxSessions ∧
      odGet (odSet managed K.mgmtMaxSessions 1) K.mgmtMaxSessions ≤ (managed.mgmt.filter (fun e => e.2.live)).length) ∧
    (handshakeUsage (challenged 3) (keyIdOf Config.balhelKey) = some 0 ∧
      handshakeUsage managed (keyIdOf Config.balhelKey) = none) ∧
    (∀ claim, (mgmtOf (shaking claim) 1).live = true ∧ (mgmtOf (shaking claim) 1).isOpen = false ∧ mpUp (shaking claim) = true ∧
      (mgmtOf (shaking claim) 1).transport = .mailbox 0 ∧ (mgmtOf (shaking claim) 1).claim = claim) := by
  refine ⟨whole_of (by decide +kernel), ⟨executes_of (by decide +kernel), by decide +kernel⟩,
    ⟨?_, token_asks _ (by decide +kernel) (by decide +kernel) rfl, by decide +kernel⟩,
    ⟨whole_of (by decide +kernel), by decide +kernel⟩, fun n h => ⟨whole_of ?_, ?_⟩, ⟨by decide, by decide +kernel, accepts_of (by decide +kernel)⟩,
    ⟨accepts_of (by decide +kernel), by decide +kernel⟩, ⟨accepts_of (by decide +kernel), by decide +kernel⟩, by decide +kernel, ⟨?_, ?_⟩,
    by decide +kernel⟩
  · obtain ⟨o, ho, hl, hd⟩ := (whole_of (s := challenged 0) (rq := rq0) (k := K.secLcRequest) (v := padTo 4715 [])
      (by decide +kernel)).fits
    rw [pad_length] at hl hd
    refine ⟨executes_of (by decide +kernel), .inl (by decide +kernel), ?_, ⟨o, ho, ?_, ?_⟩, by decide⟩
    · have hl : lifecycle (challenged 0) = 0 := by decide +kernel
      have hm : mgmtOf (challenged 0) rq0.session = { live := true, isOpen := true } := by decide +kernel
      simp [permitted, hl, hm, lcDisposed, lcReturn]
      decide
    · rw [token_length]; exact hl
    · rw [token_length]; exact hd
  · revert n; decide +kernel
  · revert n; decide +kernel
  · simp [handshakeUsage, show lifecycle (challenged 3) = 3 by decide +kernel, lcReturn, isBalhelKey]
  · simp [handshakeUsage, show lifecycle managed = 2 by decide +kernel, lcReturn, isBalhelKey]

/-! ## Hypotheses met: requests, commits, host attachment and loading -/

/-- A READY module with session 1 as given. -/
def client (m : Mgmt) : State := { managed with mgmt := [(1, { m with live := true, isOpen := true })] }

def okOf (index sub : Nat) : Option Obj := (findObject index sub).toOption

def u16ro : Obj := ⟨0x1000, 5, .u16, .ro, 1, 0, 65535, 2, false⟩
def u8rw : Obj := ⟨0x1100, 4, .u8, .rw, 16, 1, 32, 1, false⟩
def u16rws : Obj := ⟨0x1100, 2, .u16, .rws, 47810, 1024, 65535, 2, false⟩
def domRws : Obj := ⟨0x8000, 1, .domain, .rws, 0, 0, 0, 3, false⟩
def domRw : Obj := ⟨0x4000, 0x22, .domain, .rw, 0, 0, 0, 4, false⟩

theorem found_of {r : Except Nat Obj} {o : Obj} (h : r.toOption = some o) : r = .ok o := by
  cases r with
  | error e => cases h
  | ok x => cases h; rfl

/-- The refusal that a search answers. -/
def refusalOf : Except Nat Obj → Option Nat
  | .error e => some e
  | .ok _ => none

theorem notFound_of {r : Except Nat Obj} {e : Nat} (h : refusalOf r = some e) : r = .error e := by
  cases r with
  | error x => cases h; rfl
  | ok x => cases h

theorem find_u16ro : findObject 0x1000 5 = .ok u16ro := found_of (by decide +kernel)
theorem find_u8rw : findObject 0x1100 4 = .ok u8rw := found_of (by decide +kernel)
theorem find_u16rws : findObject 0x1100 2 = .ok u16rws := found_of (by decide +kernel)
theorem find_domRws : findObject 0x8000 1 = .ok domRws := found_of (by decide +kernel)
theorem find_domRw : findObject 0x4000 0x22 = .ok domRw := found_of (by decide +kernel)

theorem managed_executes : Executes managed rq0 := executes_of (by decide +kernel)
theorem managed_lasts : Lasts managed rq0 := by unfold Lasts; decide +kernel

/-- Session 1 with `n` subscriptions, to objects that nothing names. -/
def subscribed (n : Nat) : State := client { subs := (List.range n).map (fun i => (i, 0)) }

def kept1 : Reply := { op := 1, status := 0, index := 0x1000, sub := 5 }

theorem witness_SwiuthRequests : Executes managed rq0 ∧ Lasts managed rq0 ∧
    (findObject 0x1000 5 = .ok u16ro ∧ permitted managed (mgmtOf managed 1) (0x1000 * 256 + 5) (.read 0 0) = true ∧
      u16ro.access ≠ .wo ∧ u16ro.access ≠ .cmd) ∧
    findObject 0x1000 0xFE = .error swNoSubindex ∧ findObject 0x0FFF 1 = .error swNoObject ∧
    (let s := client { transport := .mailbox 1 }
     Executes s rq0 ∧ permitted s (mgmtOf s 1) (0x1100 * 256 + 4) (.read 0 0) = false) ∧
    (findObject 0x1100 4 = .ok u8rw ∧ permitted managed (mgmtOf managed 1) (0x1100 * 256 + 4) (.write [5]) = true ∧
      moduleReady managed = true ∧ u8rw.access = .rw ∧ u8rw.type ≠ .domain ∧
      scalarStatus managed u8rw (0x1100 * 256 + 4) [5] = 0 ∧ ownRule managed u8rw (0x1100 * 256 + 4) 5 = true ∧
      scalarStatus managed u8rw (0x1100 * 256 + 4) [0] ≠ 0 ∧ scalarStatus managed u8rw (0x1100 * 256 + 4) [33] ≠ 0) ∧
    (let s := client { next := 1, executed := [0], kept := [(0, kept1)] }
     inWindow (mgmtOf s 1) 0 = false ∧ (mgmtOf s 1).kept.find? (fun e => e.1 == 0) = some (0, kept1)) ∧
    (let s := client { next := 1, executed := [0] }
     inWindow (mgmtOf s 1) 0 = false ∧ (mgmtOf s 1).kept.find? (fun e => e.1 == 0) = none) ∧
    (inWindow (mgmtOf managed 1) 7 = true ∧ inWindow (mgmtOf managed 1) 8 = false ∧ rq0.tagOk = true) ∧
    (findObject 0x8000 1 = .ok domRws ∧ permitted managed (mgmtOf managed 1) (0x8000 * 256 + 1) (.read 0 3) = true ∧
      3 ≤ segmentMax (mgmtOf managed 1).transport ∧ freezes (0x8000 * 256 + 1) = false ∧ (mgmtOf managed 1).frozen = []) ∧
    (findObject 0x4000 0x22 = .ok domRw ∧ permitted managed (mgmtOf managed 1) (0x4000 * 256 + 0x22) (.write [0, 0, 3, 2]) = true ∧
      domRw.access = .rw ∧ [0, 0, 3, 2].length ≤ domRw.size ∧ ownRule managed domRw (0x4000 * 256 + 0x22) 0 = true ∧
      domainLength domRw (0x4000 * 256 + 0x22) 4 = true ∧
      wholeInRange managed domRw (0x4000 * 256 + 0x22) [0, 0, 3, 2] = true ∧
      writtenSoFar (mgmtOf managed 1) (0x4000 * 256 + 0x22) = none) ∧
    (∀ n ∈ [0, 15, 16], ((mgmtOf (subscribed n) 1).subs.filter (fun e => e.1 != 0x1000 * 256 + 5)).length = n) ∧
    (let s := client { subs := [(0x1000 * 256 + 5, 0)] }
     (mgmtOf s 1).isOpen = true ∧ mpUp s = true ∧ ∃ e ∈ (mgmtOf s 1).subs, e.1 = 0x1000 * 256 + 5) ∧
    (mgmtOf managed 1).live = true ∧ (mgmtOf managed 2).live = false := by
  refine ⟨managed_executes, managed_lasts, ⟨find_u16ro, by decide +kernel⟩, notFound_of (by decide +kernel), notFound_of (by decide +kernel),
    ⟨executes_of (by decide +kernel), by decide +kernel⟩, ⟨find_u8rw, by decide +kernel⟩, by decide +kernel, by decide +kernel,
    by decide +kernel, ⟨find_domRws, by decide +kernel⟩, ⟨find_domRw, by decide +kernel⟩, by decide +kernel, ?_, by decide +kernel⟩
  exact ⟨by decide +kernel, by decide +kernel, by decide +kernel⟩

/-- An RW object whose own rule refuses a write: the heartbeat's interval while the pair is up (R330). -/
theorem witness_SwiuthRequests_rule : (okOf 0x9000 0x0C).isSome = true ∧
    ∀ o, okOf 0x9000 0x0C = some o → ownRule (odSet managed K.pairPairState 2) o K.pairHeartbeatInterval 20 = false := by
  refine ⟨by decide +kernel, fun o h => ?_⟩
  have e : okOf 0x9000 0x0C = some ((okOf 0x9000 0x0C).getD u16ro) := by decide +kernel
  rw [e] at h
  obtain rfl := Option.some.inj h
  decide +kernel

/-- Session 1 has `n` values staged for objects that nothing names, and the values given. -/
def staged (n : Nat) (l : List (Nat × List Byte) := []) : State :=
  client { staged := (List.range n).map (fun i => (i, [0])) ++ l }

theorem witness_StagedSet : Executes managed rq0 ∧ Lasts managed rq0 ∧ moduleReady managed = true ∧ setGate managed (mgmtOf managed 1) = 0 ∧
    (findObject 0x1100 2 = .ok u16rws ∧ permitted managed (mgmtOf managed 1) (0x1100 * 256 + 2) (.write [0, 8]) = true ∧
      u16rws.access = .rws ∧ u16rws.type ≠ .domain ∧ scalarStatus managed u16rws (0x1100 * 256 + 2) [0, 8] = 0) ∧
    (findObject 0x8000 1 = .ok domRws ∧ permitted managed (mgmtOf managed 1) (0x8000 * 256 + 1) (.write [0, 0, 0]) = true ∧
      domRws.access = .rws ∧ domRws.type = .domain ∧ [0, 0, 0].length ≤ domRws.size ∧
      ownRule managed domRws (0x8000 * 256 + 1) 0 = true ∧ domainLength domRws (0x8000 * 256 + 1) 3 = true ∧
      wholeInRange managed domRws (0x8000 * 256 + 1) [0, 0, 0] = true ∧
      stagedBytes (mgmtOf managed 1) (0x8000 * 256 + 1) + 3 ≤ 2 ^ 20) ∧
    (∀ n ∈ [255, 256], ((mgmtOf (staged n) 1).staged.filter (fun e => e.1 != 0x1100 * 256 + 2)).length = n ∧
      executesNow (staged n) rq0 = true) ∧ (mgmtOf managed 1).live = true := by
  refine ⟨managed_executes, managed_lasts, by decide +kernel, by decide +kernel, ⟨find_u16rws, by decide +kernel⟩,
    ⟨find_domRws, by decide +kernel⟩, by decide +kernel, by decide +kernel⟩

def commit1 (ph : CommitPhase) (values : List (Nat × List Byte) := []) : Commit := { epoch := 7, values, phase := ph }

/-- A value of the staged set, and commits under way. -/
def committing (l : List Commit) : State := { staged 0 [(K.mgmtUdpPort, [0, 8])] with commits := l }

/-- Values that prepare accepts, with and without a partition concerned, and one that it rolls back. -/
def goodValue : Nat × List Byte := (K.secFwCosignRequired, [1])
def partValue : Nat × List Byte := (K.partReplayLimit 0, [1])
def badValue : Nat × List Byte := (K.fabTorusPosition, [9, 9, 9])

theorem witness_Commits :
    (∀ l ∈ [[], [commit1 .prepare], [commit1 .switching]], Executes (committing l) rq0 ∧ setGate (committing l) (mgmtOf (committing l) 1) = 0 ∧
      (mgmtOf (committing l) 1).staged ≠ [] ∧ (committing l).commits.length < 4 ∧
      (∀ e ∈ (mgmtOf (committing l) 1).staged, e.1 ≠ K.secOperatorKeys)) ∧
    (let keys := [(K.secOperatorKeys, [0])]
     (let s := client { staged := keys, claim := true }
      Executes s rq0 ∧ (mgmtOf s 1).claim = true ∧ domGet s K.secOperatorKeys = []) ∧
     (let s := client { staged := keys, usage := 2 }
      Executes s rq0 ∧ (mgmtOf s 1).usage.testBit 1 = true) ∧
     let s := client { staged := keys }
     Executes s rq0 ∧ setGate s (mgmtOf s 1) = 0 ∧ s.commits.length < 4 ∧ (mgmtOf s 1).claim = false ∧
      (mgmtOf s 1).usage.testBit 1 = false) ∧
    (commit1 .prepare).phase = .prepare ∧
    ((commit1 .switching).phase = .switching ∧ (commit1 .switching).epoch ≠ odGet (committing []) K.cfgNextEpoch) ∧
    (mgmtOf managed 1).staged = [] ∧ 4 ≤ (committing (List.replicate 4 (commit1 .waiting))).commits.length ∧
    (∀ v ∈ [goodValue, partValue, badValue], let s := setPart (committing [commit1 .prepare [v]]) 0 { state := .running }
      preparing s = some (commit1 .prepare [v]) ∧ (s.commits.map (fun x => x.epoch)).Nodup) ∧
    (∀ v ∈ [goodValue, partValue, badValue], ∀ p,
      (partOf (setPart (committing [commit1 .prepare [v]]) 0 { state := .running }) p).heldLoad = none) ∧
    (let s := setPart managed 0 { state := .running }
     faultyValue s [goodValue] = none ∧ namedParts s [goodValue] = [] ∧ faultyValue s [partValue] = none ∧
      namedParts s [partValue] ≠ [] ∧ (faultyValue s [badValue]).isSome = true) ∧
    preparing managed = none := by
  refine ⟨fun l h => ⟨executes_of ?_, ?_⟩, ⟨⟨executes_of (by decide +kernel), by decide +kernel⟩,
    ⟨executes_of (by decide +kernel), by decide +kernel⟩, executes_of (by decide +kernel), by decide +kernel⟩, rfl, by decide +kernel, by decide +kernel, by decide +kernel, by decide +kernel, fun v _ => ?_,
    by decide +kernel, by decide +kernel⟩
  · revert l; decide +kernel
  · revert l; decide +kernel
  · exact kvGet_all (fun p : Part => p.heldLoad = none) {} [(0, { state := .running })] rfl (by decide)

/-- Port 0 as given, with sessions of it or none. -/
def attached (x : PciePort) (l : KV Session := []) : State := { managed with pcie := [(0, x)], sessions := l }

def class0Session : KV Session := [(0, { state := .active })]

theorem witness_PcieAndMailboxes : pairState managed ≠ 4 ∧
    (∀ n ∈ [0, 1, 2, 3, 4], (portOf (attached { state := n }) 0).state = n) ∧
    ((portOf (attached { asserted := true }) 0).asserted = true ∧ (portOf (attached { asserted := true }) 0).chatter = false ∧
      7 ≤ odGet managed K.devBringUpState) ∧
    ((portOf (attached { state := 2, linkDown := true }) 0).linkDown = true ∧ (portOf (attached {}) 0).linkDown = false) ∧
    (portClass0 (attached { state := 2 }) 0 = false ∧ portClass0 (attached { state := 2 } class0Session) 0 = true) ∧
    (∀ l ∈ [[], class0Session], Accepts (attached { state := 2 } l) rq0 K.pcieRetrain 0) ∧
    ((sessOf (attached { state := 2 } class0Session) 0).shadow = false ∧
      (sessOf (attached { state := 2 } class0Session) 0).mirrored = false ∧ (sessOf (attached { state := 2 } class0Session) 0).fn = 0) ∧
    (∃ e ∈ managed.mgmt, e.2.transport = .mailbox 0) ∧
    ((fnOf managed 127).busy = false ∧ (fnOf { managed with fns := [(127, { busy := true })] } 127).busy = true) := by
  refine ⟨by decide +kernel, by decide +kernel, by decide +kernel, by decide +kernel, by decide +kernel, fun l h => accepts_of ?_,
    by decide +kernel, by decide, by decide⟩
  revert l; decide +kernel

/-- A program whose one core passes the verdict hurdle, on block 0. -/
def small : LapProgram :=
  { program [encodeCommand (.hurdle 0 { hurdle := 1, checkpoint := true, verdict := true, swapMask := 0 })] with height := 2, width := 3 }

/-- A module in SERVICE whose partition 0 is to lie on block 0. -/
def loader (pt : Part := {}) : State :=
  setPart (domSet (odSet managed K.secLifecycleState 2) (K.partRectangle 0) [0, 0, 3, 2]) 0 pt

def fresh0 : State := resetObjects (executing (loader) rq0) 0

theorem fits_of {n w l : Nat} (hn : n = 0) (h : w ≤ l) : fitsWatts n w l = true := by
  unfold fitsWatts
  rw [decide_eq_true_eq]
  omega

theorem small_power (h : ∀ b, Config.baseDraw b ≤ 100) : powerOk fresh0 0 small (placingOf fresh0 0) (walksOf small) = true := by
  have hp : ∀ mine, peakTokens small (placingOf fresh0 0).ox (placingOf fresh0 0).oy mine = 0 := fun mine => rfl
  have ho : ∀ mine, otherPeaks fresh0 0 mine = 0 := fun mine => rfl
  have hb : (placingOf fresh0 0).blocks = [0] := by decide +kernel
  have hd : (placingOf fresh0 0).clusters.foldl (fun acc c => insertNat (dieOf c) acc) [] = [0] := by decide +kernel
  have hc : odGet fresh0 K.pwrBlockPowerCap = 240 := by decide +kernel
  have hm : 14400 ≤ odGet fresh0 K.gradeModulePowerLimit := by decide +kernel
  have hf : fieldsOk small (walksOf small) = true := by decide +kernel
  have h6 := baseOf_le h ((List.range 6).map (0 * 6 + ·))
  have h144 := baseOf_le h (List.range 144)
  rw [List.length_map, List.length_range] at h6
  rw [List.length_range] at h144
  have h0 := h 0
  simp only [powerOk, hp, ho, hb, hd, hc, hf, List.all_cons, List.all_nil, Bool.and_true, Bool.and_eq_true]
  exact ⟨⟨fits_of rfl (by omega), fits_of rfl (by omega)⟩, fits_of rfl (by omega)⟩

/-- The loader accepts a program: the power limits hold whatever the factory measured up to 100 W a block. -/
theorem witness_Loading_accepts (h : ∀ b, Config.baseDraw b ≤ 100) : (loadCheck fresh0 0 small).1 = 0 := by
  have h1 : (!small.signatureOk) = false ∧ lifecycle fresh0 = lcService := by decide +kernel
  have h2 : programOk fresh0 0 small (walksOf small) = true := by decide +kernel
  have h3 : rectangleOk small (placingOf fresh0 0) = true := by decide +kernel
  have h4 : overlapOk fresh0 0 (placingOf fresh0 0) = true := by decide +kernel
  have h5 : blocksOk fresh0 0 small (placingOf fresh0 0) = true := by decide +kernel
  have h6 : writeMapOk fresh0 0 small (placingOf fresh0 0) (walksOf small) = true := by decide +kernel
  have h7 : variantRefusal fresh0 small (placingOf fresh0 0) = none := by decide +kernel
  have h8 : class0Ok fresh0 0 small = true := by decide +kernel
  simp [loadCheck, h1.1, h1.2, h2, h3, h4, h5, h6, h7, h8, small_power h]

/-- A module in RETURN with a session of Balhel's, and a yield map. -/
def returned (l : List YieldEntry) : State :=
  { odSet managed K.secLifecycleState 3 with
    mgmt := [(1, { live := true, isOpen := true, balhel := true })], yield := { entries := l } }

/-- The entry of a short of block 0. -/
def short0 : YieldEntry := { type := 9, source := 2, location := 0, unit := 1 }

theorem witness_Loading :
    (∀ pt ∈ [({} : Part), { state := .running }], Accepts (loader pt) rq0 (K.partLoad 0) 1 ∧
      Accepts (loader pt) rq0 (K.partUnload 0) 0 ∧ Accepts (loader pt) rq0 (K.partUnload 0) 1) ∧
    ((partOf (loader) 0).state = .empty ∧ loadHeld (loader) 0 = false ∧ (loadCheck fresh0 0 { small with signatureOk := false }).1 ≠ 0) ∧
    (let s : State := { loader with commits := [commit1 .prepare [partValue]] }
     loadHeld s 0 = true ∧ (partOf s 0).state = .empty) ∧
    (let s := loader { state := .loading, written := true, width := 3, height := 2 }
     (partOf s 0).state = .loading ∧ (partOf s 0).wiping = false ∧ (partOf s 0).written = true ∧ blocksUp s 0 = true) ∧
    ((partOf (loader { state := .running }) 0).runs = true ∧ (partOf (loader) 0).runs = false ∧ (loader).security.transition = none) ∧
    (Accepts (returned [short0]) rq0 K.diagClearBlockEntry 0 ∧ (∃ e ∈ (returned [short0]).yield.entries, shortEntry 0 e = true)) ∧
    (Accepts (returned []) rq0 K.diagClearBlockEntry 0 ∧ ∀ e ∈ (returned []).yield.entries, shortEntry 0 e = false) := by
  refine ⟨fun pt hpt => ⟨accepts_of ?_, accepts_of ?_, accepts_of ?_⟩, by decide +kernel, by decide +kernel, by decide +kernel,
    by decide +kernel, ⟨accepts_of (by decide +kernel), by decide⟩, ⟨accepts_of (by decide +kernel), by decide⟩⟩
  all_goals (revert pt; decide +kernel)

/-! ## Hypotheses met: the machine as a whole -/

/-- One command waits. -/
def waiting1 : State := { State.reset with pending := [.busPathDown] }

theorem witness_StepTakesFront : waiting1.pending = .busPathDown :: [] ∧ State.reset.pending = [] := by decide

theorem witness_EveryCommand :
    namedUnit State.reset (.loadComplete ⟨48, {}⟩) = some (false, "partition", 48) ∧
    (namedUnit State.reset (.loadComplete ⟨47, {}⟩)).all (fun x => x.1) = true := by decide

theorem witness_LapCommandFrames : ∃ t,
    lapCommand (.fence core0 {} 15) = some (core0, waitingFor (.fence 15) {}) ∧ WellFormed.cmd (.fence 15) = true ∧
      Issues lap 0 core0 {} (.fence 15) ∧ exec (.fence core0 {} 15) lap = .next t :=
  ⟨_, rfl, rfl, issues_of lap_canonical (by decide), rfl⟩

theorem witness_StepKeepsCanonical : ∃ t, waiting1.Canonical ∧ step waiting1 = .next t :=
  ⟨_, by constructor <;> decide, rfl⟩

/-! ## Encodings, written out from R70 to R120 and R179 -/

/-- A word from the values of its fields, each with the number of its lowest bit. -/
def word (l : List (Nat × Nat)) : CmdWord := BitVec.ofNat 128 ((l.map (fun e => e.2 * 2 ^ e.1)).foldl (· + ·) 0)

theorem test_decode_nop : decodeCommand (word [(120, 0x00)]) = some .nop := by decide

theorem test_decode_desc : decodeCommand (word [(120, 0x01), (114, 62), (53, 1), (48, 30), (47, 1), (37, 9), (33, 3), (18, 7),
    (8, 100), (5, 1), (0, 2)]) =
    some (.desc { index := 62, desc := (word [(53, 1), (48, 30), (47, 1), (37, 9), (33, 3), (18, 7), (8, 100), (5, 1), (0, 2)]).setWidth 64 }) := by
  decide

theorem test_decode_hurdle : decodeCommand (word [(120, 0x02), (118, 1), (106, 4095), (105, 1), (0, 5)]) =
    some (.hurdle 1 { hurdle := 4095, checkpoint := true, verdict := false, swapMask := 5 }) := by decide

theorem test_decode_control :
    decodeCommand (word [(120, 0x03), (115, 9)]) = some (.fence 9) ∧
    decodeCommand (word [(120, 0x04), (118, 1), (0, 0x80000001)]) = some (.bankPower true 0x80000001) ∧
    decodeCommand (word [(120, 0x51), (115, 6), (103, 4095)]) = some (.dmaWait 6 4095) ∧
    decodeCommand (word [(120, 0x53)]) = some .cinval := by decide

theorem test_decode_mma : decodeCommand (word [(120, 0x10), (119, 1), (113, 1), (107, 2), (101, 3), (95, 63), (79, 5), (63, 6),
    (47, 7), (46, 1), (44, 2)]) =
    some (.mma { async := true, a := 1, w := 2, out := 3, scale := 63, m := 5, k := 6, n := 7, accumulate := true, rounding := 2 }) := by
  decide

theorem test_decode_arrMvm : decodeCommand (word [(120, 0x20), (119, 1), (113, 1), (107, 2), (101, 3), (96, 28), (90, 4), (81, 511),
    (80, 1), (64, 9), (63, 1), (57, 63), (49, 255), (47, 2), (41, 60)]) =
    some (.arrMvm { async := true, inp := 1, out := 2, scale := 3, firstArray := 28, count := 4, rowsLast := 511, group := true
                    m := 9, accumulate := true, canary := 63, fbSkip := 255, wfmt := 2, env := 60 }) := by decide

theorem test_decode_arrWrite :
    decodeCommand (word [(120, 0x21), (113, 1), (108, 31), (99, 500), (90, 11), (89, 1), (88, 1), (86, 0), (55, 77), (47, 143), (33, 63)]) =
      some (.arrWrite { async := false, src := 1, array := 31, firstRow := 500, rows := 11, verify := true, persist := true
                        repair := .phys 143 77, scale := 63 }) ∧
    decodeCommand (word [(120, 0x21), (113, 1), (88, 1), (86, 2), (55, 77), (39, 0xF001), (33, 5)]) =
      some (.arrWrite { async := false, src := 1, array := 0, firstRow := 0, rows := 0, verify := false, persist := true
                        repair := .set 0xF001 77, scale := 5 }) := by decide

theorem test_decode_attn : decodeCommand (word [(120, 0x30), (119, 1), (113, 1), (107, 2), (101, 3), (95, 4), (76, 524287), (72, 15),
    (71, 1), (70, 1), (54, 0x3F80), (34, 1048575), (22, 4095), (16, 5), (14, 0), (13, 1), (8, 31), (3, 30), (1, 2)]) =
    some (.attn 0 { async := true, q := 1, out := 2, lane := 3, work := 4, stream := 524287, group := 15, dim := true, half := true
                    scale := 0x3F80, window := 1048575, lanes := 4095, kvbuf := 5, split := true, parts := 31, part := 30, sel := 2 }) := by
  decide

theorem test_decode_vec : decodeCommand (word [(120, 0x40), (113, 1), (107, 2), (101, 3), (95, 4), (88, 0x04), (72, 65535), (56, 9),
    (40, 0x3F80), (29, 2047)]) =
    some (.vec .fma { async := false, dst := 1, a := 2, b := 3, c := 4, rows := 65535, length := 9, imm := 0x3F80, param := 2047 }) := by
  decide

theorem test_decode_dmaCopy :
    decodeCommand (word [(120, 0x50), (116, 0), (110, 1), (105, 2), (103, 0), (95, 143), (64, 2147483647)]) =
      some (.dmaLoad { async := false, loc := 1, tentative := false, counter := 2, remote := .phys 143 2147483647 }) ∧
    decodeCommand (word [(120, 0x50), (119, 1), (116, 1), (110, 1), (109, 1), (105, 2), (103, 1), (91, 4095), (49, 2 ^ 42 - 1)]) =
      some (.dmaStore { async := true, loc := 1, tentative := true, counter := 2, remote := .session 4095 (BitVec.ofNat 42 (2 ^ 42 - 1)) }) ∧
    decodeCommand (word [(120, 0x50), (116, 0), (110, 1), (103, 2), (87, 0xFFFF), (56, 3)]) =
      some (.dmaLoad { async := false, loc := 1, tentative := false, counter := 0, remote := .set 0xFFFF 3 }) ∧
    decodeCommand (word [(120, 0x50), (116, 2), (110, 1), (105, 15), (93, 863), (89, 15), (83, 62)]) =
      some (.dmaCore { async := false, loc := 1, counter := 15, cluster := 863, core := 15, desc := 62 }) ∧
    decodeCommand (word [(120, 0x50), (116, 3), (110, 1), (95, 255), (64, 8)]) =
      some (.dmaEdgeIn { async := false, loc := 1, counter := 0, channel := 255, granule := 8 }) ∧
    decodeCommand (word [(120, 0x50), (116, 4), (110, 1), (95, 1), (64, 9)]) =
      some (.dmaEdgeOut { async := false, loc := 1, counter := 0, channel := 1, granule := 9 }) := by decide

theorem test_decode_gather :
    decodeCommand (word [(120, 0x52), (113, 1), (107, 2), (105, 0), (97, 7), (66, 8), (44, 16), (28, 3), (24, 4)]) =
      some (.gather { async := false, idx := 1, dst := 2, table := .phys 7 8, rowBytes := 16, count := 3, counter := 4 }) ∧
    decodeCommand (word [(120, 0x52), (113, 1), (107, 2), (105, 2), (89, 15), (58, 8), (44, 8192), (28, 3), (24, 4)]) =
      some (.gather { async := false, idx := 1, dst := 2, table := .set 15 8, rowBytes := 8192, count := 3, counter := 4 }) := by
  decide

/-- Reserved opcodes, and a word of each kind with a reserved bit or a reserved code (R69, R70). -/
theorem test_decode_refuses : ∀ l ∈ [[(120, 0x05)], [(120, 0x22)], [(120, 0xFF)], [(0, 1)], [(120, 0x01), (64, 1)],
    [(120, 0x02), (118, 3)], [(120, 0x02), (64, 1)], [(120, 0x03), (119, 1)], [(120, 0x04), (32, 1)], [(120, 0x10), (79, 1), (63, 1), (47, 1), (0, 1)],
    [(120, 0x50), (116, 5), (110, 1)], [(120, 0x50), (116, 0), (103, 3)], [(120, 0x40), (88, 0x08), (72, 1), (56, 1)],
    [(120, 0x51), (0, 1)], [(120, 0x53), (119, 1)]], decodeCommand (word l) = none := by decide

theorem witness_DecodeEncode : WellFormed.cmd (.dmaWait 15 4095) = true ∧ decodeCommand (word [(120, 0x53)]) = some .cinval := by decide

/-! ## Terms that the checks of R69 refuse, one for each check -/

theorem test_wellFormed_control :
    (∀ c ∈ [CoreCmd.nop, .desc { index := 62, desc := 0 }, .hurdle 0 verdictArgs, .fence 15, .dmaWait 15 4095, .cinval],
      WellFormed.cmd c = true) ∧
    (∀ c ∈ [CoreCmd.desc { index := 63, desc := 0 }, .hurdle 3 hurdleArgs, .hurdle 1 verdictArgs,
        .hurdle 0 { verdictArgs with checkpoint := false }], WellFormed.cmd c = false) ∧
    -- stripe 6; base no multiple of the stripe; area beyond the bank; format 12; second half; reserved bit
    (∀ d ∈ [[(5, 6)], [(5, 1), (0, 1)], [(18, 1), (8, 1023)], [(33, 12)], [(47, 1), (5, 1), (48, 1)], [(54, 1)]],
      WellFormed.descOk ((word d).setWidth 64) = false) := by decide

theorem test_wellFormed_matrix : WellFormed.cmd (.mma mmaArgs) = true ∧
    ∀ a ∈ [{ mmaArgs with a := 63 }, { mmaArgs with w := 63 }, { mmaArgs with out := 63 }, { mmaArgs with m := 0 },
      { mmaArgs with k := 0 }, { mmaArgs with n := 0 }, { mmaArgs with rounding := 3 }], WellFormed.cmd (.mma a) = false := by decide

theorem test_wellFormed_arrays : WellFormed.cmd (.arrMvm mvmArgs) = true ∧ WellFormed.cmd (.arrWrite arrWriteArgs) = true ∧
    (∀ a ∈ [{ mvmArgs with inp := 63 }, { mvmArgs with out := 63 }, { mvmArgs with scale := 63 }, { mvmArgs with count := 0 },
      { mvmArgs with firstArray := 31, count := 2 }, { mvmArgs with m := 0 }, { mvmArgs with fbSkip := 0 }, { mvmArgs with wfmt := 3 }],
      WellFormed.cmd (.arrMvm a) = false) ∧
    ∀ a ∈ [{ arrWriteArgs with src := 63 }, { arrWriteArgs with rows := 1 }, { arrWriteArgs with repair := .phys 144 0 }],
      WellFormed.cmd (.arrWrite a) = false := by decide

theorem test_wellFormed_attention : WellFormed.cmd (.attn 0 attnArgs) = true ∧ WellFormed.cmd (.attn 1 attnArgs) = true ∧
    (∀ a ∈ [{ attnArgs with q := 63 }, { attnArgs with out := 63 }, { attnArgs with lane := 63 }, { attnArgs with kvbuf := 63 },
      { attnArgs with sel := 3 }, { attnArgs with split := true, part := 1 }, { attnArgs with half := true }, { attnArgs with parts := 1 }],
      WellFormed.cmd (.attn 0 a) = false) ∧
    WellFormed.cmd (.attn 3 attnArgs) = false ∧ WellFormed.cmd (.attn 1 { attnArgs with split := true }) = false ∧
    WellFormed.cmd (.attn 1 { attnArgs with sel := 0 }) = false ∧ WellFormed.cmd (.attn 2 { attnArgs with stream := 1 }) = false := by decide

/-- Operands of VEC: destination, three sources and the parameter. -/
def vecOf (a b c : BitVec 6) (param : BitVec 11 := 0) : VecArgs := { vecArgs with a, b, c, param }

theorem test_wellFormed_vector :
    (WellFormed.cmd (.vec .copy (vecOf 0 63 63)) = true ∧ WellFormed.cmd (.vec .add (vecOf 0 1 63)) = true ∧
      WellFormed.cmd (.vec .fma (vecOf 0 1 2)) = true ∧ WellFormed.cmd (.vec .check (vecOf 63 63 63 (31 * 64))) = true ∧
      WellFormed.cmd (.vec .topk (vecOf 0 63 63 1)) = true ∧ WellFormed.cmd (.vec .quant (vecOf 0 63 2 63)) = true) ∧
    (∀ a ∈ [{ vecOf 0 63 63 with dst := 63 }, { vecOf 0 63 63 with rows := 0 }, { vecOf 0 63 63 with length := 0 }, vecOf 63 63 63,
      vecOf 0 1 63], WellFormed.cmd (.vec .copy a) = false) ∧
    (WellFormed.cmd (.vec .add (vecOf 0 63 63)) = false ∧ WellFormed.cmd (.vec .fma (vecOf 0 1 63)) = false ∧
      WellFormed.cmd (.vec .check (vecOf 0 63 63 (31 * 64))) = false ∧ WellFormed.cmd (.vec .check (vecOf 63 63 63)) = false ∧
      WellFormed.cmd (.vec .quant (vecOf 0 63 2 64)) = false ∧ WellFormed.cmd (.vec .topk (vecOf 0 63 63 0)) = false ∧
      WellFormed.cmd (.vec .topk (vecOf 0 63 63 2)) = false) := by decide

theorem test_wellFormed_dma :
    (WellFormed.cmd (.dmaStore { stackArgs (.session 1 2) with tentative := true }) = true ∧ WellFormed.cmd (.dmaCore coreArgs) = true ∧
      WellFormed.cmd (.gather (gatherArgs (.phys 143 0))) = true) ∧
    (∀ a ∈ [{ stackArgs (.phys 0 0) with loc := 63 }, stackArgs (.phys 144 0), { stackArgs (.phys 0 0) with tentative := true }],
      WellFormed.cmd (.dmaLoad a) = false ∧ WellFormed.cmd (.dmaStore a) = false) ∧
    WellFormed.cmd (.dmaStore { stackArgs (.set 0 0) with tentative := true }) = false ∧
    (∀ a ∈ [{ coreArgs with loc := 63 }, { coreArgs with desc := 63 }, { coreArgs with cluster := 864 }], WellFormed.cmd (.dmaCore a) = false) ∧
    WellFormed.cmd (.dmaEdgeIn { edgeArgs 0 with loc := 63 }) = false ∧ WellFormed.cmd (.dmaEdgeOut { edgeArgs 0 with loc := 63 }) = false ∧
    ∀ a ∈ [{ gatherArgs (.phys 0 0) with idx := 63 }, { gatherArgs (.phys 0 0) with dst := 63 }, gatherArgs (.phys 144 0),
      { gatherArgs (.phys 0 0) with count := 0 }, { gatherArgs (.phys 0 0) with rowBytes := 0 }, { gatherArgs (.phys 0 0) with rowBytes := 24 },
      { gatherArgs (.phys 0 0) with rowBytes := 8208 }], WellFormed.cmd (.gather a) = false := by decide

/-! ## Single steps whose results the manual's words give -/

/-- The state after a command that completes. -/
def after (r : Result) : State :=
  match r with
  | .next t => t
  | _ => State.reset

/-- An area of one granule at granule `g` of bank 0, in a format (R71, R74). -/
def area (fmt g : Nat) : W64 := (word [(33, fmt), (8, g)]).setWidth 64

/-- Core 0 has areas 0 to 2 in a format, and FP32 area 3; the bytes given lie in areas 0 and 1. -/
def withAreas (fmt : Nat) (a b : List Byte) : State :=
  { lap with
    cores := [(0, { descs := [(0, area fmt 0), (1, area fmt 1), (2, area fmt 2), (3, area 0xA 3)] })]
    scratch := memWriteN (memWriteN [] 0 a) 64 b }

/-- 1.0 + 2.0 is 3.0 in FP32 (R74, R83). -/
theorem test_add : let t := after (exec (.add core0 {} { vecArgs with dst := 3, c := 63 })
      (withAreas 0xA (natLe 0x3F800000 4) (natLe 0x40000000 4)))
    leNat ((List.range 4).map (fun i => memRead t.scratch (192 + i))) = 0x40400000 ∧ (coreOf t 0).pos = 1 ∧ (coreOf t 0).qVector = 1 := by
  decide +kernel

/-- 3.0 less 1.0 is 2.0: the first source is the one subtracted from. -/
theorem test_sub : let t := after (exec (.sub core0 {} { vecArgs with dst := 3, c := 63 })
      (withAreas 0xA (natLe 0x40400000 4) (natLe 0x3F800000 4)))
    leNat ((List.range 4).map (fun i => memRead t.scratch (192 + i))) = 0x40000000 := by decide +kernel

/-- NOP moves the position on and does nothing else (R76). -/
theorem test_nop : (after (exec (.nop core0 {}) lap)).cores = [(0, { pos := 1 })] := by decide +kernel

/-- The check value of CRC-32, and the CRC-8 of a frame's code byte (R314, R428). -/
theorem test_crc : crc32 (asciiBytes "123456789") = 0xCBF43926 ∧ crc8 [1] = 0x07 ∧ crc8 [0x80] = 0x89 := by decide +kernel

/-- The digest of "abc" published with the standard for SHA3-512: its first eight bytes. -/
theorem test_sha3 : (sha3 (asciiBytes "abc")).take 8 = [0xb7, 0x51, 0x85, 0x0b, 0x1a, 0x57, 0x16, 0x8a] := by decide +kernel

/-- A doorbell moves the tail; one that would go back disables the ring (R239). -/
theorem test_doorbell : (subOf (after (exec (.submissionDoorbell 0 0 { value := 63 }) belled)) 0).tail = 63 ∧
    (subOf (after (exec (.submissionDoorbell 0 0 { value := 2 }) belled)) 0).enable = false ∧
    (fnOf (after (exec (.submissionDoorbell 0 0 { value := 2 }) belled)) 0).ringErrors = 1 := by decide +kernel

/-- A barrier with nothing before it completes with SUCCESS, its tag and no session (R245, R248). -/
theorem test_barrier : ((compOf (after (exec (.barrier 0) (fetched (entry 0x30)))) 0).ready.map
    (fun c => (c.tag, c.opcode, c.status, c.session))) = [(9, 0x30, 0, 0xFFFF)] := by decide +kernel

/-- A mailbox takes 16,384 bytes and not one more (R460). -/
theorem test_mailbox : (fnOf (after (exec (.mailboxRequest 5 16384) managed)) 5).busy = true ∧
    (fnOf (after (exec (.mailboxRequest 5 16385) managed)) 5).busy = false := by decide +kernel

/-- One step of the set-point is 2.5 mV (R335). -/
theorem test_setPoint : (blkOf (after (exec (.setPointStep 0 0) (block { setPoint := 6000 }))) 0).setPoint = 6025 := by decide +kernel

/-- A record's bytes: sequence number, code, source and location (R428). -/
theorem test_record : (((after (exec (.eventRecord .hardware { event1 with location := 7 }) managed)).recorder.slots.map
    (fun x => x.bytes)).flatMap (fun b => b.take 14)) = natLe 0 8 ++ [0x00, 0x53, 1, 0, 7, 0] := by decide +kernel

/-- A unit that the module does not have is no event (R9). -/
theorem test_noUnit : exec (.loadComplete ⟨48, {}⟩) managed = .fault (.noSuchUnit "partition" 48) := rfl

end Sys2Proof.Tests
end

section
/-! Every command of the table, whatever the state: what it answers, which parts of the state it leaves as they were,
and that it keeps every map in its canonical form. -/

namespace Sys2Proof.Machine

/-! ## What every command leaves as it was -/

/-- The set of parts whose bits `Keeps` speaks of, of a list of parts. -/
def fieldBits (fs : List Field) : Nat := fs.foldr (fun f n => 1 <<< f.bit ||| n) 0

theorem Field.bit_injective {f g : Field} (h : f.bit = g.bit) : f = g := by
  cases f <;> cases g <;> cases h <;> rfl

theorem testBit_fieldBits {fs : List Field} {f : Field} (h : (fieldBits fs).testBit f.bit = true) : f ∈ fs := by
  induction fs with
  | nil => simp [fieldBits] at h
  | cons g gs ih =>
    change (1 <<< g.bit ||| fieldBits gs).testBit f.bit = true at h
    rw [Nat.testBit_or, Bool.or_eq_true, Nat.one_shiftLeft, Nat.testBit_two_pow] at h
    rcases h with h | h
    · exact Field.bit_injective (of_decide_eq_true h) ▸ List.mem_cons_self
    · exact List.mem_cons_of_mem g (ih h)

theorem Keeps.onlyChanges {fs : List Field} {s t : State} (h : Keeps (fieldBits fs) s t) : onlyChanges fs s t :=
  fun f hf => h.same f (Bool.eq_false_iff.2 fun hb => hf (testBit_fieldBits hb))

/-- Every command changes only its own parts of the state, and keeps the canonical form: the lemma of each
command, in the bits of the parts that Frames.lean lists for it. -/
theorem exec_keeps {i : Instr} {s t : State} (h : exec i s = .next t) : Keeps (fieldBits (mayChange i)) s t := by
  cases i with simp only [mayChange]
  | nop => exact (execNop_keeps h).mono rfl
  | desc => exact (execDesc_keeps h).mono rfl
  | hurdleArriveWait => exact (execHurdleArriveWait_keeps h).mono rfl
  | hurdleArrive => exact (execHurdleArrive_keeps h).mono rfl
  | hurdleWait => exact (execHurdleWait_keeps h).mono rfl
  | fence => exact (execFence_keeps h).mono rfl
  | bankPowerOff => exact (execBankPowerOff_keeps h).mono rfl
  | bankPowerOn => exact (execBankPowerOn_keeps h).mono rfl
  | mma => exact (execMma_keeps h).mono rfl
  | arrMvm => exact (execArrMvm_keeps h).mono rfl
  | arrWrite => exact (execArrWrite_keeps h).mono rfl
  | attnFull => exact (execAttnFull_keeps h).mono rfl
  | attnPartial => exact (execAttnPartial_keeps h).mono rfl
  | attnMerge => exact (execAttnMerge_keeps h).mono rfl
  | copy => exact (execCopy_keeps h).mono rfl
  | add => exact (execAdd_keeps h).mono rfl
  | sub => exact (execSub_keeps h).mono rfl
  | mul => exact (execMul_keeps h).mono rfl
  | fma => exact (execFma_keeps h).mono rfl
  | max => exact (execMax_keeps h).mono rfl
  | min => exact (execMin_keeps h).mono rfl
  | scale => exact (execScale_keeps h).mono rfl
  | exp => exact (execExp_keeps h).mono rfl
  | recip => exact (execRecip_keeps h).mono rfl
  | rsqrt => exact (execRsqrt_keeps h).mono rfl
  | silu => exact (execSilu_keeps h).mono rfl
  | gelu => exact (execGelu_keeps h).mono rfl
  | sigmoid => exact (execSigmoid_keeps h).mono rfl
  | tanh => exact (execTanh_keeps h).mono rfl
  | sum => exact (execSum_keeps h).mono rfl
  | maxr => exact (execMaxr_keeps h).mono rfl
  | sumsq => exact (execSumsq_keeps h).mono rfl
  | rmsnorm => exact (execRmsnorm_keeps h).mono rfl
  | layernorm => exact (execLayernorm_keeps h).mono rfl
  | softmax => exact (execSoftmax_keeps h).mono rfl
  | rope => exact (execRope_keeps h).mono rfl
  | quant => exact (execQuant_keeps h).mono rfl
  | dequant => exact (execDequant_keeps h).mono rfl
  | topk => exact (execTopk_keeps h).mono rfl
  | outlier => exact (execOutlier_keeps h).mono rfl
  | check => exact (execCheck_keeps h).mono rfl
  | guardCheck => exact (execGuardCheck_keeps h).mono rfl
  | dmaCopyStackToScratch => exact (execDmaCopyStackToScratch_keeps h).mono rfl
  | dmaCopyScratchToStack => exact (execDmaCopyScratchToStack_keeps h).mono rfl
  | dmaCopyScratchToCore => exact (execDmaCopyScratchToCore_keeps h).mono rfl
  | dmaCopyEdgeToScratch => exact (execDmaCopyEdgeToScratch_keeps h).mono rfl
  | dmaCopyScratchToEdge => exact (execDmaCopyScratchToEdge_keeps h).mono rfl
  | dmaWait => exact (execDmaWait_keeps h).mono rfl
  | cgather => exact (execCgather_keeps h).mono rfl
  | cinval => exact (execCinval_keeps h).mono rfl
  | engineCommandComplete => exact (execEngineCommandComplete_keeps h).mono rfl
  | dmaTransferComplete => exact (execDmaTransferComplete_keeps h).mono rfl
  | bankPowerUpComplete => exact (execBankPowerUpComplete_keeps h).mono rfl
  | bankSwitchOff => exact (execBankSwitchOff_keeps h).mono rfl
  | lateWrite => exact (execLateWrite_keeps h).mono rfl
  | cacheFill => exact (execCacheFill_keeps h).mono rfl
  | hurdleClear => exact (execHurdleClear_keeps h).mono rfl
  | hurdleTimeout => exact (execHurdleTimeout_keeps h).mono rfl
  | baton => exact (execBaton_keeps h).mono rfl
  | tokenRecordRelease => exact (execTokenRecordRelease_keeps h).mono rfl
  | completionPost => exact (execCompletionPost_keeps h).mono rfl
  | sampling => exact (execSampling_keeps h).mono rfl
  | rangeMonitorWindowEnd => exact (execRangeMonitorWindowEnd_keeps h).mono rfl
  | fullScaleWindowEnd => exact (execFullScaleWindowEnd_keeps h).mono rfl
  | calIntervalExpiry => exact (execCalIntervalExpiry_keeps h).mono rfl
  | calibrateAll => exact (execCalibrateAll_keeps h).mono rfl
  | calibrationComplete => exact (execCalibrationComplete_keeps h).mono rfl
  | rewriteComplete => exact (execRewriteComplete_keeps h).mono rfl
  | precisionClear => exact (execPrecisionClear_keeps h).mono rfl
  | lapStatisticsClear => exact (execLapStatisticsClear_keeps h).mono rfl
  | ringContextWrite => exact (execRingContextWrite_keeps h).mono rfl
  | ringEnable => exact (execRingEnable_keeps h).mono rfl
  | ringDisable => exact (execRingDisable_keeps h).mono rfl
  | submissionDoorbell => exact (execSubmissionDoorbell_keeps h).mono rfl
  | completionDoorbell => exact (execCompletionDoorbell_keeps h).mono rfl
  | tokenRingDoorbell => exact (execTokenRingDoorbell_keeps h).mono rfl
  | bitmapDoorbell => exact (execBitmapDoorbell_keeps h).mono rfl
  | submissionEntryFetch => exact (execSubmissionEntryFetch_keeps h).mono rfl
  | sessionOpen => exact (execSessionOpen_keeps h).mono rfl
  | promptAppend => exact (execPromptAppend_keeps h).mono rfl
  | generate => exact (execGenerate_keeps h).mono rfl
  | fork => exact (execFork_keeps h).mono rfl
  | cancel => exact (execCancel_keeps h).mono rfl
  | close => exact (execClose_keeps h).mono rfl
  | kvEvict => exact (execKvEvict_keeps h).mono rfl
  | kvRestore => exact (execKvRestore_keeps h).mono rfl
  | weightStage => exact (execWeightStage_keeps h).mono rfl
  | weightFlip => exact (execWeightFlip_keeps h).mono rfl
  | barrier => exact (execBarrier_keeps h).mono rfl
  | abortWave => exact (execAbortWave_keeps h).mono rfl
  | abortWaveAcknowledged => exact (execAbortWaveAcknowledged_keeps h).mono rfl
  | endSession => exact (execEndSession_keeps h).mono rfl
  | bitmapSlotRead => exact (execBitmapSlotRead_keeps h).mono rfl
  | kvEvictTransferComplete => exact (execKvEvictTransferComplete_keeps h).mono rfl
  | kvRestoreTransferComplete => exact (execKvRestoreTransferComplete_keeps h).mono rfl
  | stageHeaderRead => exact (execStageHeaderRead_keeps h).mono rfl
  | signatureVerified => exact (execSignatureVerified_keeps h).mono rfl
  | weightChunkRead => exact (execWeightChunkRead_keeps h).mono rfl
  | relayHeader => exact (execRelayHeader_keeps h).mono rfl
  | relayChunk => exact (execRelayChunk_keeps h).mono rfl
  | relayTimeout => exact (execRelayTimeout_keeps h).mono rfl
  | flipPrepareComplete => exact (execFlipPrepareComplete_keeps h).mono rfl
  | flipGapComplete => exact (execFlipGapComplete_keeps h).mono rfl
  | weightUnload => exact (execWeightUnload_keeps h).mono rfl
  | releaseHost => exact (execReleaseHost_keeps h).mono rfl
  | setWipeComplete => exact (execSetWipeComplete_keeps h).mono rfl
  | pieceRefetchComplete => exact (execPieceRefetchComplete_keeps h).mono rfl
  | linkFailure => exact (execLinkFailure_keeps h).mono rfl
  | routerFailure => exact (execRouterFailure_keeps h).mono rfl
  | portRetrain => exact (execPortRetrain_keeps h).mono rfl
  | trainingComplete => exact (execTrainingComplete_keeps h).mono rfl
  | trainingAttemptTimeout => exact (execTrainingAttemptTimeout_keeps h).mono rfl
  | laneFailure => exact (execLaneFailure_keeps h).mono rfl
  | neighbourDark => exact (execNeighbourDark_keeps h).mono rfl
  | jobSynchronizationMessage => exact (execJobSynchronizationMessage_keeps h).mono rfl
  | jobFaultMessage => exact (execJobFaultMessage_keeps h).mono rfl
  | alignmentMessage => exact (execAlignmentMessage_keeps h).mono rfl
  | fabricWriteArrival => exact (execFabricWriteArrival_keeps h).mono rfl
  | rackMark => exact (execRackMark_keeps h).mono rfl
  | marker => exact (execMarker_keeps h).mono rfl
  | heartbeat _ n k => exact (execHeartbeat_keeps (y2 := n) (y3 := k) h).mono rfl
  | heartbeatSend => exact (execHeartbeatSend_keeps h).mono rfl
  | mirrorAck => exact (execMirrorAck_keeps h).mono rfl
  | shadowAck => exact (execShadowAck_keeps h).mono rfl
  | abortFrame => exact (execAbortFrame_keeps h).mono rfl
  | abortDone => exact (execAbortDone_keeps h).mono rfl
  | handover => exact (execHandover_keeps h).mono rfl
  | flipFrame => exact (execFlipFrame_keeps h).mono rfl
  | attachFrame => exact (execAttachFrame_keeps h).mono rfl
  | detachFrame => exact (execDetachFrame_keeps h).mono rfl
  | reservedFrameCode _ code => exact (execReservedFrameCode_keeps (y2 := code) h).mono rfl
  | busPathDown => exact (execBusPathDown_keeps h).mono rfl
  | mirrorEntry => exact (execMirrorEntry_keeps h).mono rfl
  | mirrorVerdict => exact (execMirrorVerdict_keeps h).mono rfl
  | shadowMessage => exact (execShadowMessage_keeps h).mono rfl
  | mirrorAckTimeout => exact (execMirrorAckTimeout_keeps h).mono rfl
  | fnInput => exact (execFnInput_keeps h).mono rfl
  | fnStuck => exact (execFnStuck_keeps h).mono rfl
  | prChange => exact (execPrChange_keeps h).mono rfl
  | heartbeatTimeout => exact (execHeartbeatTimeout_keeps h).mono rfl
  | takeoverWaitExpiry => exact (execTakeoverWaitExpiry_keeps h).mono rfl
  | attach => exact (execAttach_keeps h).mono rfl
  | detach => exact (execDetach_keeps h).mono rfl
  | drain => exact (execDrain_keeps h).mono rfl
  | setPointStep => exact (execSetPointStep_keeps h).mono rfl
  | converterFailure => exact (execConverterFailure_keeps h).mono rfl
  | phaseFailure => exact (execPhaseFailure_keeps h).mono rfl
  | targetStep => exact (execTargetStep_keeps h).mono rfl
  | shortDeclared => exact (execShortDeclared_keeps h).mono rfl
  | blockDrainComplete => exact (execBlockDrainComplete_keeps h).mono rfl
  | connectorCheck => exact (execConnectorCheck_keeps h).mono rfl
  | currentReport => exact (execCurrentReport_keeps h).mono rfl
  | creditRefill => exact (execCreditRefill_keeps h).mono rfl
  | governorStep => exact (execGovernorStep_keeps h).mono rfl
  | governorRaise => exact (execGovernorRaise_keeps h).mono rfl
  | idleOff => exact (execIdleOff_keeps h).mono rfl
  | wakeComplete => exact (execWakeComplete_keeps h).mono rfl
  | powerFail cause => exact (execPowerFail_keeps (y1 := cause) h).mono rfl
  | resetRelease => exact (execResetRelease_keeps h).mono rfl
  | sensorRead => exact (execSensorRead_keeps h).mono rfl
  | sensorSuspect => exact (execSensorSuspect_keeps h).mono rfl
  | levelRise => exact (execLevelRise_keeps h).mono rfl
  | levelFall => exact (execLevelFall_keeps h).mono rfl
  | heatOff => exact (execHeatOff_keeps h).mono rfl
  | heatReturn => exact (execHeatReturn_keeps h).mono rfl
  | hardwareTrip => exact (execHardwareTrip_keeps h).mono rfl
  | coolantCheck => exact (execCoolantCheck_keeps h).mono rfl
  | coolantStateFall => exact (execCoolantStateFall_keeps h).mono rfl
  | meshLock => exact (execMeshLock_keeps h).mono rfl
  | lockTimeout => exact (execLockTimeout_keeps h).mono rfl
  | meshBringUpTimeout => exact (execMeshBringUpTimeout_keeps h).mono rfl
  | referenceAbsent => exact (execReferenceAbsent_keeps h).mono rfl
  | referenceRestored => exact (execReferenceRestored_keeps h).mono rfl
  | slewComplete => exact (execSlewComplete_keeps h).mono rfl
  | oscillatorUnlock => exact (execOscillatorUnlock_keeps h).mono rfl
  | moduleReset => exact (execModuleReset_keeps h).mono rfl
  | mrstNInput => exact (execMrstNInput_keeps h).mono rfl
  | mrstNStuck => exact (execMrstNStuck_keeps h).mono rfl
  | watchdog => exact (execWatchdog_keeps h).mono rfl
  | resetWipeComplete => exact (execResetWipeComplete_keeps h).mono rfl
  | partitionReset => exact (execPartitionReset_keeps h).mono rfl
  | partitionFault => exact (execPartitionFault_keeps h).mono rfl
  | partitionWipeComplete => exact (execPartitionWipeComplete_keeps h).mono rfl
  | stackErrorRate => exact (execStackErrorRate_keeps h).mono rfl
  | stackRetrain => exact (execStackRetrain_keeps h).mono rfl
  | stackRetrainComplete => exact (execStackRetrainComplete_keeps h).mono rfl
  | linkRetryRate => exact (execLinkRetryRate_keeps h).mono rfl
  | linkRetrain => exact (execLinkRetrain_keeps h).mono rfl
  | linkRetrainComplete => exact (execLinkRetrainComplete_keeps h).mono rfl
  | mpHeartbeatTimeout => exact (execMpHeartbeatTimeout_keeps h).mono rfl
  | mpSelfCheckFail => exact (execMpSelfCheckFail_keeps h).mono rfl
  | ilkCoolNInput => exact (execIlkCoolNInput_keeps h).mono rfl
  | ilkStopNInput => exact (execIlkStopNInput_keeps h).mono rfl
  | interlockRelease => exact (execInterlockRelease_keeps h).mono rfl
  | ilkCoolNStuck => exact (execIlkCoolNStuck_keeps h).mono rfl
  | chatterClear => exact (execChatterClear_keeps h).mono rfl
  | eventRecord => exact (execEventRecord_keeps h).mono rfl
  | gapTimeout => exact (execGapTimeout_keeps h).mono rfl
  | recorderClear => exact (execRecorderClear_keeps h).mono rfl
  | flushNow => exact (execFlushNow_keeps h).mono rfl
  | flushComplete => exact (execFlushComplete_keeps h).mono rfl
  | suppressWindowEnd => exact (execSuppressWindowEnd_keeps h).mono rfl
  | attest => exact (execAttest_keeps h).mono rfl
  | lcChallenge => exact (execLcChallenge_keeps h).mono rfl
  | lcRequest => exact (execLcRequest_keeps h).mono rfl
  | fwImage => exact (execFwImage_keeps h).mono rfl
  | fwActivate => exact (execFwActivate_keeps h).mono rfl
  | advanceSecurityVersion => exact (execAdvanceSecurityVersion_keeps h).mono rfl
  | handshakeOrder1 _ id => exact (execHandshakeOrder1_keeps (y2 := id) h).mono rfl
  | handshakeOrder3 => exact (execHandshakeOrder3_keeps h).mono rfl
  | handshakeTimeout => exact (execHandshakeTimeout_keeps h).mono rfl
  | read => exact (execRead_keeps h).mono rfl
  | write => exact (execWrite_keeps h).mono rfl
  | stage => exact (execStage_keeps h).mono rfl
  | commit => exact (execCommit_keeps h).mono rfl
  | prepareComplete => exact (execPrepareComplete_keeps h).mono rfl
  | prepareTimeout => exact (execPrepareTimeout_keeps h).mono rfl
  | abort => exact (execAbort_keeps h).mono rfl
  | segmentRead => exact (execSegmentRead_keeps h).mono rfl
  | segmentWrite => exact (execSegmentWrite_keeps h).mono rfl
  | segmentAbandon => exact (execSegmentAbandon_keeps h).mono rfl
  | subscribe => exact (execSubscribe_keeps h).mono rfl
  | notify => exact (execNotify_keeps h).mono rfl
  | swiuthClose => exact (execSwiuthClose_keeps h).mono rfl
  | idleTimeout => exact (execIdleTimeout_keeps h).mono rfl
  | mailboxRequest => exact (execMailboxRequest_keeps h).mono rfl
  | rspAck => exact (execRspAck_keeps h).mono rfl
  | perstInput => exact (execPerstInput_keeps h).mono rfl
  | linkDownTimeout => exact (execLinkDownTimeout_keeps h).mono rfl
  | flr => exact (execFlr_keeps h).mono rfl
  | pcieLinkUp => exact (execPcieLinkUp_keeps h).mono rfl
  | correctableThreshold => exact (execCorrectableThreshold_keeps h).mono rfl
  | pcieRetrain => exact (execPcieRetrain_keeps h).mono rfl
  | pcieRetrainComplete => exact (execPcieRetrainComplete_keeps h).mono rfl
  | load => exact (execLoad_keeps h).mono rfl
  | loadComplete => exact (execLoadComplete_keeps h).mono rfl
  | unloadDrain => exact (execUnloadDrain_keeps h).mono rfl
  | unloadNow => exact (execUnloadNow_keeps h).mono rfl
  | clearBlockEntry => exact (execClearBlockEntry_keeps h).mono rfl
  | coalesceTimeout => exact (execCoalesceTimeout_keeps h).mono rfl
  | dataLinkDown => exact (execDataLinkDown_keeps h).mono rfl
  | perstDeassertion => exact (execPerstDeassertion_keeps h).mono rfl
  | streamedCommandArrival => exact (execStreamedCommandArrival_keeps h).mono rfl
  | hostReadComplete => exact (execHostReadComplete_keeps h).mono rfl
  | managementSessionExpiry => exact (execManagementSessionExpiry_keeps h).mono rfl
  | reportFreezeExpiry => exact (execReportFreezeExpiry_keeps h).mono rfl
  | configurationRequest => exact (execConfigurationRequest_keeps h).mono rfl
  | droppedDatagram cause => exact (execDroppedDatagram_keeps (y1 := cause) h).mono rfl
  | unknownOpRequest => exact (execUnknownOpRequest_keeps h).mono rfl

/-- No command takes from the queue or adds to it. -/
theorem pending_notMem_mayChange (i : Instr) : .pending ∉ mayChange i := by
  cases i with simp only [mayChange]
  | _ => decide

/-! ## Every command answers -/

/-- The answer owed to a command that names the unit `u`: the fault noSuchUnit where the module lacks it, and a next
state otherwise. -/
def Answers (u : Option (Bool × String × Nat)) (r : Result) : Prop :=
  match u with
  | some (false, kind, n) => r = .fault (.noSuchUnit kind n)
  | _ => ∃ t, r = .next t

theorem answers_next (t : State) : Answers none (.next t) := ⟨t, rfl⟩

theorem answers_atUnit (ok : Bool) (kind : String) (n : Nat) (t : State) :
    Answers (some (ok, kind, n)) (atUnit ok kind n t) := by
  cases ok with
  | false => exact rfl
  | true => exact ⟨t, rfl⟩

/-- A number that is looked at before the unit itself. -/
theorem answers_ite {c : Prop} [Decidable c] {u : Bool × String × Nat} {r : Result} (kind : String) (n : Nat)
    (h : Answers (some u) r) :
    Answers (some (if c then u else (false, kind, n))) (if c then r else .fault (.noSuchUnit kind n)) := by
  split
  · exact h
  · exact rfl

theorem exec_answers (i : Instr) (s : State) : Answers (namedUnit s i) (exec i s) := by
  cases i with
  | calibrateAll | precisionClear | lapStatisticsClear | endSession | weightUnload | releaseHost | portRetrain
  | jobSynchronizationMessage | jobFaultMessage | alignmentMessage | rackMark | marker | heartbeat | heartbeatSend
  | shadowAck | attachFrame | detachFrame | reservedFrameCode | busPathDown | shadowMessage | heartbeatTimeout
  | takeoverWaitExpiry | attach | detach | drain | connectorCheck | currentReport | creditRefill | governorStep
  | governorRaise | powerFail | resetRelease | sensorRead | coolantCheck | coolantStateFall | meshLock | lockTimeout
  | meshBringUpTimeout | referenceAbsent | referenceRestored | slewComplete | moduleReset | mrstNInput | mrstNStuck
  | watchdog | resetWipeComplete | partitionReset | stackRetrain | linkRetrain | mpHeartbeatTimeout | mpSelfCheckFail
  | ilkCoolNInput | ilkStopNInput | interlockRelease | ilkCoolNStuck | chatterClear | eventRecord | gapTimeout
  | recorderClear | flushNow | flushComplete | suppressWindowEnd | attest | lcChallenge | lcRequest | fwImage
  | fwActivate | advanceSecurityVersion | handshakeOrder1 | handshakeOrder3 | handshakeTimeout | read | write | stage
  | commit | prepareComplete | prepareTimeout | abort | segmentRead | segmentWrite | segmentAbandon | subscribe
  | notify | swiuthClose | idleTimeout | pcieRetrain | load | unloadDrain | unloadNow | clearBlockEntry
  | managementSessionExpiry | reportFreezeExpiry | droppedDatagram | unknownOpRequest =>
    exact answers_next _
  | nop | desc | hurdleArriveWait | hurdleArrive | hurdleWait | fence | bankPowerOff | bankPowerOn | mma | arrMvm
  | arrWrite | attnFull | attnPartial | attnMerge | copy | add | sub | mul | fma | max | min | scale | exp | recip
  | rsqrt | silu | gelu | sigmoid | tanh | sum | maxr | sumsq | rmsnorm | layernorm | softmax | rope | quant | dequant
  | topk | outlier | check | guardCheck | dmaCopyStackToScratch | dmaCopyScratchToStack | dmaCopyScratchToCore
  | dmaCopyEdgeToScratch | dmaCopyScratchToEdge | dmaWait | cgather | cinval | engineCommandComplete
  | dmaTransferComplete | lateWrite | cacheFill | hurdleClear | hurdleTimeout | baton | tokenRecordRelease
  | completionPost | sampling | ringContextWrite | ringEnable | ringDisable | submissionDoorbell | completionDoorbell
  | tokenRingDoorbell | bitmapDoorbell | submissionEntryFetch | sessionOpen | promptAppend | generate | fork
  | cancel | close | kvEvict | kvRestore | weightStage | weightFlip | barrier | abortWave | abortWaveAcknowledged
  | bitmapSlotRead | kvEvictTransferComplete | kvRestoreTransferComplete | stageHeaderRead | signatureVerified
  | weightChunkRead | relayTimeout | flipPrepareComplete | flipGapComplete | setWipeComplete | pieceRefetchComplete
  | linkFailure | routerFailure | trainingComplete | trainingAttemptTimeout | laneFailure | neighbourDark
  | fabricWriteArrival | mirrorAck | abortFrame | abortDone | handover | flipFrame | mirrorEntry | mirrorVerdict
  | mirrorAckTimeout | fnInput | fnStuck | prChange | setPointStep | converterFailure | phaseFailure | targetStep
  | shortDeclared | blockDrainComplete | idleOff | wakeComplete | sensorSuspect | levelRise | levelFall | heatOff
  | heatReturn | hardwareTrip | oscillatorUnlock | partitionFault | partitionWipeComplete | stackErrorRate
  | stackRetrainComplete | linkRetryRate | linkRetrainComplete | mailboxRequest | rspAck | perstInput
  | linkDownTimeout | flr | pcieLinkUp | correctableThreshold | pcieRetrainComplete | loadComplete | coalesceTimeout
  | dataLinkDown | perstDeassertion | streamedCommandArrival | hostReadComplete =>
    exact answers_atUnit _ _ _ _
  | bankPowerUpComplete | bankSwitchOff | rangeMonitorWindowEnd | fullScaleWindowEnd | calIntervalExpiry
  | calibrationComplete | rewriteComplete | relayHeader | relayChunk | configurationRequest =>
    exact answers_ite _ _ (answers_atUnit _ _ _ _)

/-- Settles O57: the answer of each command, and what it keeps. -/
theorem everyCommand : Obligations.EveryCommand := by
  intro i s
  have changes {t : State} (ht : exec i s = .next t) :
      ∃ t, exec i s = .next t ∧ onlyChanges (mayChange i) s t ∧ t.pending = s.pending :=
    have frame := (exec_keeps ht).onlyChanges
    ⟨t, ht, frame, frame .pending (pending_notMem_mayChange i)⟩
  have answers := exec_answers i s
  generalize namedUnit s i = u at answers
  match u with
  | some (false, _, _) => exact answers
  | some (true, _, _) | none => obtain ⟨_, ht⟩ := answers; exact changes ht

/-! ## The canonical form -/

/-- Settles O60: a step on an empty queue keeps the state, and every command keeps the canonical form. -/
theorem stepKeepsCanonical : Obligations.StepKeepsCanonical := by
  intro s t hs ht
  unfold step at ht
  split at ht
  next => cases ht; exact hs
  next rest _ => exact (exec_keeps ht).canon ((keeps_pending s rest).canon hs)

end Sys2Proof.Machine
end

section
/-! Records, completions and samples: what TOKEN_RECORD_RELEASE, COMPLETION_POST and SAMPLING do to the session and the
ring they name (R38, R241, R245, R247, R264). -/

namespace Sys2Proof.Machine

/-! ## Counters -/

theorem odGet_bump (s : State) (k n j : Nat) :
    odGet (bump s k n) j = if j = k then Nat.min (odGet s k + n) (objTop k) else odGet s j := odGet_odSet ..

theorem odGet_odMax (s : State) (k v j : Nat) :
    odGet (odMax s k v) j = if j = k then Nat.min (Nat.max (odGet s k) v) (objTop k) else odGet s j := odGet_odSet ..

theorem odGet_odPut (s : State) (k v j : Nat) :
    odGet (odPut s k v) j = if j = k then Nat.min v (objTop k) else odGet s j := odGet_odSet ..

/-- An event that reaches the recorder moves no object but the recorder's own two counters. -/
theorem odGet_recordEvent {s : State} {e : Event} {k : Nat} (h : k / 256 ≠ 0xB000) :
    odGet (recordEvent s e) k = odGet s k := by
  have h1 : k ≠ K.recSuppressed := by rintro rfl; exact h rfl
  have h2 : k ≠ K.recEventsDropped := by rintro rfl; exact h rfl
  unfold recordEvent
  dsimp only
  split
  · rfl
  split
  · rw [odGet_bump, if_neg h1]; rfl
  split
  · rw [odGet_bump, if_neg h2]
  · rfl

/-! ## TOKEN_RECORD_RELEASE -/

/-- The judging of an interval moves counters of the class alone, so that the pair's state stays (R258). -/
theorem odGet_judgeInterval_pairState (s : State) (sess ns replays cadence : Nat) :
    odGet (judgeInterval s sess ns replays cadence) K.pairPairState = odGet s K.pairPairState := by
  have hmax (p : Nat) : K.pairPairState ≠ K.strClass0MaxInterval p := by
    unfold K.pairPairState K.strClass0MaxInterval
    omega
  have hexc (p : Nat) : K.pairPairState ≠ K.strClass0Excused p := by unfold K.pairPairState K.strClass0Excused; omega
  have hover (p : Nat) : K.pairPairState ≠ K.strClass0Overruns p := by
    unfold K.pairPairState K.strClass0Overruns
    omega
  unfold judgeInterval
  dsimp only
  split
  · rw [odGet_odMax, if_neg (hmax _)]
  · rw [odGet_recordEvent (by decide), odGet_bump, if_neg, odGet_odMax, if_neg (hmax _)]
    split
    · exact hexc _
    · exact hover _

theorem mirroredRing_congr {s t : State} (ho : odGet t K.pairPairState = odGet s K.pairPairState) (hd : t.dom = s.dom)
    (r : Nat) : mirroredRing t r = mirroredRing s r := by
  unfold mirroredRing pairState domBit domGet
  rw [ho, hd]

theorem hostOut_eq_emit {s : State} {mirrored : Bool} (h : (mirrored && s.pair.fence) = false) (port addr : Nat)
    (data : List Byte) : hostOut s mirrored port addr data = emit s (.hostWrite port addr data) := by
  unfold hostOut
  rw [h]
  rfl

/-- What is left of the state when an interval has been judged or not. -/
theorem judged_frame (s : State) (sess ns replays cadence : Nat) (c : Prop) [Decidable c] :
    let t := if c then judgeInterval s sess ns replays cadence else s
    t.out = s.out ∧ t.pair = s.pair ∧ ∀ r, mirroredRing t r = mirroredRing s r := by
  dsimp only
  split
  · have h := judgeInterval_keeps (s := s) (sess := sess) (ns := ns) (replays := replays) (cadence := cadence)
    exact ⟨h.same .out rfl, h.same .pair rfl,
      mirroredRing_congr (odGet_judgeInterval_pairState ..) (h.same .dom rfl)⟩
  · exact ⟨rfl, rfl, fun _ => rfl⟩

/-- The oldest record of a session is written in one write and leaves the session's list (R241, R247). -/
theorem effRelease_writes {s : State} {sess ns replays cadence : Nat} {r : TokRec} {rest : List TokRec}
    (hr : (sessOf s sess).records = r :: rest) (hm : r.mirror = false) (hp : portHeld s (sessOf s sess).port = false)
    (hf : (mirroredRing s (sessOf s sess).openRing && (sessOf s sess).mirrored && s.pair.fence) = false) :
    let x := sessOf s sess
    let t := effRelease s sess ns replays cadence
    t.out = s.out ++ [.hostWrite x.port (x.tokenBase + 16 * (x.tokW % 2 ^ x.tokenLog2)) (tokenBytes x x.tokW r)] ∧
      (sessOf t sess).records = rest ∧ (sessOf t sess).tokW = x.tokW + 1 := by
  obtain ⟨hout, hpair, hring⟩ := judged_frame s sess ns replays cadence
    ((sessOf s sess).cls = 0 ∧ (sessOf s sess).timing)
  unfold effRelease
  simp only [hr, hm, hp, Bool.false_eq_true, or_self, if_false]
  rw [hostOut_eq_emit (by rw [hring, hpair]; exact hf)]
  simp [hout]

/-! ## COMPLETION_POST -/

theorem clearSession_out (s : State) (sess : Nat) : (clearSession s sess).out = s.out :=
  clearSession_keeps.same .out rfl

theorem compOf_clearSession (s : State) (sess ring : Nat) : compOf (clearSession s sess) ring = compOf s ring :=
  congrArg (fun m => kvGet ({} : CompRing) m ring) (clearSession_keeps.same .compRings rfl)

/-- An interrupt is one message at most; the ring's completions stay. -/
theorem interrupt_sends (s : State) (ring : Nat) :
    (∃ more, (interrupt s ring).out = s.out ++ more ∧ more.length ≤ 1) ∧
      (compOf (interrupt s ring) ring).ready = (compOf s ring).ready ∧
      (compOf (interrupt s ring) ring).written = (compOf s ring).written := by
  unfold interrupt
  dsimp only
  split
  · exact ⟨⟨_, rfl, Nat.le_refl 1⟩, by simp⟩
  · exact ⟨⟨[], by simp⟩, by simp⟩

/-- What follows the write of a completion: an interrupt at most, and the end of the session's context. -/
theorem afterPost_sends (s : State) (ring : Nat) (c : Compl) :
    (∃ more, (afterPost s ring c).out = s.out ++ more ∧ more.length ≤ 1) ∧
      (compOf (afterPost s ring c) ring).ready = (compOf s ring).ready ∧
      (compOf (afterPost s ring c) ring).written = (compOf s ring).written := by
  have signalled (b : Prop) [Decidable b] :
      let t := if b then interrupt s ring else s
      (∃ more, t.out = s.out ++ more ∧ more.length ≤ 1) ∧ (compOf t ring).ready = (compOf s ring).ready ∧
        (compOf t ring).written = (compOf s ring).written := by
    dsimp only
    split
    · exact interrupt_sends s ring
    · exact ⟨⟨[], by simp⟩, rfl, rfl⟩
  unfold afterPost
  dsimp only
  split
  · rw [clearSession_out, compOf_clearSession]
    exact signalled _
  · exact signalled _

/-- The oldest completion of a ring that may post it is written at the ring's write position, with its phase (R241,
R245). -/
theorem effPost_writes {s : State} {ring : Nat} {c : Compl} {rest : List Compl}
    (hr : (compOf s ring).ready = c :: rest) (hroom : compFull (compOf s ring) = false) (hrec : recordsOut s c = true)
    (hord : inOrder s ring c = true) (hport : portHeld s ((fnOfComp s ring).getD 0 / 64) = false)
    (hmir : mirroredRing s c.sq = false) :
    let q := compOf s ring
    let size := 2 ^ q.sizeLog2
    let t := effPost s ring
    (∃ more, t.out = s.out ++ .hostWrite ((fnOfComp s ring).getD 0 / 64) (q.base + 32 * (q.written % size))
        (complBytes c (phaseOf q.written size)) :: more ∧ more.length ≤ 1) ∧
      (compOf t ring).ready = rest ∧ (compOf t ring).written = q.written + 1 := by
  unfold effPost
  simp only [hr, hroom, hrec, hord, hport, hmir, Bool.not_true, Bool.false_eq_true, or_self, if_false, false_and]
  rw [hostOut_eq_emit (Bool.false_and _)]
  obtain ⟨⟨more, hout, hlen⟩, hready, hwritten⟩ := afterPost_sends (setComp (emit s _) ring _) ring c
  exact ⟨⟨more, by rw [hout]; simp, hlen⟩, hready.trans (by simp), hwritten.trans (by simp)⟩

/-! ## SAMPLING -/

/-- The counters of a sampled position (R264, R266). -/
def countSample (s : State) (o : SampleOut) : State :=
  let s := if o.nans = 0 then s else bump s K.numNonfiniteConversions o.nans
  if o.noAllowed then bump s K.sessNoAllowedToken else s

theorem countSample_keeps {s : State} {o : SampleOut} : Keeps 1 s (countSample s o) := by
  unfold countSample
  dsimp only
  have counted : Keeps 1 s (if o.nans = 0 then s else bump s K.numNonfiniteConversions o.nans) :=
    keeps_ite id .rfl bump_keeps
  exact keeps_ite id (counted.step bump_keeps rfl) counted

theorem countSamples_keeps {s : State} (l : List SampleOut) : Keeps 1 s (l.foldl countSample s) :=
  keeps_foldl id countSample l .rfl fun _ _ h => h.step countSample_keeps rfl

/-- Counting sampled positions leaves every object but the two counters. -/
theorem odGet_countSamples {s : State} (l : List SampleOut) {k : Nat} (h1 : k ≠ K.numNonfiniteConversions)
    (h2 : k ≠ K.sessNoAllowedToken) : odGet (l.foldl countSample s) k = odGet s k := by
  induction l generalizing s with
  | nil => rfl
  | cons o l ih =>
    rw [List.foldl_cons, ih]
    unfold countSample
    dsimp only
    split <;> split <;> simp [odGet_bump, h1, h2]

/-- A lane's SAMPLING that takes effect: the session's lane samples, in a lap, and every sampled position has its
logits (R38, R264). -/
structure Samples (s : State) (sess i : Nat) (l : Lane) (g : SessCmd) (samples : List SampleIn) : Prop where
  lane : laneWith s (sessOf s sess).part sess = some (i, l)
  running : (sessOf s sess).running = some g
  wanted : l.samples = true
  inLap : (partOf s (sessOf s sess).part).inLap = true
  active : (sessOf s sess).state = .active
  own : (sessOf s sess).shadow = false
  kept : sess ∉ (partOf s (sessOf s sess).part).cutSessions
  count : samples.length = (if l.kind = .prefill then 0 else (sessOf s sess).drafts.length) + 1

/-- What the sampled positions of a lane yield (R264). -/
def sampleOuts (s : State) (sess : Nat) (l : Lane) (g : SessCmd) (samples : List SampleIn) : List SampleOut :=
  samples.zipIdx.map (fun e => sampleOne (sampleEnv (sessOf s sess) g
    (l.p0 + (if l.kind = .prefill then l.block else 1))
    (if l.kind = .prefill then 0 else (sessOf s sess).drafts.length) e.2) (s.free + e.2) e.1.logits)

/-- The state in which the session takes its samples: they are counted, and a parity error asks for replay (R267). -/
def afterSamples (s : State) (p : Nat) (outs : List SampleOut) (n : Nat) (parity : Bool) : State :=
  let u := outs.foldl countSample { s with free := s.free + n }
  if parity then updPart u p (fun y => { y with sampleReplay := true }) else u

theorem effSampling_eq {s : State} {sess i : Nat} {l : Lane} {g : SessCmd} {samples : List SampleIn}
    (h : Samples s sess i l g samples) (drafts : List Nat) (parity : Bool) :
    effSampling s sess samples drafts parity =
      let outs := sampleOuts s sess l g samples
      let u := afterSamples s (sessOf s sess).part outs samples.length parity
      updSess u sess (fun y => { y with
        sampled := outs.map (·.sample)
        nextDrafts := drafts.take (odGet u (K.strMaxDraft (sessOf s sess).part)) }) := by
  obtain ⟨hlane, hrun, hwanted, hlap, hact, hown, hkept, hcount⟩ := h
  unfold effSampling
  simp only [hlane, hrun]
  rw [if_neg (by simp [hwanted, hlap, hact, hown, hkept, hcount])]
  rfl

theorem afterSamples_free (s : State) (p : Nat) (outs : List SampleOut) (n : Nat) (parity : Bool) :
    (afterSamples s p outs n parity).free = s.free + n := by
  have h : (outs.foldl countSample { s with free := s.free + n }).free = s.free + n :=
    (countSamples_keeps outs).same .free rfl
  unfold afterSamples
  split
  · exact h
  · exact h

theorem odGet_afterSamples_maxDraft (s : State) (p q : Nat) (outs : List SampleOut) (n : Nat) (parity : Bool) :
    odGet (afterSamples s p outs n parity) (K.strMaxDraft q) = odGet s (K.strMaxDraft q) := by
  have h : odGet (outs.foldl countSample { s with free := s.free + n }) (K.strMaxDraft q) = odGet s (K.strMaxDraft q) :=
    odGet_countSamples outs (by unfold K.strMaxDraft K.numNonfiniteConversions; omega)
      (by unfold K.strMaxDraft K.sessNoAllowedToken; omega)
  unfold afterSamples
  split
  · exact h
  · exact h

/-- Settles O19: a record's release, a completion's post, and a sampling, each by the lemma of its operation. -/
theorem recordsAndPosts : Obligations.RecordsAndPosts := by
  refine ⟨?_, ?_, ?_⟩
  · intro s sess ns replays cadence r rest hsess x hr hm hp hf
    have writes := effRelease_writes (ns := ns) (replays := replays) (cadence := cadence) hr hm hp hf
    exact ⟨_, if_pos (decide_eq_true hsess), writes⟩
  · intro s ring c rest hring q size port hr hroom hrec hord hport hmir
    have room : compFull (compOf s ring) = false := decide_eq_false (Nat.not_le.2 hroom)
    exact ⟨_, if_pos (decide_eq_true hring), effPost_writes hr room hrec hord hport hmir⟩
  · intro s sess samples drafts parity i l g hsess x k hlane hrun hwanted hlap hact hown hkept hcount
    have h : Samples s sess i l g samples := ⟨hlane, hrun, hwanted, hlap, hact, hown, hkept, hcount⟩
    refine ⟨_, if_pos (decide_eq_true hsess), ?_⟩
    rw [effSampling_eq h]
    refine ⟨afterSamples_free .., ?_, ?_, ?_⟩
    · simp [sampleOuts, x, k]
    · simp [odGet_afterSamples_maxDraft, x]
    · rintro rfl
      simp [afterSamples, x]

end Sys2Proof.Machine
end

section
/-! The end of a lap: what a baton and a hurdle timer that runs out leave of their partition, its cores and its counts
(R11, R34, R40, R42, R63). -/

namespace Sys2Proof.Machine

/-! ## Operations that keep most of the state -/

/-- An operation made in turn on the elements of a list. -/
theorem Keeps.foldl {α : Type} {m : Nat} {g : State → α → State} (h : ∀ s a, Keeps m s (g s a)) (l : List α)
    {s : State} : Keeps m s (l.foldl g s) :=
  keeps_foldl (fun s => s) g l .rfl fun x a hx => hx.step (h x a) (Nat.or_self m)

theorem Keeps.partOf {m : Nat} {s t : State} (h : Keeps m s t) (hm : m.testBit 10 = false) (p : Nat) :
    partOf t p = partOf s p := congrArg (fun x => kvGet ({} : Part) x p) (h.same .parts hm)

theorem Keeps.coreOf {m : Nat} {s t : State} (h : Keeps m s t) (hm : m.testBit 5 = false) (i : Nat) :
    coreOf t i = coreOf s i := congrArg (fun x => kvGet ({} : Core) x i) (h.same .cores hm)

theorem Keeps.odGet {m : Nat} {s t : State} (h : Keeps m s t) (hm : m.testBit 0 = false) (k : Nat) :
    odGet t k = odGet s k := congrArg (fun x => kvGet (objDefault k) x k) (h.same .od hm)

/-! ## What a lap's end leaves of its partition -/

/-- A partition without the parts that a boundary of its own lap, or the end of a session, may change before the next
lap begins: what is left is the lap's number and progress, and the shape that the partition was loaded with. -/
def Part.atLap (x : Part) : Part :=
  { x with
    timerHolds := 0, lanes := [], cutSessions := [], checkedLap := false, shares := [], flip := none, lapTimes := []
    lapTime := 0, overrides := [], stamp := 0 }

/-- Partition `p` stands at the same place of the same lap in two states, and every cluster presents the same
cores. -/
structure SameLap (p : Nat) (s t : State) : Prop where
  part : (partOf t p).atLap = (partOf s p).atLap
  presented : ∀ c, (clusterOf t c).presented = (clusterOf s c).presented

section SameLap
variable {p : Nat} {s t u : State}

theorem SameLap.rfl : SameLap p s s := ⟨Eq.refl _, fun _ => Eq.refl _⟩

theorem SameLap.trans (h : SameLap p s t) (k : SameLap p t u) : SameLap p s u :=
  ⟨k.part.trans h.part, fun c => (k.presented c).trans (h.presented c)⟩

/-- The last operation first, as a state is written. -/
theorem SameLap.after (k : SameLap p t u) (h : SameLap p s t) : SameLap p s u := h.trans k

theorem SameLap.of_eq (hp : t.parts = s.parts) (hc : t.clusters = s.clusters) : SameLap p s t :=
  ⟨by unfold partOf; rw [hp], fun c => by unfold clusterOf; rw [hc]⟩

/-- An operation that changes neither partitions nor clusters. -/
theorem Keeps.sameLap {m : Nat} (h : Keeps m s t) (hp : m.testBit 10 = false) (hc : m.testBit 6 = false) :
    SameLap p s t := .of_eq (h.same .parts hp) (h.same .clusters hc)

/-- Whatever `atLap` leaves of a partition is the same. -/
theorem SameLap.same {α : Type} (h : SameLap p s t) (f : Part → α)
    (hf : ∀ x, f x.atLap = f x := by exact fun _ => Eq.refl _) :
    f (partOf t p) = f (partOf s p) := (hf _).symm.trans ((congrArg f h.part).trans (hf _))

theorem SameLap.updPart {q : Nat} {f : Part → Part} (hf : ∀ x, (f x).atLap = x.atLap) :
    SameLap p s (updPart s q f) := by
  refine ⟨?_, fun _ => Eq.refl _⟩
  rw [partOf_updPart]
  split
  next h => rw [h]; exact hf _
  · exact Eq.refl _

theorem SameLap.updCluster {i : Nat} {f : Cluster → Cluster} (hf : ∀ x, (f x).presented = x.presented) :
    SameLap p s (updCluster s i f) := by
  refine ⟨Eq.refl _, fun c => ?_⟩
  rw [clusterOf_updCluster]
  split
  next h => rw [h]; exact hf _
  · exact Eq.refl _

theorem SameLap.ite {c : Prop} [Decidable c] (h : SameLap p s t) (k : SameLap p s u) :
    SameLap p s (if c then t else u) := by
  split
  · exact h
  · exact k

theorem SameLap.foldl {α : Type} {g : State → α → State} (l : List α) (h : ∀ s a, SameLap p s (g s a)) :
    SameLap p s (l.foldl g s) := by
  induction l generalizing s with
  | nil => exact .rfl
  | cons a r ih => exact (h s a).trans ih

theorem SameLap.foldl_snd {α β : Type} {g : β × State → α → β × State} (l : List α) {x : β × State}
    (h : ∀ x a, SameLap p x.2 (g x a).2) : SameLap p x.2 (l.foldl g x).2 := by
  induction l generalizing x with
  | nil => exact .rfl
  | cons a r ih => exact (h x a).trans ih

/-- The state that an operation returns beside a result, once the result has been looked at. -/
theorem SameLap.of_snd {β : Type} {x : β × State} {b : β} (h : SameLap p s x.2) (hx : x = (b, t)) : SameLap p s t := by
  rw [hx] at h
  exact h

end SameLap

/-! ## Pages and leases -/

theorem tlbDropEntry_sameLap {p q key : Nat} {s : State} : SameLap p s (tlbDropEntry s q key) :=
  .foldl _ fun _ _ => .updCluster fun _ => rfl

theorem tlbDropSession_sameLap {p q sess : Nat} {s : State} : SameLap p s (tlbDropSession s q sess) :=
  .foldl _ fun _ _ => .updCluster fun _ => rfl

theorem settlePagesOf_sameLap {p q sess n : Nat} {f : Nat → Bool} {s : State} :
    SameLap p s (settlePagesOf s q sess n f) := by
  refine .foldl _ fun s e => ?_
  refine .ite (.ite ?_ ?_) .rfl
  · exact (bump_keeps.sameLap rfl rfl).after <| tlbDropEntry_sameLap.after <|
      (dropFrame_keeps.sameLap rfl rfl).after <| writeEntry_keeps.sameLap rfl rfl
  · exact tlbDropEntry_sameLap.after <| writeEntry_keeps.sameLap rfl rfl

theorem freeSessionPages_sameLap {p q sess : Nat} {s : State} : SameLap p s (freeSessionPages s q sess) := by
  delta freeSessionPages
  extract_lets leaves tables roots s1 s2 s3
  have h1 : SameLap p s s1 := .foldl _ fun _ _ => .ite (dropFrame_keeps.sameLap rfl rfl) .rfl
  have h2 : SameLap p s1 s2 := .foldl _ fun _ _ => .ite (dropFrame_keeps.sameLap rfl rfl) .rfl
  have h3 : SameLap p s2 s3 := .foldl _ fun _ _ => .ite (dropFrame_keeps.sameLap rfl rfl) .rfl
  exact tlbDropSession_sameLap.after <| (updSess_keeps.sameLap rfl rfl).after <| (h1.trans h2).trans h3

theorem expireLeases_sameLap {p q cl : Nat} {s : State} : SameLap p s (expireLeases s q cl) := by
  delta expireLeases
  extract_lets s1
  have h1 : SameLap p s s1 := .foldl _ fun s l => .foldl _ fun s e => .ite
    (tlbDropEntry_sameLap.after <| (dropFrame_keeps.sameLap rfl rfl).after <| writeEntry_keeps.sameLap rfl rfl) .rfl
  exact h1.trans (.updCluster fun _ => rfl)

theorem expireFenced_sameLap {p q : Nat} {s : State} : SameLap p s (expireFenced s q) :=
  .foldl _ fun _ _ => expireLeases_sameLap

theorem endLeases_sameLap {p q : Nat} {s : State} : SameLap p s (endLeases s q) :=
  .foldl _ fun _ _ => .updCluster fun _ => rfl

/-! ## The ends of sessions -/

theorem cutLane_sameLap {p sess : Nat} {s : State} : SameLap p s (cutLane s sess) := by
  delta cutLane
  exact .ite (.updPart fun _ => rfl) .rfl

theorem retireSession_sameLap {p sess : Nat} {s : State} : SameLap p s (retireSession s sess) := by
  delta retireSession
  extract_lets s1 s2
  have h1 : SameLap p s s1 := cutLane_sameLap.after <| dropReserved_keeps.sameLap rfl rfl
  exact (updSess_keeps.sameLap rfl rfl).after <| (dropChildren_keeps.sameLap rfl rfl).after <|
    freeSessionPages_sameLap.after h1

theorem endSession_sameLap {p sess status : Nat} {byCancel : Bool} {s : State} :
    SameLap p s (endSession s sess status byCancel) := by
  delta endSession
  exact .ite .rfl (retireSession_sameLap.after <| endCompletions_keeps.sameLap rfl rfl)

theorem dropSession_sameLap {p sess : Nat} {s : State} : SameLap p s (dropSession s sess) := by
  delta dropSession
  extract_lets x s1
  have h1 : SameLap p s s1 := freeSessionPages_sameLap.after <| cutLane_sameLap.after <|
    dropReserved_keeps.sameLap rfl rfl
  refine .ite .rfl ?_
  exact (releasePorts_keeps.sameLap rfl rfl).after <| (dropUnowned_keeps.sameLap rfl rfl).after <|
    (setSess_keeps.sameLap rfl rfl).after <| (dropChildren_keeps.sameLap rfl rfl).after h1

theorem endNamed_sameLap {p sess : Nat} {s : State} : SameLap p s (endNamed s sess) := by
  delta endNamed
  extract_lets x
  refine .ite ?_ (.ite (.ite .rfl dropSession_sameLap) ?_)
  · exact .ite .rfl ((setSess_keeps.sameLap rfl rfl).after freeSessionPages_sameLap)
  · split
    · exact endSession_sameLap
    · exact .ite endSession_sameLap .rfl

/-! ## A lane committed -/

theorem settlePages_sameLap {p q sess n : Nat} {s : State} : SameLap p s (settlePages s q sess n) := by
  delta settlePages
  exact settlePagesOf_sameLap

theorem commitPrefill_sameLap {p q : Nat} {l : Lane} {s : State} : SameLap p s (commitPrefill s q l) := by
  delta commitPrefill
  extract_lets sess x first fresh newLen s1 s2 s3 y
  have h2 : SameLap p s s2 := (finishPrompts_keeps.sameLap rfl rfl).after <| settlePages_sameLap.after <|
    updSess_keeps.sameLap rfl rfl
  have h3 : SameLap p s s3 := by
    subst s3
    split
    · exact (endPrompt_keeps.sameLap rfl rfl).after <| (updSess_keeps.sameLap rfl rfl).after h2
    · exact h2
  refine .ite h3 ?_
  split
  · exact h3
  · exact (releaseRun_keeps.sameLap rfl rfl).after h3

theorem commitDecode_sameLap {p q : Nat} {l : Lane} {s : State} : SameLap p s (commitDecode s q l) := by
  delta commitDecode
  extract_lets sess x
  split
  · exact .rfl
  extract_lets run kept s1 s2
  have h1 : SameLap p s s1 := .ite .rfl (keepResiduals_keeps.sameLap rfl rfl)
  have h2 : SameLap p s s2 := (updSess_keeps.sameLap rfl rfl).after h1
  exact (releaseRun_keeps.sameLap rfl rfl).after <| settlePages_sameLap.after h2

theorem commitLane_sameLap {p q : Nat} {l : Lane} {s : State} : SameLap p s (commitLane s q l) := by
  delta commitLane
  exact .ite .rfl (.ite .rfl (.ite commitPrefill_sameLap commitDecode_sameLap))

/-! ## The boundary -/

theorem drawTable_sameLap {p q b cls : Nat} {s : State} : SameLap p s (drawTable s q b cls).2 :=
  drawTable_keeps.sameLap rfl rfl

theorem forkPages_sameLap {p q parent child : Nat} {s : State} : SameLap p s (forkPages s q parent child).2 := by
  delta forkPages
  extract_lets s1 x y
  refine .trans (t := s1) tlbDropSession_sameLap ?_
  refine .foldl_snd (x := (true, s1)) _ fun acc r => ?_
  split
  · exact .rfl
  extract_lets b
  split
  next ht => exact drawTable_sameLap.of_snd ht
  next f s2 ht =>
    extract_lets s3
    have h3 : SameLap p acc.2 s3 := (updSess_keeps.sameLap rfl rfl).after <| drawTable_sameLap.of_snd ht
    refine h3.trans (.foldl_snd (x := (true, s3)) _ fun acc l => ?_)
    split
    · exact .rfl
    extract_lets lb
    split
    next hl => exact drawTable_sameLap.of_snd hl
    next lf s4 hl =>
      extract_lets s5
      have h5 : SameLap p acc.2 s5 := (writeEntry_keeps.sameLap rfl rfl).after <| drawTable_sameLap.of_snd hl
      refine h5.trans (.foldl _ fun s e => .ite ?_ .rfl)
      exact (updFrame_keeps.sameLap rfl rfl).after <| (writeEntry_keeps.sameLap rfl rfl).after <|
        writeEntry_keeps.sameLap rfl rfl

theorem takeFork_sameLap {p q parent : Nat} {c : SessCmd} {s : State} : SameLap p s (takeFork s q parent c) := by
  delta takeFork
  extract_lets child x refuse
  have refused (s : State) (st : Nat) : SameLap p s (refuse s st) :=
    (settleState_keeps.sameLap rfl rfl).after <| (dropCmd_keeps.sameLap rfl rfl).after <|
      (doneCmd_keeps.sameLap rfl rfl).after <| (setSess_keeps.sameLap rfl rfl).after freeSessionPages_sameLap
  refine .ite (refused s _) ?_
  have forked : SameLap p s (forkPages s q parent child).2 := forkPages_sameLap
  split
  next t ht => exact (refused t _).after (forked.of_snd ht)
  next t ht =>
    exact (settleState_keeps.sameLap rfl rfl).after <| (settleState_keeps.sameLap rfl rfl).after <|
      (dropCmd_keeps.sameLap rfl rfl).after <| (complete_keeps.sameLap rfl rfl).after <|
      (updSess_keeps.sameLap rfl rfl).after <| (updSess_keeps.sameLap rfl rfl).after (forked.of_snd ht)

theorem takeClose_sameLap {p sess : Nat} {s : State} : SameLap p s (takeClose s sess) := by
  delta takeClose
  extract_lets x
  split
  · exact .ite ((updSess_keeps.sameLap rfl rfl).after <| retireSession_sameLap.after <| complete_keeps.sameLap rfl rfl)
      .rfl
  · exact .rfl

theorem boundaryCommands_sameLap {p q : Nat} {s : State} : SameLap p s (boundaryCommands s q) := by
  delta boundaryCommands
  extract_lets s1 s2 s3
  have h1 : SameLap p s s1 := .foldl _ fun _ _ => .foldl _ fun _ _ => takeFork_sameLap
  have h2 : SameLap p s1 s2 := .foldl _ fun s i =>
    .ite .rfl (.ite dropSession_sameLap (.ite endSession_sameLap .rfl))
  have h3 : SameLap p s2 s3 := .foldl _ fun _ _ => takeClose_sameLap
  have h4 : SameLap p s3 ((openOf s3 q).foldl takePaging s3) := .foldl _ fun _ _ => takePaging_keeps.sameLap rfl rfl
  exact ((h1.trans h2).trans h3).trans h4

theorem swapFlip_sameLap {p q : Nat} {s : State} : SameLap p s (swapFlip s q) := by
  delta swapFlip
  extract_lets pt
  split
  · exact .rfl
  extract_lets old s1 s2 s3 s4 s5 s6
  have h2 : SameLap p s s2 := .trans (t := s1) (setSlot_keeps.sameLap rfl rfl) (.updPart fun _ => rfl)
  have h3 : SameLap p s2 s3 := .foldl _ fun _ _ => invalidateCache_keeps.sameLap rfl rfl
  have h4 : SameLap p s3 s4 := .foldl _ fun _ _ => updSess_keeps.sameLap rfl rfl
  have h5 : SameLap p s4 s5 := (bump_keeps.sameLap rfl rfl).after <| bump_keeps.sameLap rfl rfl
  have h6 : SameLap p s5 s6 := .ite (twinFlipped_keeps.sameLap rfl rfl) (recheckMap_keeps.sameLap rfl rfl)
  have h : SameLap p s s6 := (((h2.trans h3).trans h4).trans h5).trans h6
  exact .ite .rfl (.ite (h.trans (.foldl _ fun _ _ => endSession_sameLap)) h)

theorem loseMap_sameLap {p : Nat} {l : List Nat} {s : State} : SameLap p s (loseMap s l) := by
  delta loseMap
  extract_lets policy s1
  have h1 : SameLap p s s1 := .foldl _ fun _ _ => .ite endSession_sameLap (updSess_keeps.sameLap rfl rfl)
  exact .ite .rfl ((recordEvent_keeps.sameLap rfl rfl).after <| (bump_keeps.sameLap rfl rfl).after h1)

/-! ## A commit that switches -/

theorem holdTimers_sameLap {p : Nat} {l : List Nat} {up : Bool} {s : State} : SameLap p s (holdTimers s l up) := by
  refine .foldl _ fun s q => ?_
  extract_lets job s1
  have h1 : SameLap p s s1 := .updPart fun _ => rfl
  exact .ite h1 ((emit_keeps.sameLap rfl rfl).after h1)

theorem nextRetrain_sameLap {p die : Nat} {s : State} : SameLap p s (nextRetrain s die) := by
  delta nextRetrain
  split
  · refine .ite .rfl ?_
    delta beginRetrain
    exact holdTimers_sameLap.after <| updBlk_keeps.sameLap rfl rfl
  · exact .rfl

theorem beginLinkRetrain_sameLap {p l : Nat} {s : State} : SameLap p s (beginLinkRetrain s l) := by
  delta beginLinkRetrain
  exact holdTimers_sameLap.after <| (rerouteAll_keeps.sameLap rfl rfl).after <| updLink_keeps.sameLap rfl rfl

theorem releaseRetrains_sameLap {p q : Nat} {s : State} : SameLap p s (releaseRetrains s q) := by
  delta releaseRetrains nextLinks
  exact .after (.foldl _ fun _ _ => .ite .rfl beginLinkRetrain_sameLap) (.foldl _ fun _ _ => nextRetrain_sameLap)

theorem switchValue_sameLap {p q k : Nat} {v : List Byte} {s : State} : SameLap p s (switchValue s q k v) := by
  delta switchValue
  refine .ite .rfl ?_
  split
  next r _ =>
    extract_lets s1
    have h1 : SameLap p s s1 := (setValue_keeps.sameLap rfl rfl).after <| .updPart fun _ => rfl
    exact .ite .rfl (.ite (releaseRetrains_sameLap.after h1) h1)
  · exact .ite (setTargets_keeps.sameLap rfl rfl) (.updPart fun _ => rfl)

theorem settleShared_sameLap {p k : Nat} {v : List Byte} {s : State} : SameLap p s (settleShared s k v) := by
  delta settleShared
  extract_lets s1
  have h1 : SameLap p s s1 := setValue_keeps.sameLap rfl rfl
  exact .ite .rfl (h1.trans (.foldl _ fun _ _ => .updPart fun _ => rfl))

theorem leaveCommit_sameLap {p q : Nat} {c : Commit} {s : State} : SameLap p s (leaveCommit s q c) := by
  delta leaveCommit finishCommit
  extract_lets left s1 s2 s3 s4
  have h1 : SameLap p s s1 := keeps_commits s _ |>.sameLap rfl rfl
  have h2 : SameLap p s1 s2 := keeps_commits s1 _ |>.sameLap rfl rfl
  have h3 : SameLap p s2 s3 := .foldl _ fun _ _ => settleShared_sameLap
  exact .ite ((countSwitching_keeps.sameLap rfl rfl).after <| (noteCommit_keeps.sameLap rfl rfl).after <|
    (bump_keeps.sameLap rfl rfl).after <| (h1.trans h2).trans h3) h1

theorem switchEpoch_sameLap {p q : Nat} {s : State} : SameLap p s (switchEpoch s q) := by
  delta switchEpoch
  split
  · exact .rfl
  refine .ite .rfl ?_
  extract_lets s1
  have h1 : SameLap p s s1 := .foldl _ fun _ _ => switchValue_sameLap
  exact leaveCommit_sameLap.after <| (odSet_keeps.sameLap rfl rfl).after h1

/-! ## The next lap -/

theorem stampWait_sameLap {p q sess : Nat} {s : State} : SameLap p s (stampWait s q sess) := by
  delta stampWait
  exact (updSess_keeps.sameLap rfl rfl).after <| .updPart fun _ => rfl

theorem reshare_sameLap {p q : Nat} {s : State} : SameLap p s (reshare s q) := by
  delta reshare
  split
  · exact .updPart fun _ => rfl
  · exact .rfl

/-- A lane table is built within its lap; of the dictionary it sets two objects of the starter (R259). -/
theorem buildLanes_sets (s : State) (p : Nat) : ∃ u n m, SameLap p s u ∧ u.od = s.od ∧
    buildLanes s p = odSet (odSet u (K.strLanesInUse p) n) (K.strSessionsWaiting p) m := by
  delta buildLanes
  extract_lets old lanes gone s1 checked s2 s3 s4 s5 s6 s7
  have h1 : SameLap p s s1 := .foldl _ fun _ _ => stampWait_sameLap
  have h2 : SameLap p s1 s2 := reshare_sameLap.after <| .updPart fun _ => rfl
  have h3 : SameLap p s2 s3 := .foldl _ fun _ _ => updSess_keeps.sameLap rfl rfl
  have h4 : SameLap p s3 s4 := .foldl _ fun _ _ => prepLane_keeps.sameLap rfl rfl
  have h5 : SameLap p s4 s5 := holdOnly_keeps.sameLap rfl rfl
  have h6 : SameLap p s5 s6 := .foldl _ fun _ _ => askBitmaps_keeps.sameLap rfl rfl
  refine ⟨s6, _, _, h1.trans <| h2.trans <| h3.trans <| h4.trans <| h5.trans h6, ?_, rfl⟩
  have k1 : Keeps 3072 s s1 := .foldl (fun _ _ => stampWait_keeps) _
  have k2 : Keeps 3072 s s2 := (k1.step updPart_keeps rfl).step reshare_keeps rfl
  have k3 : Keeps 3072 s s3 := k2.step (.foldl (fun _ _ => updSess_keeps) _) rfl
  have k4 : Keeps 4294970368 s s4 := (k3.mono rfl).step (.foldl (fun _ _ => prepLane_keeps) _) rfl
  have k5 : Keeps 4294970368 s s5 := k4.step holdOnly_keeps rfl
  have k6 : Keeps 4294970368 s s6 := k5.step (.foldl (fun _ _ => askBitmaps_keeps) _) rfl
  exact k6.same .od rfl

/-- What the shape of a partition and its clusters' cores decide: which cores run its laps (R9, R25). -/
theorem partCores_congr {p : Nat} {s t : State}
    (hx : (partOf t p).ox = (partOf s p).ox) (hy : (partOf t p).oy = (partOf s p).oy)
    (hw : (partOf t p).width = (partOf s p).width) (hh : (partOf t p).height = (partOf s p).height)
    (hg : (partOf t p).program = (partOf s p).program)
    (hc : ∀ c, (clusterOf t c).presented = (clusterOf s c).presented) : partCores t p = partCores s p := by
  simp only [partCores, Part.clusters, coresUsed, hx, hy, hw, hh, hg, hc]

theorem SameLap.partCores {p : Nat} {s t : State} (h : SameLap p s t) : partCores t p = partCores s p :=
  partCores_congr (h.same Part.ox) (h.same Part.oy) (h.same Part.width) (h.same Part.height) (h.same Part.program)
    h.presented

theorem partCores_updPart {p : Nat} {f : Part → Part} {s : State} (hf : ∀ x, ((f x).ox, (f x).oy, (f x).width,
    (f x).height, (f x).program) = (x.ox, x.oy, x.width, x.height, x.program)) :
    partCores (updPart s p f) p = partCores s p := by
  have e : partOf (updPart s p f) p = f (partOf s p) := by rw [partOf_updPart, if_pos rfl]
  have h := hf (partOf s p)
  simp only [Prod.mk.injEq] at h
  obtain ⟨hx, hy, hw, hh, hg⟩ := h
  exact partCores_congr (by rw [e, hx]) (by rw [e, hy]) (by rw [e, hw]) (by rw [e, hh]) (by rw [e, hg]) fun _ => rfl

/-! ## Every core of a list -/

theorem foldl_updCore_keeps {f : Core → Core} {P : Core → Prop} (hf : ∀ c, P c → P (f c)) (l : List Nat) {s : State}
    {i : Nat} (h : P (coreOf s i)) : P (coreOf (l.foldl (fun s c => updCore s c f) s) i) := by
  induction l generalizing s with
  | nil => exact h
  | cons a r ih =>
    refine ih ?_
    rw [coreOf_updCore]
    split
    next e => exact hf _ (e ▸ h)
    · exact h

/-- A change that brings about `P` wherever `Q` holds, made at least once: `P` is reached, and a further change keeps
it. -/
theorem foldl_updCore_reaches {f : Core → Core} {Q P : Core → Prop} (hQP : ∀ c, Q c → P (f c)) (hPQ : ∀ c, P c → Q c)
    {l : List Nat} {s : State} {i : Nat} (h : Q (coreOf s i)) (hi : i ∈ l) :
    P (coreOf (l.foldl (fun s c => updCore s c f) s) i) := by
  induction l generalizing s with
  | nil => cases hi
  | cons a r ih =>
    rw [List.foldl_cons]
    by_cases e : i = a
    · refine foldl_updCore_keeps (fun c hc => hQP c (hPQ c hc)) r ?_
      rw [coreOf_updCore, if_pos e, ← e]
      exact hQP _ h
    · refine ih ?_ ((List.mem_cons.1 hi).resolve_left e)
      rwa [coreOf_updCore, if_neg e]

theorem foldl_updCore_keeps_state (f : Core → Core) (l : List Nat) (s : State) :
    Keeps 32 s (l.foldl (fun s c => updCore s c f) s) := .foldl (fun _ _ => updCore_keeps) l

/-! ## A lap begins -/

/-- A core before the first command of its next lap (R38 order 1). -/
def Core.atStart (c : Core) : Prop :=
  c.pos = 0 ∧ c.segPos = 0 ∧ c.hold = .none ∧ c.replayReq = false ∧ c.aborts = []

/-- The next lap begins in `t` (R38 order 1, R40): its number is the work lap's too, a turn is counted, the partition
waits for hurdle 0, and every core stands at its first command; the dictionary moves in the starter's two figures
alone. -/
structure BeginsLap (p : Nat) (s t : State) : Prop where
  lap : (partOf t p).lap = (partOf s p).lap
  workLap : (partOf t p).workLap = (partOf s p).lap
  turns : (partOf t p).turns = (partOf s p).turns + 1
  rerun : (partOf t p).rerun = false
  replays : (partOf t p).replays = 0
  verdict : (partOf t p).verdict = none
  hurdle : (partOf t p).hurdle = 0
  arrived : (partOf t p).arrived = []
  inLap : (partOf t p).inLap = false
  od : ∀ k, k ≠ K.strLanesInUse p → k ≠ K.strSessionsWaiting p → odGet t k = odGet s k
  cores : ∀ c ∈ partCores s p, (coreOf t c).atStart

theorem nextLap_begins (s : State) (p : Nat) : BeginsLap p s (nextLap s p) := by
  delta nextLap
  extract_lets s1 s2 s3 s4 s5 s6
  have h3 : SameLap p s2 s3 := .foldl _ fun _ _ => updSess_keeps.sameLap rfl rfl
  have k3 : Keeps 2048 s2 s3 := .foldl (fun _ _ => updSess_keeps) _
  obtain ⟨u, n, m, hu, hod, h4 : s4 = _⟩ := buildLanes_sets s3 p
  have k5 : Keeps 2048 s4 s5 := excuseClass0_keeps
  have k6 : Keeps 2048 s4 s6 := k5.step (.foldl (fun _ _ => updSess_keeps) _) rfl
  have h6 : SameLap p s2 s6 := by
    refine .trans ?_ (k6.sameLap rfl rfl)
    rw [h4]
    exact (odSet_keeps.sameLap rfl rfl).after <| (odSet_keeps.sameLap rfl rfl).after <| h3.trans hu
  have c1 : partCores s1 p = partCores s p := partCores_updPart fun _ => rfl
  have c2 : partCores s2 p = partCores s1 p := partCores_updPart fun _ => rfl
  have hcores : partCores s6 p = partCores s p := h6.partCores.trans (c2.trans c1)
  have atStart : ∀ c ∈ partCores s6 p,
      (coreOf ((partCores s6 p).foldl (fun s c => updCore s c newLapCore) s6) c).atStart :=
    fun c hc => foldl_updCore_reaches (Q := fun _ => True) (P := Core.atStart) (fun c _ => ⟨rfl, rfl, rfl, rfl, rfl⟩)
      (fun _ _ => trivial) trivial hc
  have kt := foldl_updCore_keeps_state newLapCore (partCores s6 p) s6
  generalize (partCores s6 p).foldl _ s6 = t at atStart kt
  have ht : SameLap p s2 t := h6.trans (kt.sameLap rfl rfl)
  have h2 : partOf s2 p = _ := partOf_updPart s1 p p _
  rw [if_pos rfl] at h2
  have h1 : partOf s1 p = _ := partOf_updPart s p p _
  rw [if_pos rfl] at h1
  refine ⟨(ht.same Part.lap).trans ?_, (ht.same Part.workLap).trans ?_, (ht.same Part.turns).trans ?_,
    (ht.same Part.rerun).trans ?_, (ht.same Part.replays).trans ?_, (ht.same Part.verdict).trans ?_,
    (ht.same Part.hurdle).trans ?_, (ht.same Part.arrived).trans ?_, (ht.same Part.inLap).trans ?_, ?_, ?_⟩
  iterate 9 rw [h2, h1]
  · intro k hk1 hk2
    have hu : odGet u k = odGet s3 k := congrArg (fun x => kvGet (objDefault k) x k) hod
    rw [kt.odGet rfl, k6.odGet rfl, h4, odGet_odSet, if_neg hk2, odGet_odSet, if_neg hk1, hu, k3.odGet rfl]
    rfl
  · exact hcores ▸ atStart

/-! ## A baton that carries commit or abort -/

/-- The state that a commit or abort baton leaves before the next lap begins (R40): the lanes are committed, the named
sessions end, what waited for the boundary takes effect, and the lap counts. -/
def lapEnd (s : State) (p ns : Nat) (v : Verdict) : State :=
  let pt := partOf s p
  let fenced := fencedSessions s p
  let named := pt.aborts ++ fenced
  let s := fenced.foldl (fun s i => updSess s i (fun x =>
    { x with abortStatus := some (x.abortStatus.getD stPartitionFaulted) })) s
  let mirrored := mirroredOf s p
  let s := if pt.rerun then bump s (K.statReplayTime p) ns else s
  let s := updPart s p (fun x => { x with lapTime := x.lapTime + ns })
  let s := pt.lanes.foldl (fun s e => if named.contains e.2.session then s else commitLane s p e.2) s
  let s := named.foldl endNamed s
  let s := endLeases (expireFenced s p) p
  let s := switchEpoch s p
  let s := contextLimit s p
  let s := swapFlip s p
  let s := boundaryCommands s p
  let s := if mirrored ≠ [] ∧ !(mapValid s p) then loseMap s (mirroredOf s p) else s
  let s := mirrorBaton s p pt.lap v mirrored
  let s := lapStats s p (decide (v = .abort))
  updPart s p (fun x => { x with lap := x.lap + 1 })

theorem batonCommit_eq (s : State) (p ns : Nat) (v : Verdict) :
    batonCommit s p ns v = resumeAll (nextLap (lapEnd s p ns v) p) p := rfl

theorem lapStats_sameLap {p q : Nat} {aborted : Bool} {s : State} : SameLap p s (lapStats s q aborted) := by
  delta lapStats
  extract_lets pt times s1 s2 s3 s4
  have h1 : Keeps 1 s s1 := bump_keeps
  have h4 : Keeps 1 s s4 := ((h1.step odPut_keeps rfl).step odMax_keeps rfl).step odPut_keeps rfl
  exact (h4.sameLap rfl rfl).trans (.updPart fun _ => rfl)

/-- Nothing that a boundary does moves the lap but the last step, which gives the next lap its number (R11). -/
theorem lapEnd_lap (s : State) (p ns : Nat) (v : Verdict) :
    let t := lapEnd s p ns v
    (partOf t p).lap = (partOf s p).lap + 1 ∧ (partOf t p).turns = (partOf s p).turns ∧
      partCores t p = partCores s p := by
  delta lapEnd
  extract_lets pt fenced named s1 mirrored s2 s3 s4 s5 s6 s7 s8 s9 s10 s11 s12 s13 t
  have h1 : SameLap p s s1 := .foldl _ fun _ _ => updSess_keeps.sameLap rfl rfl
  have h2 : SameLap p s1 s2 := .ite (bump_keeps.sameLap rfl rfl) .rfl
  have h3 : SameLap p s2 s3 := .updPart fun _ => rfl
  have h4 : SameLap p s3 s4 := .foldl _ fun _ _ => .ite .rfl commitLane_sameLap
  have h5 : SameLap p s4 s5 := .foldl _ fun _ _ => endNamed_sameLap
  have h6 : SameLap p s5 s6 := endLeases_sameLap.after expireFenced_sameLap
  have h7 : SameLap p s6 s7 := switchEpoch_sameLap
  have h8 : SameLap p s7 s8 := contextLimit_keeps.sameLap rfl rfl
  have h9 : SameLap p s8 s9 := swapFlip_sameLap
  have h10 : SameLap p s9 s10 := boundaryCommands_sameLap
  have h11 : SameLap p s10 s11 := .ite loseMap_sameLap .rfl
  have h12 : SameLap p s11 s12 := mirrorBaton_keeps.sameLap rfl rfl
  have h13 : SameLap p s12 s13 := lapStats_sameLap
  have h : SameLap p s s13 := h1.trans <| h2.trans <| h3.trans <| h4.trans <| h5.trans <| h6.trans <| h7.trans <|
    h8.trans <| h9.trans <| h10.trans <| h11.trans <| h12.trans h13
  have ht : partOf t p = _ := partOf_updPart s13 p p _
  rw [if_pos rfl] at ht
  have hc : partCores t p = partCores s13 p := partCores_updPart fun _ => rfl
  refine ⟨?_, ?_, hc.trans h.partCores⟩
  · rw [ht, ← h.same Part.lap]
  · rw [ht, ← h.same Part.turns]

/-! ## A boundary at which nothing is held -/

/-- A partition that holds no lane, session, lease of a fenced unit, flip or commit. -/
structure HoldsNothing (s : State) (p : Nat) : Prop where
  lanes : (partOf s p).lanes = []
  aborts : (partOf s p).aborts = []
  fenced : fencedSessions s p = []
  sessions : openOf s p = []
  flip : (partOf s p).flip = none
  commits : ∀ c ∈ s.commits, p ∉ c.parts

theorem switchEpoch_of_noCommit {s : State} {p : Nat} (h : ∀ c ∈ s.commits, p ∉ c.parts) : switchEpoch s p = s := by
  have none : s.commits.find? (fun c => c.parts.contains p) = none :=
    List.find?_eq_none.2 fun c hc => by simpa using h c hc
  unfold switchEpoch
  rw [none]

theorem contextLimit_of_noSession {s : State} {p : Nat} (h : openOf s p = []) : contextLimit s p = s := by
  unfold contextLimit
  rw [h]
  rfl

theorem swapFlip_of_noFlip {s : State} {p : Nat} (h : (partOf s p).flip = none) : swapFlip s p = s := by
  unfold swapFlip
  simp only [h]

theorem boundaryCommands_of_noSession {s : State} {p : Nat} (h : openOf s p = []) : boundaryCommands s p = s := by
  have forks : takeForks s p = s := by
    unfold takeForks
    rw [h]
    rfl
  unfold boundaryCommands
  simp only [forks, h, List.foldl_nil]

theorem mirrorBaton_of_noSession (s : State) (p lap : Nat) (v : Verdict) : mirrorBaton s p lap v [] = s := by
  unfold mirrorBaton
  exact if_pos (.inl rfl)

/-- A boundary at which nothing is held counts the lap, and of the dictionary moves nothing before but the time of a
rerun lap (R63). -/
theorem lapEnd_of_holdsNothing {s : State} {p ns : Nat} {v : Verdict} (h : HoldsNothing s p) :
    ∃ w, lapEnd s p ns v = updPart (lapStats w p (decide (v = .abort))) p (fun x => { x with lap := x.lap + 1 }) ∧
      ∀ k, k ≠ K.statReplayTime p → odGet w k = odGet s k := by
  obtain ⟨hlanes, haborts, hfenced, hopen, hflip, hcommits⟩ := h
  have hmirrored : mirroredOf s p = [] := by
    unfold mirroredOf
    rw [hopen]
    rfl
  delta lapEnd
  simp only [hlanes, haborts, hfenced, hmirrored, List.foldl_nil, List.append_nil, ne_eq, not_true_eq_false, false_and,
    if_false]
  generalize hs2 : (if (partOf s p).rerun = true then bump s (K.statReplayTime p) ns else s) = s2
  have k2 : Keeps 1 s s2 := hs2 ▸ keeps_ite id bump_keeps .rfl
  have k6 : Keeps 584 (updPart s2 p fun x => { x with lapTime := x.lapTime + ns })
      (endLeases (expireFenced (updPart s2 p fun x => { x with lapTime := x.lapTime + ns }) p) p) :=
    expireFenced_keeps.step endLeases_keeps rfl
  generalize endLeases (expireFenced (updPart s2 p _) p) p = s6 at k6
  have sessions : s6.sessions = s.sessions := (k6.same .sessions rfl).trans (k2.same .sessions rfl)
  have commits : s6.commits = s.commits := (k6.same .commits rfl).trans (k2.same .commits rfl)
  have hopen6 : openOf s6 p = [] := by
    unfold openOf at hopen ⊢
    rwa [sessions]
  have hflip6 : (partOf s6 p).flip = none := by
    rw [k6.partOf rfl, partOf_updPart, if_pos rfl, k2.partOf rfl]
    exact hflip
  rw [switchEpoch_of_noCommit (commits ▸ hcommits), contextLimit_of_noSession hopen6, swapFlip_of_noFlip hflip6,
    boundaryCommands_of_noSession hopen6, mirrorBaton_of_noSession]
  refine ⟨s6, rfl, fun k hk => ?_⟩
  rw [k6.odGet rfl, odGet_updPart, ← hs2]
  split
  · rw [odGet_bump, if_neg hk]
  · rfl

/-- The count of committed or of aborted laps goes up by one, and the other stays (R63). -/
theorem odGet_lapStats (s : State) (p : Nat) (aborted : Bool) :
    odGet (lapStats s p aborted) (K.statLapsCommitted p) =
        (if aborted then odGet s (K.statLapsCommitted p) else counted s (K.statLapsCommitted p)) ∧
      odGet (lapStats s p aborted) (K.statLapsAborted p) =
        (if aborted then counted s (K.statLapsAborted p) else odGet s (K.statLapsAborted p)) := by
  unfold lapStats
  cases aborted <;> simp [odGet_odPut, odGet_odMax, odGet_bump, counted]

/-- A baton that carries commit or abort, in a partition that runs (R40). -/
theorem effBaton_commit {s : State} {p ns : Nat} {v : Verdict} (hruns : (partOf s p).runs = true)
    (hfault : (partOf s p).fault = none) (hv : (partOf s p).verdict = some v) (hne : v ≠ .replay) :
    effBaton s p ns = resumeAll (nextLap (lapEnd s p ns v) p) p := by
  unfold effBaton
  simp only [hruns, hfault, hv]
  cases v with
  | replay => exact absurd rfl hne
  | commit | abort => exact batonCommit_eq s p ns _

/-! ## The held inputs are written again -/

theorem writeGranule_scratch (s : State) (ci addr : Nat) (bytes : List Byte) :
    (writeGranule s ci addr bytes).scratch = memWriteN s.scratch addr bytes := by
  unfold writeGranule
  dsimp only
  split <;> rfl

/-- What a write of inputs leaves of a core: where its segment begins, and its parity errors. -/
theorem coreOf_writeGranule (s : State) (ci addr : Nat) (bytes : List Byte) (i : Nat) :
    (coreOf (writeGranule s ci addr bytes) i).segPos = (coreOf s i).segPos ∧
      (coreOf (writeGranule s ci addr bytes) i).parityWords = (coreOf s i).parityWords := by
  unfold writeGranule
  dsimp only
  split
  · rw [coreOf_setCore]
    split
    next h => subst h; exact ⟨rfl, rfl⟩
    · exact ⟨rfl, rfl⟩
  · exact ⟨rfl, rfl⟩

theorem writeArea_scratch_congr {s t : State} (h : t.scratch = s.scratch) (ci : Nat) (d : W64) (bytes : List Byte) :
    (writeArea t ci d bytes).scratch = (writeArea s ci d bytes).scratch := by
  unfold writeArea
  generalize (areaAddrs ci d true bytes.length).zip _ = l
  induction l generalizing s t with
  | nil => exact h
  | cons e r ih => exact ih (by rw [writeGranule_scratch, writeGranule_scratch, h])

theorem writeInputs_scratch_congr {s t : State} {p : Nat} (h : t.scratch = s.scratch)
    (hc : (partOf t p).copies = (partOf s p).copies) : (writeInputs t p).scratch = (writeInputs s p).scratch := by
  unfold writeInputs
  rw [hc]
  generalize (partOf s p).copies = l
  clear hc
  induction l generalizing s t with
  | nil => exact h
  | cons e r ih => exact ih (writeArea_scratch_congr h ..)

theorem coreOf_writeInputs (s : State) (p i : Nat) :
    (coreOf (writeInputs s p) i).segPos = (coreOf s i).segPos ∧
      (coreOf (writeInputs s p) i).parityWords = (coreOf s i).parityWords := by
  have area (s : State) (ci : Nat) (d : W64) (bytes : List Byte) :
      (coreOf (writeArea s ci d bytes) i).segPos = (coreOf s i).segPos ∧
        (coreOf (writeArea s ci d bytes) i).parityWords = (coreOf s i).parityWords := by
    unfold writeArea
    generalize (areaAddrs ci d true bytes.length).zip _ = l
    induction l generalizing s with
    | nil => exact ⟨rfl, rfl⟩
    | cons e r ih =>
      have h := coreOf_writeGranule s ci e.1 e.2 i
      exact ⟨(ih _).1.trans h.1, (ih _).2.trans h.2⟩
  unfold writeInputs
  generalize (partOf s p).copies = l
  induction l generalizing s with
  | nil => exact ⟨rfl, rfl⟩
  | cons e r ih =>
    have h := area s e.core e.desc e.bytes
    exact ⟨(ih _).1.trans h.1, (ih _).2.trans h.2⟩

/-! ## A segment runs again -/

theorem partOf_phaseChange (s : State) (p phase : Nat) :
    partOf (phaseChange s p phase) p = { partOf s p with phase } := by
  delta phaseChange
  extract_lets pt s1 s2 s3
  have k1 : Keeps 262144 s s1 := .foldl (fun _ _ => updBlk_keeps) _
  have k2 : Keeps 262208 (updPart s1 p fun x => { x with phase }) s2 := applyVectors_keeps
  have k3 : Keeps 1048640 s2 (pt.dies.foldl noteHeadroom s3) :=
    (Keeps.mono (m := 64) (.foldl (fun _ _ => updCluster_keeps) _) rfl).step
      (.foldl (fun _ _ => noteHeadroom_keeps) _) rfl
  rw [k3.partOf rfl, k2.partOf rfl, partOf_updPart, if_pos rfl, k1.partOf rfl]

/-- A core at the first command of its final segment, of which `g` is the position (R42, R45). -/
def Core.atSegment (g : Nat) (c : Core) : Prop :=
  c.pos = g ∧ c.segPos = g ∧ c.hold = .none ∧ c.waiting = [] ∧ c.parityWords = []

/-- The final segment runs again from the held inputs (R45, R91). -/
theorem restartSegment_restarts {s : State} {p : Nat} (h : ∀ c ∈ partCores s p, (coreOf s c).parityWords = []) :
    let t := restartSegment s p
    (∃ n, partOf t p = { partOf s p with hurdle := (partOf s p).segHurdle, arrived := [], phase := n }) ∧
      t.scratch = (writeInputs s p).scratch ∧ ∀ c ∈ partCores s p, (coreOf t c).atSegment (coreOf s c).segPos := by
  delta restartSegment
  extract_lets s1 hurdle t
  have k0 : Keeps 36 s (writeInputs s p) := writeInputs_keeps
  have k1 : Keeps 32 (writeInputs s p) s1 := foldl_updCore_keeps_state ..
  have kt : Keeps 1311808 s1 t := (Keeps.mono (m := 1024) updPart_keeps rfl).step phaseChange_keeps rfl
  have part1 : partOf s1 p = partOf s p := (k1.partOf rfl p).trans (k0.partOf rfl p)
  refine ⟨⟨hurdle - 1, ?_⟩, ?_, fun c hc => ?_⟩
  · have segHurdle : hurdle = (partOf s p).segHurdle := congrArg Part.segHurdle part1
    rw [partOf_phaseChange, partOf_updPart, if_pos rfl, part1, ← segHurdle]
  · exact (kt.same .scratch rfl).trans (k1.same .scratch rfl)
  · rw [kt.coreOf rfl]
    obtain ⟨seg, parity⟩ := coreOf_writeInputs s p c
    exact foldl_updCore_reaches (f := restartCore) (Q := fun x => x.segPos = (coreOf s c).segPos ∧ x.parityWords = [])
      (P := Core.atSegment (coreOf s c).segPos) (fun x hx => ⟨hx.1, hx.1, rfl, rfl, hx.2⟩)
      (fun x hx => ⟨hx.2.1, hx.2.2.2.2⟩) ⟨seg, parity.trans (h c hc)⟩ hc

/-! ## A baton that carries replay -/

/-- The state that a replay baton leaves before its final segment runs again (R42). -/
def lapReplayed (s : State) (p ns : Nat) : State :=
  let pt := partOf s p
  let s := expireFenced s p
  let s := mirrorBaton s p pt.lap .replay (mirroredOf s p)
  let s := if pt.rerun then bump s (K.statReplayTime p) ns else s
  let s := pt.lanes.foldl (fun s e => updSess s e.2.session (fun x =>
    if x.state = .free then x else { x with sampled := [], nextDrafts := [] })) s
  let s := updPart s p (fun x => { x with
    lap := x.lap + 1, rerun := true, verdict := none, sampleReplay := false, repeating := false
    lapTime := x.lapTime + ns })
  (partCores s p).foldl (fun s c => updCore s c (fun x => { x with parityWords := [] })) s

theorem batonReplay_eq (s : State) (p ns : Nat) :
    batonReplay s p ns = resumeAll (restartSegment (lapReplayed s p ns) p) p := rfl

/-- A replay lap takes the next number, keeps its work lap, and forgets its verdict; scratchpads and the cores' places
stay (R42). -/
theorem lapReplayed_lap (s : State) (p ns : Nat) :
    let t := lapReplayed s p ns
    partOf t p = { partOf s p with
      lap := (partOf s p).lap + 1, rerun := true, verdict := none, sampleReplay := false, repeating := false
      lapTime := (partOf s p).lapTime + ns } ∧
      t.scratch = s.scratch ∧ partCores t p = partCores s p ∧
      ∀ c ∈ partCores s p, (coreOf t c).segPos = (coreOf s c).segPos ∧ (coreOf t c).parityWords = [] := by
  delta lapReplayed
  extract_lets pt s1 s2 s3 s4 s5 t
  have k1 : Keeps 584 s s1 := expireFenced_keeps
  have k2 : Keeps 4294967296 s1 s2 := mirrorBaton_keeps
  have k3 : Keeps 1 s2 s3 := keeps_ite id bump_keeps .rfl
  have k4 : Keeps 2048 s3 s4 := .foldl (fun _ _ => updSess_keeps) _
  have k : Keeps 4294969929 s s4 :=
    (((k1.mono rfl).step k2 rfl).step k3 rfl).step k4 rfl
  have kt : Keeps 32 s5 t := foldl_updCore_keeps_state ..
  have same4 : SameLap p s s4 := expireFenced_sameLap.trans <| (k2.sameLap rfl rfl).trans <|
    (k3.sameLap rfl rfl).trans (k4.sameLap rfl rfl)
  have cores5 : partCores s5 p = partCores s4 p := partCores_updPart fun _ => rfl
  have cores : partCores s5 p = partCores s p := cores5.trans same4.partCores
  refine ⟨?_, ?_, ?_, fun c hc => ?_⟩
  · have part5 : partOf s5 p = _ := partOf_updPart s4 p p _
    rw [if_pos rfl, k.partOf rfl] at part5
    exact (kt.partOf rfl p).trans part5
  · exact (kt.same .scratch rfl).trans (k.same .scratch rfl)
  · exact (SameLap.partCores (kt.sameLap rfl rfl)).trans cores
  · have seg : (coreOf s4 c).segPos = (coreOf s c).segPos := congrArg Core.segPos (k.coreOf rfl c)
    exact foldl_updCore_reaches (f := fun x => { x with parityWords := [] }) (s := s5)
      (Q := fun x => x.segPos = (coreOf s c).segPos)
      (P := fun x => x.segPos = (coreOf s c).segPos ∧ x.parityWords = []) (fun x hx => ⟨hx, rfl⟩) (fun x hx => hx.1)
      seg (cores ▸ hc)

theorem effBaton_replay {s : State} {p ns : Nat} (hruns : (partOf s p).runs = true)
    (hfault : (partOf s p).fault = none) (hv : (partOf s p).verdict = some .replay) :
    effBaton s p ns = resumeAll (restartSegment (lapReplayed s p ns) p) p := by
  unfold effBaton
  simp only [hruns, hfault, hv]
  exact batonReplay_eq s p ns

/-! ## The hurdle timer -/

theorem recordEvent_parts (s : State) (e : Event) : (recordEvent s e).parts = s.parts :=
  recordEvent_keeps.same .parts rfl

theorem runs_not_faulted {x : Part} (h : x.runs = true) : x.state ≠ .faulted := by
  intro hx
  simp [Part.runs, hx] at h

/-- The first fault of a partition that runs is kept, and only that of the partition changes (R401). -/
theorem raiseFault_first {s : State} {p code cluster : Nat} (hruns : (partOf s p).runs = true)
    (hfault : (partOf s p).fault = none) :
    raiseFault s p code cluster = setPart s p { partOf s p with fault := some (code, cluster) } := by
  unfold raiseFault
  simp [hruns, hfault, runs_not_faulted hruns]

/-- A timer that runs out faults the partition at the lowest cluster that has not arrived (R34; log entry 170 where
every local one has). -/
theorem effHurdleTimeout_faults {s : State} {p : Nat} (hruns : (partOf s p).runs = true)
    (hfault : (partOf s p).fault = none) (harrived : (partOf s p).arrived ≠ []) (hholds : (partOf s p).timerHolds = 0)
    (hverdict : (partOf s p).verdict = none) :
    let t := effHurdleTimeout s p
    (partOf t p).fault = some (0x0002, (missingClusters s p).headD ((partOf s p).oy * 24 + (partOf s p).ox)) ∧
      domGet t (K.statMissingMap p) = clusterMap (missingClusters s p) := by
  unfold effHurdleTimeout
  rw [if_neg (by simp [hruns, hfault, harrived, hholds, hverdict])]
  extract_lets low s1 s2 t
  have part : partOf s2 p = partOf s p := by
    unfold partOf
    rw [show s2.parts = s.parts from recordEvent_parts ..]
  have fault : t = setPart s2 p { partOf s2 p with fault := some (0x0002, _) } :=
    raiseFault_first (part ▸ hruns) (part ▸ hfault)
  have cluster : (if missingClusters s p = [] then (partOf s p).oy * 24 + (partOf s p).ox else low) =
      (missingClusters s p).headD ((partOf s p).oy * 24 + (partOf s p).ox) := by
    subst low
    cases missingClusters s p <;> simp
  have map : domGet s2 (K.statMissingMap p) = domGet s1 (K.statMissingMap p) := by
    unfold domGet
    rw [show s2.dom = s1.dom from recordEvent_keeps.same .dom rfl]
  constructor
  · rw [fault, partOf_setPart, if_pos rfl, cluster]
  · rw [fault, domGet_setPart, map, domGet_domSet, if_pos rfl]

/-! ## The three commands -/

/-- The baton's lap figures (R63, R64) are none of those that the next lap's start or a replay's time writes. -/
theorem lapCounts_apart {p k : Nat} (h : k = K.statLapsCommitted p ∨ k = K.statLapsAborted p) :
    k ≠ K.strLanesInUse p ∧ k ≠ K.strSessionsWaiting p ∧ k ≠ K.statReplayTime p := by
  unfold K.statLapsCommitted K.statLapsAborted at h
  unfold K.strLanesInUse K.strSessionsWaiting K.statReplayTime
  omega

theorem counted_congr {s t : State} {k n : Nat} (h : odGet t k = odGet s k) : counted t k n = counted s k n := by
  unfold counted
  rw [h]

theorem exec_baton {s : State} {p : Nat} (tm : BatonTimes) {t : State} (hp : p < 48)
    (h : effBaton s p tm.lapNs = resumeAll t p) : exec (.baton p tm) s = .next (afterBaton s t p) := by
  have at_p : exec (.baton p tm) s = .next (passBaton s p tm) := if_pos (decide_eq_true hp)
  rw [at_p]
  unfold passBaton afterBaton
  rw [h]

/-- A replay baton, before the sequencers take up what waits (R42). -/
theorem replay_restarts (s : State) (p ns : Nat) :
    let t := restartSegment (lapReplayed s p ns) p
    let pt := partOf s p
    (∃ n, partOf t p = { pt with
      lap := pt.lap + 1, rerun := true, verdict := none, sampleReplay := false, repeating := false
      lapTime := pt.lapTime + ns, hurdle := pt.segHurdle, arrived := [], phase := n }) ∧
    t.scratch = (writeInputs s p).scratch ∧
    ∀ c ∈ partCores s p, (coreOf t c).atSegment (coreOf s c).segPos := by
  intro t pt
  obtain ⟨lap, scratch, cores, held⟩ := lapReplayed_lap s p ns
  obtain ⟨⟨n, part⟩, inputs, starts⟩ := restartSegment_restarts (s := lapReplayed s p ns) (p := p)
    fun c hc => (held c (cores ▸ hc)).2
  have held_inputs := writeInputs_scratch_congr (p := p) scratch (by rw [lap])
  refine ⟨⟨n, part.trans (by rw [lap])⟩, inputs.trans held_inputs, fun c hc => ?_⟩
  rw [← (held c hc).1]
  exact starts c (cores.symm ▸ hc)

/-- At a boundary at which nothing is held just the count that the verdict names goes up, by one (R63). -/
theorem lapEnd_counts {s : State} {p ns : Nat} {v : Verdict} (hv : v ≠ .replay) (h : HoldsNothing s p) :
    let t := lapEnd s p ns v
    odGet t (K.statLapsCommitted p) =
        (if v = .commit then counted s (K.statLapsCommitted p) else odGet s (K.statLapsCommitted p)) ∧
      odGet t (K.statLapsAborted p) =
        (if v = .abort then counted s (K.statLapsAborted p) else odGet s (K.statLapsAborted p)) := by
  obtain ⟨w, hw, od⟩ := lapEnd_of_holdsNothing (ns := ns) (v := v) h
  have committed := od _ (lapCounts_apart (.inl rfl)).2.2
  have aborted := od _ (lapCounts_apart (.inr rfl)).2.2
  have counts := odGet_lapStats w p (decide (v = .abort))
  rw [committed, aborted, counted_congr committed, counted_congr aborted] at counts
  intro t
  have figures (k : Nat) : odGet t k = odGet (lapStats w p (decide (v = .abort))) k := by
    rw [show t = _ from hw, odGet_updPart]
  rw [figures, figures]
  cases v with
  | commit => simpa using counts
  | abort => simpa using counts
  | replay => exact absurd rfl hv

/-- Settles O18: a replay baton runs the final segment again from the held inputs, a commit or abort baton begins the
next lap, and a hurdle timer that runs out faults its partition. -/
theorem batonsAndTimeouts : Obligations.BatonsAndTimeouts := by
  refine ⟨fun s p tm hp hruns hfault => ⟨fun hv => ?_, fun v hv hreplay => ?_⟩,
    fun s p hp hruns hfault harrived hholds hverdict =>
      ⟨effHurdleTimeout s p, if_pos (decide_eq_true hp),
        effHurdleTimeout_faults hruns hfault harrived hholds hverdict⟩⟩
  · obtain ⟨⟨n, part⟩, scratch, starts⟩ := replay_restarts s p tm.lapNs
    refine ⟨restartSegment (lapReplayed s p tm.lapNs) p, exec_baton tm hp (effBaton_replay hruns hfault hv), ?_⟩
    rw [part]
    refine ⟨rfl, rfl, rfl, rfl, rfl, rfl, scratch, fun c hc => ?_⟩
    obtain ⟨pos, -, hold, waiting, parity⟩ := starts c hc
    exact ⟨pos, hold, waiting, parity⟩
  · obtain ⟨lap, turns, cores⟩ := lapEnd_lap s p tm.lapNs v
    have begins := nextLap_begins (lapEnd s p tm.lapNs v) p
    refine ⟨nextLap (lapEnd s p tm.lapNs v) p, exec_baton tm hp (effBaton_commit hruns hfault hv hreplay),
      begins.lap.trans lap, begins.workLap.trans lap, begins.turns.trans (congrArg (· + 1) turns), begins.rerun,
      begins.replays, begins.verdict, begins.hurdle, begins.arrived, begins.inLap,
      fun hlanes haborts hfenced hopen hflip hcommits => ?_, fun c hc => begins.cores c (cores.symm ▸ hc)⟩
    obtain ⟨lanes, waiting, -⟩ := lapCounts_apart (p := p) (.inl rfl)
    obtain ⟨lanes', waiting', -⟩ := lapCounts_apart (p := p) (.inr rfl)
    rw [begins.od _ lanes waiting, begins.od _ lanes' waiting']
    exact lapEnd_counts hreplay ⟨hlanes, haborts, hfenced, hopen, hflip, hcommits⟩

end Sys2Proof.Machine
end

section
/-! Writes to command objects: what an accepted one answers, and what it leaves of the state that its action made
(R471, R473, R476, R482). -/

namespace Sys2Proof.Machine

/-! ## A number as bytes -/

theorem length_natLe (v n : Nat) : (natLe v n).length = n := by
  induction n generalizing v with
  | zero => rfl
  | succ n ih => exact congrArg (· + 1) (ih _)

theorem leNat_natLe {v n : Nat} (h : v < 256 ^ n) : leNat (natLe v n) = v := by
  induction n generalizing v with
  | zero => exact (Nat.lt_one_iff.1 h).symm
  | succ n ih =>
    have rest : v / 256 < 256 ^ n := Nat.div_lt_of_lt_mul (by rwa [Nat.pow_succ, Nat.mul_comm] at h)
    rw [natLe, leNat, ih rest, BitVec.toNat_ofNat]
    omega

/-! ## The reply -/

/-- The parts that an answer to a request may change: management sessions, mailboxes and messages. -/
def answerFields : List Field := [.mgmt, .fns, .out]

/-- A session that ends behind its last message takes back nothing that was sent. -/
theorem mem_out_endIfSpent {s : State} {i : Nat} {m : OutMsg} (h : m ∈ s.out) : m ∈ (endIfSpent s i).out := by
  unfold endIfSpent closeMgmt
  split
  · split
    · have kept : (dropMgmt s i).out = s.out := dropMgmt_keeps.same .out rfl
      exact List.mem_append_left _ (kept ▸ h)
    · exact h
  · exact h

theorem mem_out_deliver (s : State) (i : Nat) (m : OutMsg) (w : List Byte) : m ∈ (deliver s i m w).out := by
  have sends : m ∈ (s.out ++ [m]) := List.mem_append_right _ (List.mem_singleton_self m)
  unfold deliver
  dsimp only
  split
  · exact List.mem_append_left _ sends
  · exact sends

theorem mem_out_sendReply {s : State} {i seq : Nat} {r : Reply} (h : (mgmtOf s i).isOpen = true) :
    .swReply i seq r ∈ (sendReply s i seq r).out := by
  unfold sendReply
  rw [h]
  refine mem_out_endIfSpent ?_
  rw [show (freeMailbox _ _).out = _ from freeMailbox_keeps.same .out rfl]
  exact mem_out_deliver ..

theorem isOpen_keepReply (s : State) (i seq : Nat) (r : Reply) :
    (mgmtOf (keepReply s i seq r) i).isOpen = (mgmtOf s i).isOpen := by
  unfold keepReply
  dsimp only
  split
  · rfl
  · rw [mgmtOf_setMgmt, if_pos rfl]

/-- The answer to a request of an open session is sent (R473). -/
theorem mem_out_answer {s : State} {i seq op index sub : Nat} {a : Answer} (h : (mgmtOf s i).isOpen = true) :
    .swReply i seq { op, status := a.status, index, sub, detail := a.detail, data := a.data } ∈
      (answer s i seq op index sub a).out :=
  mem_out_sendReply ((isOpen_keepReply ..).trans h)

/-! ## The state in which a request is executed -/

section Executing
variable {s : State} {rq : Rq}

theorem executing_keeps : Keeps (fieldBits answerFields) s (executing s rq) := setMgmt_keeps.mono rfl

theorem mgmtOf_executing :
    mgmtOf (executing s rq) rq.session = markExecuted (mgmtOf s rq.session) rq.seq := by
  rw [executing, mgmtOf_setMgmt, if_pos rfl]

/-- What a session may reach does not depend on the number of its request (R477). -/
theorem permitted_executing (k : Nat) (w : Wish) :
    permitted (executing s rq) (mgmtOf (executing s rq) rq.session) k w = permitted s (mgmtOf s rq.session) k w := by
  rw [mgmtOf_executing]
  rfl

end Executing

/-! ## A write that is accepted as far as its object goes -/

section Accepts
variable {s : State} {rq : Rq} {k v : Nat}

theorem findObject_of_objOf {o : Obj} (ho : objOf k = some o) (named : k % 256 ≠ 0) :
    findObject (k / 256) (k % 256) = .ok o := by
  have found : objFind (k / 256) (k % 256) = some o := ho
  cases hb : baseIndex (k / 256) with
  | none => simp [objFind, hb] at found
  | some b => simp only [findObject, hb, if_neg named, found]

/-- The checks that every command object shares are passed, and what the object's own action answers stands. -/
theorem runCmd_of_accepts (h : Accepts s rq k v) (act : State → Act) :
    runCmd rq k (valueBytes (cmdWidth k) v) act (executing s rq) =
      match act (executing s rq) with
      | .ok t => (t, some {})
      | .error e => (executing s rq, some { status := e.1, detail := e.2 }) := by
  obtain ⟨-, ready, reached, ⟨o, ho, haccess, hfits, hrange⟩, named⟩ := h
  have width : cmdWidth k = widthOf o.type := by rw [cmdWidth, ho]
  have bytes : valueBytes (cmdWidth k) v = natLe v (cmdWidth k) := if_pos (width ▸ hfits)
  have found := findObject_of_objOf ho named
  have passes : gate (executing s rq) (mgmtOf (executing s rq) rq.session) (k / 256) (k % 256)
      (.write (natLe v (cmdWidth k))) = .ok o := by
    have whole : k / 256 * 256 + k % 256 = k := Nat.div_add_mod' k 256
    have ready' : moduleReady (executing s rq) = true := ready
    rw [gate, found]
    simp only [whole, permitted_executing, reached, ready', Bool.not_true, Bool.false_eq_true, false_and, and_false,
      if_false]
  have status : scalarStatus (executing s rq) o k (natLe v (cmdWidth k)) = 0 := by
    have range : scalarInRange (executing s rq) o k v = true := hrange
    rw [scalarStatus, length_natLe, leNat_natLe (width ▸ hfits), range, width]
    simp
  rw [runCmd, bytes, passes]
  simp only [haccess, status, ne_eq, not_true_eq_false, if_false]
  cases act (executing s rq) <;> rfl

theorem cmdWrite_of_accepts (h : Accepts s rq k v) (act : State → Act) :
    cmdWrite s rq k v act =
      match act (executing s rq) with
      | .ok t => answer t rq.session rq.seq 0x02 (k / 256) (k % 256) {}
      | .error e => answer (executing s rq) rq.session rq.seq 0x02 (k / 256) (k % 256)
          { status := e.1, detail := e.2 } := by
  have run := runCmd_of_accepts h act
  obtain ⟨up, served, isOpen, tag, window, room, rate⟩ := h.executes
  unfold executing at run ⊢
  simp only [cmdWrite, request, up, served, isOpen, tag, window, room, rate, Bool.not_true, Bool.false_eq_true, or_self,
    if_false, if_true, run]
  cases act (setMgmt s rq.session (markExecuted (mgmtOf s rq.session) rq.seq)) <;> rfl

theorem isOpen_executing (h : Accepts s rq k v) : (mgmtOf (executing s rq) rq.session).isOpen = true := by
  rw [mgmtOf_executing]
  exact h.executes.isOpen

/-- An action that is done is answered OK, and the answer changes no more than answers do. -/
theorem cmdWrite_ok {m : Nat} {act : State → Act} {t : State} (h : Accepts s rq k v)
    (done : act (executing s rq) = .ok t) (hk : Keeps m (executing s rq) t) (hm : m.testBit 27 = false) :
    Keeps (fieldBits answerFields) t (cmdWrite s rq k v act) ∧ OkReply (cmdWrite s rq k v act) rq 0x02 k := by
  have same : mgmtOf t rq.session = mgmtOf (executing s rq) rq.session :=
    congrArg (fun x => kvGet ({} : Mgmt) x rq.session) (hk.same .mgmt hm)
  rw [cmdWrite_of_accepts h, done]
  exact ⟨answer_keeps, mem_out_answer (same ▸ isOpen_executing h)⟩

/-- An action that is done, and changes the parts `fs`. -/
theorem cmdWrite_accepted {m : Nat} {fs : List Field} {act : State → Act} {t : State} (h : Accepts s rq k v)
    (done : act (executing s rq) = .ok t) (hk : Keeps m (executing s rq) t) (hm : m.testBit 27 = false)
    (hfs : m ||| fieldBits (fs ++ answerFields) = fieldBits (fs ++ answerFields))
    (hans : fieldBits answerFields ||| fieldBits (fs ++ answerFields) = fieldBits (fs ++ answerFields)) :
    Keeps (fieldBits answerFields) t (cmdWrite s rq k v act) ∧ Accepted s (cmdWrite s rq k v act) rq k fs := by
  obtain ⟨answered, reply⟩ := cmdWrite_ok h done hk hm
  have whole : Keeps (fieldBits (fs ++ answerFields)) s (cmdWrite s rq k v act) :=
    ((executing_keeps.mono hans).step hk hfs).step answered hans
  exact ⟨answered, reply, whole.onlyChanges⟩

/-- An action that its object's own rule refuses: nothing is changed but by the answer. -/
theorem cmdWrite_refused {act : State → Act} (h : Accepts s rq k v) (refused : act (executing s rq) = refuse) :
    Answered s (cmdWrite s rq k v act) rq 0x02 (k / 256) (k % 256) swState [] [] := by
  rw [cmdWrite_of_accepts h, refused]
  have whole : Keeps (fieldBits answerFields) s
      (answer (executing s rq) rq.session rq.seq 0x02 (k / 256) (k % 256) { status := swState, detail := 0 }) :=
    executing_keeps.step answer_keeps rfl
  exact ⟨mem_out_answer (isOpen_executing h), whole.onlyChanges⟩

end Accepts

end Sys2Proof.Machine
end

section
/-! Loading and unloading a partition: the write of 1 to load, LOAD_COMPLETE, the two writes to unload, and the clearing
of a short's entry (R384, R489, R491 to R493, R512). -/

namespace Sys2Proof.Machine

/-! ## What stays of a partition's load -/

/-- A partition as its load placed it, with its state, its lap and its lap's verdict. -/
def Part.asLoaded (x : Part) : Part :=
  { state := x.state, lap := x.lap, verdict := x.verdict, program := x.program, ox := x.ox, oy := x.oy,
    width := x.width, height := x.height }

/-- Partition `p` has the same load, state, lap and verdict in two states. -/
def SameLoad (p : Nat) (s t : State) : Prop := (partOf t p).asLoaded = (partOf s p).asLoaded

section SameLoad
variable {p : Nat} {s t u : State}

theorem SameLoad.rfl : SameLoad p s s := Eq.refl _

theorem SameLoad.trans (h : SameLoad p s t) (k : SameLoad p t u) : SameLoad p s u := Eq.trans k h

/-- The last operation first, as a state is written. -/
theorem SameLoad.after (k : SameLoad p t u) (h : SameLoad p s t) : SameLoad p s u := h.trans k

theorem SameLoad.same {α : Type} (h : SameLoad p s t) (f : Part → α)
    (hf : ∀ x, f x.asLoaded = f x := by exact fun _ => Eq.refl _) : f (partOf t p) = f (partOf s p) :=
  (hf _).symm.trans ((congrArg f h).trans (hf _))

/-- A boundary of a lap, and the end of a session, move nothing of the load. -/
theorem SameLap.sameLoad (h : SameLap p s t) : SameLoad p s t := h.same Part.asLoaded

/-- An operation that changes no partition. -/
theorem Keeps.sameLoad {m : Nat} (h : Keeps m s t) (hp : m.testBit 10 = false) : SameLoad p s t :=
  congrArg Part.asLoaded (h.partOf hp p)

theorem SameLoad.updPart {q : Nat} {f : Part → Part} (hf : ∀ x, (f x).asLoaded = x.asLoaded) :
    SameLoad p s (updPart s q f) := by
  unfold SameLoad
  rw [partOf_updPart]
  split
  next h => rw [h]; exact hf _
  · exact Eq.refl _

theorem SameLoad.ite {c : Prop} [Decidable c] (h : SameLoad p s t) (k : SameLoad p s u) :
    SameLoad p s (if c then t else u) := by
  split
  · exact h
  · exact k

theorem SameLoad.foldl {α : Type} {g : State → α → State} (l : List α) (h : ∀ s a, SameLoad p s (g s a)) :
    SameLoad p s (l.foldl g s) := by
  induction l generalizing s with
  | nil => exact .rfl
  | cons a r ih => exact (h s a).trans ih

theorem SameLoad.foldl_snd {α β : Type} {g : β × State → α → β × State} (l : List α) {x : β × State}
    (h : ∀ x a, SameLoad p x.2 (g x a).2) : SameLoad p x.2 (l.foldl g x).2 := by
  induction l generalizing x with
  | nil => exact .rfl
  | cons a r ih => exact (h x a).trans ih

/-! ## The repairs of a load -/

theorem raiseFault_sameLoad {q code cluster : Nat} : SameLoad p s (raiseFault s q code cluster) := by
  delta raiseFault
  extract_lets pt s1
  have first : SameLoad p s (setPart s q { pt with fault := some (code, cluster) }) :=
    .updPart (f := fun x => { x with fault := some (code, cluster) }) fun _ => rfl
  have later : SameLoad p s s1 := .updPart (f := fun x => { x with laterFaults := x.laterFaults + 1 }) fun _ => rfl
  exact .ite .rfl (.ite first ((recordEvent_keeps.sameLoad rfl).after later))

/-- An array that leaves the lap mask may fault its partition (R125), which moves nothing of the load. -/
theorem arrayLeaves_sameLoad {a : Nat} : SameLoad p s (arrayLeaves s a) := by
  delta arrayLeaves
  split
  · delta arraysLeave
    extract_lets was before s1 s2
    have h1 : SameLoad p s s1 := .foldl _ fun _ _ => updArr_keeps.sameLoad rfl
    have h2 : SameLoad p s s2 := h1.trans (noteChainsOff_keeps.sameLoad rfl)
    exact .ite (raiseFault_sameLoad.after h2) h2
  · exact updArr_keeps.sameLoad rfl

theorem writeFromSource_sameLoad {a : Nat} : SameLoad p s (writeFromSource s a) := by
  delta writeFromSource
  split
  · exact updArr_keeps.sameLoad rfl
  · exact (retireForGood_keeps.sameLoad rfl).after arrayLeaves_sameLoad
  · split
    · exact rewriteArraysOf_keeps.sameLoad rfl
    · exact .rfl
  · exact .rfl

theorem retireArray_sameLoad {a : Nat} : SameLoad p s (retireArray s a) := by
  delta retireArray
  extract_lets ci s1 s2
  have h2 : SameLoad p s s2 := by
    refine SameLoad.trans (t := s1) arrayLeaves_sameLoad ?_
    subst s2
    split
    · exact updArr_keeps.sameLoad rfl
    · exact .rfl
  split
  · extract_lets s3 s4 s5
    have h5 : SameLoad p s s5 := (bump_keeps.sameLoad rfl).after <| (setArr_keeps.sameLoad rfl).after <|
      (addYield_keeps.sameLoad rfl).after h2
    exact .ite (writeFromSource_sameLoad.after h5) h5
  · exact (retireForGood_keeps.sameLoad rfl).after h2

/-- A spare that is bound, or the array's retirement where none is left (R122, R130, R135). -/
theorem spareBound_sameLoad {n a k v : Nat} {f : Arr → Arr} : SameLoad p s
    (if n < 8 then (true, checkSpares (odSet (updArr s a f) k v)) else (false, retireArray s a) : Bool × State).2 := by
  split
  · exact (checkSpares_keeps.sameLoad rfl).after <| (odSet_keeps.sameLoad rfl).after <| updArr_keeps.sameLoad rfl
  · exact retireArray_sameLoad

theorem bindColumn_sameLoad {a col : Nat} : SameLoad p s (bindColumn s a col).2 :=
  spareBound_sameLoad.after (addYield_keeps.sameLoad rfl)

theorem bindRow_sameLoad {a row : Nat} : SameLoad p s (bindRow s a row).2 :=
  spareBound_sameLoad.after (addYield_keeps.sameLoad rfl)

theorem bindAll_sameLoad {a : Nat} {cols rows : List Nat} : SameLoad p s (bindAll s a cols rows).2 := by
  delta bindAll
  extract_lets x
  have columns : SameLoad p s x.2 := .foldl_snd (x := (true, s)) _ fun acc c => by
    split
    · exact bindColumn_sameLoad
    · exact .rfl
  refine columns.trans (.foldl_snd _ fun acc r => ?_)
  split
  · exact bindRow_sameLoad
  · exact .rfl

theorem bindSpares_sameLoad {a : Nat} {cells : List (Nat × Nat)} : SameLoad p s (bindSpares s a cells) := by
  delta bindSpares
  exact bindAll_sameLoad

theorem replaceColumns_sameLoad {a : Nat} {cols : List Nat} : SameLoad p s (replaceColumns s a cols) := by
  delta replaceColumns
  extract_lets x
  have bound : SameLoad p s x.2 := bindAll_sameLoad
  exact .ite bound (.ite (writeFromSource_sameLoad.after bound)
    (bound.trans (.foldl _ fun _ _ => freeColumn_keeps.sameLoad rfl)))

theorem repairLoaded_sameLoad {q : Nat} {x : LoadFaults} : SameLoad p s (repairLoaded s q x) := by
  delta repairLoaded
  extract_lets s1
  have h1 : SameLoad p s s1 := .foldl _ fun _ _ => bindSpares_sameLoad
  exact h1.trans (.foldl _ fun _ _ => .ite .rfl replaceColumns_sameLoad)

/-! ## The steps of a load -/

theorem takeSwitching_sameLoad {q : Nat} : SameLoad p s (takeSwitching s q) :=
  .foldl _ fun _ _ => .foldl _ fun _ _ => .ite (.updPart fun _ => rfl) .rfl

theorem wakeForLoad_sameLoad {b : Nat} : SameLoad p s (wakeForLoad s b) := by
  delta wakeForLoad stackOn triggerRetrain beginRetrain
  extract_lets s1
  have h1 : SameLoad p s (requestWake s1 b) :=
    (requestWake_keeps.sameLoad rfl).after <| updBlk_keeps.sameLoad rfl
  refine .ite (h1.trans ?_) h1
  refine (updBlk_keeps.sameLoad rfl).trans (.ite .rfl (.ite ?_ (.ite (updBlk_keeps.sameLoad rfl) ?_)))
  · exact (recordEvent_keeps.sameLoad rfl).after <| updBlk_keeps.sameLoad rfl
  · exact holdTimers_sameLap.sameLoad.after <| updBlk_keeps.sameLoad rfl

theorem writeProgram_sameLoad {q : Nat} : SameLoad p s (writeProgram s q) := by
  delta writeProgram
  extract_lets pt
  split
  · exact .rfl
  extract_lets s1 cs s2 s3
  have h1 : SameLoad p s s1 := (writeImage_keeps.sameLoad rfl).after (.updPart fun _ => rfl)
  have h2 : SameLoad p s1 s2 := .foldl _ fun _ _ => setupCore_keeps.sameLoad rfl
  have h3 : SameLoad p s2 s3 := .foldl _ fun _ _ => prepareArrays_keeps.sameLoad rfl
  exact ((h1.trans h2).trans h3).trans (.foldl _ fun _ _ => writeArrayImage_keeps.sameLoad rfl)

theorem proceedLoad_sameLoad {q : Nat} : SameLoad p s (proceedLoad s q) := by
  delta proceedLoad
  exact .ite writeProgram_sameLoad .rfl

end SameLoad

/-! ## What a load shows in the dictionary -/

theorem odGet_foldl_odPut {l : List (Nat × Nat)} {s : State} {k : Nat} (h : ∀ e ∈ l, k ≠ e.1) :
    odGet (l.foldl (fun s e => odPut s e.1 e.2) s) k = odGet s k := by
  induction l generalizing s with
  | nil => rfl
  | cons e r ih =>
    rw [List.foldl_cons, ih fun x hx => h x (List.mem_cons_of_mem e hx), odGet_odPut,
      if_neg (h e List.mem_cons_self)]

/-- load_result is none of the figures that a load shows (R493). -/
theorem odGet_showFigures (s : State) (p : Nat) (g : LapProgram) :
    odGet (showFigures s p g) (K.partLoadResult p) = odGet s (K.partLoadResult p) := by
  delta showFigures
  extract_lets pt cores inUse bits long set
  refine odGet_foldl_odPut fun e he => ?_
  simp only [List.mem_cons, List.not_mem_nil, or_false] at he
  rcases he with rfl | rfl | rfl | rfl | rfl | rfl | rfl | rfl | rfl | rfl | rfl | rfl | rfl | rfl | rfl
  all_goals
    simp only [K.partLoadResult, K.partSegmentMax, K.partNominalLapTime, K.partCoreVariants, K.partCacheBanks,
      K.partProgramStreamed, K.partArrayChains, K.partWidenReserve, K.partFlipGap, K.partJobDepth, K.partPowerPeak,
      K.strLanes, K.strPrefillPositionsMax, K.strMaxDraft, K.strShareVariants, K.strVocabulary]
    omega

/-- A stack that is to be trained moves no object but the recorder's counters. -/
theorem odGet_triggerRetrain {s : State} {b k : Nat} (hk : k / 256 ≠ 0xB000) :
    odGet (triggerRetrain s b) k = odGet s k := by
  delta triggerRetrain
  extract_lets x
  split
  · rfl
  split
  · rw [odGet_recordEvent hk, updBlk_keeps.odGet rfl]
  split
  · exact updBlk_keeps.odGet rfl k
  · exact beginRetrain_keeps.odGet rfl k

theorem odGet_wakeForLoad {s : State} {b k : Nat} (hk : k / 256 ≠ 0xB000) : odGet (wakeForLoad s b) k = odGet s k := by
  delta wakeForLoad stackOn
  extract_lets s1
  have h1 : odGet (requestWake s1 b) k = odGet s k :=
    (requestWake_keeps.odGet rfl k).trans (updBlk_keeps.odGet rfl k)
  split
  · exact (odGet_triggerRetrain hk).trans ((updBlk_keeps.odGet rfl k).trans h1)
  · exact h1

theorem odGet_foldl_wakeForLoad {s : State} {k : Nat} (hk : k / 256 ≠ 0xB000) (l : List Nat) :
    odGet (l.foldl wakeForLoad s) k = odGet s k := by
  induction l generalizing s with
  | nil => rfl
  | cons b r ih => rw [List.foldl_cons, ih, odGet_wakeForLoad hk]

theorem odGet_foldl_prepareArrays {s : State} {k : Nat} (hk : k ≠ K.arrFreeArraysBound) (l : List Nat) :
    odGet (l.foldl prepareArrays s) k = odGet s k := by
  induction l generalizing s with
  | nil => rfl
  | cons c r ih =>
    rw [List.foldl_cons, ih]
    unfold prepareArrays
    split
    · rfl
    · dsimp only
      rw [odGet_bump, if_neg hk]
      exact (Keeps.foldl (fun _ _ => updArr_keeps) _).odGet rfl k

/-- What a load writes moves no object but the count of free arrays bound (R137). -/
theorem odGet_writeProgram {s : State} {p k : Nat} (hk : k ≠ K.arrFreeArraysBound) :
    odGet (writeProgram s p) k = odGet s k := by
  delta writeProgram
  extract_lets pt
  split
  · rfl
  extract_lets s1 cs s2 s3
  have h1 : odGet s1 k = odGet s k := (writeImage_keeps.odGet rfl k).trans (updPart_keeps.odGet rfl k)
  have h2 : odGet s2 k = odGet s1 k := (Keeps.foldl (fun _ _ => setupCore_keeps) cs).odGet rfl k
  have h3 : odGet s3 k = odGet s2 k := odGet_foldl_prepareArrays hk cs
  exact ((Keeps.foldl (fun _ _ => writeArrayImage_keeps) _).odGet rfl k).trans (h3.trans (h2.trans h1))

theorem odGet_proceedLoad {s : State} {p k : Nat} (hk : k ≠ K.arrFreeArraysBound) :
    odGet (proceedLoad s p) k = odGet s k := by
  delta proceedLoad
  extract_lets pt
  split
  · exact odGet_writeProgram hk
  · rfl

/-! ## The write of 1 to load -/

/-- Every check has passed: the partition is LOADING with its program and rectangle, load_result reads 0, and no other
partition is touched but for its timer (R492). -/
structure LoadStarts (p : Nat) (g : LapProgram) (s t : State) : Prop where
  placed : (partOf t p).state = .loading ∧ (partOf t p).program = some g ∧ (partOf t p).ox = (placingOf s p).ox ∧
    (partOf t p).oy = (placingOf s p).oy ∧ (partOf t p).width = (placingOf s p).width ∧
    (partOf t p).height = (placingOf s p).height
  result : odGet t (K.partLoadResult p) = 0
  others : ∀ q, q ≠ p → SameLoad q s t

theorem startLoad_starts (s : State) {p : Nat} (g : LapProgram) (hp : p < 48) :
    LoadStarts p g s (startLoad s p g) := by
  delta startLoad
  extract_lets r old s1 s2 s3 s4
  have same (q : Nat) : SameLoad q s2 (proceedLoad (r.blocks.foldl wakeForLoad s4) p) := by
    have h3 : SameLoad q s2 s3 := by
      subst s3
      delta notePrefill
      exact .after (.ite .rfl (recordEvent_keeps.sameLoad rfl)) (showFigures_keeps.sameLoad rfl)
    have h4 : SameLoad q s3 s4 := breakMap_keeps.sameLoad rfl
    exact proceedLoad_sameLoad.after <| .after (.foldl _ fun _ _ => wakeForLoad_sameLoad) (h3.trans h4)
  refine ⟨?_, ?_, fun q hq => ?_⟩
  · have part : partOf s2 p = _ := partOf_setPart ..
    rw [if_pos rfl] at part
    have h := same p
    rw [h.same Part.state, h.same Part.program, h.same Part.ox, h.same Part.oy, h.same Part.width, h.same Part.height,
      part]
    exact ⟨rfl, rfl, rfl, rfl, rfl, rfl⟩
  · have recorder : K.partLoadResult p / 256 ≠ 0xB000 := by unfold K.partLoadResult; omega
    have arrays : K.partLoadResult p ≠ K.arrFreeArraysBound := by
      unfold K.partLoadResult K.arrFreeArraysBound
      omega
    rw [odGet_proceedLoad arrays, odGet_foldl_wakeForLoad recorder, breakMap_keeps.odGet rfl]
    subst s3
    delta notePrefill
    have figures := odGet_showFigures s2 p g
    rw [odGet_setPart, odGet_odSet, if_pos rfl] at figures
    split
    · exact figures
    · rw [odGet_recordEvent recorder, figures]
  · have before : SameLoad q s s2 := by
      unfold SameLoad
      rw [partOf_setPart, if_neg hq]
      rfl
    exact before.trans (same q)

/-- A load that is refused: the partition stays EMPTY, load_result says why, and nothing has been written (R493). -/
structure LoadRefused (p result : Nat) (s t : State) : Prop where
  part : partOf t p = {}
  result : odGet t (K.partLoadResult p) = result
  others : ∀ q, q ≠ p → partOf t q = partOf s q

theorem refuseLoad_refuses (s : State) {p : Nat} (result cluster : Nat) (hp : p < 48) :
    LoadRefused p result s (refuseLoad s p result cluster) := by
  have recorder : K.partLoadResult p / 256 ≠ 0xB000 := by unfold K.partLoadResult; omega
  delta refuseLoad
  extract_lets s1
  refine ⟨?_, ?_, fun q hq => ?_⟩
  · rw [recordEvent_keeps.partOf rfl, partOf_setPart, if_pos rfl]
  · rw [odGet_recordEvent recorder, odGet_setPart, odGet_odSet, if_pos rfl]
  · rw [recordEvent_keeps.partOf rfl, partOf_setPart, if_neg hq, partOf_odSet]

section LoadNow
variable {s : State} {p : Nat} {g : LapProgram}

theorem loadNow_starts (hempty : (partOf s p).state = .empty) (hheld : loadHeld s p = false)
    (hcheck : (loadCheck (resetObjects s p) p g).1 = 0) : loadNow p g s = .ok (startLoad (resetObjects s p) p g) := by
  have held : loadHeld (resetObjects s p) p = false := hheld
  simp only [loadNow, runLoad, hempty, held, hcheck, ne_eq, not_true_eq_false, Bool.false_eq_true, if_false, if_true]

theorem loadNow_refuses (hp : p < 48) (hempty : (partOf s p).state = .empty) (hheld : loadHeld s p = false)
    (hcheck : (loadCheck (resetObjects s p) p g).1 ≠ 0) :
    ∃ t, loadNow p g s = .ok t ∧ LoadRefused p (loadCheck (resetObjects s p) p g).1 s t ∧
      Keeps (fieldBits [.od, .dom, .parts, .recorder]) s t := by
  have held : loadHeld (resetObjects s p) p = false := hheld
  simp only [loadNow, runLoad, hempty, held, hcheck, ne_eq, not_true_eq_false, Bool.false_eq_true, if_false]
  generalize hu : (if g.signatureOk = true then resetObjects s p else bump (resetObjects s p) K.secSignatureFailures) = u
  have hk : Keeps 3 s u := hu ▸ resetObjects_keeps.step (keeps_ite (n := 1) id .rfl bump_keeps) rfl
  obtain ⟨part, result, others⟩ := refuseLoad_refuses u (loadCheck (resetObjects s p) p g).1
    (loadCheck (resetObjects s p) p g).2 hp
  exact ⟨_, rfl, ⟨part, result, fun q hq => (others q hq).trans (hk.partOf rfl q)⟩,
    (hk.mono rfl).step refuseLoad_keeps rfl⟩

theorem loadNow_waits (hempty : (partOf s p).state = .empty) (hheld : loadHeld s p = true) :
    loadNow p g s = .ok (setPart (resetObjects s p) p
      { state := .loading, heldLoad := some g, oldResult := odGet (resetObjects s p) (K.partLoadResult p) }) := by
  have held : loadHeld (resetObjects s p) p = true := hheld
  simp only [loadNow, hempty, held, ne_eq, not_true_eq_false, if_false, if_true]

theorem loadNow_refused (hempty : (partOf s p).state ≠ .empty) : loadNow p g s = refuse := if_pos hempty

end LoadNow

/-! ## LOAD_COMPLETE -/

theorem effLoadComplete_runs {s : State} {p : Nat} (faults : LoadFaults) (hstate : (partOf s p).state = .loading)
    (hwiping : (partOf s p).wiping = false) (hwritten : (partOf s p).written = true) (hup : blocksUp s p = true) :
    (partOf (effLoadComplete s p faults) p).state = .running ∧
      (partOf (effLoadComplete s p faults) p).lap = (partOf s p).lap := by
  delta effLoadComplete
  extract_lets pt s1 s2 s3 s4 plant s5
  have due : ¬ (pt.state ≠ .loading ∨ pt.wiping = true ∨ (!pt.written) = true ∨ (!(blocksUp s p)) = true) := by
    simp [pt, hstate, hwiping, hwritten, hup]
  rw [if_neg due]
  have h2 : SameLoad p s s2 := (odSet_keeps.sameLoad rfl).after <| (odSet_keeps.sameLoad rfl).after <|
    (readyChains_keeps.sameLoad rfl).after repairLoaded_sameLoad
  have runs : partOf s3 p = { partOf s2 p with state := .running } := by rw [partOf_updPart, if_pos rfl]
  have h4 : SameLoad p s3 s4 := (recheckMap_keeps.sameLoad rfl).after takeSwitching_sameLoad
  have h5 : SameLoad p s4 s5 := .ite ((keeps_plant s4 _).sameLoad rfl) .rfl
  obtain ⟨u, n, m, hu, -, lanes⟩ := buildLanes_sets s5 p
  have h : SameLoad p s3 (buildLanes s5 p) := (h4.trans h5).trans (lanes ▸ hu.sameLoad)
  exact ⟨(h.same Part.state).trans (by rw [runs]),
    (h.same Part.lap).trans ((congrArg Part.lap runs).trans (h2.same Part.lap))⟩

theorem effLoadComplete_waits {s : State} {p : Nat} (faults : LoadFaults)
    (h : (partOf s p).state ≠ .loading ∨ (partOf s p).wiping = true ∨ (partOf s p).written = false ∨
      blocksUp s p = false) : effLoadComplete s p faults = s :=
  if_pos (by simpa using h)

theorem exec_loadComplete {s : State} {p : Nat} (faults : LoadFaults) (hp : p < 48) :
    exec (.loadComplete ⟨p, faults⟩) s = .next (effLoadComplete s p faults) := if_pos (decide_eq_true hp)

/-! ## The end of a partition's work -/

section EndPartition
variable {s : State} {p q : Nat}

theorem endFlip_sameLoad {status : Nat} : SameLoad p s (endFlip s q status) := by
  delta endFlip
  split
  · exact .rfl
  extract_lets s1 s2 lap s3
  have h2 : SameLoad p s s2 := .trans (t := s1) (.updPart fun _ => rfl) (odSet_keeps.sameLoad rfl)
  refine (dropUnowned_keeps.sameLoad rfl).after <| h2.trans ?_
  subst s3
  split
  · exact (complete_keeps.sameLoad rfl).after <| recordSet_keeps.sameLoad rfl
  · exact .rfl

theorem leaveCommits_sameLoad : SameLoad p s (leaveCommits s q) := by
  delta leaveCommits
  extract_lets mine s1
  refine .trans (t := s1) (.foldl _ fun s c => ?_) (.updPart fun _ => rfl)
  extract_lets s2 s3
  have h2 : SameLoad p s s2 := .ite (.foldl _ fun _ _ => .ite (setValue_keeps.sameLoad rfl) .rfl) .rfl
  have h3 : SameLoad p s2 s3 := .ite (recordEvent_keeps.sameLoad rfl) .rfl
  exact leaveCommit_sameLap.sameLoad.after (h2.trans h3)

theorem endSessions_sameLoad {status : Nat} : SameLoad p s (endSessions s q status) :=
  .foldl _ fun _ _ => .ite dropSession_sameLap.sameLoad
    (.ite (updSess_keeps.sameLoad rfl) endSession_sameLap.sameLoad)

/-- Once its cores have stopped, the end of a partition's work moves nothing of its load (R402). -/
theorem endPartition_sameLoad {status flipStatus : Nat} :
    SameLoad p (stopPartition s q) (endPartition s q status flipStatus) := by
  delta endPartition
  extract_lets mirrored s1 s2 s3 s4 s5
  have h3 : SameLoad p s1 s3 := leaveCommits_sameLoad.after endFlip_sameLoad
  have h5 : SameLoad p s3 s5 := (mirrorEnds_keeps.sameLoad rfl).after endSessions_sameLoad
  exact (breakMap_keeps.sameLoad rfl).after <| (dropShadows_keeps.sameLoad rfl).after <| h3.trans h5

theorem endPartition_stops {status flipStatus : Nat} :
    (partOf (endPartition s p status flipStatus) p).state = (partOf s p).state ∧
      (partOf (endPartition s p status flipStatus) p).verdict = none := by
  have h : SameLoad p (stopPartition s p) (endPartition s p status flipStatus) := endPartition_sameLoad
  have cores : Keeps 32 s ((partCores s p).foldl (fun s c => updCore s c stopCore) s) := foldl_updCore_keeps_state ..
  have part : partOf (stopPartition s p) p = _ := partOf_updPart _ p p _
  rw [if_pos rfl, cores.partOf rfl] at part
  exact ⟨(h.same Part.state).trans (by rw [part]), (h.same Part.verdict).trans (by rw [part])⟩

end EndPartition

/-! ## Unloading -/

theorem runs_iff (x : Part) : x.runs = true ↔ x.state = .running ∨ x.state = .draining := by simp [Part.runs]

/-- A partition is marked RESETTING, and the other members of its job are told (R300, R391). -/
def announceReset (s : State) (p : Nat) : State :=
  let s := updPart s p (fun x => { x with state := .resetting, fault := none })
  if jobOf s p ≠ 0 then emit s (.jobFault (jobOf s p) 0) else s

theorem announceReset_state {s : State} {p : Nat} : (partOf (announceReset s p) p).state = .resetting := by
  delta announceReset
  extract_lets s1
  have part : partOf s1 p = _ := partOf_updPart s p p _
  rw [if_pos rfl] at part
  have same : SameLoad p s1 (if jobOf s1 p ≠ 0 then emit s1 (.jobFault (jobOf s1 p) 0) else s1) :=
    .ite (emit_keeps.sameLoad rfl) .rfl
  exact (same.same Part.state).trans (by rw [part])

section Unload
variable {s : State} {p : Nat}

theorem drainPartition_of_runs (h : (partOf s p).runs = true) :
    drainPartition p s = .ok (updPart s p (fun x => { x with state := .draining })) := if_pos ((runs_iff _).1 h)

theorem drainPartition_refused (h : (partOf s p).runs = false) : drainPartition p s = refuse :=
  if_neg fun k => Bool.eq_false_iff.1 h ((runs_iff _).2 k)

theorem unloadPartition_of_runs (h : (partOf s p).runs = true) : unloadPartition p s = .ok (resetPartition s p) :=
  if_pos ((runs_iff _).1 h)

theorem unloadPartition_refused (h : (partOf s p).runs = false) : unloadPartition p s = refuse :=
  if_neg fun k => Bool.eq_false_iff.1 h ((runs_iff _).2 k)

/-- The reset of a partition that runs is the end of its work, once it is announced. -/
theorem resetPartition_of_runs (h : (partOf s p).runs = true) :
    resetPartition s p = endPartition (announceReset s p) p stCancelled stCancelled := by
  unfold resetPartition
  dsimp only
  rcases (runs_iff _).1 h with h | h <;> rw [h] <;> rfl

/-- It stops the lap without a verdict, and its wipe is still to come (R391). -/
theorem resetPartition_stops (h : (partOf s p).runs = true) :
    (partOf (resetPartition s p) p).state = .resetting ∧ (partOf (resetPartition s p) p).verdict = none := by
  rw [resetPartition_of_runs h]
  obtain ⟨state, verdict⟩ := endPartition_stops (s := announceReset s p) (p := p) (status := stCancelled)
    (flipStatus := stCancelled)
  exact ⟨state.trans announceReset_state, verdict⟩

end Unload

/-! ## The entry of a short -/

theorem clearShort_of_entry {s : State} {b : Nat} (h : ∃ e ∈ s.yield.entries, shortEntry b e = true) :
    clearShort b s = .ok { s with yield := { s.yield with
      generation := s.yield.generation + 1, entries := s.yield.entries.filter (fun e => !(shortEntry b e)) } } :=
  if_pos (List.any_eq_true.2 h)

theorem clearShort_refused {s : State} {b : Nat} (h : ∀ e ∈ s.yield.entries, shortEntry b e = false) :
    clearShort b s = refuse := if_neg (by simpa using h)

/-! ## The commands -/

section Commands
variable {s : State} {rq : Rq} {p : Nat}

theorem exec_load (g : LapProgram) :
    exec (.load rq p 1 g) s = .next (cmdWrite s rq (K.partLoad p) 1 (loadNow p g)) := rfl

/-- Where a request is executed, and its partition's objects are at their defaults, the partitions are as before. -/
theorem partOf_resetObjects_executing (q : Nat) : partOf (resetObjects (executing s rq) p) q = partOf s q :=
  (resetObjects_keeps.partOf rfl q).trans (executing_keeps.partOf rfl q)

theorem load_starts {g : LapProgram} (hp : p < 48) (h : Accepts s rq (K.partLoad p) 1)
    (hempty : (partOf s p).state = .empty) (hheld : loadHeld s p = false)
    (hcheck : (loadCheck (resetObjects (executing s rq) p) p g).1 = 0) :
    let t := cmdWrite s rq (K.partLoad p) 1 (loadNow p g)
    OkReply t rq 0x02 (K.partLoad p) ∧ LoadStarts p g (resetObjects (executing s rq) p) t := by
  have done := loadNow_starts (s := executing s rq) hempty hheld hcheck
  obtain ⟨answered, reply⟩ := cmdWrite_ok h done (loadNow_keeps done) rfl
  obtain ⟨placed, result, others⟩ := startLoad_starts (resetObjects (executing s rq) p) g hp
  rw [← answered.partOf rfl p] at placed
  exact ⟨reply, placed, (answered.odGet rfl _).trans result,
    fun q hq => (others q hq).trans (answered.sameLoad rfl)⟩

theorem load_refuses {g : LapProgram} (hp : p < 48) (h : Accepts s rq (K.partLoad p) 1)
    (hempty : (partOf s p).state = .empty) (hheld : loadHeld s p = false)
    (hcheck : (loadCheck (resetObjects (executing s rq) p) p g).1 ≠ 0) :
    let t := cmdWrite s rq (K.partLoad p) 1 (loadNow p g)
    OkReply t rq 0x02 (K.partLoad p) ∧
      LoadRefused p (loadCheck (resetObjects (executing s rq) p) p g).1 s t ∧
      t.scratch = s.scratch ∧ t.stack = s.stack := by
  obtain ⟨u, done, ⟨part, result, others⟩, hk⟩ := loadNow_refuses (s := executing s rq) hp hempty hheld hcheck
  obtain ⟨answered, reply⟩ := cmdWrite_ok h done hk rfl
  have whole : Keeps (fieldBits ([.od, .dom, .parts, .recorder] ++ answerFields)) s
      (cmdWrite s rq (K.partLoad p) 1 (loadNow p g)) :=
    ((executing_keeps.mono rfl).step hk rfl).step answered rfl
  exact ⟨reply, ⟨(answered.partOf rfl p).trans part, (answered.odGet rfl _).trans result,
    fun q hq => (answered.partOf rfl q).trans (others q hq)⟩, whole.same .scratch rfl, whole.same .stack rfl⟩

theorem load_waits {g : LapProgram} (h : Accepts s rq (K.partLoad p) 1) (hempty : (partOf s p).state = .empty)
    (hheld : loadHeld s p = true) :
    let t := cmdWrite s rq (K.partLoad p) 1 (loadNow p g)
    Accepted s t rq (K.partLoad p) [.od, .dom, .parts] ∧ (partOf t p).state = .loading ∧
      (partOf t p).heldLoad = some g := by
  have done := loadNow_waits (s := executing s rq) (g := g) hempty hheld
  obtain ⟨answered, accepted⟩ := cmdWrite_accepted (fs := [.od, .dom, .parts]) h done
    ((resetObjects_keeps.mono (n := fieldBits [.od, .dom, .parts]) rfl).step setPart_keeps rfl) rfl rfl rfl
  have part := answered.partOf rfl p
  rw [partOf_setPart, if_pos rfl] at part
  exact ⟨accepted, by rw [part], by rw [part]⟩

theorem unloadDrain_drains (h : Accepts s rq (K.partUnload p) 0) (hruns : (partOf s p).runs = true) :
    let t := cmdWrite s rq (K.partUnload p) 0 (drainPartition p)
    Accepted s t rq (K.partUnload p) [.parts] ∧ partOf t p = { partOf s p with state := .draining } := by
  obtain ⟨answered, accepted⟩ := cmdWrite_accepted (fs := [.parts]) h
    (drainPartition_of_runs (s := executing s rq) hruns) updPart_keeps rfl rfl rfl
  have part := answered.partOf rfl p
  rw [partOf_updPart, if_pos rfl, executing_keeps.partOf rfl] at part
  exact ⟨accepted, part⟩

/-- With no life-cycle transition asked for, none begins behind the write (R450). -/
theorem exec_unloadNow
    (h : (cmdWrite s rq (K.partUnload p) 1 (unloadPartition p)).security.transition = none) :
    exec (.unloadNow rq p) s = .next (cmdWrite s rq (K.partUnload p) 1 (unloadPartition p)) :=
  congrArg Host.Outcome.next (by rw [beginTransition, h])

theorem unloadNow_resets (h : Accepts s rq (K.partUnload p) 1) (hruns : (partOf s p).runs = true) :
    let t := cmdWrite s rq (K.partUnload p) 1 (unloadPartition p)
    OkReply t rq 0x02 (K.partUnload p) ∧ (partOf t p).state = .resetting ∧ (partOf t p).verdict = none ∧
      t.security = s.security := by
  have done := unloadPartition_of_runs (s := executing s rq) hruns
  have hk := unloadPartition_keeps done
  obtain ⟨answered, reply⟩ := cmdWrite_ok h done hk rfl
  have stops := resetPartition_stops (s := executing s rq) hruns
  rw [← answered.partOf rfl p] at stops
  exact ⟨reply, stops.1, stops.2,
    (answered.same .security rfl).trans <| (hk.same .security rfl).trans <| executing_keeps.same .security rfl⟩

theorem clearBlockEntry_clears {b : Nat} (h : Accepts s rq K.diagClearBlockEntry b)
    (hentry : ∃ e ∈ s.yield.entries, shortEntry b e = true) :
    let t := cmdWrite s rq K.diagClearBlockEntry b (clearShort b)
    Accepted s t rq K.diagClearBlockEntry [.yield] ∧ t.yield.generation = s.yield.generation + 1 ∧
      t.yield.entries = s.yield.entries.filter (fun e => !(shortEntry b e)) := by
  obtain ⟨answered, accepted⟩ := cmdWrite_accepted (fs := [.yield]) h
    (clearShort_of_entry (s := executing s rq) hentry) (keeps_yield _ _) rfl rfl rfl
  have entries := answered.same .yield rfl
  exact ⟨accepted, congrArg YieldMap.generation entries, congrArg YieldMap.entries entries⟩

end Commands

/-- Settles O53: what each command answers, and what its action leaves of the partition and its load_result. -/
theorem loading : Obligations.Loading := by
  intro s rq p hp pt fresh refused
  refine ⟨fun g h hempty hheld => ⟨fun hcheck => ?_, fun hcheck => ?_⟩,
    fun g h hempty hheld => ⟨_, exec_load g, load_waits h hempty hheld⟩,
    fun g h hstate => ⟨_, exec_load g, cmdWrite_refused h (loadNow_refused (s := executing s rq) hstate)⟩,
    fun hstate hwiping hwritten hup faults => ?_,
    fun hwait faults => (exec_loadComplete faults hp).trans (congrArg _ (effLoadComplete_waits faults hwait)),
    fun h hruns => ⟨_, rfl, unloadDrain_drains h hruns⟩,
    fun h hruns => ⟨_, rfl, cmdWrite_refused h (drainPartition_refused (s := executing s rq) hruns)⟩,
    fun h htransition hruns => ?_, fun h htransition hruns => ?_,
    fun b h => ⟨fun hentry => ⟨_, rfl, clearBlockEntry_clears h hentry⟩,
      fun hnone => ⟨_, rfl, cmdWrite_refused h (clearShort_refused (s := executing s rq) hnone)⟩⟩⟩
  · obtain ⟨reply, placed, result, others⟩ := load_starts hp h hempty hheld hcheck
    exact ⟨_, exec_load g, reply, placed, result, fun q hq =>
      ((others q hq).same Part.state).trans (congrArg Part.state (partOf_resetObjects_executing q))⟩
  · obtain ⟨reply, ⟨part, result, others⟩, scratch, stack⟩ := load_refuses hp h hempty hheld hcheck
    exact ⟨_, exec_load g, reply, part, result, scratch, stack, others⟩
  · obtain ⟨state, lap⟩ := effLoadComplete_runs faults hstate hwiping hwritten hup
    exact ⟨_, exec_loadComplete faults hp, state, lap, effLoadComplete_keeps.same .scratch rfl,
      effLoadComplete_keeps.same .stack rfl⟩
  · obtain ⟨reply, state, verdict, security⟩ := unloadNow_resets h hruns
    exact ⟨_, exec_unloadNow (security ▸ htransition), reply, state, verdict⟩
  · have answer := cmdWrite_refused h (unloadPartition_refused (s := executing s rq) hruns)
    have security : (cmdWrite s rq (K.partUnload p) 1 (unloadPartition p)).security = s.security :=
      answer.frame .security (by decide)
    exact ⟨_, exec_unloadNow (security ▸ htransition), answer⟩

end Sys2Proof.Machine
end
